-- ==== Sys2Proof/Word.lean ====
section
/-! DEFINITION. The widths of the part's words (00_scope.md, Conventions): byte, 16-bit word, 32-bit field and
48-bit machine time. Their comparisons stand in Machine/Types.lean. -/

namespace Sys2Proof

abbrev Byte := BitVec 8
abbrev Half := BitVec 16
abbrev Word := BitVec 32
/-- Machine time in whole microseconds, wrapping at 2^48. -/
abbrev Time := BitVec 48
/-- An encoder position in counts, wrapping at 2^32. -/
abbrev Position := BitVec 32

end Sys2Proof
end

