-- ==== Sys2Proof/Machine/Types.lean ====
section
/-! DEFINITION. The names that commands and state share: the order kinds of R181 with their parameters, the input
lines of a robot (04_filler_robots.md) and the levels of the input lines as POWER_ON first samples them. -/

namespace Sys2Proof

/-- An order as a cell carries it: the kind of R181 with its parameters at their widths, not yet judged. -/
inductive Order where
  | profileAdopt
  | lineStart
  | lineStop
  | markReject (seq : Word)
  | countersClear
  | timeTrim (ppb : Word)
  | timeStep (offset : Word)
  | robotRun (robot : Byte)
  | robotHalt (robot : Byte)
  | robotClear (robot : Byte)
  | windowSet (robot : Byte) (opening closing : Half)
  | rotationSet (count skip : Byte) (entries : List Byte)
  | cameraService (camera out : Byte)
  | cameraRestore (camera : Byte)
  | verdict (camera verdict : Byte) (seq : Word)
  | ejectTest
  | portAdmit (port opening : Byte)
  | hallHold
  | hallRelease
  | accessRequest (zone level : Byte) (minutes badge : Half)
  | accessExtend (zone : Byte) (minutes : Half)
  | accessEnd (zone : Byte)
  | resumeZone (zone : Byte)
  | outcomeFlush
  | faultUnlock (count : Half)
  deriving DecidableEq, Repr

/-- The five input lines of a robot, in the order of the robot's line table. -/
inductive RobotLine where
  | runAck | haltAck | fault | fillOk | fillShort
  deriving DecidableEq, Repr

/-- The levels of the input lines, after the synchronizer, at the part's first sample after power-on (R142, R144):
one bit per member, member 0 in bit 0. The encoder pair is not among them: its first sample is the first
ENCODER_COUNT (R40). -/
structure Pins where
  link : BitVec 16
  act : BitVec 16
  door : BitVec 8
  req : BitVec 8
  runAck : BitVec 6
  haltAck : BitVec 6
  fault : BitVec 6
  fillOk : BitVec 6
  fillShort : BitVec 6
  pass : BitVec 6
  fail : BitVec 6
  confirm : Bool
  infeed : Bool
  sync : Bool
  lrst : Bool
  deriving DecidableEq, Repr

/-- Every input line low. -/
def Pins.low : Pins :=
  ⟨0, 0, 0, 0, 0, 0, 0, 0, 0, 0, 0, false, false, false, false⟩

/-! Comparisons of times and positions (R5, R22). -/

/-- R5: the stored time `d` is reached at machine time `now`: the signed difference is zero or positive. -/
def Time.reached (d now : Time) : Bool := decide (0 ≤ (now - d).toInt)

/-- R5: `a` is before `b`: the signed difference `b - a` is positive. -/
def Time.before (a b : Time) : Bool := decide (0 < (b - a).toInt)

/-- The later of two times in the signed order of R5. -/
def Time.later (a b : Time) : Time := if a.before b then b else a

/-- The earlier of two times in the signed order of R5. -/
def Time.earlier (a b : Time) : Time := if b.before a then b else a

/-- R22: position `x` is reached at high-water `h`: the signed difference is zero or positive. -/
def Position.reached (x h : Position) : Bool := decide (0 ≤ (h - x).toInt)

/-! What the host bus does with an offset and a register (R173, R174, R195). -/

/-- R174: the watched words: the hand word of each cell, the state word of each directory entry, the seen count of
each bulletin. -/
def watchedOffset (offset : Nat) : Bool :=
  (decide (0x0200 ≤ offset) && decide (offset < 0x0E00) && decide ((offset - 0x0200) % 64 = 0)) ||
  (decide (0x0E40 ≤ offset) && decide (offset < 0x0EC0) && decide ((offset - 0x0E40) % 16 = 0)) ||
  (decide (0x0100 ≤ offset) && decide (offset < 0x01A0) && decide ((offset - 0x0100) % 16 = 2))

/-- R173, R174: the offset of a whole word of the 32 KiB exchange memory. -/
def wordOffset (offset : Nat) : Bool := decide (offset < 0x8000) && decide (offset % 2 = 0)

/-- R195, R196: a register write the part discards whatever its state. -/
def discardedWrite (register : Fin 8) (value : Half) : Bool :=
  decide (register.val ≠ 3) && (decide (register.val ≠ 4) || (decide (value ≠ 1) && decide (value ≠ 2)))

end Sys2Proof
end

