-- ==== Sys2Proof/Syntax.lean ====
section
/-! DEFINITION. The commands of the part: one constructor per row of spec/opcode_table.json.

A line command carries the new level of its line; whether that is an edge is judged against the level State holds. A
deadline command names the member whose deadline it is. An order row carries the cell the order stands in and its
parameters (R181); it is the take of that order by the desk (log 3). -/

namespace Sys2Proof

inductive Instr where
  /-- POWER_ON, R197: the supply is applied; `pins` are the input levels as first sampled. -/
  | powerOn (pins : Pins)
  /-- STARTUP_COMPLETE, R197. -/
  | startupComplete
  /-- MACHINE_TIME_CARRY, R2. -/
  | machineTimeCarry
  /-- TIME_TRIM, R4. -/
  | timeTrim (cell : Fin 48) (ppb : Word)
  /-- TIME_STEP, R6. -/
  | timeStep (cell : Fin 48) (offset : Word)
  /-- SYNC_PULSE, R10: SYNC changes to `level`. -/
  | syncPulse (level : Bool)
  /-- SYNC_LOST, R13. -/
  | syncLost
  /-- TIME_SNAPSHOT_READ, R15. -/
  | timeSnapshotRead
  /-- ENCODER_COUNT, R19: the encoder pair is sampled as (a, b), the infeed sensor at `infeed`. `choices` settles the
  order in which one high-water advance raises its events (R29): each entry picks the next among those open (log 5). -/
  | encoderCount (a b infeed : Bool) (choices : List Nat)
  /-- MARK_TIMEOUT, R31. -/
  | markTimeout
  /-- LINE_START, R26. -/
  | lineStart (cell : Fin 48)
  /-- LINE_STOP, R27. -/
  | lineStop (cell : Fin 48)
  /-- MARK_REJECT, R50. -/
  | markReject (cell : Fin 48) (seq : Word)
  /-- COUNTERS_CLEAR, R59. -/
  | countersClear (cell : Fin 48)
  /-- ROBOT_RUN, R65. -/
  | robotRun (cell : Fin 48) (robot : Byte)
  /-- ROBOT_HALT, R67. -/
  | robotHalt (cell : Fin 48) (robot : Byte)
  /-- RUN_ACK, R66: RUN_ACK of the robot changes to `level`. -/
  | runAck (robot : Fin 6) (level : Bool)
  /-- HALT_ACK, R69: HALT_ACK of the robot changes to `level`. -/
  | haltAck (robot : Fin 6) (level : Bool)
  /-- RUN_TIMEOUT, R66. -/
  | runTimeout (robot : Fin 6)
  /-- HALT_TIMEOUT, R69. -/
  | haltTimeout (robot : Fin 6)
  /-- ROBOT_FAULT, R71: FAULT of the robot goes active. -/
  | robotFault (robot : Fin 6)
  /-- ROBOT_CLEAR, R73. -/
  | robotClear (cell : Fin 48) (robot : Byte)
  /-- ROTATION_SET, R77. -/
  | rotationSet (cell : Fin 48) (count skip : Byte) (entries : List Byte)
  /-- WINDOW_SET, R81. -/
  | windowSet (cell : Fin 48) (robot : Byte) (opening closing : Half)
  /-- FILL_STROBE, R83: FILL_OK and FILL_SHORT of the robot are sampled at these levels. -/
  | fillStrobe (robot : Fin 6) (ok short : Bool)
  /-- CAMERA_SERVICE, R94. -/
  | cameraService (cell : Fin 48) (camera out : Byte)
  /-- CAMERA_FIRE_TIME, R97. -/
  | cameraFireTime (camera : Fin 6)
  /-- TRIGGER_PULSE_END, R98. -/
  | triggerPulseEnd (camera : Fin 6)
  /-- VERDICT_STROBE, R101: PASS, FAIL and TAG_IN of the camera are sampled at these levels. -/
  | verdictStrobe (camera : Fin 6) (pass fail : Bool) (tag : BitVec 5)
  /-- VERDICT, R102. -/
  | verdict (cell : Fin 48) (camera verdict : Byte) (seq : Word)
  /-- CAMERA_RESTORE, R106. -/
  | cameraRestore (cell : Fin 48) (camera : Byte)
  /-- EJECT_PULSE_START, R116. -/
  | ejectPulseStart
  /-- EJECT_OUTPUT_END, R112. -/
  | ejectOutputEnd
  /-- EJECT_TEST, R119. -/
  | ejectTest (cell : Fin 48)
  /-- CONFIRM, R120: CONFIRM changes to `level`. -/
  | confirm (level : Bool)
  /-- PORT_ADMIT, R128. -/
  | portAdmit (cell : Fin 48) (port opening : Byte)
  /-- HALL_HOLD, R130. -/
  | hallHold (cell : Fin 48)
  /-- HALL_RELEASE, R131. -/
  | hallRelease (cell : Fin 48)
  /-- LINK_EVENT, R134: LINK of the port changes to `level`. -/
  | linkEvent (port : Fin 16) (level : Bool)
  /-- ACT_PULSE, R137: ACT of the port changes to `level`. -/
  | actPulse (port : Fin 16) (level : Bool)
  /-- PORT_SILENCE, R138. -/
  | portSilence (port : Fin 16)
  /-- ACCESS_REQUEST, R149. -/
  | accessRequest (cell : Fin 48) (zone level : Byte) (minutes badge : Half)
  /-- DOOR_CHANGE, R145: DOOR of the zone changes to `level`. -/
  | doorChange (zone : Fin 8) (level : Bool)
  /-- DOOR_DEBOUNCE, R145. -/
  | doorDebounce (zone : Fin 8)
  /-- REQ_CHANGE, R145: REQ of the zone changes to `level`. -/
  | reqChange (zone : Fin 8) (level : Bool)
  /-- BUTTON_DEBOUNCE, R153. -/
  | buttonDebounce (zone : Fin 8)
  /-- ACCESS_EXPIRY, R155. -/
  | accessExpiry (zone : Fin 8)
  /-- ACCESS_END, R156. -/
  | accessEnd (cell : Fin 48) (zone : Byte)
  /-- ACCESS_EXTEND, R157. -/
  | accessExtend (cell : Fin 48) (zone : Byte) (minutes : Half)
  /-- RESUME_ZONE, R159. -/
  | resumeZone (cell : Fin 48) (zone : Byte)
  /-- PROFILE_ADOPT, R166. -/
  | profileAdopt (cell : Fin 48)
  /-- COPY_END, R168. -/
  | copyEnd
  /-- HAND_WRITE, R176: the host writes `value` into the cell's hand word. -/
  | handWrite (cell : Fin 48) (value : Half)
  /-- ORDER_TAKE, R178: the desk takes the cell at the head of the post queue. -/
  | orderTake
  /-- SEEN_WRITE, R184: the host writes `value` into the bulletin's seen count. -/
  | seenWrite (bulletin : Fin 10) (value : Half)
  /-- PAGE_AGE, R186. -/
  | pageAge
  /-- OUTCOME_FLUSH, R186. -/
  | outcomeFlush (cell : Fin 48)
  /-- PAGE_STATE_WRITE, R189: the host writes `value` into the page's state word. -/
  | pageStateWrite (page : Fin 8) (value : Half)
  /-- FAULT_UNLOCK, R191. -/
  | faultUnlock (cell : Fin 48) (count : Half)
  /-- INT_LEVEL, R196: the host writes `value` into INT_LEVEL. -/
  | intLevel (value : Half)
  /-- EXCHANGE_RESET, R197: the host writes 1 into CONTROL. -/
  | exchangeReset
  /-- EXCHANGE_RESET_END, R197. -/
  | exchangeResetEnd
  /-- LINE_RESET, R198: LRST goes active (`byPin`), or the host writes 2 into CONTROL. -/
  | lineReset (byPin : Bool)
  /-- LINE_RESET_END, R198. -/
  | lineResetEnd
  /-- REGISTER_WRITE_DISCARDED, R195: the host writes `value` into register word `register`. -/
  | registerWriteDiscarded (register : Fin 8) (value : Half)
  /-- HOST_MEMORY_WRITE, R174: the host writes `value` at byte offset `offset`; `progress` is how many bytes of the
  staging area a profile copy in progress has read when the write arrives (R167, log 6). -/
  | hostMemoryWrite (offset : Nat) (value : Half) (progress : Nat)
  /-- ROBOT_INPUT_CHANGE, R71: a robot input line changes to `level`. -/
  | robotInputChange (robot : Fin 6) (line : RobotLine) (level : Bool)
  deriving DecidableEq, Repr

end Sys2Proof
end

