-- ==== Sys2Proof/Decode.lean ====
section
/-! DEFINITION. No row of spec/opcode_table.json gives any bits (every row's "fields" is empty and none is "fixed"), so
no word spells a command. -/

namespace Sys2Proof

/-- The command that a word of the table's bits spells: the table has none. -/
def decodeTableWord (_nbits _w : Nat) : Option Instr := none

end Sys2Proof
end

