-- ==== Sys2Proof/Config.lean ====
section
/-! DEFINITION. The free values: what the spec leaves without a value although the part goes on. Each is a constant
with no body, so that no proof can see it. -/

namespace Sys2Proof

/-- The bytes of an ACCESS outcome record that describe a zone, for a request refused because its zone index is above
7 (R149, R161, R188): no such zone exists, and the spec states no value. Applied to the free counter and the byte's
offset in the record. Log 10. -/
opaque Config.absentZoneByte : Nat → Nat → Byte

/-- The pitch that R78 clamps a window's close to when a WINDOW_SET is taken before any profile is adopted (R81): no
pitch exists yet, and the spec states no value. Applied to the free counter. Log 11. -/
opaque Config.unprofiledPitch : Nat → Nat

end Sys2Proof
end

