-- ==== Sys2Proof/Machine/Blocks.lean ====
section
/-! DEFINITION. The state of the part's ten blocks, block by block as the chapters list it, and its power-on values.
Quantities are Nat, sets of robots and cameras one bit per member, everything else the names of the manual. -/

namespace Sys2Proof.Machine

/-- A cell and the take of it that an order in a block belongs to (R178, R179). -/
structure OrderRef where
  cell : Fin 48
  takeId : Word
  deriving DecidableEq, Repr

/-- The result codes of R180. -/
inductive Result where
  | ok | clamped | superseded | stale | kind | param | state | busy | locked | failedTimeout | aborted
  deriving DecidableEq, Repr

/-- The faults of a robot (R72); the first five fault kinds of R190. -/
inductive RobotFault where
  | robotFault | runTimeout | haltTimeout | runLost | haltLost
  deriving DecidableEq, Repr

/-- The fault kinds of R190. -/
inductive FaultKind where
  | robot (f : RobotFault)
  | ejectUnconfirmed | encoderReverse | syncLost | overstay | intrusion | portIntrusion
  deriving DecidableEq, Repr

/-! ## The Machine Time Unit (01_machine_time.md) -/

inductive SyncMode where
  | none | pulse
  deriving DecidableEq, Repr

inductive SyncState where
  | present | absent
  deriving DecidableEq, Repr

/-- A step waiting for the next sync pulse (R6): its clamped offset, whether it was clamped, and its order. -/
structure PendingStep where
  offset : Int
  clamped : Bool
  ref : OrderRef
  deriving DecidableEq, Repr

structure Mtu where
  time : Time
  fraction : BitVec 32
  trim : Int
  increment : BitVec 32
  pendingStep : Option PendingStep
  syncMode : SyncMode
  syncState : SyncState
  lastSync : Time
  windowEnd : Option Time
  lossDeadline : Option Time
  latch : Time
  /-- Machine time just before the last step applied, and its offset: kept for the mirror (R9, R192). -/
  beforeStep : Time
  lastOffset : Int
  deriving DecidableEq, Repr

/-! ## The line profile (R165) -/

structure Window where
  opening : Nat
  closing : Nat
  deriving DecidableEq, Repr

structure Rotation where
  slots : List (Option (Fin 6))
  skip : Bool
  deriving DecidableEq, Repr

inductive VerdictSource where
  | lines | orders
  deriving DecidableEq, Repr

inductive Role where
  | unassigned | linePc | robot (r : Fin 6) | camera (c : Fin 6) | service (z : Fin 8) | other
  deriving DecidableEq, Repr

inductive SilenceAction where
  | report | haltMember | degradeMember
  deriving DecidableEq, Repr

inductive AccessLevel where
  | none | observe | adjust | maintain
  deriving DecidableEq, Repr

structure RobotSettings where
  station : Nat
  window : Window
  runTimeout : Nat
  haltTimeout : Nat
  threshold : Nat
  deriving DecidableEq, Repr

structure CameraSettings where
  present : Bool
  station : Nat
  lead : Nat
  width : Nat
  activeLow : Bool
  source : VerdictSource
  required : Bool
  threshold : Nat
  deriving DecidableEq, Repr

structure PortSettings where
  role : Role
  limit : Nat
  action : SilenceAction
  deriving DecidableEq, Repr

structure ZoneSettings where
  robots : BitVec 6
  cameras : BitVec 6
  doorPresent : Bool
  buttonPresent : Bool
  buttonLevel : AccessLevel
  buttonMinutes : Nat
  deriving DecidableEq, Repr

structure Profile where
  id : Word
  syncMode : SyncMode
  pitch : Nat
  samplePhase : Nat
  spacing : Nat
  tolerance : Nat
  crawlLimit : Nat
  decision : Nat
  grace : Nat
  robots : Vector RobotSettings 6
  rotation : Rotation
  cameras : Vector CameraSettings 6
  ejector : Nat
  confirmSpan : Nat
  ejectLead : Nat
  ejectWidth : Nat
  ejectActiveLow : Bool
  ports : Vector PortSettings 16
  zones : Vector ZoneSettings 8
  deriving DecidableEq, Repr

/-! ## The Conveyor Tracker (02_conveyor_position_and_pace.md) -/

inductive TrackerState where
  | unprofiled | ready | tracking | draining
  deriving DecidableEq, Repr

inductive PaceState where
  | crawl | warming | timed
  deriving DecidableEq, Repr

/-- A speed mark (R30). -/
structure Mark where
  stamp : Time
  pos : Position
  deriving DecidableEq, Repr

inductive WatchKind where
  | opening | closing | grace
  deriving DecidableEq, Repr

/-- A position watch (R22); the Robot Pacer's are the part's only ones (R79). -/
structure Watch where
  robot : Fin 6
  seq : Word
  kind : WatchKind
  target : Position
  deriving DecidableEq, Repr

/-- The adoption in flight (R166, R167): its order, how many bytes of the staging area have been read, and the bytes
read so far. -/
structure Adoption where
  ref : OrderRef
  progress : Nat
  candidate : List Host.Cell
  deriving DecidableEq, Repr

/-- A refusal of PROFILE_ADOPT as the profile record shows it (R168, R171). -/
structure AdoptRefusal where
  result : Result
  detail : Byte
  index : Option Nat
  deriving DecidableEq, Repr

/-- What the profile record of R171 holds beside the profile id and the adoption in flight. -/
structure ProfileRecord where
  count : Nat
  refusal : Option AdoptRefusal
  adoptedAt : BitVec 32
  deriving DecidableEq, Repr

structure Cvt where
  position : Position
  highWater : Position
  depth : Nat
  excursion : Bool
  phase : Nat
  markCount : Nat
  marks : List Mark
  paceState : PaceState
  pace : Nat
  tracker : TrackerState
  drainOrder : Option OrderRef
  encoderErrors : Nat
  reverseExcursions : Nat
  decoder : Option (Bool × Bool)
  infeed : Bool
  watches : List Watch
  profile : Option Profile
  adoption : Option Adoption
  profileRecord : ProfileRecord
  deriving DecidableEq, Repr

/-! ## The Transit List (03_the_transit_list.md) -/

inductive FillResult where
  | pending | ok | short | noReport | unfilled
  deriving DecidableEq, Repr

inductive Verdict where
  | notYet | triggered | pass | fail | noVerdict | cameraOut | exempt
  deriving DecidableEq, Repr

inductive Decision where
  | undecided | pass | reject
  deriving DecidableEq, Repr

inductive EjectState where
  | none | scheduled | fired | confirmed | unconfirmed
  deriving DecidableEq, Repr

/-- The reject causes of R48. -/
structure Causes where
  fillShort : Bool
  fillMissing : Bool
  cameraFail : Bool
  noVerdict : Bool
  cameraOut : Bool
  marked : Bool
  deriving DecidableEq, Repr

/-- The stations of R28. -/
inductive Station where
  | robot | camera (c : Fin 6) | decision | ejector | confirmEnd
  deriving DecidableEq, Repr

/-- What a record holds for one camera of the profile. -/
structure CameraView where
  verdict : Verdict
  trigger : Option Time
  deriving DecidableEq, Repr

/-- The container record. `stations` are the arrivals not yet raised, in the order of R28: each is raised once. -/
structure Record where
  seq : Word
  entryPos : Position
  entryTime : Time
  slot : Nat
  robot : Option (Fin 6)
  fill : FillResult
  views : Vector (Option CameraView) 6
  marked : Bool
  stepped : Bool
  decision : Decision
  causes : Causes
  eject : EjectState
  stations : List Station
  deriving DecidableEq, Repr

/-- The six reject cause counters of R56. -/
structure CauseCounts where
  fillShort : Nat
  fillMissing : Nat
  cameraFail : Nat
  noVerdict : Nat
  cameraOut : Nat
  marked : Nat
  deriving DecidableEq, Repr

structure Trl where
  records : List Record
  nextSeq : Word
  admitted : Nat
  passed : Nat
  rejected : Nat
  abandoned : Nat
  untracked : Nat
  causes : CauseCounts
  deriving DecidableEq, Repr

/-! ## The Robot Pacer (04_filler_robots.md) -/

inductive RobotState where
  | stopped | starting | running | halting | halted | faulted
  deriving DecidableEq, Repr

inductive HaltOrigin where
  | order | zone (z : Fin 8) | fillFailures | portSilent
  deriving DecidableEq, Repr

structure PendingWindow where
  window : Window
  ref : OrderRef
  deriving DecidableEq, Repr

/-- The six counters of R86. -/
structure RobotCounters where
  ok : Nat
  short : Nat
  noReport : Nat
  unfilled : Nat
  stray : Nat
  duplicate : Nat
  deriving DecidableEq, Repr

/-- The levels of a robot's five input lines. -/
structure RobotPins where
  runAck : Bool
  haltAck : Bool
  fault : Bool
  fillOk : Bool
  fillShort : Bool
  deriving DecidableEq, Repr

/-- One robot. `reported` are the containers remembered as reported until their grace end (R82), `openWindows` those
whose window stands open (R80). -/
structure Robot where
  state : RobotState
  haltOrigin : Option HaltOrigin
  faultCause : Option RobotFault
  order : Option OrderRef
  deadline : Option Time
  live : Window
  pendingWindow : Option PendingWindow
  reportList : List Word
  reported : List Word
  openWindows : List Word
  failureRun : Nat
  counters : RobotCounters
  pins : RobotPins
  deriving DecidableEq, Repr

structure PendingRotation where
  rotation : Rotation
  ref : OrderRef
  deriving DecidableEq, Repr

structure Rbp where
  robots : Vector Robot 6
  rotation : Rotation
  pendingRotation : Option PendingRotation
  cursor : Nat
  deriving DecidableEq, Repr

/-! ## The Camera Trigger Unit (05_inspection_cameras.md) -/

inductive DegradeCause where
  | missedVerdicts | portSilent
  deriving DecidableEq, Repr

/-- A pending fire (R96): scheduled at `time`, or by position; `due` once it has fallen due (R97). -/
structure Fire where
  seq : Word
  time : Option Time
  due : Bool
  deriving DecidableEq, Repr

/-- An output pulse: when it ends and the level it holds until then (R91, R111, R112, R126). -/
structure OutputPulse where
  ending : Time
  level : Bool
  deriving DecidableEq, Repr

/-- The eight counters of R107. -/
structure CameraCounters where
  triggers : Nat
  late : Nat
  latePosition : Nat
  pass : Nat
  fail : Nat
  noVerdict : Nat
  stale : Nat
  ignored : Nat
  deriving DecidableEq, Repr

structure Camera where
  hostService : Bool
  zoneService : Bool
  degraded : Bool
  degradeCause : Option DegradeCause
  portSilent : Bool
  missedRun : Nat
  schedule : List Fire
  pulse : Option OutputPulse
  lastTag : BitVec 5
  awaiting : List Word
  counters : CameraCounters
  passLine : Bool
  failLine : Bool
  tagIn : BitVec 5
  deriving DecidableEq, Repr

structure Ctu where
  cameras : Vector Camera 6
  deriving DecidableEq, Repr

/-! ## The Reject Ejector (06_the_reject_ejector.md) -/

/-- Start and end of a timed pulse (R113). -/
structure PulseTimes where
  start : Time
  ending : Time
  deriving DecidableEq, Repr

/-- A pending pulse: its member containers, oldest first, and its times, or by position. -/
structure Pulse where
  members : List Word
  times : Option PulseTimes
  deriving DecidableEq, Repr

/-- The seven counters of R123. -/
structure EjectorCounters where
  pulses : Nat
  merges : Nat
  latePulse : Nat
  confirmed : Nat
  unconfirmed : Nat
  strayEject : Nat
  testPulses : Nat
  deriving DecidableEq, Repr

structure Rej where
  output : Option OutputPulse
  schedule : List Pulse
  confirm : List Word
  counters : EjectorCounters
  confirmLine : Bool
  deriving DecidableEq, Repr

/-! ## The Switch Port Monitor (07_cabinet_switch_ports.md) -/

inductive Admission where
  | closed | held | opened | quarantined
  deriving DecidableEq, Repr

structure Port where
  role : Role
  admission : Admission
  link : Bool
  act : Bool
  limit : Nat
  action : SilenceAction
  deadline : Option Time
  silent : Bool
  drops : Nat
  silences : Nat
  quarantines : Nat
  deriving DecidableEq, Repr

structure Spm where
  ports : Vector Port 16
  hallHold : Bool
  deriving DecidableEq, Repr

/-! ## The Service Access Controller (08_service_access.md) -/

inductive ZoneState where
  | sealed | halting | opened | waitClose | overstay
  deriving DecidableEq, Repr

inductive ZoneOrigin where
  | none | order | button | intrusion | adoption
  deriving DecidableEq, Repr

/-- What a HALTING zone waits to grant (R150): the requested level is always MAINTAIN. -/
structure ZoneRequest where
  origin : ZoneOrigin
  minutes : Nat
  clamped : Bool
  badge : Half
  deriving DecidableEq, Repr

/-- A robot's place in a resume set (R159). -/
inductive ResumeMark where
  | absent | waiting | running | failed
  deriving DecidableEq, Repr

/-- A result code with its detail byte. -/
structure Completion where
  result : Result
  detail : Byte
  deriving DecidableEq, Repr

structure Zone where
  state : ZoneState
  level : AccessLevel
  request : Option ZoneRequest
  origin : ZoneOrigin
  expiry : Option Time
  badge : Half
  haltedByZone : BitVec 6
  accessOrder : Option OrderRef
  resumeOrder : Option OrderRef
  resumeSet : Vector ResumeMark 6
  resumeFailure : Option Completion
  door : Bool
  doorDeadline : Option Time
  button : Bool
  buttonDeadline : Option Time
  doorLine : Bool
  reqLine : Bool
  doorRel : Bool
  deriving DecidableEq, Repr

structure Sac where
  zones : Vector Zone 8
  deriving DecidableEq, Repr

/-! ## The Order Desk and the Report Unit (10_orders_bulletins_and_outcome_pages.md) -/

/-- What the BUSY rule of R178 keeps to one order. -/
inductive BusyKey where
  | robot (r : Fin 6) | zone (z : Fin 8) | profile
  deriving DecidableEq, Repr

/-- An entry of the in-flight order table (R178). `kept` is clear while the take that made the entry has not ended:
an order completed then was completed at the take (R179). -/
structure InFlight where
  ref : OrderRef
  kind : Byte
  key : Option BusyKey
  tag : Half
  kept : Bool
  orphaned : Bool
  deriving DecidableEq, Repr

structure Odk where
  queue : List (Fin 48)
  inflight : List InFlight
  takeIdentity : Word
  protocolErrors : Nat
  deriving DecidableEq, Repr

inductive Severity where
  | info | notice | alarm
  deriving DecidableEq, Repr

/-- A bulletin (R182, R183). -/
structure Bulletin where
  change : Half
  seen : Half
  level : Severity
  levelCause : Byte
  levelMember : Byte
  lastCause : Byte
  time : BitVec 32
  lastMember : Byte
  deriving DecidableEq, Repr

inductive PageState where
  | empty | filling | full
  deriving DecidableEq, Repr

inductive CloseCause where
  | none | count | age | flush | lineReset
  deriving DecidableEq, Repr

/-- A page directory entry (R185). -/
structure Page where
  state : PageState
  count : Nat
  cause : CloseCause
  sequence : Word
  first : BitVec 32
  last : BitVec 32
  deriving DecidableEq, Repr

/-- The line fault record (R190): `kind` is none while it is not latched. -/
structure FaultRecord where
  kind : Option FaultKind
  member : Byte
  seq : Word
  time : BitVec 32
  further : Nat
  deriving DecidableEq, Repr

/-- The READY bit's history (R197): starting up, ready, or an exchange reset in progress. -/
inductive Phase where
  | startingUp | ready | exchangeReset
  deriving DecidableEq, Repr

structure Rpu where
  bulletins : Vector Bulletin 10
  pages : Vector Page 8
  nextPage : Fin 8
  ageDeadline : Option Time
  dropping : Bool
  dropped : Nat
  lastPageSeq : Word
  outcomeNumber : Word
  fault : FaultRecord
  threshold : Nat
  updateCounts : Vector Half 11
  phase : Phase
  lineResetBusy : Bool
  busData : Half
  deriving DecidableEq, Repr

/-- The part: its blocks, its two lines that belong to no block, its exchange memory, and the model's own counter that
free values are applied to. -/
structure Part where
  mtu : Mtu
  cvt : Cvt
  trl : Trl
  rbp : Rbp
  ctu : Ctu
  rej : Rej
  spm : Spm
  sac : Sac
  odk : Odk
  rpu : Rpu
  syncLine : Bool
  lrst : Bool
  mem : List Host.Cell
  freeCount : Nat
  deriving DecidableEq, Repr

/-! ## Power-on values -/

/-- R16. -/
def Mtu.powerOn : Mtu :=
  { time := 0, fraction := 0, trim := 0, increment := 85899346, pendingStep := none, syncMode := .none,
    syncState := .absent, lastSync := 0, windowEnd := none, lossDeadline := none, latch := 0, beforeStep := 0,
    lastOffset := 0 }

/-- R40, R172. The time of the last adoption, for which the spec names no power-on value, is 0 (log 40). -/
def Cvt.powerOn (infeed : Bool) : Cvt :=
  { position := 0, highWater := 0, depth := 0, excursion := false, phase := 0, markCount := 0, marks := [],
    paceState := .crawl, pace := 0, tracker := .unprofiled, drainOrder := none, encoderErrors := 0,
    reverseExcursions := 0, decoder := none, infeed := infeed, watches := [], profile := none, adoption := none,
    profileRecord := { count := 0, refusal := none, adoptedAt := 0 } }

def CauseCounts.zero : CauseCounts := ⟨0, 0, 0, 0, 0, 0⟩
def RobotCounters.zero : RobotCounters := ⟨0, 0, 0, 0, 0, 0⟩
def CameraCounters.zero : CameraCounters := ⟨0, 0, 0, 0, 0, 0, 0, 0⟩
def EjectorCounters.zero : EjectorCounters := ⟨0, 0, 0, 0, 0, 0, 0⟩
def Causes.empty : Causes := ⟨false, false, false, false, false, false⟩

/-- R61. -/
def Trl.powerOn : Trl :=
  { records := [], nextSeq := 1, admitted := 0, passed := 0, rejected := 0, abandoned := 0, untracked := 0,
    causes := .zero }

/-- R88. -/
def Robot.powerOn (pins : RobotPins) : Robot :=
  { state := .stopped, haltOrigin := none, faultCause := none, order := none, deadline := none, live := ⟨0, 0⟩,
    pendingWindow := none, reportList := [], reported := [], openWindows := [], failureRun := 0, counters := .zero,
    pins := pins }

/-- The power-on robot of a member, with its lines as first sampled. -/
def Robot.sampled (pins : Pins) (r : Nat) : Robot :=
  .powerOn { runAck := pins.runAck.getLsbD r, haltAck := pins.haltAck.getLsbD r, fault := pins.fault.getLsbD r,
             fillOk := pins.fillOk.getLsbD r, fillShort := pins.fillShort.getLsbD r }

/-- R88. -/
def Rbp.powerOn (pins : Pins) : Rbp :=
  { robots := #v[.sampled pins 0, .sampled pins 1, .sampled pins 2, .sampled pins 3, .sampled pins 4,
                 .sampled pins 5],
    rotation := ⟨[none], false⟩, pendingRotation := none, cursor := 0 }

/-- R109. -/
def Camera.powerOn (pins : Pins) (c : Nat) : Camera :=
  { hostService := false, zoneService := false, degraded := false, degradeCause := none, portSilent := false,
    missedRun := 0, schedule := [], pulse := none, lastTag := 0, awaiting := [], counters := .zero,
    passLine := pins.pass.getLsbD c, failLine := pins.fail.getLsbD c, tagIn := 0 }

def Ctu.powerOn (pins : Pins) : Ctu :=
  { cameras := #v[.powerOn pins 0, .powerOn pins 1, .powerOn pins 2, .powerOn pins 3, .powerOn pins 4,
                  .powerOn pins 5] }

/-- R125. -/
def Rej.powerOn (pins : Pins) : Rej :=
  { output := none, schedule := [], confirm := [], counters := .zero, confirmLine := pins.confirm }

/-- R142: LINK is taken as first sampled. -/
def Port.powerOn (pins : Pins) (p : Nat) : Port :=
  { role := .unassigned, admission := .closed, link := pins.link.getLsbD p, act := pins.act.getLsbD p,
    limit := 60000, action := .report, deadline := none, silent := false, drops := 0, silences := 0,
    quarantines := 0 }

def Spm.powerOn (pins : Pins) : Spm :=
  { ports := #v[.powerOn pins 0, .powerOn pins 1, .powerOn pins 2, .powerOn pins 3, .powerOn pins 4, .powerOn pins 5,
                .powerOn pins 6, .powerOn pins 7, .powerOn pins 8, .powerOn pins 9, .powerOn pins 10,
                .powerOn pins 11, .powerOn pins 12, .powerOn pins 13, .powerOn pins 14, .powerOn pins 15],
    hallHold := false }

/-- R144: the debounced value of each input starts as its first sample. -/
def Zone.powerOn (pins : Pins) (z : Nat) : Zone :=
  { state := .sealed, level := .none, request := none, origin := .none, expiry := none, badge := 0,
    haltedByZone := 0, accessOrder := none, resumeOrder := none, resumeSet := Vector.replicate 6 .absent,
    resumeFailure := none, door := pins.door.getLsbD z, doorDeadline := none, button := pins.req.getLsbD z,
    buttonDeadline := none, doorLine := pins.door.getLsbD z, reqLine := pins.req.getLsbD z, doorRel := false }

def Sac.powerOn (pins : Pins) : Sac :=
  { zones := #v[.powerOn pins 0, .powerOn pins 1, .powerOn pins 2, .powerOn pins 3, .powerOn pins 4, .powerOn pins 5,
                .powerOn pins 6, .powerOn pins 7] }

/-- R197: every cell FREE, nothing in flight, the take identity 0. -/
def Odk.powerOn : Odk := { queue := [], inflight := [], takeIdentity := 0, protocolErrors := 0 }

/-- R197: counts 0 and level INFO. -/
def Bulletin.powerOn : Bulletin :=
  { change := 0, seen := 0, level := .info, levelCause := 0, levelMember := 0, lastCause := 0, time := 0,
    lastMember := 0 }

/-- An EMPTY page whose directory entry is clear. -/
def Page.cleared : Page := { state := .empty, count := 0, cause := .none, sequence := 0, first := 0, last := 0 }

/-- R191: not latched. -/
def FaultRecord.clear : FaultRecord := { kind := none, member := 0, seq := 0, time := 0, further := 0 }

/-- The eight pages with page 0 FILLING under the page sequence given (R197). -/
def Page.fresh (sequence : Word) : Vector Page 8 :=
  (Vector.replicate 8 .cleared).set 0 { Page.cleared with state := .filling, sequence := sequence }

/-- R197. -/
def Rpu.powerOn : Rpu :=
  { bulletins := Vector.replicate 10 .powerOn, pages := Page.fresh 1, nextPage := 0, ageDeadline := none,
    dropping := false, dropped := 0, lastPageSeq := 1, outcomeNumber := 0, fault := .clear, threshold := 1,
    updateCounts := Vector.replicate 11 0, phase := .startingUp, lineResetBusy := false, busData := 0 }

/-- R197: the part right after POWER_ON, before start-up completes: every block at its power-on values and the whole
exchange memory 0. -/
def Part.powerOn (pins : Pins) : Part :=
  { mtu := .powerOn, cvt := .powerOn pins.infeed, trl := .powerOn, rbp := .powerOn pins, ctu := .powerOn pins,
    rej := .powerOn pins, spm := .powerOn pins, sac := .powerOn pins, odk := .powerOn, rpu := .powerOn,
    syncLine := pins.sync, lrst := pins.lrst, mem := [], freeCount := 0 }

end Sys2Proof.Machine
end

