-- ==== Sys2Proof/Machine/Codes.lean ====
section
/-! DEFINITION. The codes of the exchange memory: result codes (R180), fault kinds (R190), bulletin causes with their
bulletins and levels (R184 and the chapters' cause tables), and the codes of enumerated fields (R188, R192, R194). -/

namespace Sys2Proof.Machine

/-- R180. -/
def Result.code : Result → Byte
  | .ok => 0 | .clamped => 1 | .superseded => 2 | .stale => 3 | .kind => 4 | .param => 5 | .state => 6 | .busy => 7
  | .locked => 8 | .failedTimeout => 9 | .aborted => 10

/-- R180: the results that leave the hand REFUSED. -/
def Result.refuses : Result → Bool
  | .kind | .param | .state | .busy | .locked | .aborted => true
  | .ok | .clamped | .superseded | .stale | .failedTimeout => false

/-- R180: OK, or CLAMPED where a value was clamped. -/
def Result.clampedIf (b : Bool) : Result := if b then .clamped else .ok

/-- R190; the mirror's fault cause shows it too, and not the position in the item's list: the model's choice (log 12). -/
def RobotFault.code : RobotFault → Byte
  | .robotFault => 1 | .runTimeout => 2 | .haltTimeout => 3 | .runLost => 4 | .haltLost => 5

/-- R190. -/
def FaultKind.code : FaultKind → Byte
  | .robot f => f.code
  | .ejectUnconfirmed => 6 | .encoderReverse => 7 | .syncLost => 8 | .overstay => 9 | .intrusion => 10
  | .portIntrusion => 11

/-- The changes that blocks raise on the bulletins (R184). -/
inductive News where
  | protocolError | pageError | completed | lineReset
  | untracked | encoderError | paceCrawl | reverse | reverseEnd | paceTimed | profiled | started | draining | stopped
  | countersFull | abandoned | countersCleared | profileRefused
  | robotFault (f : RobotFault) | fillFailures | zeroWindow | running | halted | cleared | rotationAdopted
  | missedVerdicts | portSilent | awaitFull | serviceIn | serviceOut | restored
  | unconfirmed | confirmFull | strayEject | test
  | quarantined | silent | resumed | linkDown | quarantineEnded | hallHold | hallRelease
  | intrusion | overstay | failed | adoptionOpen | halting | granted | waitClose | ended | expired
  | syncPulse | syncPresent | syncLost | stepApplied
  | pageFull | dropping
  | fault (k : FaultKind) | unlocked
  deriving DecidableEq, Repr

/-- The bulletin a change is raised on (R182). -/
def News.bulletin : News → Fin 10
  | .protocolError | .pageError | .completed | .lineReset => 0
  | .untracked | .encoderError | .paceCrawl | .reverse | .reverseEnd | .paceTimed | .profiled | .started | .draining
  | .stopped | .countersFull | .abandoned | .countersCleared | .profileRefused => 1
  | .robotFault _ | .fillFailures | .zeroWindow | .running | .halted | .cleared | .rotationAdopted => 2
  | .missedVerdicts | .portSilent | .awaitFull | .serviceIn | .serviceOut | .restored => 3
  | .unconfirmed | .confirmFull | .strayEject | .test => 4
  | .quarantined | .silent | .resumed | .linkDown | .quarantineEnded | .hallHold | .hallRelease => 5
  | .intrusion | .overstay | .failed | .adoptionOpen | .halting | .granted | .waitClose | .ended | .expired => 6
  | .syncPulse | .syncPresent | .syncLost | .stepApplied => 7
  | .pageFull | .dropping => 8
  | .fault _ | .unlocked => 9

/-- The code of a change in the cause field (R184). -/
def News.code : News → Byte
  | .protocolError => 1 | .pageError => 2 | .completed => 3 | .lineReset => 4
  | .untracked => 1 | .encoderError => 2 | .paceCrawl => 3 | .reverse => 4 | .reverseEnd => 5 | .paceTimed => 6
  | .profiled => 7 | .started => 8 | .draining => 9 | .stopped => 10 | .countersFull => 11 | .abandoned => 12
  | .countersCleared => 13 | .profileRefused => 14
  | .robotFault f => f.code
  | .fillFailures => 6 | .zeroWindow => 7 | .running => 8 | .halted => 9 | .cleared => 10 | .rotationAdopted => 11
  | .missedVerdicts => 1 | .portSilent => 2 | .awaitFull => 3 | .serviceIn => 4 | .serviceOut => 5 | .restored => 6
  | .unconfirmed => 1 | .confirmFull => 2 | .strayEject => 3 | .test => 4
  | .quarantined => 1 | .silent => 2 | .resumed => 3 | .linkDown => 4 | .quarantineEnded => 5 | .hallHold => 6
  | .hallRelease => 7
  | .intrusion => 1 | .overstay => 2 | .failed => 3 | .adoptionOpen => 4 | .halting => 5 | .granted => 6
  | .waitClose => 7 | .ended => 8 | .expired => 9
  | .syncPulse => 1 | .syncPresent => 2 | .syncLost => 3 | .stepApplied => 4
  | .pageFull => 1 | .dropping => 2
  | .fault k => k.code
  | .unlocked => 12

/-- The level each change is raised at: R39, R60, R87, R108, R124, R141, R162 and the rules of the desk, the MTU and
the Report Unit (R9, R10, R13, R171, R176, R179, R186, R187, R189, R191, R198). -/
def News.severity : News → Severity
  | .protocolError | .pageError | .lineReset => .notice
  | .completed => .info
  | .untracked | .encoderError | .paceCrawl | .abandoned | .profileRefused => .notice
  | .reverse | .countersFull => .alarm
  | .reverseEnd | .paceTimed | .profiled | .started | .draining | .stopped | .countersCleared => .info
  | .robotFault _ | .fillFailures => .alarm
  | .zeroWindow => .notice
  | .running | .halted | .cleared | .rotationAdopted => .info
  | .missedVerdicts | .portSilent => .alarm
  | .awaitFull => .notice
  | .serviceIn | .serviceOut | .restored => .info
  | .unconfirmed | .confirmFull => .alarm
  | .strayEject => .notice
  | .test => .info
  | .quarantined => .alarm
  | .silent | .resumed | .linkDown => .notice
  | .quarantineEnded | .hallHold | .hallRelease => .info
  | .intrusion | .overstay => .alarm
  | .failed | .adoptionOpen => .notice
  | .halting | .granted | .waitClose | .ended | .expired => .info
  | .syncPulse | .syncPresent | .stepApplied => .notice
  | .syncLost => .alarm
  | .pageFull => .info
  | .dropping => .alarm
  | .fault _ => .alarm
  | .unlocked => .info

/-- INFO 0, NOTICE 1, ALARM 2 (R182). -/
def Severity.code : Severity → Nat
  | .info => 0 | .notice => 1 | .alarm => 2

/-! ## Enumerated fields (R188, R194; by position where no code is given, R192) -/

def SyncMode.code : SyncMode → Nat | .none => 0 | .pulse => 1
def SyncState.code : SyncState → Nat | .present => 0 | .absent => 1
def TrackerState.code : TrackerState → Nat | .unprofiled => 0 | .ready => 1 | .tracking => 2 | .draining => 3
def PaceState.code : PaceState → Nat | .crawl => 0 | .warming => 1 | .timed => 2
def FillResult.code : FillResult → Nat | .pending => 0 | .ok => 1 | .short => 2 | .noReport => 3 | .unfilled => 4
def Verdict.code : Verdict → Nat
  | .notYet => 0 | .triggered => 1 | .pass => 2 | .fail => 3 | .noVerdict => 4 | .cameraOut => 5 | .exempt => 6
def Decision.code : Decision → Nat | .undecided => 0 | .pass => 1 | .reject => 2
def EjectState.code : EjectState → Nat
  | .none => 0 | .scheduled => 1 | .fired => 2 | .confirmed => 3 | .unconfirmed => 4
def RobotState.code : RobotState → Nat
  | .stopped => 0 | .starting => 1 | .running => 2 | .halting => 3 | .halted => 4 | .faulted => 5
def HaltOrigin.code : HaltOrigin → Nat | .order => 0 | .zone _ => 1 | .fillFailures => 2 | .portSilent => 3
def HaltOrigin.member : HaltOrigin → Nat | .zone z => z | .order | .fillFailures | .portSilent => 0
/-- R184's cause codes of the CAMERA bulletin, taken for the mirror too and not the position in the item's list: the model's
choice (log 12). -/
def DegradeCause.code : DegradeCause → Nat | .missedVerdicts => 1 | .portSilent => 2
def VerdictSource.code : VerdictSource → Nat | .lines => 0 | .orders => 1
def Role.code : Role → Nat
  | .unassigned => 0 | .linePc => 1 | .robot _ => 2 | .camera _ => 3 | .service _ => 4 | .other => 5
def Role.member : Role → Nat
  | .robot r => r | .camera c => c | .service z => z | .unassigned | .linePc | .other => 0
def SilenceAction.code : SilenceAction → Nat | .report => 0 | .haltMember => 1 | .degradeMember => 2
def Admission.code : Admission → Nat | .closed => 0 | .held => 1 | .opened => 2 | .quarantined => 3
def ZoneState.code : ZoneState → Nat | .sealed => 0 | .halting => 1 | .opened => 2 | .waitClose => 3 | .overstay => 4
def AccessLevel.code : AccessLevel → Nat | .none => 0 | .observe => 1 | .adjust => 2 | .maintain => 3
def ZoneOrigin.code : ZoneOrigin → Nat | .none => 0 | .order => 1 | .button => 2 | .intrusion => 3 | .adoption => 4
def ResumeMark.code : ResumeMark → Nat | .absent => 0 | .waiting => 0 | .running => 1 | .failed => 2
def PageState.code : PageState → Nat | .empty => 0 | .filling => 1 | .full => 2
def CloseCause.code : CloseCause → Nat | .none => 0 | .count => 1 | .age => 2 | .flush => 3 | .lineReset => 4

/-- A flag as the memory shows it. -/
def flag (b : Bool) : Nat := if b then 1 else 0

/-- R188: one bit per cause, FILL_SHORT in bit 0. -/
def Causes.mask (c : Causes) : Nat :=
  flag c.fillShort + 2 * flag c.fillMissing + 4 * flag c.cameraFail + 8 * flag c.noVerdict + 16 * flag c.cameraOut +
    32 * flag c.marked

/-- R48: the set is non-empty. -/
def Causes.any (c : Causes) : Bool :=
  c.fillShort || c.fillMissing || c.cameraFail || c.noVerdict || c.cameraOut || c.marked

end Sys2Proof.Machine
end

