-- ==== Sys2Proof/Machine/Flags.lean ====
section
/-! DEFINITION. What is read from the state and held nowhere: output lines, registers, the state of a camera, whether
a robot is safe and a zone holds it. -/

namespace Sys2Proof.Machine

/-- The robot indices, the camera indices. -/
def sixes : List (Fin 6) := [0, 1, 2, 3, 4, 5]
/-- The zone indices. -/
def eights : List (Fin 8) := [0, 1, 2, 3, 4, 5, 6, 7]
/-- The port indices. -/
def sixteens : List (Fin 16) := [0, 1, 2, 3, 4, 5, 6, 7, 8, 9, 10, 11, 12, 13, 14, 15]

/-- The low 32 bits of machine time. -/
def Time.low (t : Time) : BitVec 32 := t.setWidth 32

/-- Machine time as it stands. -/
def Part.now (p : Part) : Time := p.mtu.time

/-- A duration in milliseconds (R1). -/
def ms (n : Nat) : Time := BitVec.ofNat 48 (1000 * n)
/-- A duration in minutes (R1). -/
def minutes (n : Nat) : Time := BitVec.ofNat 48 (60000000 * n)

/-! ## Robots (R64, R74, R80) -/

/-- R64. -/
def Robot.runReq (r : Robot) : Bool := r.state == .starting || r.state == .running
/-- R64. -/
def Robot.haltReq (r : Robot) : Bool := r.state == .halting || r.state == .halted || r.state == .faulted
/-- R80. -/
def Robot.windowOn (r : Robot) : Bool := r.state == .running && !r.openWindows.isEmpty
/-- R74. -/
def Robot.safe (r : Robot) : Bool :=
  r.state == .stopped || r.state == .halted || (r.state == .faulted && r.pins.haltAck)
/-- The robot is STARTING or RUNNING: what a zone that comes to hold it halts (R146). -/
def Robot.active (r : Robot) : Bool := r.state == .starting || r.state == .running
/-- R78. -/
def Window.zero (w : Window) : Bool := decide (w.closing ≤ w.opening)

/-! ## Zones (R74, R144, R145) -/

/-- The zone's map entry; before the first adoption no zone exists (R144). -/
def Part.zoneMap (p : Part) (z : Fin 8) : Option ZoneSettings := p.cvt.profile.map fun f => f.zones[z]

/-- Robot `r` is a member of zone `z`. -/
def Part.zoneHasRobot (p : Part) (z : Fin 8) (r : Fin 6) : Bool :=
  match p.zoneMap z with
  | some m => m.robots.getLsbD r
  | none => false

/-- Camera `c` is a member of zone `z`. -/
def Part.zoneHasCamera (p : Part) (z : Fin 8) (c : Fin 6) : Bool :=
  match p.zoneMap z with
  | some m => m.cameras.getLsbD c
  | none => false

/-- The zone has a door (R145). -/
def Part.hasDoor (p : Part) (z : Fin 8) : Bool :=
  match p.zoneMap z with
  | some m => m.doorPresent
  | none => false

/-- The zone has a request button. -/
def Part.hasButton (p : Part) (z : Fin 8) : Bool :=
  match p.zoneMap z with
  | some m => m.buttonPresent
  | none => false

/-- R145: a zone without a door reads closed. -/
def Part.doorOpen (p : Part) (z : Fin 8) : Bool := p.hasDoor z && p.sac.zones[z].door

/-- R74: a zone holds its members from HALTING, MAINTAIN level or origin INTRUSION until it is SEALED. -/
def Zone.holding (z : Zone) : Bool :=
  z.state != .sealed && (z.state == .halting || z.level == .maintain || z.origin == .intrusion)

/-- R74: some zone holds robot `r`. -/
def Part.held (p : Part) (r : Fin 6) : Bool := eights.any fun z => p.zoneHasRobot z r && p.sac.zones[z].holding

/-- Every member robot of the zone is safe. -/
def Part.membersSafe (p : Part) (z : Fin 8) : Bool :=
  sixes.all fun r => !p.zoneHasRobot z r || p.rbp.robots[r].safe

/-- R152: a member robot FAULTED with HALT_ACK inactive; the lowest index where several are, which is the model's choice
(log 41). -/
def Part.failingMember (p : Part) (z : Fin 8) : Option (Fin 6) :=
  sixes.find? fun r => p.zoneHasRobot z r && (p.rbp.robots[r].state == .faulted && !p.rbp.robots[r].pins.haltAck)

/-- R154: the condition of DOOR_REL. -/
def Part.doorRelCondition (p : Part) (z : Fin 8) : Bool :=
  p.hasDoor z && (p.sac.zones[z].state == .opened || p.sac.zones[z].state == .overstay) &&
    p.sac.zones[z].level == .maintain && p.membersSafe z

/-- Every zone is SEALED (R166, R169). -/
def Part.allSealed (p : Part) : Bool := eights.all fun z => p.sac.zones[z].state == .sealed

/-! ## Cameras (R91, R92) -/

inductive CameraState where
  | off | service | degraded | active
  deriving DecidableEq, Repr

def CameraState.code : CameraState → Nat | .off => 0 | .service => 1 | .degraded => 2 | .active => 3

/-- The camera's settings in the adopted profile. -/
def Part.cameraSettings (p : Part) (c : Fin 6) : Option CameraSettings := p.cvt.profile.map fun f => f.cameras[c]

/-- The camera is present in the adopted profile. -/
def Part.cameraPresent (p : Part) (c : Fin 6) : Bool :=
  match p.cameraSettings c with
  | some k => k.present
  | none => false

/-- R92: the state of camera `c`. -/
def Part.cameraState (p : Part) (c : Fin 6) : CameraState :=
  if p.cameraPresent c = false then .off
  else if p.ctu.cameras[c].hostService || p.ctu.cameras[c].zoneService then .service
  else if p.ctu.cameras[c].degraded then .degraded
  else .active

/-- The inactive level of TRIG: low before the first adoption (R91), then by the profile's polarity. -/
def Part.trigInactive (p : Part) (c : Fin 6) : Bool :=
  match p.cameraSettings c with
  | some k => k.activeLow
  | none => false

/-- R91: TRIG of camera `c`. -/
def Part.trig (p : Part) (c : Fin 6) : Bool :=
  match p.ctu.cameras[c].pulse with
  | some q => q.level
  | none => p.trigInactive c

/-- R91: TAG_OUT of camera `c`. -/
def Part.tagOut (p : Part) (c : Fin 6) : BitVec 5 := p.ctu.cameras[c].lastTag

/-! ## Ejector and ports (R112, R127, R137) -/

/-- The inactive level of EJECT: low before the first adoption. -/
def Part.ejectInactive (p : Part) : Bool :=
  match p.cvt.profile with
  | some f => f.ejectActiveLow
  | none => false

/-- R112: EJECT. -/
def Part.eject (p : Part) : Bool :=
  match p.rej.output with
  | some q => q.level
  | none => p.ejectInactive

/-- R127: PORT_EN. -/
def Port.enabled (q : Port) : Bool := q.admission == .opened
/-- R137. -/
def Port.supervised (q : Port) : Bool := q.link && q.admission == .opened

/-! ## Transit list and pages -/

/-- The record of sequence `seq`, if it is in the list. -/
def Part.record (p : Part) (seq : Word) : Option Record := p.trl.records.find? fun r => r.seq == seq

/-- R186: the FILLING page. -/
def Part.fillingPage (p : Part) : Option (Fin 8) := eights.find? fun i => p.rpu.pages[i].state == .filling

/-! ## Registers and INT (R15, R184, R195, R196) -/

/-- R184: the bulletin's counts differ. -/
def Bulletin.news (b : Bulletin) : Bool := b.change != b.seen

/-- The ten bulletin indices. -/
def tens : List (Fin 10) := [0, 1, 2, 3, 4, 5, 6, 7, 8, 9]

/-- R184: bit b of NEWS is set while bulletin b's counts differ. -/
def Part.newsRegister (p : Part) : Half :=
  BitVec.ofNat 16 ((tens.map fun b => if p.rpu.bulletins[b].news then 2 ^ b.val else 0).sum)

/-- R184: INT. -/
def Part.int (p : Part) : Bool :=
  tens.any fun b => p.rpu.bulletins[b].news && decide (p.rpu.threshold ≤ p.rpu.bulletins[b].level.code)

/-- R195, R196: the STATE register. -/
def Part.stateRegister (p : Part) : Half :=
  BitVec.ofNat 16 (flag (p.rpu.phase == .ready) + 2 * flag p.cvt.profile.isSome + 4 * flag p.rpu.fault.kind.isSome +
    8 * flag p.rpu.lineResetBusy)

/-- R15, R195, R197: what a host read of a register word returns, the latch as it stands; word 5 is read by
TIME_SNAPSHOT_READ, which loads the latch first. -/
def Part.registerRead (p : Part) (register : Fin 8) : Half :=
  if p.rpu.phase = .startingUp then 0
  else match register with
    | 0 => 0xC601
    | 1 => p.stateRegister
    | 2 => p.newsRegister
    | 3 => BitVec.ofNat 16 p.rpu.threshold
    | 4 => 0
    | 5 => p.now.extractLsb' 0 16
    | 6 => p.mtu.latch.extractLsb' 16 16
    | 7 => p.mtu.latch.extractLsb' 32 16

end Sys2Proof.Machine
end

