-- ==== Sys2Proof/Machine/Memory.lean ====
section
/-! DEFINITION. The exchange memory (R173, R174): a list of (offset, byte) pairs in one canonical form, read and
written by bytes; little-endian fields; the packing of a mirror record (R192). -/

namespace Sys2Proof.Machine

abbrev Memory := List Host.Cell

/-- The canonical form: offsets strictly rising, and no byte listed that equals what an unlisted offset reads as. -/
def Memory.wf (m : Memory) : Bool :=
  decide (m.Pairwise (fun c d => c.1 < d.1)) && m.all fun c => c.2 != 0

/-- One byte. An unlisted offset reads 0: power-on writes 0 into the whole exchange memory (R197). -/
def Memory.byte : Memory → Nat → Byte
  | [], _ => 0
  | (k, b) :: m, a => if k = a then b else Memory.byte m a

/-- The bytes that stand from `base` on, as entries. -/
def Memory.entries : Nat → List Byte → Memory
  | _, [] => []
  | base, b :: bs => if b = 0 then Memory.entries (base + 1) bs else (base, b) :: Memory.entries (base + 1) bs

/-- Store `bytes` from `base` on. -/
def Memory.write (m : Memory) (base : Nat) (bytes : List Byte) : Memory :=
  m.filter (fun c => decide (c.1 < base)) ++
    (Memory.entries base bytes ++ m.filter (fun c => decide (base + bytes.length ≤ c.1)))

/-- The part of the memory from `low` up to `high`. -/
def Memory.span (m : Memory) (low high : Nat) : Memory :=
  m.filter (fun c => decide (low ≤ c.1) && decide (c.1 < high))

/-- A little-endian number of `n` bytes at `a` (R174). -/
def Memory.number (m : Memory) (a : Nat) : Nat → Nat
  | 0 => 0
  | n + 1 => (Memory.byte m a).toNat + 256 * Memory.number m (a + 1) n

/-- The `n` bytes of a number, least significant first. -/
def leBytes : Nat → Nat → List Byte
  | 0, _ => []
  | n + 1, v => BitVec.ofNat 8 v :: leBytes n (v / 256)

/-! ## Packing a record (R192): each field at the next offset that is a multiple of its size -/

/-- A field of 1, 2, 4 or 8 bytes. -/
structure Field where
  size : Nat
  value : Nat
  deriving DecidableEq, Repr

def u8 (n : Nat) : Field := ⟨1, n⟩
def u16 (n : Nat) : Field := ⟨2, n⟩
def u32 (n : Nat) : Field := ⟨4, n⟩
def u64 (n : Nat) : Field := ⟨8, n⟩

/-- A flag in one byte, 1 while it holds: one whose code the chapter gives so, whose list names the other value first
("waiting or due"), or whose values no list names (log 12). -/
def uFlag (b : Bool) : Field := if b then ⟨1, 1⟩ else ⟨1, 0⟩

/-- R192: a flag without a code of its own in one byte, by its position in the list that first names its values: 0 while
it holds where that value is named first ("set or clear", "yes or no", "pressed or released"). -/
def uNamedFirst (b : Bool) : Field := if b then ⟨1, 0⟩ else ⟨1, 1⟩

/-- R192: a field that may hold nothing is preceded by a byte that is 1 while it holds a value. -/
def uOption (width : Nat → Field) : Option Nat → List Field
  | some n => [u8 1, width n]
  | none => [u8 0, width 0]

/-- The bytes of `fields` laid out from `offset`. -/
def packFrom : Nat → List Field → List Byte
  | _, [] => []
  | offset, f :: fs =>
    let pad := (f.size - offset % f.size) % f.size
    List.replicate pad 0 ++ leBytes f.size f.value ++ packFrom (offset + pad + f.size) fs

end Sys2Proof.Machine
end

