-- ==== Sys2Proof/Machine/Mirror.lean ====
section
/-! DEFINITION. The status mirror (R192): what each of its eleven records holds, field by field in the order of the
owning rule's list, and where it stands. Log 12 says how R192 was read where it names no code. -/

namespace Sys2Proof.Machine

/-- The mirror records of R192. -/
inductive MirrorId where
  | mtu | cvt | profile | odk | trl | rbp | ctu | rej | spm | sac | rpu
  deriving DecidableEq, Repr

/-- The record's index among the update counts. -/
def MirrorId.index : MirrorId → Fin 11
  | .mtu => 0 | .cvt => 1 | .profile => 2 | .odk => 3 | .trl => 4 | .rbp => 5 | .ctu => 6 | .rej => 7 | .spm => 8
  | .sac => 9 | .rpu => 10

/-- R192: the record's offset. -/
def MirrorId.base : MirrorId → Nat
  | .mtu => 0x3000 | .cvt => 0x3040 | .profile => 0x3080 | .odk => 0x30C0 | .trl => 0x3100 | .rbp => 0x3200
  | .ctu => 0x3400 | .rej => 0x3600 | .spm => 0x3680 | .sac => 0x3880 | .rpu => 0x3A80

/-- R192: the record's size. -/
def MirrorId.size : MirrorId → Nat
  | .mtu | .cvt | .profile | .odk | .rpu => 64
  | .trl => 256
  | .rbp | .ctu | .spm | .sac => 512
  | .rej => 128

def MirrorId.all : List MirrorId := [.mtu, .cvt, .profile, .odk, .trl, .rbp, .ctu, .rej, .spm, .sac, .rpu]

/-- A signed 32-bit field, two's complement. -/
def s32 (n : Int) : Field := u32 (BitVec.ofInt 32 n).toNat

def t32 (t : Time) : Field := u32 (Time.low t).toNat
def optTime (t : Option Time) : List Field := uOption u32 (t.map fun x => (Time.low x).toNat)
def optU8 (n : Option Nat) : List Field := uOption u8 n

/-- R192: the Machine Time Unit's record. The pending step and its offset are shown as the offset behind one presence byte,
without a field of its own for the step: the model's choice (log 12). -/
def mtuFields (p : Part) : List Field :=
  let m := p.mtu
  [u64 m.beforeStep.toNat, u64 m.lastSync.toNat, s32 m.trim, u32 m.increment.toNat] ++
  uOption u32 (m.pendingStep.map fun q => (BitVec.ofInt 32 q.offset).toNat) ++
  [s32 m.lastOffset, u8 m.syncMode.code, u8 m.syncState.code] ++ optTime m.windowEnd ++ optTime m.lossDeadline

/-- R39: the tracker's record. The newest mark's position and its stamp each have a presence byte of their own: the model's
choice (log 12). -/
def cvtFields (p : Part) : List Field :=
  let c := p.cvt
  [u8 c.tracker.code, u8 c.paceState.code, u32 c.pace, u32 c.position.toNat, u32 c.highWater.toNat, u16 c.phase] ++
  uOption u32 (c.marks.getLast?.map fun m => m.pos.toNat) ++
  optTime (c.marks.getLast?.map fun m => m.stamp) ++
  [u8 c.marks.length, u32 c.depth, u16 c.encoderErrors, u16 c.reverseExcursions]

/-- R171: the profile record. Its last field, the time of the last adoption, reads 0 before any, without a presence byte:
the model's choice (log 40); so is one presence byte for the refusal's code and detail (log 12). -/
def profileFields (p : Part) : List Field :=
  let q := p.cvt.profileRecord
  [u32 (match p.cvt.profile with | some f => f.id.toNat | none => 0), u16 q.count, uFlag p.cvt.adoption.isSome] ++
  (match q.refusal with
    | some r => [u8 1, u8 r.result.code.toNat, u8 r.detail.toNat] ++ optU8 r.index
    | none => [u8 0, u8 0, u8 0, u8 0, u8 0]) ++
  [u32 q.adoptedAt.toNat]

/-- R192: the Order Desk's record. -/
def odkFields (p : Part) : List Field :=
  [u8 p.odk.queue.length, u8 p.odk.inflight.length, u16 p.odk.protocolErrors, u16 (p.odk.takeIdentity.toNat % 65536)]

/-- The cameras' views in the head record: six verdicts, then six trigger times, a camera that is not in the profile having
its places too, shown as absent. That is the model's choice (log 12). -/
def viewFields (views : List (Option CameraView)) : List Field :=
  (views.flatMap fun v => optU8 (v.map fun w => w.verdict.code)) ++
  (views.flatMap fun v => optTime (v.bind fun w => w.trigger))

/-- R60: the head record, times in their low 32 bits. MARKED and STEPPED are 1 while set, as R188's bits have them, though
their table lists them "set or clear": the model's choice (log 12). -/
def headFields (r : Record) : List Field :=
  [u32 r.seq.toNat, u32 r.entryPos.toNat, t32 r.entryTime, u8 r.slot] ++ optU8 (r.robot.map fun i => i.val) ++
  [u8 r.fill.code] ++ viewFields r.views.toList ++
  [uFlag r.marked, uFlag r.stepped, u8 r.decision.code, u8 r.causes.mask, u8 r.eject.code]

/-- R60: the Transit List's record. -/
def trlFields (p : Part) : List Field :=
  let t := p.trl
  let k := t.causes
  [u16 t.records.length, u32 t.nextSeq.toNat, u32 t.admitted, u32 t.passed, u32 t.rejected, u32 t.abandoned,
   u32 t.untracked, u32 k.fillShort, u32 k.fillMissing, u32 k.cameraFail, u32 k.noVerdict, u32 k.cameraOut,
   u32 k.marked] ++
  (match t.records with
    | r :: _ => u8 1 :: headFields r
    | [] => [u8 0, u32 0])

/-- R87: one robot. One presence byte stands before the halt origin with its member, and one before the pending window:
the model's choice (log 12). -/
def robotFields (r : Robot) : List Field :=
  let k := r.counters
  [u8 r.state.code] ++
  (match r.haltOrigin with
    | some o => [u8 1, u8 o.code, u8 o.member]
    | none => [u8 0, u8 0, u8 0]) ++
  optU8 (r.faultCause.map fun f => f.code.toNat) ++
  [uFlag r.pins.runAck, uFlag r.pins.haltAck, uFlag r.pins.fault, uFlag r.pins.fillOk, uFlag r.pins.fillShort,
   uFlag r.order.isSome, u16 r.live.opening, u16 r.live.closing] ++
  (match r.pendingWindow with
    | some w => [u8 1, u16 w.window.opening, u16 w.window.closing]
    | none => [u8 0, u16 0, u16 0]) ++
  [u8 r.failureRun, u32 k.ok, u32 k.short, u32 k.noReport, u32 k.unfilled, u32 k.stray, u32 k.duplicate]

/-- One slot: a robot, or none. -/
def slotEntry (slot : Option (Fin 6)) : List Field := optU8 (slot.map Fin.val)

/-- The slots of a rotation: how many, then twelve, those past its length reading none. That layout of a list, and the
presence byte rather than the code 255 for the slot NONE, are the model's choice (log 12). -/
def slotFields (slots : List (Option (Fin 6))) : List Field :=
  u8 slots.length :: (slots ++ List.replicate (12 - slots.length) none).flatMap slotEntry

/-- R87: the Robot Pacer's record. -/
def rbpFields (p : Part) : List Field :=
  (p.rbp.robots.toList.flatMap robotFields) ++ slotFields p.rbp.rotation.slots ++
  [uFlag p.rbp.rotation.skip, uFlag p.rbp.pendingRotation.isSome, u8 p.rbp.cursor]

/-- R108: one camera. Before the first adoption, where the spec gives no source and no required setting, both read 0; one
presence byte stands before the oldest fire's fields as a group: the model's choices (log 12). -/
def cameraFields (p : Part) (c : Fin 6) : List Field :=
  let k := p.ctu.cameras[c]
  let n := k.counters
  [u8 (p.cameraState c).code, uNamedFirst k.hostService, uNamedFirst k.zoneService, uNamedFirst k.degraded] ++
  optU8 (k.degradeCause.map fun d => d.code) ++ [uNamedFirst k.portSilent] ++
  (match p.cameraSettings c with
    | some f => [u8 f.source.code, uFlag f.required]
    | none => [u8 0, u8 0]) ++
  [u8 k.missedRun, u8 k.awaiting.length, u32 (k.awaiting.headD 0).toNat] ++
  (match k.schedule with
    | f :: _ => [u8 1, u32 f.seq.toNat] ++ optTime f.time ++ [uFlag f.due]
    | [] => [u8 0, u32 0, u8 0, u32 0, u8 0]) ++
  [uFlag k.pulse.isSome, u8 k.lastTag.toNat, u32 n.triggers, u32 n.late, u32 n.latePosition, u32 n.pass, u32 n.fail,
   u32 n.noVerdict, u32 n.stale, u32 n.ignored]

/-- R108: the Camera Trigger Unit's record. -/
def ctuFields (p : Part) : List Field := sixes.flatMap (cameraFields p)

/-- R124: the Reject Ejector's record. The number of pending pulses in 8 bits and the oldest pulse's number of members in
16 are the model's widths, and a flag byte of its own for the output being on, before the end time and its presence byte,
is the model's reading, as is one presence byte before the oldest pulse's fields as a group, which then read 0: the spec
states none of these (log 12). -/
def rejFields (p : Part) : List Field :=
  let e := p.rej
  let n := e.counters
  [uFlag e.output.isSome] ++ optTime (e.output.map fun q => q.ending) ++ [u8 e.schedule.length] ++
  (match e.schedule with
    | q :: _ => [u8 1, u32 (q.members.headD 0).toNat, u16 q.members.length] ++ optTime (q.times.map fun t => t.start)
    | [] => [u8 0, u32 0, u16 0, u8 0, u32 0]) ++
  [u8 e.confirm.length, u32 (e.confirm.headD 0).toNat, uFlag e.confirmLine, u32 n.pulses, u32 n.merges,
   u32 n.latePulse, u32 n.confirmed, u32 n.unconfirmed, u32 n.strayEject, u32 n.testPulses]

/-- R141: one port. The byte after the role holds the member or zone the role names, 0 for none, as R188 lays a PORT
record out; for the mirror that is the model's choice (log 12). -/
def portFields (q : Port) : List Field :=
  [u8 q.role.code, u8 q.role.member, u8 q.admission.code, uFlag q.enabled, uFlag q.link, uFlag q.link, uFlag q.act,
   uNamedFirst q.silent] ++ optTime q.deadline ++
  [u16 q.limit, u8 q.action.code, u16 q.drops, u16 q.silences, u16 q.quarantines]

/-- R141: the Switch Port Monitor's record. -/
def spmFields (p : Part) : List Field := uFlag p.spm.hallHold :: p.spm.ports.toList.flatMap portFields

def optCell (r : Option OrderRef) : List Field := optU8 (r.map fun x => x.cell.val)

/-- The member robots of zone `z` that are safe (R162), as a set of robots in one byte, a robot that is no member reading 0.
One flag byte for each robot could be meant: the model's choice (log 12). -/
def safeMask (p : Part) (z : Fin 8) : Nat :=
  (sixes.map fun r => if p.zoneHasRobot z r && p.rbp.robots[r].safe then 2 ^ r.val else 0).sum

/-- The robots of a resume set, one bit each. -/
def resumeMask (marks : List ResumeMark) : Nat :=
  marks.foldr (fun m n => flag (m != .absent) + 2 * n) 0

/-- R162: one zone. The resume set shows each robot's mark and the first failure's code, not its detail. Its layout, one
byte of bits and then six marks without presence bytes, 0 for a robot outside the set, and that of the requested fields,
each with a presence byte but for the clamped flag, are the model's choice (log 12). -/
def zoneFields (p : Part) (i : Fin 8) : List Field :=
  let z := p.sac.zones[i]
  [u8 z.state.code, u8 z.level.code] ++
  (match z.request with
    | some q => [u8 1, u8 3, u8 1, u8 q.origin.code, u8 1, u8 q.minutes, uFlag q.clamped, u8 1, u16 q.badge.toNat]
    | none => [u8 0, u8 0, u8 0, u8 0, u8 0, u8 0, u8 0, u8 0, u16 0]) ++
  optU8 (if z.origin = .none then none else some z.origin.code) ++ optTime z.expiry ++ [u16 z.badge.toNat, u8 z.haltedByZone.toNat] ++ optCell z.accessOrder ++
  optCell z.resumeOrder ++ [u8 (resumeMask z.resumeSet.toList)] ++ (z.resumeSet.toList.map fun m => u8 m.code) ++
  optU8 (z.resumeFailure.map fun f => f.result.code.toNat) ++
  [uFlag z.door] ++ optTime z.doorDeadline ++ [uNamedFirst z.button] ++ optTime z.buttonDeadline ++
  [uFlag z.doorRel, uFlag z.doorLine, uFlag z.reqLine, u8 (safeMask p i)]

/-- R162: the Service Access Controller's record. -/
def sacFields (p : Part) : List Field := eights.flatMap (zoneFields p)

/-- R192: the Report Unit's record. -/
def rpuFields (p : Part) : List Field :=
  [u32 p.rpu.outcomeNumber.toNat, u32 p.rpu.lastPageSeq.toNat, u8 p.rpu.nextPage.val, uFlag p.rpu.dropping,
   u8 p.rpu.threshold] ++ optTime p.rpu.ageDeadline

/-- The fields of a mirror record after its update count. -/
def mirrorFields (p : Part) : MirrorId → List Field
  | .mtu => mtuFields p | .cvt => cvtFields p | .profile => profileFields p | .odk => odkFields p
  | .trl => trlFields p | .rbp => rbpFields p | .ctu => ctuFields p | .rej => rejFields p | .spm => spmFields p
  | .sac => sacFields p | .rpu => rpuFields p

/-- The bytes of a mirror record: its update count, then its fields, the rest of its space 0 (R192, R193). -/
def mirrorBytes (p : Part) (m : MirrorId) : List Byte :=
  (packFrom 0 (u16 p.rpu.updateCounts[m.index].toNat :: mirrorFields p m) ++ List.replicate m.size 0).take m.size

end Sys2Proof.Machine
end

