-- ==== Sys2Proof/Machine/Ops.lean ====
section
/-! DEFINITION. The operations every block uses: changing one block, writing the exchange memory, rewriting a mirror
record (R193), raising a bulletin change (R183), reporting a fault (R191), handing over an outcome record (R186, R187),
closing pages, and completing an order (R179). -/

namespace Sys2Proof.Machine

/-! ## Changing one block -/

def Part.modMtu (p : Part) (f : Mtu → Mtu) : Part := { p with mtu := f p.mtu }
def Part.modCvt (p : Part) (f : Cvt → Cvt) : Part := { p with cvt := f p.cvt }
def Part.modTrl (p : Part) (f : Trl → Trl) : Part := { p with trl := f p.trl }
def Part.modRbp (p : Part) (f : Rbp → Rbp) : Part := { p with rbp := f p.rbp }
def Part.modCtu (p : Part) (f : Ctu → Ctu) : Part := { p with ctu := f p.ctu }
def Part.modRej (p : Part) (f : Rej → Rej) : Part := { p with rej := f p.rej }
def Part.modSpm (p : Part) (f : Spm → Spm) : Part := { p with spm := f p.spm }
def Part.modSac (p : Part) (f : Sac → Sac) : Part := { p with sac := f p.sac }
def Part.modOdk (p : Part) (f : Odk → Odk) : Part := { p with odk := f p.odk }
def Part.modRpu (p : Part) (f : Rpu → Rpu) : Part := { p with rpu := f p.rpu }

/-- One entry of a table changed by `f`. -/
def modAt {α : Type} {n : Nat} (v : Vector α n) (i : Fin n) (f : α → α) : Vector α n := v.set i (f v[i])

def Part.modRobot (p : Part) (r : Fin 6) (f : Robot → Robot) : Part :=
  p.modRbp fun b => { b with robots := modAt b.robots r f }
def Part.modCamera (p : Part) (c : Fin 6) (f : Camera → Camera) : Part :=
  p.modCtu fun b => { b with cameras := modAt b.cameras c f }
def Part.modPort (p : Part) (i : Fin 16) (f : Port → Port) : Part :=
  p.modSpm fun b => { b with ports := modAt b.ports i f }
def Part.modZone (p : Part) (z : Fin 8) (f : Zone → Zone) : Part :=
  p.modSac fun b => { b with zones := modAt b.zones z f }
def Part.modPage (p : Part) (i : Fin 8) (f : Page → Page) : Part :=
  p.modRpu fun b => { b with pages := modAt b.pages i f }
/-- The record of sequence `seq`, if it is in the list, changed by `f`; the others as they are. -/
def Part.modRecord (p : Part) (seq : Word) (f : Record → Record) : Part :=
  p.modTrl fun t => { t with records := t.records.map fun r => if r.seq = seq then f r else r }

/-- SYNC is sampled at `level`. -/
def Part.setSyncLine (p : Part) (level : Bool) : Part := { p with syncLine := level }
/-- LRST is sampled at `level`. -/
def Part.setLrst (p : Part) (level : Bool) : Part := { p with lrst := level }
/-- A free value has been used: the next one is another (log 10, log 11). -/
def Part.spendFree (p : Part) : Part := { p with freeCount := p.freeCount + 1 }

/-- Counters saturate and do not wrap (00_scope.md, Counters). -/
def saturate (top n : Nat) : Nat := if n < top then n + 1 else top
/-- A 32-bit counter gains 1. -/
def inc32 (n : Nat) : Nat := saturate 4294967295 n
/-- A 16-bit counter gains 1. -/
def inc16 (n : Nat) : Nat := saturate 65535 n
/-- A run counter gains 1, up to 255. -/
def inc8 (n : Nat) : Nat := saturate 255 n

/-! ## The exchange memory -/

/-- The part stores `bytes` from offset `base` on. -/
def Part.store (p : Part) (base : Nat) (bytes : List Byte) : Part := { p with mem := Memory.write p.mem base bytes }

/-- A little-endian field of `n` bytes at `offset`. -/
def Part.load (p : Part) (offset n : Nat) : Nat := Memory.number p.mem offset n

/-- R193: a block rewrites its mirror record: the count is raised by 1, the record written, the count raised by 1. -/
def Part.rewrite (p : Part) (m : MirrorId) : Part :=
  let q := p.modRpu fun u => { u with updateCounts := modAt u.updateCounts m.index (· + 2) }
  q.store m.base (mirrorBytes q m)

/-! ## Bulletins (R182, R183) -/

/-- R182: a bulletin's bytes. -/
def Bulletin.bytes (b : Bulletin) : List Byte :=
  leBytes 2 b.change.toNat ++ leBytes 2 b.seen.toNat ++
  [BitVec.ofNat 8 b.level.code, b.levelCause, b.levelMember, b.lastCause] ++ leBytes 4 b.time.toNat ++
  [b.lastMember, 0, 0, 0]

/-- R173: the bulletin's offset. -/
def bulletinBase (b : Fin 10) : Nat := 0x0100 + 16 * b.val

/-- The part writes bulletin `b` as it stands. -/
def Part.storeBulletin (p : Part) (b : Fin 10) : Part := p.store (bulletinBase b) p.rpu.bulletins[b].bytes

/-- R183: the bulletin after a change of this level, cause and member. -/
def Bulletin.changed (b : Bulletin) (level : Severity) (cause member : Byte) (now : BitVec 32) : Bulletin :=
  let b := { b with
    change := if b.change + 1 = b.seen then b.change + 2 else b.change + 1
    lastCause := cause
    lastMember := member
    time := now }
  if b.level.code ≤ level.code then { b with level := level, levelCause := cause, levelMember := member } else b

/-- R183: a block raises a change. Member 0 where none is given: the rules name it for all but the changes of the TIME
bulletin and UNLOCKED, for which it is the model's choice (log 37). -/
def Part.raise (p : Part) (n : News) (member : Byte := 0) : Part :=
  let p := p.modRpu fun u =>
    { u with bulletins := modAt u.bulletins n.bulletin fun b =>
        b.changed n.severity n.code member (Time.low p.now) }
  p.storeBulletin n.bulletin

/-! ## The line fault record (R190, R191) -/

/-- R190: the record's bytes. -/
def FaultRecord.bytes (f : FaultRecord) : List Byte :=
  [BitVec.ofNat 8 (flag f.kind.isSome), (match f.kind with | some k => k.code | none => 0), f.member, 0] ++
  leBytes 4 f.seq.toNat ++ leBytes 4 f.time.toNat ++ leBytes 2 f.further ++ [0, 0]

def Part.storeFault (p : Part) : Part := p.store 0x0E00 p.rpu.fault.bytes

/-- R191: a block reports a fault: the first is latched, a later one counted. -/
def Part.report (p : Part) (k : FaultKind) (member : Byte) (seq : Word := 0) : Part :=
  let p := p.modRpu fun u =>
    { u with fault :=
        match u.fault.kind with
        | none => { kind := some k, member := member, seq := seq, time := Time.low p.now, further := u.fault.further }
        | some _ => { u.fault with further := inc16 u.fault.further } }
  p.storeFault.raise (.fault k) member

/-! ## Outcome pages (R185 to R187) -/

/-- R185: a directory entry's bytes. -/
def Page.bytes (g : Page) : List Byte :=
  leBytes 2 g.state.code ++ [BitVec.ofNat 8 g.count, BitVec.ofNat 8 g.cause.code] ++ leBytes 4 g.sequence.toNat ++
  leBytes 4 g.first.toNat ++ leBytes 4 g.last.toNat

/-- R173: the directory entry's offset. -/
def entryBase (i : Fin 8) : Nat := 0x0E40 + 16 * i.val

def Part.storePage (p : Part) (i : Fin 8) : Part := p.store (entryBase i) p.rpu.pages[i].bytes

/-- R186: the page sequence after `s`; from 4,294,967,295 it goes to 1. -/
def nextPageSequence (s : Word) : Word := if s = 4294967295 then 1 else s + 1

/-- R186: the next page becomes FILLING. -/
def Part.openPage (p : Part) (i : Fin 8) : Part :=
  let sequence := nextPageSequence p.rpu.lastPageSeq
  let p := p.modRpu fun u =>
    { u with pages := modAt u.pages i fun _ => { Page.cleared with state := .filling, sequence := sequence }
             lastPageSeq := sequence
             dropping := false }
  p.storePage i

/-- R186: page `i` closes with a cause; the page after it becomes FILLING if it is EMPTY. -/
def Part.closePage (p : Part) (i : Fin 8) (cause : CloseCause) : Part :=
  let p := p.modRpu fun u =>
    { u with pages := modAt u.pages i fun g => { g with state := .full, cause := cause }
             ageDeadline := none
             nextPage := i + 1 }
  let p := (p.storePage i).raise .pageFull (BitVec.ofNat 8 i.val)
  let p := if p.rpu.pages[i + 1].state = .empty then p.openPage (i + 1) else p
  p.rewrite .rpu

/-- R187: the header's dropped-outcome count. -/
def Part.storeDropped (p : Part) : Part := p.store 0x000C (leBytes 4 p.rpu.dropped)

/-- R187: a record handed over with no page FILLING is dropped. -/
def Part.dropOutcome (p : Part) : Part :=
  let first := !p.rpu.dropping
  let p := (p.modRpu fun u => { u with dropped := inc32 u.dropped, dropping := true }).storeDropped
  if first then p.raise .dropping else p

/-- R173: where record `k` of page `i` stands. -/
def recordBase (i : Fin 8) (k : Nat) : Nat := 0x1000 + 1024 * i.val + 32 * k

/-- R186: the whole record is written into the FILLING page, which closes when its count reaches 32. -/
def Part.fillPage (p : Part) (i : Fin 8) (bytes : List Byte) : Part :=
  let now := Time.low p.now
  let count := p.rpu.pages[i].count
  let p := p.store (recordBase i count) bytes
  let p := p.modRpu fun u =>
    { u with pages := modAt u.pages i fun g =>
               { g with count := count + 1, last := now, first := if count = 0 then now else g.first }
             ageDeadline := if count = 0 then some (p.now + 2000000) else u.ageDeadline }
  let p := p.storePage i
  if count + 1 = 32 then p.closePage i .count else p.rewrite .rpu

/-- R186, R188: a block hands over an outcome record: its kind and its bytes from offset 8 on. -/
def Part.handOutcome (p : Part) (kind : Byte) (body : List Byte) : Part :=
  let p := p.modRpu fun u => { u with outcomeNumber := u.outcomeNumber + 1 }
  match p.fillingPage with
  | some i =>
    p.fillPage i ([kind, 0] ++ leBytes 2 (p.rpu.outcomeNumber.toNat % 65536) ++ leBytes 4 (Time.low p.now).toNat ++ body)
  | none => p.dropOutcome.rewrite .rpu

/-! ## Completing an order (R179) -/

/-- R173: the cell's offset. -/
def cellBase (n : Fin 48) : Nat := 0x0200 + 64 * n.val

/-- R175, R179: what the desk writes into a completed cell. -/
def Part.writeResult (p : Part) (n : Fin 48) (kind tag : Nat) (takeNumber : Nat) (c : Completion) : Part :=
  p.store (cellBase n)
    ([if c.result.refuses then 4 else 3, BitVec.ofNat 8 kind, c.result.code, c.detail] ++
     leBytes 4 (Time.low p.now).toNat ++ leBytes 2 tag ++ leBytes 2 takeNumber)

/-- R179: the entry a completion refers to: the same cell and the same take. -/
def Odk.entry (o : Odk) (ref : OrderRef) : Option InFlight := o.inflight.find? fun e => e.ref == ref

/-- R179: an order completes. Without its entry nothing is written; an orphaned entry is only removed; an order kept
past its take raises COMPLETED. -/
def Part.complete (p : Part) (ref : OrderRef) (result : Result) (detail : Byte := 0) : Part :=
  match p.odk.entry ref with
  | none => p
  | some e =>
    let p := p.modOdk fun o => { o with inflight := o.inflight.filter fun x => x.ref != ref }
    if e.orphaned then p.rewrite .odk
    else
      let p := p.writeResult ref.cell e.kind.toNat e.tag.toNat (ref.takeId.toNat % 65536) ⟨result, detail⟩
      if e.kept then (p.raise .completed (BitVec.ofNat 8 ref.cell.val)).rewrite .odk else p

/-- An order that may be absent completes. -/
def Part.completeIf (p : Part) (ref : Option OrderRef) (result : Result) (detail : Byte := 0) : Part :=
  match ref with
  | some x => p.complete x result detail
  | none => p

/-! ## Records -/

/-- R46: a field that is written while UNDECIDED; the write to a decided or absent record is dropped. -/
def Part.evidence (p : Part) (seq : Word) (f : Record → Record) : Part :=
  p.modRecord seq fun r => if r.decision = .undecided then f r else r

/-- R46: the fill result goes from PENDING to one final value. -/
def Part.setFill (p : Part) (seq : Word) (v : FillResult) : Part :=
  p.evidence seq fun r => if r.fill = .pending then { r with fill := v } else r

/-- The verdict goes to a final value, or to TRIGGERED from NOT_YET; a final verdict stays (R46). -/
def CameraView.judge (w : CameraView) (v : Verdict) : CameraView :=
  match w.verdict with
  | .notYet | .triggered => { w with verdict := v }
  | .pass | .fail | .noVerdict | .cameraOut | .exempt => w

/-- R46: a camera's verdict is written. -/
def Part.setVerdict (p : Part) (seq : Word) (c : Fin 6) (v : Verdict) : Part :=
  p.evidence seq fun r => { r with views := modAt r.views c (Option.map (·.judge v)) }

/-- R46: a camera's trigger time is written, once. -/
def Part.setTrigger (p : Part) (seq : Word) (c : Fin 6) (t : Time) : Part :=
  p.evidence seq fun r =>
    { r with views := modAt r.views c (Option.map fun w => if w.trigger.isNone then { w with trigger := some t } else w) }

/-- The Reject Ejector writes the eject state (R46, R52). -/
def Part.setEject (p : Part) (seq : Word) (e : EjectState) : Part := p.modRecord seq fun r => { r with eject := e }

end Sys2Proof.Machine
end

