-- ==== Sys2Proof/Machine/Pace.lean ====
section
/-! DEFINITION. The arithmetic of pace and projection (R31, R33, R34) and the positions of a record's stations (R28). -/

namespace Sys2Proof.Machine

/-- R33: the pace of a window, or none where it is beyond the crawl limit. `spacing` is M. -/
def computePace (marks : List Mark) (spacing crawlLimit : Nat) : Option Nat :=
  match marks.head?, marks.getLast? with
  | some a, some b =>
    let n := marks.length - 1
    let span := (b.stamp - a.stamp).toNat
    let pace := max 1 (span * 65536 / (n * spacing))
    if pace ≤ 4294967295 ∧ pace ≤ crawlLimit then some pace else none
  | _, _ => none

/-- R31: the mark timeout T_m in microseconds. -/
def markTimeout (spacing crawlLimit : Nat) : Nat := spacing * crawlLimit / 65536

/-- R34: the projected arrival at `x`: only while TIMED, and only for a target ahead of the newest mark. -/
def Part.project (p : Part) (x : Position) : Option Time :=
  match p.cvt.paceState, p.cvt.marks.getLast? with
  | .timed, some m =>
    let d := (x - m.pos).toInt
    if d ≤ 0 then none
    else some (m.stamp + BitVec.ofNat 48 ((d.toNat * p.cvt.pace + 32768) / 65536))
  | _, _ => none

/-- R22: the position is reached. -/
def Part.isReached (p : Part) (x : Position) : Bool := Position.reached x p.cvt.highWater

/-- A distance in counts. -/
def counts (n : Nat) : Position := BitVec.ofNat 32 n

/-- R28: where a station of a record lies. -/
def Profile.stationOf (f : Profile) (r : Record) : Station → Position
  | .robot =>
    match r.robot with
    | some i => r.entryPos + counts f.robots[i].station
    | none => r.entryPos
  | .camera c => r.entryPos + counts f.cameras[c].station
  | .decision => r.entryPos + counts f.decision
  | .ejector => r.entryPos + counts f.ejector
  | .confirmEnd => r.entryPos + counts f.ejector + counts f.confirmSpan

/-- R28: the stations a new record will pass, in the order in which they are taken at one position. -/
def Profile.stations (f : Profile) : List Station :=
  .robot :: (sixes.filter fun c => f.cameras[c].present).map .camera ++ [.decision, .ejector, .confirmEnd]

end Sys2Proof.Machine
end

