-- ==== Sys2Proof/Machine/Cameras.lean ====
section
/-! DEFINITION. The Camera Trigger Unit (05_inspection_cameras.md): degrading and state changes, firing, the awaiting
list, verdicts, closing at the decision point, and its part of an adoption and of a line reset. -/

namespace Sys2Proof.Machine

/-- A camera counter gains 1. -/
def Part.countCamera (p : Part) (c : Fin 6) (f : CameraCounters → CameraCounters) : Part :=
  p.modCamera c fun k => { k with counters := f k.counters }

/-- R107: a verdict of this camera becomes NO_VERDICT and is counted. -/
def Part.noVerdict (p : Part) (seq : Word) (c : Fin 6) : Part :=
  ((p.setVerdict seq c .noVerdict).countCamera c fun n => { n with noVerdict := inc32 n.noVerdict }).rewrite .ctu

/-- R93: leaving ACTIVE empties the awaiting list, each entry's verdict becoming NO_VERDICT. -/
def Part.emptyAwaiting (p : Part) (c : Fin 6) : Part :=
  let seqs := p.ctu.cameras[c].awaiting
  seqs.foldl (fun p seq => p.noVerdict seq c) (p.modCamera c fun k => { k with awaiting := [] })

/-- R104: the change each degrade cause raises. -/
def DegradeCause.news : DegradeCause → News
  | .missedVerdicts => .missedVerdicts
  | .portSilent => .portSilent

/-- R104: degrading a camera; nothing if it is degraded already. -/
def Part.degrade (p : Part) (c : Fin 6) (cause : DegradeCause) : Part :=
  if p.ctu.cameras[c].degraded then p
  else
    let wasActive := p.cameraState c = .active
    let p := p.modCamera c fun k => { k with degraded := true, degradeCause := some cause, missedRun := 0 }
    let p := (p.raise cause.news (BitVec.ofNat 8 c.val)).rewrite .ctu
    if wasActive then p.emptyAwaiting c else p

/-- The missed threshold of the profile. -/
def Part.missedThreshold (p : Part) (c : Fin 6) : Nat :=
  match p.cameraSettings c with
  | some k => k.threshold
  | none => 0

/-- R104: the missed run gains 1, and degrades the camera at its threshold; the mirror record shows it (R108). -/
def Part.gainMissed (p : Part) (c : Fin 6) : Part :=
  let run := inc8 p.ctu.cameras[c].missedRun
  let p := (p.modCamera c fun k => { k with missedRun := run }).rewrite .ctu
  if p.missedThreshold c ≠ 0 ∧ run = p.missedThreshold c then p.degrade c .missedVerdicts else p

/-! ## Firing (R91, R96 to R100) -/

/-- A container's camera tag: the low 5 bits of its sequence. -/
def tagOf (seq : Word) : BitVec 5 := seq.setWidth 5

/-- R100: room must be made before `seq` joins. -/
def Camera.full (k : Camera) (seq : Word) : Bool :=
  decide (16 ≤ k.awaiting.length) || k.awaiting.any fun s => tagOf s == tagOf seq

/-- R100: oldest entries are removed until `seq` can join; the first removal of the event raises AWAIT_FULL. `fuel`
bounds the removals by the list's length. -/
def Part.makeRoom : Nat → Bool → Part → Fin 6 → Word → Part
  | 0, _, p, _, _ => p
  | fuel + 1, first, p, c, seq =>
    if p.ctu.cameras[c].full seq then
      match p.ctu.cameras[c].awaiting with
      | [] => p
      | oldest :: rest =>
        let p := (p.modCamera c fun k => { k with awaiting := rest }).noVerdict oldest c
        let p := if first then p.raise .awaitFull (BitVec.ofNat 8 c.val) else p
        Part.makeRoom fuel false (p.gainMissed c) c seq
    else p

/-- R97, R100: the container joins the awaiting list, unless making room has degraded the camera. -/
def Part.joinAwaiting (p : Part) (c : Fin 6) (seq : Word) : Part :=
  let p := Part.makeRoom (p.ctu.cameras[c].awaiting.length + 1) true p c seq
  if p.cameraState c = .active then
    (p.setVerdict seq c .triggered).modCamera c fun k => { k with awaiting := k.awaiting ++ [seq] }
  else p

/-- R91, R97: the oldest fire of the schedule happens: its pulse starts, its trigger time is recorded, and an ACTIVE
camera's container joins the awaiting list. -/
def Part.happen (p : Part) (c : Fin 6) : Part :=
  match p.ctu.cameras[c].schedule, p.cameraSettings c with
  | f :: rest, some k =>
    let active := p.cameraState c = .active
    let now := p.now
    let p := p.modCamera c fun m =>
      { m with schedule := rest
               pulse := some ⟨now + BitVec.ofNat 48 k.width, !k.activeLow⟩
               lastTag := tagOf f.seq
               counters := { m.counters with triggers := inc32 m.counters.triggers } }
    let p := p.setTrigger f.seq c now
    (if active then p.joinAwaiting c f.seq else p).rewrite .ctu
  | _, _ => p

/-- R97: the entries up to and including `seq` are marked due. -/
def markThrough (seq : Word) : List Fire → List Fire
  | [] => []
  | f :: fs => { f with due := true } :: (if f.seq = seq then fs else markThrough seq fs)

/-- The fire of `seq` in the camera's schedule. -/
def Camera.fire (k : Camera) (seq : Word) : Option Fire := k.schedule.find? fun f => f.seq == seq

/-- R97: the fire of `seq` falls due; older entries are marked due with it, and the oldest happens if no pulse is
on. -/
def Part.fallDue (p : Part) (c : Fin 6) (seq : Word) : Part :=
  if (p.ctu.cameras[c].fire seq).isSome then
    let p := p.modCamera c fun k => { k with schedule := markThrough seq k.schedule }
    if p.ctu.cameras[c].pulse.isNone then p.happen c else p
  else p

/-- The fire of `seq` gets a time, or waits by position. -/
def Part.setFireTime (p : Part) (c : Fin 6) (seq : Word) (t : Option Time) : Part :=
  p.modCamera c fun k => { k with schedule := k.schedule.map fun f => if f.seq = seq then { f with time := t } else f }

/-- The target of `seq` on camera `c` with the camera's settings (R96). -/
def Part.cameraTarget (p : Part) (c : Fin 6) (seq : Word) : Option (Position × CameraSettings) :=
  match p.record seq, p.cameraSettings c with
  | some r, some k => some (r.entryPos + counts k.station, k)
  | _, _ => none

/-- R35: the block takes the fire of `seq`: scheduled by projection, due at once if its time or its target is already
reached, or by position. -/
def Part.takeFire (p : Part) (c : Fin 6) (seq : Word) : Part :=
  match p.cameraTarget c seq with
  | none => p
  | some (x, k) =>
    if p.isReached x then p.fallDue c seq
    else
      match p.project x with
      | none => p.setFireTime c seq none
      | some eta =>
        let t := eta - BitVec.ofNat 48 k.lead
        let p := p.setFireTime c seq (some t)
        if Time.reached t p.now then p.fallDue c seq else p

/-- The camera fires: ACTIVE or DEGRADED (R92). -/
def CameraState.fires (s : CameraState) : Bool := s == .active || s == .degraded

/-- R96: camera `c`, if present, gets a fire for the new container. -/
def Part.addFire (p : Part) (seq : Word) (c : Fin 6) : Part :=
  if p.cameraPresent c then
    let p := p.modCamera c fun k => { k with schedule := k.schedule ++ [{ seq := seq, time := none, due := false }] }
    if (p.cameraState c).fires then p.takeFire c seq else p
  else p

/-- R96: at an admission each present camera gets a fire for the new container. -/
def Part.addFires (p : Part) (seq : Word) : Part := sixes.foldl (fun p c => p.addFire seq c) p

/-- R36: a new pace reaches the pending fire of `seq`: its projection is asked afresh; one whose time is reached falls
due. One that is due already keeps its mark, the model's choice (log 24). A reached target gives no time (R34); that it
then leaves the fire as it stands is the model's choice (log 33). -/
def Part.repaceFire (p : Part) (c : Fin 6) (seq : Word) : Part :=
  match p.cameraTarget c seq with
  | none => p
  | some (x, k) =>
    match p.project x with
    | none => p
    | some eta =>
      let t := eta - BitVec.ofNat 48 k.lead
      let p := p.setFireTime c seq (some t)
      if Time.reached t p.now then p.fallDue c seq else p

/-- R36, R93: a new pace reaches every pending fire of camera `c`; none is asked while it is in SERVICE. -/
def Part.repaceCamera (p : Part) (c : Fin 6) : Part :=
  if (p.cameraState c).fires then
    (p.ctu.cameras[c].schedule.map (·.seq)).foldl (fun p seq => p.repaceFire c seq) p
  else p

/-- R36: a new pace reaches every pending fire. -/
def Part.camerasNewPace (p : Part) : Part := sixes.foldl (fun p c => p.repaceCamera c) p

/-- R38: pace is lost: every fire scheduled by time waits for its position. A due one keeps its mark: the
model's choice (log 24). -/
def Part.camerasPaceLost (p : Part) : Part :=
  sixes.foldl (fun p c =>
    p.modCamera c fun k => { k with schedule := k.schedule.map fun f => { f with time := none } }) p

/-- R97: the oldest fire of the camera whose scheduled time is reached and which is not due yet. -/
def Camera.timeReached (k : Camera) (now : Time) : Option Fire :=
  k.schedule.find? fun f => !f.due && (match f.time with | some t => Time.reached t now | none => false)

/-- R97: a camera fire's scheduled time is reached. -/
def Part.cameraFireTime (p : Part) (c : Fin 6) : Part :=
  match p.ctu.cameras[c].timeReached p.now with
  | some f => if (p.cameraState c).fires then p.fallDue c f.seq else p
  | none => p

/-- R98: the trigger pulse's end time is reached; the oldest due fire happens, late. -/
def Part.triggerPulseEnd (p : Part) (c : Fin 6) : Part :=
  match p.ctu.cameras[c].pulse with
  | none => p
  | some q =>
    if Time.reached q.ending p.now then
      let p := p.modCamera c fun k => { k with pulse := none }
      let p :=
        match p.ctu.cameras[c].schedule with
        | f :: _ =>
          if f.due then (p.countCamera c fun n => { n with late := inc32 n.late }).happen c else p
        | [] => p
      p.rewrite .ctu
    else p

/-- R99: a container reaches camera `c`'s station. A fire that falls due here drops its scheduled time (R37), also where
it then waits behind a pulse (log 24). -/
def Part.cameraStation (p : Part) (c : Fin 6) (seq : Word) : Part :=
  match p.ctu.cameras[c].fire seq, p.cameraState c with
  | some f, .service =>
    let required := match p.cameraSettings c with | some k => k.required | none => false
    (p.modCamera c fun k => { k with schedule := k.schedule.filter fun g => g.seq != f.seq }).setVerdict seq c
      (if required then .cameraOut else .exempt)
  | some f, .active | some f, .degraded =>
    if f.due then p
    else
      let p :=
        if f.time.isSome && p.cvt.paceState == .timed then
          p.countCamera c fun n => { n with latePosition := inc32 n.latePosition }
        else p
      (p.setFireTime c seq none).fallDue c seq
  | some _, .off => p
  | none, _ =>
    match (p.record seq).bind fun r => r.views[c] with
    | some w => if w.verdict = .notYet then p.noVerdict seq c else p
    | none => p

/-! ## State changes (R92 to R95) -/

/-- R93: what a change of state does, from the state before: the awaiting list on leaving ACTIVE, the schedule on
entering or leaving SERVICE. The change that degrading raises is R104's own. -/
def Part.cameraChanged (p : Part) (c : Fin 6) (before : CameraState) : Part :=
  let after := p.cameraState c
  let member : Byte := BitVec.ofNat 8 c.val
  if before = after then p
  else
    let p := if before = .active then p.emptyAwaiting c else p
    if after = .service then
      ((p.modCamera c fun k =>
        { k with schedule := k.schedule.map fun f => { f with time := none, due := false } }).raise .serviceIn
          member).rewrite .ctu
    else if before = .service then
      let p := (p.raise .serviceOut member).rewrite .ctu
      (p.ctu.cameras[c].schedule.map (·.seq)).foldl (fun p seq => p.takeFire c seq) p
    else if before = .degraded ∧ after = .active then (p.raise .restored member).rewrite .ctu
    else p

/-- A flag of the camera changes, with the change of state that follows. -/
def Part.setCameraFlags (p : Part) (c : Fin 6) (f : Camera → Camera) : Part :=
  let before := p.cameraState c
  ((p.modCamera c f).cameraChanged c before).rewrite .ctu

/-- R95: the Service Access Controller asks to set or clear zone_service; dropped for an OFF camera, nothing if the
flag is as asked. -/
def Part.zoneService (p : Part) (c : Fin 6) (on : Bool) : Part :=
  if p.cameraState c = .off ∨ p.ctu.cameras[c].zoneService = on then p
  else p.setCameraFlags c fun k => { k with zoneService := on }

/-- R146, R147: the request for camera `c`, if it is a member of the zone. -/
def Part.zoneServiceMember (p : Part) (z : Fin 8) (on : Bool) (c : Fin 6) : Part :=
  if p.zoneHasCamera z c then p.zoneService c on else p

/-- R146, R147: the request for every member camera of a zone. -/
def Part.zoneServiceAll (p : Part) (z : Fin 8) (on : Bool) : Part :=
  sixes.foldl (fun p c => p.zoneServiceMember z on c) p

/-- An index byte as one of six, or none above 5. -/
def six (b : Byte) : Option (Fin 6) := if h : b.toNat < 6 then some ⟨b.toNat, h⟩ else none

/-- R94: CAMERA_SERVICE. -/
def Part.cameraServiceOrder (p : Part) (ref : OrderRef) (camera out : Byte) : Part :=
  match six camera with
  | none => p.complete ref .param
  | some c =>
    if out ≠ 0 ∧ out ≠ 1 then p.complete ref .param
    else if p.cameraState c = .off then p.complete ref .state
    else
      let on : Bool := out = 1
      let p := if p.ctu.cameras[c].hostService = on then p else p.setCameraFlags c fun k => { k with hostService := on }
      p.complete ref .ok

/-- R106: CAMERA_RESTORE. -/
def Part.cameraRestoreOrder (p : Part) (ref : OrderRef) (camera : Byte) : Part :=
  match six camera with
  | none => p.complete ref .param
  | some c =>
    if p.cameraState c = .off ∨ p.ctu.cameras[c].portSilent then p.complete ref .state
    else
      (p.setCameraFlags c fun k => { k with degraded := false, degradeCause := none, missedRun := 0 }).complete ref .ok

/-- R105: the camera's port falls silent; `action` is the port's. -/
def Part.cameraSilence (p : Part) (c : Fin 6) (action : SilenceAction) : Part :=
  let p := (p.modCamera c fun k => { k with portSilent := true }).rewrite .ctu
  if action = .degradeMember ∧ p.cameraState c ≠ .off then p.degrade c .portSilent else p

/-- R105: activity resumes on the camera's port. -/
def Part.cameraResumed (p : Part) (c : Fin 6) : Part :=
  (p.modCamera c fun k => { k with portSilent := false }).rewrite .ctu

/-! ## Verdicts (R101, R102) and closing at the decision point (R103) -/

/-- A verdict is matched: the entry leaves the list, the record takes it, the missed run is 0. -/
def Part.matchVerdict (p : Part) (c : Fin 6) (seq : Word) (pass : Bool) : Part :=
  let p := p.modCamera c fun k =>
    { k with awaiting := k.awaiting.filter fun s => s != seq
             missedRun := 0
             counters := if pass then { k.counters with pass := inc32 k.counters.pass }
                         else { k.counters with fail := inc32 k.counters.fail } }
  (p.setVerdict seq c (if pass then .pass else .fail)).rewrite .ctu

/-- R101: one strobe of a kind with the tag sampled with it. -/
def Part.verdictStrobe (p : Part) (c : Fin 6) (pass : Bool) (tag : BitVec 5) : Part :=
  match p.cameraState c, p.cameraSettings c with
  | .active, some k =>
    if k.source = .lines then
      match p.ctu.cameras[c].awaiting.find? fun s => tagOf s == tag with
      | some seq => p.matchVerdict c seq pass
      | none => (p.countCamera c fun n => { n with stale := inc32 n.stale }).rewrite .ctu
    else (p.countCamera c fun n => { n with ignored := inc32 n.ignored }).rewrite .ctu
  | _, _ => (p.countCamera c fun n => { n with ignored := inc32 n.ignored }).rewrite .ctu

/-- R101: PASS, FAIL and TAG_IN are sampled; rising edges of both lines are one strobe of kind FAIL. -/
def Part.verdictLines (p : Part) (c : Fin 6) (pass fail : Bool) (tag : BitVec 5) : Part :=
  let k := p.ctu.cameras[c]
  let passEdge := pass && !k.passLine
  let failEdge := fail && !k.failLine
  let p := p.modCamera c fun k => { k with passLine := pass, failLine := fail, tagIn := tag }
  if failEdge then p.verdictStrobe c false tag
  else if passEdge then p.verdictStrobe c true tag
  else p

/-- R102: VERDICT. -/
def Part.verdictOrder (p : Part) (ref : OrderRef) (camera verdict : Byte) (seq : Word) : Part :=
  match six camera with
  | none => p.complete ref .param
  | some c =>
    let lines : Bool := match p.cameraSettings c with | some k => k.source == .lines | none => false
    if p.cameraState c = .off ∨ lines = true ∨ (verdict ≠ 0 ∧ verdict ≠ 1) then p.complete ref .param
    else if seq ∈ p.ctu.cameras[c].awaiting then (p.matchVerdict c seq (decide (verdict = 0))).complete ref .ok
    else ((p.countCamera c fun n => { n with stale := inc32 n.stale }).rewrite .ctu).complete ref .stale

/-- R103: camera `c` closes what it still holds open for `seq`. -/
def Part.closeCamera (p : Part) (c : Fin 6) (seq : Word) : Part :=
  if seq ∈ p.ctu.cameras[c].awaiting then
    ((p.modCamera c fun k => { k with awaiting := k.awaiting.filter fun s => s != seq }).noVerdict seq c).gainMissed c
  else if (p.ctu.cameras[c].fire seq).isSome then
    (p.modCamera c fun k => { k with schedule := k.schedule.filter fun g => g.seq != seq }).noVerdict seq c
  else
    match (p.record seq).bind fun r => r.views[c] with
    | some w => if w.verdict = .notYet then p.noVerdict seq c else p
    | none => p

/-- R103: camera `c` closes, if it is present. -/
def Part.closePresent (p : Part) (seq : Word) (c : Fin 6) : Part :=
  if p.cameraPresent c then p.closeCamera c seq else p

/-- R103: every present camera closes, camera 0 first. -/
def Part.closeCameras (p : Part) (seq : Word) : Part := sixes.foldl (fun p c => p.closePresent seq c) p

/-! ## Adoption and resets (R110, R111) -/

/-- R111: the CTU takes its part of the profile just adopted: flags are kept for a camera that is present and cleared
for one that is not; a pulse on runs on at its old polarity. -/
def Part.camerasAdopt (p : Part) : Part :=
  (sixes.foldl (fun p c =>
    let present := p.cameraPresent c
    p.modCamera c fun k =>
      if present then { k with missedRun := 0 }
      else { k with hostService := false, zoneService := false, degraded := false, degradeCause := none,
                    portSilent := false, missedRun := 0 }) p).rewrite .ctu

/-- R110. -/
def Part.camerasLineReset (p : Part) : Part :=
  (sixes.foldl (fun p c =>
    p.modCamera c fun k =>
      { k with pulse := none, schedule := [], awaiting := [], degraded := false, degradeCause := none, missedRun := 0 })
    p).rewrite .ctu

end Sys2Proof.Machine
end

