-- ==== Sys2Proof/Machine/Ports.lean ====
section
/-! DEFINITION. The Switch Port Monitor (07_cabinet_switch_ports.md): admission by order and by zone, hall hold, links
and quarantine, supervision. A silence's member action needs the Robot Pacer and stands in Silence.lean. -/

namespace Sys2Proof.Machine

/-- The member byte of a port. -/
def portMember (i : Fin 16) : Byte := BitVec.ofNat 8 i.val

/-- The event codes of a PORT outcome record (R188). -/
inductive PortEvent where
  | quarantined | quarantineEnded | silent | resumed
  deriving DecidableEq, Repr

def PortEvent.code : PortEvent → Nat | .quarantined => 0 | .quarantineEnded => 1 | .silent => 2 | .resumed => 3

/-- R140, R188: a PORT record's bytes from offset 8 on; `action` is 0 but for SILENT. -/
def Port.outcome (q : Port) (i : Fin 16) (hallHold : Bool) (event : PortEvent) (action : Nat) : List Byte :=
  [portMember i, BitVec.ofNat 8 q.role.code, BitVec.ofNat 8 q.role.member, BitVec.ofNat 8 event.code,
   BitVec.ofNat 8 action, BitVec.ofNat 8 q.admission.code, BitVec.ofNat 8 (flag q.link + 2 * flag hallHold), 0] ++
  leBytes 2 q.drops ++ leBytes 2 q.silences ++ leBytes 2 q.quarantines ++ List.replicate 10 0

/-- R140: the record of an event on port `i` as the port stands after it. -/
def Part.portOutcome (p : Part) (i : Fin 16) (event : PortEvent) (action : Nat := 0) : Part :=
  p.handOutcome 3 (p.spm.ports[i].outcome i p.spm.hallHold event action)

/-- R137: supervision follows link and admission: the deadline is armed where it begins, disarmed where it ends. -/
def Port.supervise (before after : Port) (now : Time) : Port :=
  if after.supervised then
    if before.supervised then after else { after with deadline := some (now + ms after.limit) }
  else { after with deadline := none }

/-- The admission of port `i` changes, and supervision with it (R127, R137). -/
def Part.setAdmission (p : Part) (i : Fin 16) (a : Admission) : Part :=
  if p.spm.ports[i].admission = a then p
  else (p.modPort i fun q => q.supervise { q with admission := a } p.now).rewrite .spm

/-- R128, R130, R132: the admission a request to open gives: HELD while hall hold is set, but for the LINE_PC port. -/
def Part.opening (p : Part) (i : Fin 16) : Admission :=
  if p.spm.hallHold && p.spm.ports[i].role != .linePc then .held else .opened

/-- R136: a quarantine ends with the admission given. -/
def Part.endQuarantine (p : Part) (i : Fin 16) (a : Admission) : Part :=
  (((p.setAdmission i a).portOutcome i .quarantineEnded).raise .quarantineEnded (portMember i)).rewrite .spm

/-- Zone `z` is SEALED in the zone table. -/
def Part.zoneSealed (p : Part) (z : Fin 8) : Bool := p.sac.zones[z].state == .sealed

/-- An index byte as one of sixteen, or none above 15. -/
def sixteen (b : Byte) : Option (Fin 16) := if h : b.toNat < 16 then some ⟨b.toNat, h⟩ else none

/-- R128, R129: a request to open an admitted port by order; a CLOSED port opens. A QUARANTINED one, whose zone is then
not SEALED, R129 leaves out, and no run has it: that it stays as it is is the model's choice (log 35). -/
def Part.openByOrder (p : Part) (i : Fin 16) : Part :=
  if p.spm.ports[i].admission = .closed then p.setAdmission i (p.opening i) else p

/-- R128, R129: closing by order; a QUARANTINED port's quarantine ends. -/
def Part.closeByOrder (p : Part) (i : Fin 16) : Part :=
  if p.spm.ports[i].admission = .quarantined then p.endQuarantine i .closed else p.setAdmission i .closed

/-- R128, R129: PORT_ADMIT. -/
def Part.portAdmitOrder (p : Part) (ref : OrderRef) (port opening : Byte) : Part :=
  match sixteen port with
  | none => p.complete ref .param
  | some i =>
    if opening ≠ 0 ∧ opening ≠ 1 then p.complete ref .param
    else match p.spm.ports[i].role with
      | .unassigned => p.complete ref .state
      | .service z =>
        if opening = 0 then (p.closeByOrder i).complete ref .ok
        else if p.zoneSealed z then p.complete ref .locked
        else (p.openByOrder i).complete ref .ok
      | .linePc | .robot _ | .camera _ | .other =>
        if opening = 0 then (p.closeByOrder i).complete ref .ok else (p.openByOrder i).complete ref .ok

/-- R130: port `i` at a hall hold. -/
def Part.holdPort (p : Part) (i : Fin 16) : Part :=
  if p.spm.ports[i].admission = .opened ∧ p.spm.ports[i].role ≠ .linePc then p.setAdmission i .held else p

/-- R131: port `i` at a hall release. -/
def Part.releasePort (p : Part) (i : Fin 16) : Part :=
  if p.spm.ports[i].admission = .held then p.setAdmission i .opened else p

/-- R130: HALL_HOLD. -/
def Part.hallHoldOrder (p : Part) (ref : OrderRef) : Part :=
  if p.spm.hallHold then p.complete ref .ok
  else
    let p := p.modSpm fun s => { s with hallHold := true }
    let p := sixteens.foldl (fun p i => p.holdPort i) p
    ((p.raise .hallHold).rewrite .spm).complete ref .ok

/-- R131: HALL_RELEASE. -/
def Part.hallReleaseOrder (p : Part) (ref : OrderRef) : Part :=
  if p.spm.hallHold then
    let p := p.modSpm fun s => { s with hallHold := false }
    let p := sixteens.foldl (fun p i => p.releasePort i) p
    ((p.raise .hallRelease).rewrite .spm).complete ref .ok
  else p.complete ref .ok

/-- R132: port `i` at the open request of zone `z`. -/
def Part.openZonePort (p : Part) (z : Fin 8) (i : Fin 16) : Part :=
  if p.spm.ports[i].role = .service z then
    match p.spm.ports[i].admission with
    | .closed => p.setAdmission i (p.opening i)
    | .quarantined => p.endQuarantine i (p.opening i)
    | .held | .opened => p
  else p

/-- R132: a zone's open request, port 0 first: where it ends several quarantines, their records are handed over in that
order, which is the model's choice (log 34). -/
def Part.openZonePorts (p : Part) (z : Fin 8) : Part :=
  sixteens.foldl (fun p i => p.openZonePort z i) p

/-- R133: port `i` at the close request of zone `z`. -/
def Part.closeZonePort (p : Part) (z : Fin 8) (i : Fin 16) : Part :=
  if p.spm.ports[i].role = .service z then
    match p.spm.ports[i].admission with
    | .held | .opened => p.setAdmission i .closed
    | .closed | .quarantined => p
  else p

/-- R133: a zone's close request. -/
def Part.closeZonePorts (p : Part) (z : Fin 8) : Part :=
  sixteens.foldl (fun p i => p.closeZonePort z i) p

/-- R135: a link comes up on a CLOSED service socket of a SEALED zone. -/
def Part.quarantine (p : Part) (i : Fin 16) : Part :=
  let p := p.modPort i fun q => { q with admission := .quarantined, quarantines := inc16 q.quarantines }
  let p := (p.report .portIntrusion (portMember i)).raise .quarantined (portMember i)
  (p.portOutcome i .quarantined).rewrite .spm

/-- R134: LINK goes up on a port with a role. -/
def Part.linkUp (p : Part) (i : Fin 16) : Part :=
  let p := (p.modPort i fun q => q.supervise { q with link := true } p.now).rewrite .spm
  match p.spm.ports[i].role, p.spm.ports[i].admission with
  | .service z, .closed => if p.zoneSealed z then p.quarantine i else p
  | _, _ => p

/-- R134: LINK goes down on a port with a role. -/
def Part.linkDown (p : Part) (i : Fin 16) : Part :=
  let p := (p.modPort i fun q => q.supervise { q with link := false, drops := inc16 q.drops } p.now).rewrite .spm
  match p.spm.ports[i].admission with
  | .opened => p.raise .linkDown (portMember i)
  | .quarantined => p.endQuarantine i .closed
  | .closed | .held => p

/-- R134: LINK of port `i` changes to `level`; on an UNASSIGNED port it is only held for the mirror. -/
def Part.linkEvent (p : Part) (i : Fin 16) (level : Bool) : Part :=
  if p.spm.ports[i].link = level then p
  else if p.spm.ports[i].role = .unassigned then p.modPort i fun q => { q with link := level }
  else if level then p.linkUp i else p.linkDown i

/-- R139: activity ends a silence. -/
def Part.resumePort (p : Part) (i : Fin 16) : Part :=
  let p := p.modPort i fun q => { q with silent := false, deadline := some (p.now + ms q.limit) }
  let p := (p.raise .resumed (portMember i)).portOutcome i .resumed
  let p :=
    match p.spm.ports[i].role with
    | .camera c => p.cameraResumed c
    | .unassigned | .linePc | .robot _ | .service _ | .other => p
  p.rewrite .spm

/-- R137: ACT of port `i` changes to `level`; a rising edge on a supervised port renews the deadline or ends the
silence. -/
def Part.actPulse (p : Part) (i : Fin 16) (level : Bool) : Part :=
  let rising := level && !p.spm.ports[i].act
  let p := p.modPort i fun q => { q with act := level }
  if rising && p.spm.ports[i].supervised then
    if p.spm.ports[i].silent then p.resumePort i
    else p.modPort i fun q => { q with deadline := some (p.now + ms q.limit) }
  else p

/-- R143: port `i` takes its entry of the port map just adopted. -/
def Part.portAdopt (p : Part) (i : Fin 16) (s : PortSettings) : Part :=
  let q := p.spm.ports[i]
  if q.role = s.role then
    p.modPort i fun q =>
      { q with limit := s.limit, action := s.action
               deadline := if q.supervised then some (p.now + ms s.limit) else q.deadline }
  else
    let p := p.modPort i fun q =>
      { q with role := s.role, admission := .closed, limit := s.limit, action := s.action, deadline := none,
               silent := false, drops := 0, silences := 0, quarantines := 0 }
    match q.silent, q.role with
    | true, .camera c => p.cameraResumed c
    | _, _ => p

/-- R143. -/
def Part.portsAdopt (p : Part) (f : Profile) : Part :=
  (sixteens.foldl (fun p i => p.portAdopt i f.ports[i]) p).rewrite .spm

end Sys2Proof.Machine
end

