-- ==== Sys2Proof/Machine/Access.lean ====
section
/-! DEFINITION. The Service Access Controller's side of a zone that needs no halt: ACCESS outcome records, DOOR_REL,
what a grant and a sealing do, and what a robot's report (R74) makes a zone do (R151, R152, R154, R160). Orders,
buttons, doors and halts stand in Zones.lean. -/

namespace Sys2Proof.Machine

/-- The event codes of an ACCESS outcome record (R188). -/
inductive AccessEvent where
  | granted | refused | failed | extended | ended | expired | overstay | intrusion
  deriving DecidableEq, Repr

def AccessEvent.code : AccessEvent → Byte
  | .granted => 0 | .refused => 1 | .failed => 2 | .extended => 3 | .ended => 4 | .expired => 5 | .overstay => 6
  | .intrusion => 7

def zoneMember (z : Fin 8) : Byte := BitVec.ofNat 8 z.val
def robotMember (r : Fin 6) : Byte := BitVec.ofNat 8 r.val

/-- R161, R188: an ACCESS record's bytes from offset 8 on, for a zone as it stands after the event. -/
def Zone.outcome (z : Zone) (member : Byte) (event : AccessEvent) (badge : Half) (c : Completion)
    (failing : Byte) : List Byte :=
  [member, event.code, BitVec.ofNat 8 z.state.code, BitVec.ofNat 8 z.level.code, BitVec.ofNat 8 z.origin.code,
   c.result.code] ++ leBytes 2 badge.toNat ++
  leBytes 4 (match z.expiry with | some t => (Time.low t).toNat | none => 0) ++
  [c.detail, failing, BitVec.ofNat 8 (flag z.door + 2 * flag z.doorRel + 4 * flag z.expiry.isSome),
   z.haltedByZone.setWidth 8] ++ List.replicate 8 0

/-- R161: an ACCESS record other than REFUSED and FAILED: no result, no detail, no failing robot. -/
def Part.accessOutcome (p : Part) (z : Fin 8) (event : AccessEvent) : Part :=
  p.handOutcome 2 (p.sac.zones[z].outcome (zoneMember z) event p.sac.zones[z].badge ⟨.ok, 0⟩ 255)

/-- R154: DOOR_REL is evaluated. -/
def Part.evalDoorRel (p : Part) (z : Fin 8) : Part :=
  if p.sac.zones[z].doorRel = p.doorRelCondition z then p
  else (p.modZone z fun k => { k with doorRel := p.doorRelCondition z }).rewrite .sac

/-- The first half of a grant (R148, R146): state, level, origin, badge and expiry, then the open request of a zone
that leaves SEALED and zone_service where the level rises to ADJUST or MAINTAIN. -/
def Part.grantApply (p : Part) (z : Fin 8) (level : AccessLevel) (origin : ZoneOrigin) (length : Nat)
    (badge : Half) : Part :=
  let before := p.sac.zones[z]
  let p := p.modZone z fun k =>
    { k with state := .opened, level := level, origin := origin, badge := badge
             expiry := some (p.now + minutes length) }
  let p := if before.state = .sealed then p.openZonePorts z else p
  if (level = .adjust ∨ level = .maintain) ∧ before.level.code < level.code then p.zoneServiceAll z true else p

/-- The access order of a zone completes and what it asked for is cleared (R148, R152, R155, R156). -/
def Part.endRequest (p : Part) (z : Fin 8) (result : Result) (detail : Byte := 0) : Part :=
  (p.completeIf p.sac.zones[z].accessOrder result detail).modZone z fun k =>
    { k with accessOrder := none, request := none }

/-- The second half of a grant (R148): the access order completes, the outcome record, the bulletin, the mirror. -/
def Part.grantClose (p : Part) (z : Fin 8) (result : Result) : Part :=
  (((p.endRequest z result).accessOutcome z .granted).raise .granted (zoneMember z)).rewrite .sac

/-- The change a sealing raises (R147). -/
def AccessEvent.sealNews : AccessEvent → News
  | .failed => .failed
  | .expired => .expired
  | .granted | .refused | .extended | .ended | .overstay | .intrusion => .ended

/-- R147: sealing a zone, with the event the sealing rule names; `c` and `failing` are FAILED's. -/
def Part.sealZone (p : Part) (z : Fin 8) (event : AccessEvent) (c : Completion := ⟨.ok, 0⟩)
    (failing : Byte := 255) : Part :=
  let p := p.modZone z fun k =>
    { k with state := .sealed, level := .none, origin := .none, badge := 0, expiry := none, doorRel := false }
  let p := (p.zoneServiceAll z false).closeZonePorts z
  let p := p.handOutcome 2 (p.sac.zones[z].outcome (zoneMember z) event 0 c failing)
  (p.raise event.sealNews (zoneMember z)).rewrite .sac

/-- R152: a HALTING zone fails its request for robot `r`. -/
def Part.failRequest (p : Part) (z : Fin 8) (r : Fin 6) : Part :=
  let detail : Byte := match p.rbp.robots[r].faultCause with | some f => f.code | none => 0
  let c : Completion := ⟨.failedTimeout, detail⟩
  let p := p.endRequest z .failedTimeout detail
  if p.sac.zones[z].level = .none then p.sealZone z .failed c (robotMember r)
  else
    let p := (p.modZone z fun k => { k with state := .opened }).evalDoorRel z
    let k := p.sac.zones[z]
    let p := p.handOutcome 2 (k.outcome (zoneMember z) .failed k.badge c (robotMember r))
    (p.raise .failed (zoneMember z)).rewrite .sac

/-- R151, R152: a HALTING zone looks at every member robot: it is granted, fails, or goes on waiting. -/
def Part.judgeHalting (p : Part) (z : Fin 8) : Part :=
  match p.sac.zones[z].state, p.sac.zones[z].request with
  | .halting, some q =>
    if p.membersSafe z then
      ((p.grantApply z .maintain q.origin q.minutes q.badge).evalDoorRel z).grantClose z (.clampedIf q.clamped)
    else
      match p.failingMember z with
      | some r => p.failRequest z r
      | none => p
  | _, _ => p

/-- R159, R160: robot `r` is marked in the zone's resume set; the first failure gives the resume its code
(of several at one event, the first that is marked: log 43). -/
def Part.markResume (p : Part) (z : Fin 8) (r : Fin 6) (m : ResumeMark) (failure : Option Completion) : Part :=
  (p.modZone z fun k =>
    { k with resumeSet := modAt k.resumeSet r fun _ => m
             resumeFailure := if k.resumeFailure.isNone then failure else k.resumeFailure }).rewrite .sac

/-- R160: no robot of the resume set is still waiting. -/
def Zone.resumeSettled (k : Zone) : Bool := sixes.all fun r => k.resumeSet[r] != .waiting

/-- R160: the resume order completes once no robot is waiting. -/
def Part.finishResume (p : Part) (z : Fin 8) (ref : OrderRef) : Part :=
  if p.sac.zones[z].resumeSettled then
    let c : Completion := p.sac.zones[z].resumeFailure.getD ⟨.ok, 0⟩
    ((p.modZone z fun k =>
      { k with resumeOrder := none, resumeSet := Vector.replicate 6 .absent, resumeFailure := none }).rewrite
        .sac).complete ref c.result c.detail
  else p

/-- R160: a report on a waiting robot settles it. -/
def Part.settleResume (p : Part) (z : Fin 8) (r : Fin 6) : Part :=
  if p.sac.zones[z].resumeSet[r] = .waiting then
    let k := p.rbp.robots[r]
    let q :=
      match k.state with
      | .running => p.markResume z r .running none
      | .halting => p.markResume z r .failed (some ⟨.superseded, 0⟩)
      | .faulted =>
        p.markResume z r .failed (some ⟨.failedTimeout, match k.faultCause with | some f => f.code | none => 0⟩)
      | .stopped | .starting | .halted => p
    match q.sac.zones[z].resumeOrder with
    | some ref => q.finishResume z ref
    | none => q
  else p

/-- R74: a report on robot `r` reaches zone `z`. -/
def Part.hearRobot (p : Part) (r : Fin 6) (z : Fin 8) : Part :=
  if p.zoneHasRobot z r then
    if p.sac.zones[z].state = .halting then p.judgeHalting z else p.evalDoorRel z
  else p

/-- R74: the Robot Pacer reports robot `r` to the Service Access Controller. -/
def Part.reportRobot (p : Part) (r : Fin 6) : Part :=
  eights.foldl (fun p z => (p.hearRobot r z).settleResume z r) p

end Sys2Proof.Machine
end

