-- ==== Sys2Proof/Machine/Robots.lean ====
section
/-! DEFINITION. The Robot Pacer (04_filler_robots.md): handshakes, faults, windows, fill reports, the rotation, its
orders, and its part of an adoption and of a line reset. -/

namespace Sys2Proof.Machine

/-- A robot's settings in the adopted profile. -/
def Part.robotSettings (p : Part) (r : Fin 6) : Option RobotSettings := p.cvt.profile.map fun f => f.robots[r]

/-- The acknowledge deadline of a start (R65). -/
def Part.runDeadline (p : Part) (r : Fin 6) : Time :=
  p.now + ms (match p.robotSettings r with | some k => k.runTimeout | none => 0)

/-- The acknowledge deadline of a halt (R69). -/
def Part.haltDeadline (p : Part) (r : Fin 6) : Time :=
  p.now + ms (match p.robotSettings r with | some k => k.haltTimeout | none => 0)

/-! ## Windows (R78, R81) -/

/-- The pitch R78 clamps to: P, or before the first adoption, where no pitch exists, a free value (log 11). -/
def Part.clampPitch (p : Part) : Nat :=
  match p.cvt.profile with
  | some f => f.pitch
  | none => Config.unprofiledPitch p.freeCount

/-- R78: a close beyond the pitch is replaced by the pitch. -/
def Window.clamp (w : Window) (pitch : Nat) : Window := if pitch < w.closing then { w with closing := pitch } else w

/-- R78: a window is taken into the live window; a zero window raises ZERO_WINDOW. -/
def Part.makeLive (p : Part) (r : Fin 6) (w : Window) : Part :=
  let live := w.clamp p.clampPitch
  let p := p.modRobot r fun k => { k with live := live }
  let p := if p.cvt.profile.isNone then p.spendFree else p
  let p := if live.zero then p.raise .zeroWindow (robotMember r) else p
  p.rewrite .rbp

/-- R78: the result of the order whose window is taken. -/
def Part.windowResult (p : Part) (w : Window) : Result := .clampedIf (decide (p.clampPitch < w.closing))

/-- R81: the robot's pending window becomes live and its order completes. -/
def Part.adoptWindow (p : Part) (r : Fin 6) : Part :=
  match p.rbp.robots[r].pendingWindow with
  | none => p
  | some w =>
    let result := p.windowResult w.window
    ((p.modRobot r fun k => { k with pendingWindow := none }).makeLive r w.window).complete w.ref result

/-! ## States (R64 to R74) -/

/-- The state of robot `r` has been changed from `before`: leaving RUNNING ends its open windows and adopts its pending
window (R80, R81); the mirror is rewritten, and a change is reported to the zones (R74). -/
def Part.robotChanged (p : Part) (r : Fin 6) (before : RobotState) : Part :=
  if p.rbp.robots[r].state = before then p.rewrite .rbp
  else
    let p := if before = .running then (p.modRobot r fun k => { k with openWindows := [] }).adoptWindow r else p
    (p.rewrite .rbp).reportRobot r

/-- R66: a STARTING robot's RUN_ACK is asserted. -/
def Part.finishRun (p : Part) (r : Fin 6) : Part :=
  let k := p.rbp.robots[r]
  let p := p.modRobot r fun k => { k with state := .running, deadline := none, order := none }
  ((p.completeIf k.order .ok).raise .running (robotMember r)).robotChanged r k.state

/-- R65: the first check that refuses a run. -/
def Part.runRefusal (p : Part) (r : Fin 6) : Option Result :=
  let k := p.rbp.robots[r]
  if p.cvt.tracker = .unprofiled then some .state
  else if p.held r then some .locked
  else if k.state ≠ .stopped ∧ k.state ≠ .halted then some .state
  else if k.pins.fault then some .state
  else none

/-- R65: a run is taken, for an order or for a zone's request. -/
def Part.beginRun (p : Part) (r : Fin 6) (ref : Option OrderRef) : Part :=
  let before := p.rbp.robots[r].state
  let deadline := p.runDeadline r
  let p := (p.modRobot r fun k =>
    { k with state := .starting, haltOrigin := none, order := ref, deadline := some deadline }).robotChanged r before
  if p.rbp.robots[r].pins.runAck ∧ p.rbp.robots[r].state = .starting then p.finishRun r else p

/-- R69: a HALTING robot's HALT_ACK is asserted. -/
def Part.finishHalt (p : Part) (r : Fin 6) : Part :=
  let k := p.rbp.robots[r]
  let p := p.modRobot r fun k => { k with state := .halted, deadline := none, order := none }
  ((p.completeIf k.order .ok).raise .halted (robotMember r)).robotChanged r k.state

/-- R69: a halt begins. -/
def Part.beginHalt (p : Part) (r : Fin 6) (origin : HaltOrigin) (ref : Option OrderRef) : Part :=
  let before := p.rbp.robots[r].state
  let deadline := p.haltDeadline r
  let p := (p.modRobot r fun k =>
    { k with state := .halting, haltOrigin := some origin, order := ref, deadline := some deadline }).robotChanged r
      before
  if p.rbp.robots[r].pins.haltAck ∧ p.rbp.robots[r].state = .halting then p.finishHalt r else p

/-- R68: another block asks a halt; a ROBOT_RUN in flight is superseded. -/
def Part.requestHalt (p : Part) (r : Fin 6) (origin : HaltOrigin) : Part :=
  if p.rbp.robots[r].active then
    let p := p.completeIf p.rbp.robots[r].order .superseded
    p.beginHalt r origin none
  else p

/-- R72: entry to FAULTED with a cause. -/
def Part.enterFaulted (p : Part) (r : Fin 6) (cause : RobotFault) : Part :=
  let k := p.rbp.robots[r]
  let p := p.modRobot r fun k => { k with state := .faulted, faultCause := some cause, deadline := none, order := none }
  let p := p.completeIf k.order .failedTimeout cause.code
  let p := (p.report (.robot cause) (robotMember r)).raise (.robotFault cause) (robotMember r)
  p.robotChanged r k.state

/-! ## Fill reports (R82 to R86) -/

def Part.countRobot (p : Part) (r : Fin 6) (f : RobotCounters → RobotCounters) : Part :=
  p.modRobot r fun k => { k with counters := f k.counters }

/-- The failure threshold of the profile. -/
def Part.failureThreshold (p : Part) (r : Fin 6) : Nat :=
  match p.robotSettings r with
  | some k => k.threshold
  | none => 0

/-- R85: a bad result for robot `r`: the mirror record shows the run it leaves (R87). -/
def Part.badFill (p : Part) (r : Fin 6) : Part :=
  let run := inc8 p.rbp.robots[r].failureRun
  if p.failureThreshold r ≠ 0 ∧ run = p.failureThreshold r then
    (((p.modRobot r fun k => { k with failureRun := 0 }).raise .fillFailures (robotMember r)).rewrite .rbp).requestHalt r
      .fillFailures
  else (p.modRobot r fun k => { k with failureRun := run }).rewrite .rbp

/-- R84: a container's report ends without a strobe: NO_REPORT. -/
def Part.noReport (p : Part) (r : Fin 6) (seq : Word) : Part :=
  let p := (p.setFill seq .noReport).modRobot r fun k =>
    { k with reportList := k.reportList.filter fun s => s != seq
             counters := { k.counters with noReport := inc32 k.counters.noReport } }
  p.badFill r

/-- R83: a report of the kind given is taken for the oldest container of the report list. -/
def Part.takeReport (p : Part) (r : Fin 6) (seq : Word) (short : Bool) : Part :=
  let p := (p.setFill seq (if short then .short else .ok)).modRobot r fun k =>
    { k with reportList := k.reportList.filter fun s => s != seq
             reported := k.reported ++ [seq]
             counters := if short then { k.counters with short := inc32 k.counters.short }
                         else { k.counters with ok := inc32 k.counters.ok } }
  if short then p.badFill r else (p.modRobot r fun k => { k with failureRun := 0 }).rewrite .rbp

/-- R83: a fill strobe of robot `r`. -/
def Part.fillStrobe (p : Part) (r : Fin 6) (short : Bool) : Part :=
  match p.rbp.robots[r].reportList, p.rbp.robots[r].reported with
  | seq :: _, _ => p.takeReport r seq short
  | [], _ :: _ => (p.countRobot r fun n => { n with duplicate := inc32 n.duplicate }).rewrite .rbp
  | [], [] => (p.countRobot r fun n => { n with stray := inc32 n.stray }).rewrite .rbp

/-! ## Input lines (R66, R69, R70, R71, R83) -/

/-- R66, R70: a change of RUN_ACK. -/
def Part.runAckChanged (p : Part) (r : Fin 6) (level : Bool) : Part :=
  match p.rbp.robots[r].state, level with
  | .starting, true => p.finishRun r
  | .running, false => p.enterFaulted r .runLost
  | _, _ => p

/-- R69, R70, R74: a change of HALT_ACK. -/
def Part.haltAckChanged (p : Part) (r : Fin 6) (level : Bool) : Part :=
  match p.rbp.robots[r].state, level with
  | .halting, true => p.finishHalt r
  | .halted, false => p.enterFaulted r .haltLost
  | .faulted, _ => p.reportRobot r
  | _, _ => p

/-- R71: FAULT goes active. -/
def Part.faultActive (p : Part) (r : Fin 6) : Part :=
  if p.rbp.robots[r].state = .stopped then p else p.enterFaulted r .robotFault

/-- The lines of robot `r` are sampled at new levels: each change acts as its rule says, and any change rewrites the
mirror (R87). -/
def Part.robotInputs (p : Part) (r : Fin 6) (new : RobotPins) : Part :=
  let old := p.rbp.robots[r].pins
  if new = old then p
  else
    let p := p.modRobot r fun k => { k with pins := new }
    let p := if new.runAck = old.runAck then p else p.runAckChanged r new.runAck
    let p := if new.haltAck = old.haltAck then p else p.haltAckChanged r new.haltAck
    let p := if new.fault && !old.fault then p.faultActive r else p
    let okEdge := new.fillOk && !old.fillOk
    let shortEdge := new.fillShort && !old.fillShort
    let p := if okEdge || shortEdge then p.fillStrobe r shortEdge else p
    p.rewrite .rbp

/-- One line of a robot's five at a new level. -/
def RobotPins.with (k : RobotPins) (line : RobotLine) (level : Bool) : RobotPins :=
  match line with
  | .runAck => { k with runAck := level }
  | .haltAck => { k with haltAck := level }
  | .fault => { k with fault := level }
  | .fillOk => { k with fillOk := level }
  | .fillShort => { k with fillShort := level }

/-- One line of robot `r` changes to `level`. -/
def Part.robotLine (p : Part) (r : Fin 6) (line : RobotLine) (level : Bool) : Part :=
  p.robotInputs r (p.rbp.robots[r].pins.with line level)

/-- R83: FILL_OK and FILL_SHORT of robot `r` are sampled at one event. -/
def Part.fillLines (p : Part) (r : Fin 6) (ok short : Bool) : Part :=
  p.robotInputs r { p.rbp.robots[r].pins with fillOk := ok, fillShort := short }

/-- The acknowledge deadline of robot `r` is reached. -/
def Part.ackDeadlineReached (p : Part) (r : Fin 6) : Bool :=
  match p.rbp.robots[r].deadline with
  | some t => Time.reached t p.now
  | none => false

/-- R66: the deadline of a STARTING robot is reached. -/
def Part.runTimedOut (p : Part) (r : Fin 6) : Part :=
  if p.rbp.robots[r].state = .starting ∧ p.ackDeadlineReached r then p.enterFaulted r .runTimeout else p

/-- R69: the deadline of a HALTING robot is reached. -/
def Part.haltTimedOut (p : Part) (r : Fin 6) : Part :=
  if p.rbp.robots[r].state = .halting ∧ p.ackDeadlineReached r then p.enterFaulted r .haltTimeout else p

/-! ## Watches and the service pitch (R22, R79, R80, R84) -/

/-- R79: a window opens: the container joins the report list, and its window stands open if the robot is RUNNING. -/
def Part.windowOpens (p : Part) (r : Fin 6) (seq : Word) : Part :=
  p.modRobot r fun k =>
    { k with reportList := k.reportList ++ [seq]
             openWindows := if k.state = .running then k.openWindows ++ [seq] else k.openWindows }

/-- R80: a window closes. -/
def Part.windowCloses (p : Part) (r : Fin 6) (seq : Word) : Part :=
  p.modRobot r fun k => { k with openWindows := k.openWindows.filter fun s => s != seq }

/-- R84: a grace ends: an unreported container becomes NO_REPORT, and its span is over. -/
def Part.graceEnds (p : Part) (r : Fin 6) (seq : Word) : Part :=
  if seq ∈ p.rbp.robots[r].reportList then p.noReport r seq
  else p.modRobot r fun k => { k with reported := k.reported.filter fun s => s != seq }

/-- R22: a watch is raised to the Robot Pacer. -/
def Part.raiseWatch (p : Part) (w : Watch) : Part :=
  match w.kind with
  | .opening => p.windowOpens w.robot w.seq
  | .closing => p.windowCloses w.robot w.seq
  | .grace => p.graceEnds w.robot w.seq

/-- R22: a watch is registered, or raised at once if its position is already reached. -/
def Part.registerWatch (p : Part) (w : Watch) : Part :=
  if p.isReached w.target then p.raiseWatch w else p.modCvt fun c => { c with watches := c.watches ++ [w] }

/-- R79: the service pitch of a record starts. -/
def Part.servicePitch (p : Part) (seq : Word) : Part :=
  match p.record seq, p.cvt.profile with
  | some rec, some f =>
    if rec.decision ≠ .undecided then p
    else match rec.robot with
      | none => (p.setFill seq .unfilled).rewrite .rbp
      | some r =>
        let p := p.adoptWindow r
        let w := p.rbp.robots[r].live
        if p.rbp.robots[r].state ≠ .running ∨ w.zero then
          ((p.setFill seq .unfilled).countRobot r fun n => { n with unfilled := inc32 n.unfilled }).rewrite .rbp
        else
          let x := f.stationOf rec .robot
          let p := p.registerWatch ⟨r, seq, .opening, x + counts w.opening⟩
          let p := p.registerWatch ⟨r, seq, .closing, x + counts w.closing⟩
          p.registerWatch ⟨r, seq, .grace, x + counts w.closing + counts f.grace⟩
  | _, _ => p

/-- R47, R84: the Transit List closes a container's report at its decision point; its watches are cancelled. A
window whose closing watch is among them stands open: the model's choice (log 23). -/
def Part.closeReport (p : Part) (r : Fin 6) (seq : Word) : Part :=
  (p.modCvt fun c => { c with watches := c.watches.filter fun w => !(w.robot == r && w.seq == seq) }).noReport r seq

/-! ## The rotation (R75 to R77) -/

/-- R76: the pending rotation becomes the live one and its order completes. -/
def Part.adoptRotation (p : Part) (q : PendingRotation) : Part :=
  let p := p.modRbp fun b => { b with rotation := q.rotation, pendingRotation := none, cursor := 0 }
  ((p.complete q.ref .ok).raise .rotationAdopted).rewrite .rbp

/-- R76: a wrap. -/
def Part.wrap (p : Part) : Part :=
  match p.rbp.pendingRotation with
  | some q => p.adoptRotation q
  | none => p.modRbp fun b => { b with cursor := 0 }

/-- R75: the cursor goes to the slot after `slot`; from the last slot that is a wrap. -/
def Part.advanceCursor (p : Part) (slot : Nat) : Part :=
  if slot + 1 < p.rbp.rotation.slots.length then p.modRbp fun b => { b with cursor := slot + 1 } else p.wrap

/-- R75: a slot names NONE, or a robot that is RUNNING. -/
def Part.slotTakes (p : Part) (slot : Option (Fin 6)) : Bool :=
  match slot with
  | none => true
  | some r => p.rbp.robots[r].state == .running

/-- R75, R76: the skip-halted search: `start` is where it began, `pos` the slot to examine, `turn` how many are left in
the turn. A wrap that adopts a pending rotation begins a fresh turn at slot 0; that the search goes on whatever that
rotation's own flag says is the model's choice (log 22). -/
def Part.searchSlot : Nat → Part → Nat → Nat → Nat → Nat × Option (Fin 6) × Part
  | 0, p, start, _, _ => (start, none, p.advanceCursor start)
  | fuel + 1, p, start, pos, turn =>
    let slot := (p.rbp.rotation.slots[pos]?).getD none
    if p.slotTakes slot then (pos, slot, p.advanceCursor pos)
    else if turn ≤ 1 then (start, none, p.advanceCursor start)
    else if pos + 1 < p.rbp.rotation.slots.length then Part.searchSlot fuel p start (pos + 1) (turn - 1)
    else
      match p.rbp.pendingRotation with
      | some q =>
        let p := p.adoptRotation q
        Part.searchSlot fuel p 0 0 p.rbp.rotation.slots.length
      | none => Part.searchSlot fuel (p.modRbp fun b => { b with cursor := 0 }) start 0 (turn - 1)

/-- R75: the slot and robot of a container at its admission. -/
def Part.assign (p : Part) : Nat × Option (Fin 6) × Part :=
  let cursor := p.rbp.cursor
  let answer :=
    if p.rbp.rotation.skip then Part.searchSlot 32 p cursor cursor p.rbp.rotation.slots.length
    else (cursor, (p.rbp.rotation.slots[cursor]?).getD none, p.advanceCursor cursor)
  (answer.1, answer.2.1, answer.2.2.rewrite .rbp)

/-- R76, R81: the tracker enters READY: the pending rotation and every pending window are adopted. -/
def Part.robotsReady (p : Part) : Part :=
  let p := match p.rbp.pendingRotation with | some q => p.adoptRotation q | none => p
  sixes.foldl (fun p r => p.adoptWindow r) p

/-! ## Orders (R65, R67, R73, R77, R81) -/

/-- R65: ROBOT_RUN. -/
def Part.robotRunOrder (p : Part) (ref : OrderRef) (robot : Byte) : Part :=
  match six robot with
  | none => p.complete ref .param
  | some r =>
    match p.runRefusal r with
    | some result => p.complete ref result
    | none => p.beginRun r (some ref)

/-- R67: ROBOT_HALT. An order that finds another in flight is never taken (R178); here the later one then stands. -/
def Part.robotHaltOrder (p : Part) (ref : OrderRef) (robot : Byte) : Part :=
  match six robot with
  | none => p.complete ref .param
  | some r =>
    match p.rbp.robots[r].state with
    | .starting | .running => p.beginHalt r .order (some ref)
    | .halting => (p.modRobot r fun k => { k with order := some ref }).rewrite .rbp
    | .stopped | .halted => p.complete ref .ok
    | .faulted => p.complete ref .state

/-- R73: ROBOT_CLEAR. -/
def Part.robotClearOrder (p : Part) (ref : OrderRef) (robot : Byte) : Part :=
  match six robot with
  | none => p.complete ref .param
  | some r =>
    if p.rbp.robots[r].state = .faulted ∧ p.rbp.robots[r].pins.fault = false then
      let p := p.modRobot r fun k => { k with state := .stopped, faultCause := none, haltOrigin := none }
      ((p.complete ref .ok).raise .cleared (robotMember r)).robotChanged r .faulted
    else p.complete ref .state

/-- R77: one entry of a ROTATION_SET, or none where it is neither a robot index nor 255. -/
def slotOfByte (b : Byte) : Option (Option (Fin 6)) := if b = 255 then some none else (six b).map some

/-- R77: the entries of a ROTATION_SET, or none where one is out of range. -/
def slotsOfBytes : List Byte → Option (List (Option (Fin 6)))
  | [] => some []
  | b :: bs =>
    match slotOfByte b, slotsOfBytes bs with
    | some s, some ss => some (s :: ss)
    | _, _ => none

/-- R77, R181: the rotation a ROTATION_SET carries, or none where a parameter is out of range. -/
def rotationOf (count skip : Byte) (entries : List Byte) : Option Rotation :=
  if 1 ≤ count.toNat ∧ count.toNat ≤ 12 ∧ (skip = 0 ∨ skip = 1) then
    (slotsOfBytes (entries.take count.toNat)).map fun slots => ⟨slots, decide (skip = 1)⟩
  else none

/-- The tracker is UNPROFILED or READY. -/
def Part.idleTracker (p : Part) : Bool := p.cvt.tracker == .unprofiled || p.cvt.tracker == .ready

/-- R77: ROTATION_SET. -/
def Part.rotationSetOrder (p : Part) (ref : OrderRef) (count skip : Byte) (entries : List Byte) : Part :=
  match rotationOf count skip entries with
  | none => p.complete ref .param
  | some rotation =>
    if p.idleTracker then p.adoptRotation ⟨rotation, ref⟩
    else
      let p := p.completeIf (p.rbp.pendingRotation.map (·.ref)) .superseded
      (p.modRbp fun b => { b with pendingRotation := some ⟨rotation, ref⟩ }).rewrite .rbp

/-- R81: WINDOW_SET. -/
def Part.windowSetOrder (p : Part) (ref : OrderRef) (robot : Byte) (opening closing : Half) : Part :=
  match six robot with
  | none => p.complete ref .param
  | some r =>
    let w : Window := ⟨opening.toNat, closing.toNat⟩
    if p.idleTracker ∨ p.rbp.robots[r].state ≠ .running then
      let result := p.windowResult w
      (p.makeLive r w).complete ref result
    else
      let p := p.completeIf (p.rbp.robots[r].pendingWindow.map (·.ref)) .superseded
      (p.modRobot r fun k => { k with pendingWindow := some ⟨w, ref⟩ }).rewrite .rbp

/-! ## Adoption and line reset (R89, R90) -/

/-- R90: the Robot Pacer takes its part of the profile just adopted. -/
def Part.robotsAdopt (p : Part) (f : Profile) : Part :=
  let p := sixes.foldl (fun p r =>
    (p.makeLive r f.robots[r].window).modRobot r fun k => { k with failureRun := 0 }) p
  (p.modRbp fun b => { b with rotation := f.rotation, cursor := 0 }).rewrite .rbp

/-- R89: a robot after a line reset; the live window, the counters and the lines are kept. -/
def Robot.lineReset (k : Robot) : Robot :=
  { k with state := .stopped, haltOrigin := none, faultCause := none, order := none, deadline := none,
           pendingWindow := none, reportList := [], reported := [], openWindows := [], failureRun := 0 }

/-- R89, R163: every robot goes to STOPPED, then each is reported to the zones. -/
def Part.robotsLineReset (p : Part) : Part :=
  let p := sixes.foldl (fun p r => p.modRobot r Robot.lineReset) p
  let p := p.modRbp fun b => { b with pendingRotation := none, cursor := 0 }
  let p := (p.modCvt fun c => { c with watches := [] }).rewrite .rbp
  sixes.foldl (fun p r => p.reportRobot r) p

end Sys2Proof.Machine
end

