-- ==== Sys2Proof/Machine/Zones.lean ====
section
/-! DEFINITION. The Service Access Controller (08_service_access.md): holding, grants, requests, buttons and doors,
expiry, ending, extension, intrusion, resuming, and its part of an adoption and of a line reset. -/

namespace Sys2Proof.Machine

/-- A set of robots as bits. -/
def robotMask (rs : List (Fin 6)) : BitVec 6 := rs.foldl (fun m r => m ||| (1#6 <<< r.val)) 0

/-- R146: the members a zone that comes to hold its robots halts: those STARTING or RUNNING. -/
def Part.activeMembers (p : Part) (z : Fin 8) : List (Fin 6) :=
  sixes.filter fun r => p.zoneHasRobot z r && p.rbp.robots[r].active

/-- R146: the zone comes to hold its robots: each active member joins halted-by-zone and is asked to halt. -/
def Part.haltMembers (p : Part) (z : Fin 8) : Part :=
  let rs := p.activeMembers z
  let p := (p.modZone z fun k => { k with haltedByZone := k.haltedByZone ||| robotMask rs }).rewrite .sac
  rs.foldl (fun p r => p.requestHalt r (.zone z)) p

/-- R148, R146: a grant up to its outcome record: at MAINTAIN the zone comes to hold its robots. -/
def Part.grantHold (p : Part) (z : Fin 8) (level : AccessLevel) (origin : ZoneOrigin) (length : Nat)
    (badge : Half) : Part :=
  let p := p.grantApply z level origin length badge
  (if level = .maintain then p.haltMembers z else p).evalDoorRel z

/-- R148: a grant. -/
def Part.grant (p : Part) (z : Fin 8) (level : AccessLevel) (origin : ZoneOrigin) (length : Nat) (badge : Half)
    (result : Result) : Part :=
  (p.grantHold z level origin length badge).grantClose z result

/-- R150: a MAINTAIN request takes the zone into HALTING; it is judged at the same event. -/
def Part.enterHalting (p : Part) (z : Fin 8) (q : ZoneRequest) (ref : Option OrderRef) : Part :=
  let p := if p.sac.zones[z].state = .sealed then p.openZonePorts z else p
  let p := (p.haltMembers z).modZone z fun k => { k with state := .halting, request := some q, accessOrder := ref }
  ((p.raise .halting (zoneMember z)).rewrite .sac).judgeHalting z

/-! ## ACCESS_REQUEST (R149) -/

/-- An index byte as one of eight, or none above 7. -/
def eight (b : Byte) : Option (Fin 8) := if h : b.toNat < 8 then some ⟨b.toNat, h⟩ else none

/-- R149: the level an ACCESS_REQUEST asks. -/
def levelOf (b : Byte) : Option AccessLevel :=
  if b = 1 then some .observe else if b = 2 then some .adjust else if b = 3 then some .maintain else none

/-- R149: a length is taken as 1 to 240 minutes. -/
def clampMinutes (n : Nat) : Nat := if n = 0 then 1 else min n 240

/-- R149, R161: a refused request hands over its outcome record and completes. -/
def Part.refuseAccess (p : Part) (ref : OrderRef) (z : Fin 8) (badge : Half) (result : Result) : Part :=
  (p.handOutcome 2 (p.sac.zones[z].outcome (zoneMember z) .refused badge ⟨result, 0⟩ 255)).complete ref result

/-- R149, R161: what the record of a refused request says of a zone above 7 is free (log 10), within what R188 lets each
field hold: a code of its list, no expiry where bit 2 of byte 22 is clear, three flags, six robots. -/
def absentZoneOutcome (free : Nat → Byte) (zone : Byte) (badge : Half) : List Byte :=
  let expiry (offset : Nat) : Byte := if (free 22).getLsbD 2 then free offset else 0
  [zone, AccessEvent.refused.code, free 10 % 5, free 11 % 4, free 12 % 5, Result.param.code] ++ leBytes 2 badge.toNat ++
  [expiry 16, expiry 17, expiry 18, expiry 19, 0, 255, free 22 % 8, free 23 % 64] ++ List.replicate 8 0

/-- R149, R161: a request for a zone above 7 is refused PARAM. -/
def Part.refuseAbsentZone (p : Part) (ref : OrderRef) (zone : Byte) (badge : Half) : Part :=
  (p.spendFree.handOutcome 2 (absentZoneOutcome (Config.absentZoneByte p.freeCount) zone badge)).complete ref .param

/-- R149: ACCESS_REQUEST. -/
def Part.accessRequestOrder (p : Part) (ref : OrderRef) (zone level : Byte) (length badge : Half) : Part :=
  match eight zone with
  | none => p.refuseAbsentZone ref zone badge
  | some z =>
    if p.cvt.profile.isNone then p.refuseAccess ref z badge .state
    else match levelOf level with
      | none => p.refuseAccess ref z badge .param
      | some l =>
        let n := clampMinutes length.toNat
        let clamped := decide (n ≠ length.toNat)
        let k := p.sac.zones[z]
        if k.state = .sealed ∨ (k.state = .opened ∧ k.level.code < l.code) then
          if l = .maintain then
            p.enterHalting z { origin := .order, minutes := n, clamped := clamped, badge := badge } (some ref)
          else
            (p.modZone z fun k => { k with accessOrder := some ref }).grant z l .order n badge (.clampedIf clamped)
        else p.refuseAccess ref z badge .state

/-! ## Ending, extension and expiry (R155 to R157) -/

/-- R156: an OPEN or OVERSTAY access ends: the zone is sealed, or waits for its door. -/
def Part.endAccess (p : Part) (z : Fin 8) : Part :=
  if p.doorOpen z then
    let p := (p.modZone z fun k => { k with state := .waitClose, expiry := none }).evalDoorRel z
    (p.raise .waitClose (zoneMember z)).rewrite .sac
  else p.sealZone z .ended

/-- R156: ACCESS_END. -/
def Part.accessEndOrder (p : Part) (ref : OrderRef) (zone : Byte) : Part :=
  match eight zone with
  | none => p.complete ref .param
  | some z =>
    if p.cvt.profile.isNone then p.complete ref .state
    else match p.sac.zones[z].state with
      | .opened | .overstay => (p.endAccess z).complete ref .ok
      | .halting => ((p.endRequest z .superseded).sealZone z .ended).complete ref .ok
      | .sealed | .waitClose => p.complete ref .state

/-- R157: the extended expiry of an OPEN zone and whether the 240-minute limit was applied. -/
def extendExpiry (expiry now : Time) (n : Nat) : Time × Bool :=
  let limit := now + minutes 240
  let asked := expiry + minutes n
  if Time.before limit asked then (limit, true) else (asked, false)

/-- R157: the extension is recorded. -/
def Part.extended (p : Part) (ref : OrderRef) (z : Fin 8) (clamped : Bool) : Part :=
  (((p.evalDoorRel z).accessOutcome z .extended).rewrite .sac).complete ref (.clampedIf clamped)

/-- R157: ACCESS_EXTEND. -/
def Part.accessExtendOrder (p : Part) (ref : OrderRef) (zone : Byte) (length : Half) : Part :=
  match eight zone with
  | none => p.complete ref .param
  | some z =>
    if p.cvt.profile.isNone then p.complete ref .state
    else
      let n := clampMinutes length.toNat
      let clamped := decide (n ≠ length.toNat)
      match p.sac.zones[z].state with
      | .opened =>
        let e := extendExpiry (p.sac.zones[z].expiry.getD p.now) p.now n
        (p.modZone z fun k => { k with expiry := some e.1 }).extended ref z (clamped || e.2)
      | .overstay =>
        (p.modZone z fun k => { k with state := .opened, expiry := some (p.now + minutes n) }).extended ref z clamped
      | .sealed | .halting | .waitClose => p.complete ref .state

/-- R155: a zone's expiry is reached: it is disarmed, and state and door decide. -/
def Part.zoneExpired (p : Part) (z : Fin 8) : Part :=
  let p := p.modZone z fun k => { k with expiry := none }
  match p.sac.zones[z].state with
  | .opened =>
    if p.doorOpen z then
      let p := (p.modZone z fun k => { k with state := .overstay }).evalDoorRel z
      let p := (p.report .overstay (zoneMember z)).accessOutcome z .overstay
      (p.raise .overstay (zoneMember z)).rewrite .sac
    else p.sealZone z .expired
  | .halting => (p.endRequest z .superseded).sealZone z .expired
  | .sealed | .waitClose | .overstay => p

/-- R5, R155: the expiry event of zone `z`. -/
def Part.accessExpiry (p : Part) (z : Fin 8) : Part :=
  match p.sac.zones[z].expiry with
  | some t => if Time.reached t p.now then p.zoneExpired z else p
  | none => p

/-! ## Doors and buttons (R145, R153, R158) -/

/-- The button settings of a zone's map entry: level and minutes. -/
def Part.buttonOf (p : Part) (z : Fin 8) : AccessLevel × Nat :=
  match p.zoneMap z with
  | some m => (m.buttonLevel, m.buttonMinutes)
  | none => (.none, 0)

/-- R158: an intrusion: the zone is granted at MAINTAIN with origin INTRUSION, and reported. The INTRUSION record is
handed over before the GRANTED record and shows the zone after the event (log 20); the records of the quarantines that
its open request ends are handed over before both (log 34). -/
def Part.intrusion (p : Part) (z : Fin 8) : Part :=
  let clamped := match p.sac.zones[z].request with | some q => q.clamped | none => false
  let p := p.grantHold z .maintain .intrusion (p.buttonOf z).2 0
  let p := (p.report .intrusion (zoneMember z)).accessOutcome z .intrusion
  (p.raise .intrusion (zoneMember z)).grantClose z (.clampedIf clamped)

/-- R158: a door opening on a zone with a door. -/
def Part.doorOpening (p : Part) (z : Fin 8) : Part :=
  match p.sac.zones[z].state with
  | .sealed | .halting => p.intrusion z
  | .opened => if p.sac.zones[z].level = .maintain then p else p.intrusion z
  | .waitClose | .overstay => p

/-- R155, R156: a door closing on a zone with a door. -/
def Part.doorClosing (p : Part) (z : Fin 8) : Part :=
  match p.sac.zones[z].state with
  | .waitClose => p.sealZone z .ended
  | .overstay => p.sealZone z .expired
  | .sealed | .halting | .opened => p

/-- R145: the deadline that a change of an input to `level` leaves. -/
def debounce (value level : Bool) (now : Time) : Option Time := if level = value then none else some (now + 20000)

/-- R145: DOOR of zone `z` changes to `level`. -/
def Part.doorChange (p : Part) (z : Fin 8) (level : Bool) : Part :=
  if p.sac.zones[z].doorLine = level then p
  else p.modZone z fun k => { k with doorLine := level, doorDeadline := debounce k.door level p.now }

/-- R145: REQ of zone `z` changes to `level`. -/
def Part.reqChange (p : Part) (z : Fin 8) (level : Bool) : Part :=
  if p.sac.zones[z].reqLine = level then p
  else p.modZone z fun k => { k with reqLine := level, buttonDeadline := debounce k.button level p.now }

/-- A stored deadline is present and reached (R5). -/
def deadlineReached (d : Option Time) (now : Time) : Bool :=
  match d with
  | some t => Time.reached t now
  | none => false

/-- R145: the door debounce deadline is reached. -/
def Part.doorDebounce (p : Part) (z : Fin 8) : Part :=
  if deadlineReached p.sac.zones[z].doorDeadline p.now then
    let p := (p.modZone z fun k => { k with door := k.doorLine, doorDeadline := none }).rewrite .sac
    if p.hasDoor z then (if p.sac.zones[z].door then p.doorOpening z else p.doorClosing z) else p
  else p

/-- R153: a press on a zone that has a button. -/
def Part.press (p : Part) (z : Fin 8) : Part :=
  let b := p.buttonOf z
  match p.sac.zones[z].state with
  | .sealed =>
    match b.1 with
    | .none => p
    | .observe => p.grant z .observe .button b.2 0 .ok
    | .adjust => p.grant z .adjust .button b.2 0 .ok
    | .maintain => p.enterHalting z { origin := .button, minutes := b.2, clamped := false, badge := 0 } none
  | .opened | .overstay => p.endAccess z
  | .halting | .waitClose => p

/-- R145, R153: the button debounce deadline is reached. A release only updates the record. -/
def Part.buttonDebounce (p : Part) (z : Fin 8) : Part :=
  if deadlineReached p.sac.zones[z].buttonDeadline p.now then
    let p := p.modZone z fun k => { k with button := k.reqLine, buttonDeadline := none }
    if p.sac.zones[z].button then
      let p := p.rewrite .sac
      if p.hasButton z then p.press z else p
    else p
  else p

/-! ## Resuming (R159, R160) -/

/-- R159: robot `r` of the resume set is acted on. -/
def Part.resumeRobot (p : Part) (z : Fin 8) (r : Fin 6) : Part :=
  match p.rbp.robots[r].state with
  | .running => p.markResume z r .running none
  | .starting => p
  | .stopped | .halting | .halted | .faulted =>
    match p.runRefusal r with
    | some result => p.markResume z r .failed (some ⟨result, 0⟩)
    | none => p.beginRun r none

/-- R159: robot `r`, if it is in the set, is acted on. -/
def Part.resumeMember (p : Part) (z : Fin 8) (set : BitVec 6) (r : Fin 6) : Part :=
  if set.getLsbD r.val then p.resumeRobot z r else p

/-- The resume set that halted-by-zone becomes, every robot waiting. -/
def resumeSetOf (set : BitVec 6) : Vector ResumeMark 6 :=
  let m := fun (b : Bool) => if b then ResumeMark.waiting else ResumeMark.absent
  #v[m (set.getLsbD 0), m (set.getLsbD 1), m (set.getLsbD 2), m (set.getLsbD 3), m (set.getLsbD 4), m (set.getLsbD 5)]

/-- R159: a RESUME_ZONE taken in SEALED. The robots are acted on in rising order, so that of several refused at the take
the lowest index gives the failure code of R160: the model's choice (log 43). -/
def Part.resume (p : Part) (ref : OrderRef) (z : Fin 8) : Part :=
  let set := p.sac.zones[z].haltedByZone
  let p := (p.modZone z fun k =>
    { k with haltedByZone := 0, resumeSet := resumeSetOf set, resumeFailure := none }).rewrite .sac
  let p := sixes.foldl (fun p r => p.resumeMember z set r) p
  ((p.modZone z fun k => { k with resumeOrder := some ref }).rewrite .sac).finishResume z ref

/-- R159: RESUME_ZONE. -/
def Part.resumeZoneOrder (p : Part) (ref : OrderRef) (zone : Byte) : Part :=
  match eight zone with
  | none => p.complete ref .param
  | some z =>
    if p.cvt.profile.isNone ∨ p.sac.zones[z].state ≠ .sealed then p.complete ref .state else p.resume ref z

/-! ## Adoption and line reset (R163, R164) -/

/-- R164: a zone is evaluated at an adoption. -/
def Part.zoneAdopt (p : Part) (z : Fin 8) : Part :=
  if p.doorOpen z then
    (p.grant z .maintain .adoption (p.buttonOf z).2 0 .ok).raise .adoptionOpen (zoneMember z)
  else p

/-- R164: the zone map is taken, the halted-by-zone sets are trimmed, then each zone is evaluated. -/
def Part.zonesAdopt (p : Part) (f : Profile) : Part :=
  let p := eights.foldl (fun p z =>
    p.modZone z fun k => { k with haltedByZone := k.haltedByZone &&& f.zones[z].robots }) p
  (eights.foldl (fun p z => p.zoneAdopt z) p).rewrite .sac

/-- The robots of a resume set as bits. -/
def resumeBits (marks : Vector ResumeMark 6) : BitVec 6 :=
  robotMask (sixes.filter fun r => marks[r] != .absent)

/-- R163: a line reset drops the orders a zone holds; a waiting resume's robots return to halted-by-zone. -/
def Zone.dropOrders (k : Zone) : Zone :=
  { k with accessOrder := none, resumeOrder := none, resumeFailure := none,
           haltedByZone := k.haltedByZone ||| resumeBits k.resumeSet,
           resumeSet := Vector.replicate 6 .absent }

/-- R163. -/
def Part.zonesDropOrders (p : Part) : Part :=
  (eights.foldl (fun p z => p.modZone z Zone.dropOrders) p).rewrite .sac

end Sys2Proof.Machine
end

