-- ==== Sys2Proof/Machine/Removal.lean ====
section
/-! DEFINITION. Leaving the transit list (R51 to R56): the CONTAINER outcome record, the counters, and the end of a
drain (R27) when the last record has gone. -/

namespace Sys2Proof.Machine

/-- R188: a robot in one byte, 255 for NONE. -/
def slotCode : Option (Fin 6) → Nat
  | some r => r
  | none => 255

/-- R188: the verdict byte of a camera, 255 for one not in the profile. -/
def viewByte (v : Option CameraView) : Byte :=
  match v with
  | some w => BitVec.ofNat 8 w.verdict.code
  | none => 255

/-- R54, R188: a CONTAINER record's bytes from offset 8 on. -/
def Record.outcome (r : Record) : List Byte :=
  leBytes 4 r.seq.toNat ++ leBytes 4 r.entryPos.toNat ++ leBytes 4 (Time.low r.entryTime).toNat ++
  [BitVec.ofNat 8 r.slot, BitVec.ofNat 8 (slotCode r.robot), BitVec.ofNat 8 r.fill.code,
   BitVec.ofNat 8 r.decision.code] ++ r.views.toList.map viewByte ++
  [BitVec.ofNat 8 r.causes.mask,
   BitVec.ofNat 8 (r.eject.code + 16 * flag r.marked + 32 * flag r.stepped)]

/-- R56: the counter of each cause in the set gains 1. -/
def CauseCounts.add (k : CauseCounts) (c : Causes) : CauseCounts :=
  { fillShort := if c.fillShort then inc32 k.fillShort else k.fillShort
    fillMissing := if c.fillMissing then inc32 k.fillMissing else k.fillMissing
    cameraFail := if c.cameraFail then inc32 k.cameraFail else k.cameraFail
    noVerdict := if c.noVerdict then inc32 k.noVerdict else k.noVerdict
    cameraOut := if c.cameraOut then inc32 k.cameraOut else k.cameraOut
    marked := if c.marked then inc32 k.marked else k.marked }

/-- R53, R56: the counters of a removal. -/
def Trl.countRemoval (t : Trl) (r : Record) : Trl :=
  match r.decision with
  | .pass => { t with passed := inc32 t.passed }
  | .reject => { t with rejected := inc32 t.rejected, causes := t.causes.add r.causes }
  | .undecided => t

/-- R27: in DRAINING the last record's removal completes the drain; the tracker enters READY, where the Robot Pacer
adopts what is pending (R76, R81). -/
def Part.listEmptied (p : Part) : Part :=
  if p.cvt.tracker = .draining then
    let order := p.cvt.drainOrder
    let p := p.modCvt fun c => { c with tracker := .ready, drainOrder := none }
    (((p.completeIf order .ok).raise .stopped).rewrite .cvt).robotsReady
  else p

/-- R53: the record of `seq` is removed. -/
def Part.remove (p : Part) (seq : Word) : Part :=
  match p.record seq with
  | none => p
  | some r =>
    let p := p.modTrl fun t => { t with records := t.records.filter fun x => x.seq != seq }
    let p := ((p.handOutcome 1 r.outcome).modTrl fun t => t.countRemoval r).rewrite .trl
    if p.trl.records.isEmpty then p.listEmptied else p

end Sys2Proof.Machine
end

