-- ==== Sys2Proof/Machine/Ejector.lean ====
section
/-! DEFINITION. The Reject Ejector (06_the_reject_ejector.md): taking a reject, recomputing and merging pulses,
starting a pulse, the output, confirmation, and its part of an adoption and of a line reset. -/

namespace Sys2Proof.Machine

def Part.countEject (p : Part) (f : EjectorCounters → EjectorCounters) : Part :=
  p.modRej fun e => { e with counters := f e.counters }

/-- The ejector's width of the profile. -/
def Part.ejectWidth (p : Part) : Time := BitVec.ofNat 48 (match p.cvt.profile with | some f => f.ejectWidth | none => 0)

/-- R34, R113: the start a container's own pulse would have, while a projection is given. -/
def Part.ejectStart (p : Part) (seq : Word) : Option Time :=
  match p.record seq, p.cvt.profile with
  | some r, some f => (p.project (f.stationOf r .ejector)).map fun eta => eta - BitVec.ofNat 48 f.ejectLead
  | _, _ => none

/-- The confirm span is greater than 0: confirmation is in use (R120). -/
def Part.confirming (p : Part) : Bool :=
  match p.cvt.profile with
  | some f => decide (0 < f.confirmSpan)
  | none => false

/-! ## Firing (R117, R122) -/

/-- R121, R122: a fired container leaves the confirm list unconfirmed, with the change given; its record is removed. -/
def Part.unconfirm (p : Part) (seq : Word) (news : News) : Part :=
  let p := p.modRej fun e =>
    { e with confirm := e.confirm.filter fun s => s != seq
             counters := { e.counters with unconfirmed := inc32 e.counters.unconfirmed } }
  let p := ((p.setEject seq .unconfirmed).report .ejectUnconfirmed 0 seq).raise news
  (p.rewrite .rej).remove seq

/-- R122: the confirm list has 8 entries: the oldest is pushed out. -/
def Part.pushOut (p : Part) : Part :=
  match p.rej.confirm with
  | oldest :: _ => if 8 ≤ p.rej.confirm.length then p.unconfirm oldest .confirmFull else p
  | [] => p

/-- R117: a member is fired: it joins the confirm list, or with confirmation disabled its record is removed. -/
def Part.fireMember (p : Part) (seq : Word) : Part :=
  let p := p.setEject seq .fired
  if p.confirming then p.pushOut.modRej fun e => { e with confirm := e.confirm ++ [seq] } else p.remove seq

/-- R117: the members of a pulse are fired, oldest first. -/
def Part.fireMembers (p : Part) (seqs : List Word) : Part := seqs.foldl (fun p seq => p.fireMember seq) p

/-- R117: a pulse with end time `ending` turns the output on, or joins it. -/
def Part.drive (p : Part) (ending : Time) : Part :=
  match p.rej.output with
  | none =>
    let level := !p.ejectInactive
    p.modRej fun e =>
      { e with output := some ⟨ending, level⟩, counters := { e.counters with pulses := inc32 e.counters.pulses } }
  | some q =>
    p.modRej fun e =>
      { e with output := some { q with ending := Time.later q.ending ending }
               counters := { e.counters with merges := inc32 e.counters.merges } }

/-- R117: a pulse starts with end time `ending`: it leaves the schedule, drives the output, and its members are
fired. -/
def Part.startPulse (p : Part) (q : Pulse) (ending : Time) : Part :=
  let p := (p.modRej fun e => { e with schedule := e.schedule.filter fun x => x != q }).drive ending
  (p.fireMembers q.members).rewrite .rej

/-! ## Taking a reject (R113) -/

/-- R113: a timed pulse of one container: it merges into the last pulse where its start is at or before that pulse's
end, and joins the schedule otherwise. -/
def Part.scheduleTimed (p : Part) (seq : Word) (s : Time) : Part :=
  let ending := s + p.ejectWidth
  let fresh : Pulse := { members := [seq], times := some ⟨s, ending⟩ }
  let join : Part :=
    let q := p.modRej fun e => { e with schedule := e.schedule ++ [fresh] }
    if Time.reached s p.now then q.startPulse fresh ending else q
  match p.rej.schedule.getLast?, p.rej.output with
  | some last, _ =>
    match last.times with
    | some t =>
      if Time.before t.ending s then join
      else
        let merged : Pulse :=
          { members := last.members ++ [seq], times := some ⟨Time.earlier t.start s, Time.later t.ending ending⟩ }
        p.modRej fun e =>
          { e with schedule := e.schedule.dropLast ++ [merged]
                   counters := { e.counters with merges := inc32 e.counters.merges } }
    | none => join
  | none, some out =>
    if Time.before out.ending s then join else (p.drive ending).fireMember seq
  | none, none => join

/-- R113: the Transit List hands over a REJECT container. -/
def Part.takeReject (p : Part) (seq : Word) : Part :=
  let p := p.setEject seq .scheduled
  let p :=
    match p.ejectStart seq with
    | some s => p.scheduleTimed seq s
    | none => p.modRej fun e => { e with schedule := e.schedule ++ [(⟨[seq], none⟩ : Pulse)] }
  p.rewrite .rej

/-! ## A new pace, and pace lost (R114, R115) -/

/-- R114: the pulse with its times asked afresh: the start from its oldest member, the end from its newest. A member
whose station is already reached gives no projection (R34), its arrival coming later on the same advance; what a new
pace does then R36 and R114 leave open, and the model's choice (log 33) is that a timed pulse keeps the time that member
would have given, its old start or its old end, and that a pulse by position stays one. -/
def Part.repacePulse (p : Part) (q : Pulse) : Pulse :=
  match q.times, q.members.head?.bind p.ejectStart, (q.members.getLast?.bind p.ejectStart).map (· + p.ejectWidth) with
  | _, some s, some e => { q with times := some ⟨s, e⟩ }
  | some t, s, e => { q with times := some ⟨s.getD t.start, e.getD t.ending⟩ }
  | none, _, _ => q

/-- What a recomputation's walk leaves: the output's end, the members that joined it, how many merges, the pulses. -/
structure Walk where
  output : Option Time
  joined : List Word
  merges : Nat
  pulses : List Pulse
  deriving DecidableEq, Repr

/-- R114: one pulse of the walk, oldest first: it merges into the pulse before it, which for the first is the output,
where its start is at or before that pulse's end. -/
def Walk.step (w : Walk) (q : Pulse) : Walk :=
  match q.times with
  | none => { w with pulses := w.pulses ++ [q] }
  | some t =>
    match w.pulses.getLast? with
    | some last =>
      match last.times with
      | some u =>
        if Time.before u.ending t.start then { w with pulses := w.pulses ++ [q] }
        else
          { w with merges := w.merges + 1
                   pulses := w.pulses.dropLast ++
                     [{ members := last.members ++ q.members
                        times := some ⟨Time.earlier u.start t.start, Time.later u.ending t.ending⟩ }] }
      | none => { w with pulses := w.pulses ++ [q] }
    | none =>
      match w.output with
      | some e =>
        if Time.before e t.start then { w with pulses := w.pulses ++ [q] }
        else { w with merges := w.merges + 1, joined := w.joined ++ q.members, output := some (Time.later e t.ending) }
      | none => { w with pulses := w.pulses ++ [q] }

/-- A counter gains `n`. -/
def add32 (c n : Nat) : Nat := min 4294967295 (c + n)

/-- The start of a timed pulse is reached. -/
def Pulse.startReached (q : Pulse) (now : Time) : Bool :=
  match q.times with
  | some t => Time.reached t.start now
  | none => false

/-- R116: a timed pulse starts by time. -/
def Part.startByTime (p : Part) (q : Pulse) : Part :=
  match q.times with
  | some t => p.startPulse q t.ending
  | none => p

/-- R114: a new pace recomputes the whole schedule, merges what now overlaps, and starts what is due. -/
def Part.ejectorNewPace (p : Part) : Part :=
  let w : Walk := (p.rej.schedule.map p.repacePulse).foldl Walk.step
    { output := p.rej.output.map (·.ending), joined := [], merges := 0, pulses := [] }
  let p := p.modRej fun e =>
    { e with schedule := w.pulses
             output := match e.output, w.output with
               | some q, some t => some { q with ending := t }
               | q, _ => q
             counters := { e.counters with merges := add32 e.counters.merges w.merges } }
  let p := p.fireMembers w.joined
  let p := (w.pulses.filter fun q => q.startReached p.now).foldl (fun p q => p.startByTime q) p
  p.rewrite .rej

/-- R115: a timed pulse becomes one pulse by position for each member. -/
def Pulse.split (q : Pulse) : List Pulse := q.members.map fun s => ⟨[s], none⟩

/-- R115: pace is lost. -/
def Part.ejectorPaceLost (p : Part) : Part :=
  (p.modRej fun e => { e with schedule := e.schedule.flatMap Pulse.split }).rewrite .rej

/-! ## The events (R112, R116, R120, R121) -/

/-- R116: the oldest pending pulse whose start time is reached starts. -/
def Part.ejectPulseStart (p : Part) : Part :=
  match p.rej.schedule.find? fun q => q.startReached p.now with
  | some q => p.startByTime q
  | none => p

/-- R116, R37: the ejector station arrival of a REJECT container: the pulse whose oldest member it is starts, late if
it was timed. -/
def Part.ejectorArrival (p : Part) (seq : Word) : Part :=
  match p.rej.schedule.find? fun q => q.members.head? == some seq with
  | none => p
  | some q =>
    let own := p.now + p.ejectWidth
    match q.times with
    | none => p.startPulse q own
    | some t =>
      (p.countEject fun n => { n with latePulse := inc32 n.latePulse }).startPulse q (Time.later t.ending own)

/-- R112: the output's end time is reached. -/
def Part.ejectOutputEnd (p : Part) : Part :=
  match p.rej.output with
  | some q => if Time.reached q.ending p.now then (p.modRej fun e => { e with output := none }).rewrite .rej else p
  | none => p

/-- R120: one confirmation. -/
def Part.confirmation (p : Part) : Part :=
  match p.rej.confirm with
  | seq :: rest =>
    let p := p.modRej fun e =>
      { e with confirm := rest, counters := { e.counters with confirmed := inc32 e.counters.confirmed } }
    ((p.setEject seq .confirmed).rewrite .rej).remove seq
  | [] => ((p.countEject fun n => { n with strayEject := inc32 n.strayEject }).raise .strayEject).rewrite .rej

/-- R120: CONFIRM changes to `level`; a rising edge is a confirmation where confirmation is in use. -/
def Part.confirmLine (p : Part) (level : Bool) : Part :=
  let rising := level && !p.rej.confirmLine
  let p := p.modRej fun e => { e with confirmLine := level }
  if rising && p.confirming then p.confirmation else p

/-- R121: a container reaches its confirm end. -/
def Part.confirmEnd (p : Part) (seq : Word) : Part :=
  if seq ∈ p.rej.confirm then p.unconfirm seq .unconfirmed else p

/-- R119: EJECT_TEST. -/
def Part.ejectTestOrder (p : Part) (ref : OrderRef) : Part :=
  if p.cvt.tracker = .ready then
    let ending := p.now + p.ejectWidth
    let level := !p.ejectInactive
    let p := p.modRej fun e =>
      { e with output := match e.output with
                 | some q => some { q with ending := Time.later q.ending ending }
                 | none => some ⟨ending, level⟩
               counters := { e.counters with testPulses := inc32 e.counters.testPulses } }
    ((p.raise .test).rewrite .rej).complete ref .ok
  else p.complete ref .state

/-- R125. -/
def Part.ejectorLineReset (p : Part) : Part :=
  (p.modRej fun e => { e with output := none, schedule := [], confirm := [] }).rewrite .rej

end Sys2Proof.Machine
end

