-- ==== Sys2Proof/Machine/Transit.lean ====
section
/-! DEFINITION. The Transit List (03_the_transit_list.md): admission, the decision, the ejector station, MARK_REJECT,
COUNTERS_CLEAR and the line reset. Removal stands in Removal.lean. -/

namespace Sys2Proof.Machine

/-! ## Admission (R42, R44, R45, R58) -/

/-- R42: the sequence after `s`; from 4,294,967,295 it goes to 1. -/
def nextSequence (s : Word) : Word := if s = 4294967295 then 1 else s + 1

/-- R58: one more container went past untracked. -/
def Part.countUntracked (p : Part) : Part :=
  (p.modTrl fun t => { t with untracked := inc32 t.untracked }).rewrite .trl

/-- R45: a container handed over while admitted is full. -/
def Part.turnAway (p : Part) : Part :=
  ((p.modTrl fun t => { t with untracked := inc32 t.untracked }).raise .countersFull).rewrite .trl

/-- R44: a new record. A record assigned NONE has its robot station raised at the admission (R28). -/
def Record.admitted (f : Profile) (seq : Word) (pos : Position) (time : Time) (slot : Nat)
    (robot : Option (Fin 6)) : Record :=
  { seq := seq, entryPos := pos, entryTime := time, slot := slot, robot := robot, fill := .pending
    views := f.cameras.map fun k => if k.present then some ⟨.notYet, none⟩ else none
    marked := false, stepped := false, decision := .undecided, causes := .empty, eject := .none
    stations := f.stations.filter fun s => s != .robot || robot.isSome }

/-- R44: the record joins the list at its tail. -/
def Part.append (p : Part) (r : Record) : Part :=
  (p.modTrl fun t => { t with records := t.records ++ [r], admitted := inc32 t.admitted }).rewrite .trl

/-- R44, R45: the tracker hands over a container at a sample. -/
def Part.admitContainer (p : Part) : Part :=
  match p.cvt.profile with
  | none => p
  | some f =>
    if p.trl.admitted = 4294967295 then p.turnAway
    else
      let seq := p.trl.nextSeq
      let a := (p.modTrl fun t => { t with nextSeq := nextSequence t.nextSeq }).assign
      let p := a.2.2.append (.admitted f seq p.cvt.highWater p.now a.1 a.2.1)
      let p := p.addFires seq
      if a.2.1.isNone then p.servicePitch seq else p

/-! ## The decision point (R47 to R49) -/

/-- R47: a verdict still open becomes NO_VERDICT. -/
def CameraView.close (w : CameraView) : CameraView := w.judge .noVerdict

/-- R47: the verdicts still open after the cameras have closed. -/
def Part.closeVerdicts (p : Part) (seq : Word) : Part :=
  p.evidence seq fun r => { r with views := r.views.map (Option.map CameraView.close) }

/-- R47: a fill result still PENDING becomes NO_REPORT, counted by the record's robot. -/
def Part.closeFill (p : Part) (seq : Word) : Part :=
  match p.record seq with
  | some r =>
    if r.fill = .pending then
      match r.robot with
      | some i => p.closeReport i seq
      | none => p.setFill seq .noReport
    else p
  | none => p

/-- The record's verdict of camera `c` is `v`. -/
def Record.hasVerdict (r : Record) (c : Fin 6) (v : Verdict) : Bool :=
  match r.views[c] with
  | some w => w.verdict == v
  | none => false

/-- R48: the cause set of a record whose evidence is closed. -/
def Record.compose (f : Profile) (r : Record) : Causes :=
  { fillShort := r.fill == .short
    fillMissing := r.fill == .noReport || r.fill == .unfilled
    cameraFail := sixes.any fun c => r.hasVerdict c .fail
    noVerdict := sixes.any fun c => f.cameras[c].required && r.hasVerdict c .noVerdict
    cameraOut := sixes.any fun c => f.cameras[c].required && r.hasVerdict c .cameraOut
    marked := r.marked }

/-- R48. -/
def Causes.decision (c : Causes) : Decision := if c.any then .reject else .pass

/-- R47 to R49: a record reaches its decision point. -/
def Part.settle (p : Part) (seq : Word) : Part :=
  match p.record seq, p.cvt.profile with
  | some r, some f =>
    if r.decision ≠ .undecided then p
    else
      let p := ((p.closeCameras seq).closeVerdicts seq).closeFill seq
      match p.record seq with
      | none => p
      | some r =>
        let causes := r.compose f
        let p := (p.modRecord seq fun x => { x with decision := causes.decision, causes := causes }).rewrite .trl
        if causes.any then p.takeReject seq else p
  | _, _ => p

/-- R51: a record reaches its ejector station. -/
def Part.ejectorStation (p : Part) (seq : Word) : Part :=
  match p.record seq with
  | some r =>
    match r.decision with
    | .pass => p.remove seq
    | .reject => p.ejectorArrival seq
    | .undecided => p
  | none => p

/-! ## Orders (R50, R59) -/

/-- R60: `seq` is the head of the list. -/
def Part.isHead (p : Part) (seq : Word) : Bool :=
  match p.trl.records with
  | r :: _ => r.seq == seq
  | [] => false

/-- R50: MARK_REJECT. -/
def Part.markRejectOrder (p : Part) (ref : OrderRef) (seq : Word) : Part :=
  match p.record seq with
  | some r =>
    if r.decision = .undecided then
      let set := p.modRecord seq fun x => { x with marked := true }
      (if !r.marked && p.isHead seq then set.rewrite .trl else set).complete ref .ok
    else p.complete ref .stale
  | none => p.complete ref .stale

/-- R59: the Transit List's counts. -/
def Trl.clearCounts (t : Trl) : Trl :=
  { t with admitted := 0, passed := 0, rejected := 0, abandoned := 0, untracked := 0, causes := .zero }

/-- R59: every count of the line is set to 0. -/
def Part.clearCounts (p : Part) : Part :=
  let p := p.modTrl Trl.clearCounts
  let p := p.modCvt fun c => { c with encoderErrors := 0, reverseExcursions := 0 }
  let p := p.modRbp fun b => { b with robots := b.robots.map fun k => { k with counters := .zero } }
  let p := p.modCtu fun b => { b with cameras := b.cameras.map fun k => { k with counters := .zero } }
  p.modRej fun e => { e with counters := .zero }

/-- R59: COUNTERS_CLEAR. -/
def Part.countersClearOrder (p : Part) (ref : OrderRef) : Part :=
  if p.cvt.tracker = .ready then
    let p := p.clearCounts.raise .countersCleared
    (((((p.rewrite .trl).rewrite .cvt).rewrite .rbp).rewrite .ctu).rewrite .rej).complete ref .ok
  else p.complete ref .state

/-! ## Line reset (R62) -/

/-- R62. -/
def Part.transitLineReset (p : Part) : Part :=
  let n := p.trl.records.length
  let p := (p.modTrl fun t =>
    { t with abandoned := add32 t.abandoned n, records := [], nextSeq := 1 }).rewrite .trl
  if n = 0 then p else p.raise .abandoned

end Sys2Proof.Machine
end

