-- ==== Sys2Proof/Machine/Tracker.lean ====
section
/-! DEFINITION. The Conveyor Tracker (02_conveyor_position_and_pace.md): CRAWL, marks and pace, the encoder, the
high-water advance with everything that hangs on it, LINE_START, LINE_STOP and the line reset. -/

namespace Sys2Proof.Machine

/-! ## CRAWL and marks (R30 to R33) -/

/-- R31: entry to CRAWL. -/
def Part.enterCrawl (p : Part) : Part :=
  let timed := p.cvt.paceState = .timed
  let p := p.modCvt fun c => { c with marks := [], pace := 0, paceState := .crawl }
  let p := if timed then (p.camerasPaceLost.ejectorPaceLost).raise .paceCrawl else p
  p.rewrite .cvt

/-- R36: a new pace is handed to the Camera Trigger Unit and the Reject Ejector. -/
def Part.handPace (p : Part) : Part := p.camerasNewPace.ejectorNewPace

/-- R32: the new mark is handled with enough marks for a pace. -/
def Part.judgePace (p : Part) (f : Profile) : Part :=
  match computePace p.cvt.marks f.spacing f.crawlLimit with
  | none => p.enterCrawl
  | some pace =>
    let was := p.cvt.paceState
    let p := p.modCvt fun c => { c with pace := pace, paceState := .timed }
    let p := if was = .timed then p else p.raise .paceTimed
    (p.rewrite .cvt).handPace

/-- R30: the window with a new mark; of 9 the oldest is dropped first. -/
def joinMark (marks : List Mark) (m : Mark) : List Mark := (if 9 ≤ marks.length then marks.drop 1 else marks) ++ [m]

/-- R30, R32: a mark is taken. -/
def Part.mark (p : Part) (f : Profile) : Part :=
  let now := p.now
  let p := p.modCvt fun c => { c with marks := joinMark c.marks ⟨now, c.highWater⟩ }
  match p.cvt.paceState with
  | .crawl => (p.modCvt fun c => { c with paceState := .warming }).rewrite .cvt
  | .warming => if p.cvt.marks.length < 3 then p.rewrite .cvt else p.judgePace f
  | .timed => p.judgePace f

/-- R31: machine time minus the newest stamp exceeds T_m. -/
def Part.markOverdue (p : Part) (f : Profile) : Bool :=
  match p.cvt.marks.getLast? with
  | some m => decide ((markTimeout f.spacing f.crawlLimit : Int) < (p.now - m.stamp).toInt)
  | none => false

/-- R31: the mark timeout falls due. -/
def Part.markTimedOut (p : Part) : Part :=
  match p.cvt.profile with
  | some f => if p.markOverdue f then p.enterCrawl else p
  | none => p

/-! ## One high-water advance (R20, R23, R24, R28 to R30) -/

/-- R24: the sample at phase Q. -/
def Part.sample (p : Part) : Part :=
  let p :=
    if p.cvt.infeed then
      match p.cvt.tracker with
      | .unprofiled => p
      | .ready | .draining => p.countUntracked.raise .untracked
      | .tracking => p.admitContainer
    else p
  p.rewrite .cvt

/-- R28: an arrival is raised to its owner. -/
def Part.arrive (p : Part) (seq : Word) : Station → Part
  | .robot => p.servicePitch seq
  | .camera c => p.cameraStation c seq
  | .decision => p.settle seq
  | .ejector => p.ejectorStation seq
  | .confirmEnd => p.confirmEnd seq

/-- What an advance may still have to raise (R29). -/
inductive Pending where
  | arrival (seq : Word) (station : Station)
  | watch (w : Watch)
  | sample
  | mark
  deriving DecidableEq, Repr

/-- R28, R29: the next arrival: of the oldest record with a station reached, the first in the table's order. -/
def Part.nextArrival (p : Part) (f : Profile) : Option Pending :=
  p.trl.records.findSome? fun r =>
    (r.stations.find? fun s => p.isReached (f.stationOf r s)).map fun s => .arrival r.seq s

/-- The events of the advance still open, in the order taken where nothing else is chosen. -/
def Part.pendingEvents (p : Part) (f : Profile) (sample mark : Bool) : List Pending :=
  (match p.nextArrival f with | some e => [e] | none => []) ++
  ((p.cvt.watches.filter fun w => p.isReached w.target).map .watch) ++
  (if sample then [.sample] else []) ++ (if mark then [.mark] else [])

/-- One event of the advance; an arrival or a watch is forgotten as it is raised. -/
def Part.raisePending (p : Part) (f : Profile) : Pending → Part
  | .arrival seq s =>
    (p.modRecord seq fun r => { r with stations := r.stations.filter fun x => x != s }).arrive seq s
  | .watch w => (p.modCvt fun c => { c with watches := c.watches.erase w }).raiseWatch w
  | .sample => p.sample
  | .mark => p.mark f

/-- R29: the events of one advance, one after another. `choices` picks the next among those open, the first where it
has run out; `fuel` bounds their number. -/
def Part.travel : Nat → List Nat → Bool → Bool → Part → Profile → Part
  | 0, _, _, _, p, _ => p
  | fuel + 1, choices, sample, mark, p, f =>
    let open_ := p.pendingEvents f sample mark
    match open_[choices.headD 0 % open_.length]? with
    | none => p
    | some e =>
      Part.travel fuel choices.tail (sample && e != .sample) (mark && e != .mark) (p.raisePending f e) f

/-- More than one advance can raise: each record has at most ten stations and three watches, and one may join. -/
def Part.travelFuel (p : Part) : Nat := 16 * (p.trl.records.length + 1) + p.cvt.watches.length + 2

/-- R20, R23, R30: high-water advances by one count; in a profiled line the phase and the mark count follow it. -/
def Part.advance (p : Part) (choices : List Nat) : Part :=
  let p := p.modCvt fun c => { c with position := c.position + 1, highWater := c.highWater + 1 }
  match p.cvt.profile with
  | none => p
  | some f =>
    let phase := if p.cvt.phase + 1 < f.pitch then p.cvt.phase + 1 else 0
    let marked := decide (f.spacing ≤ p.cvt.markCount + 1)
    let p := p.modCvt fun c => { c with phase := phase, markCount := if marked then 0 else c.markCount + 1 }
    Part.travel p.travelFuel choices (decide (phase = f.samplePhase)) marked p f

/-! ## The encoder (R19 to R21) -/

/-- R21: the reverse tolerance, 0 until the first adoption. -/
def Part.tolerance (p : Part) : Nat := match p.cvt.profile with | some f => f.tolerance | none => 0

/-- R21: a reverse excursion begins. -/
def Part.beginExcursion (p : Part) : Part :=
  let p := p.modCvt fun c => { c with excursion := true, reverseExcursions := inc16 c.reverseExcursions }
  ((p.report .encoderReverse 0).raise .reverse).enterCrawl

/-- R21: the depth has returned to 0 and ends the excursion. -/
def Part.endExcursion (p : Part) : Part :=
  ((p.modCvt fun c => { c with excursion := false }).raise .reverseEnd).rewrite .cvt

/-- R20: a forward count. -/
def Part.forward (p : Part) (choices : List Nat) : Part :=
  match p.cvt.depth with
  | 0 => p.advance choices
  | d + 1 =>
    let p := p.modCvt fun c => { c with position := c.position + 1, depth := d }
    if d = 0 ∧ p.cvt.excursion = true then p.endExcursion else p

/-- R20, R21: a backward count. -/
def Part.backward (p : Part) : Part :=
  let p := p.modCvt fun c =>
    if c.depth < 2147483647 then { c with position := c.position - 1, depth := c.depth + 1 }
    else { c with position := c.position - 1, highWater := c.highWater - 1 }
  if p.tolerance < p.cvt.depth ∧ p.cvt.excursion = false then p.beginExcursion else p

/-- R19: an illegal transition. -/
def Part.encoderError (p : Part) : Part :=
  ((p.modCvt fun c => { c with encoderErrors := inc16 c.encoderErrors }).raise .encoderError).rewrite .cvt

/-- R19: the pair that follows a pair in forward travel: 00, 10, 11, 01, 00. -/
def nextPair : Bool × Bool → Bool × Bool
  | (false, false) => (true, false)
  | (true, false) => (true, true)
  | (true, true) => (false, true)
  | (false, true) => (false, false)

/-- R19: the encoder pair is sampled, the infeed sensor with it. The first pair is taken without counting (R40). -/
def Part.encoderPair (p : Part) (pair : Bool × Bool) (infeed : Bool) (choices : List Nat) : Part :=
  let old := p.cvt.decoder
  let p := p.modCvt fun c => { c with decoder := some pair, infeed := infeed }
  match old with
  | none => p
  | some was =>
    if pair = was then p
    else if pair = nextPair was then p.forward choices
    else if was = nextPair pair then p.backward
    else p.encoderError

/-! ## LINE_START and LINE_STOP (R26, R27) -/

/-- R26: LINE_START. -/
def Part.lineStartOrder (p : Part) (ref : OrderRef) : Part :=
  match p.cvt.tracker with
  | .ready => (((p.modCvt fun c => { c with tracker := .tracking }).raise .started).rewrite .cvt).complete ref .ok
  | .draining =>
    let drain := p.cvt.drainOrder
    let p := (p.modCvt fun c => { c with tracker := .tracking, drainOrder := none }).completeIf drain .superseded
    ((p.raise .started).rewrite .cvt).complete ref .ok
  | .unprofiled | .tracking => p.complete ref .state

/-- R27: LINE_STOP. -/
def Part.lineStopOrder (p : Part) (ref : OrderRef) : Part :=
  match p.cvt.tracker with
  | .tracking =>
    if p.trl.records.isEmpty then
      (((p.modCvt fun c => { c with tracker := .ready }).rewrite .cvt).robotsReady).complete ref .ok
    else ((p.modCvt fun c => { c with tracker := .draining, drainOrder := some ref }).raise .draining).rewrite .cvt
  | .unprofiled | .ready | .draining => p.complete ref .state

/-! ## Line reset (R41) -/

/-- R41; an adoption in flight is abandoned (R167). -/
def Part.trackerLineReset (p : Part) : Part :=
  let adopting := p.cvt.adoption.isSome
  let p := p.modCvt fun c =>
    { c with tracker := if c.tracker = .unprofiled then .unprofiled else .ready
             highWater := c.position, depth := 0, excursion := false, phase := 0, markCount := 0
             drainOrder := none, watches := [], adoption := none }
  let p := p.enterCrawl
  if adopting then p.rewrite .profile else p

end Sys2Proof.Machine
end

