-- ==== Sys2Proof/Machine/Time.lean ====
section
/-! DEFINITION. The Machine Time Unit (01_machine_time.md): the counter, trim, steps, the sync input, the snapshot, and
its part of an adoption and of a line reset. -/

namespace Sys2Proof.Machine

/-! ## The counter (R2, R3) -/

/-- R2: one core clock tick. -/
def Mtu.tick (m : Mtu) : Mtu :=
  let sum := m.fraction.toNat + m.increment.toNat
  { m with fraction := BitVec.ofNat 32 sum, time := if 4294967296 ≤ sum then m.time + 1 else m.time }

def Part.tick (p : Part) : Part := p.modMtu Mtu.tick

/-- R2: how many ticks bring the next carry. -/
def Mtu.ticksToCarry (m : Mtu) : Nat :=
  (4294967296 - m.fraction.toNat + m.increment.toNat - 1) / m.increment.toNat

/-- R2: the ticks up to and including the next carry, counted together: the last of them carries. -/
def Mtu.carry (m : Mtu) : Mtu :=
  { m with fraction := BitVec.ofNat 32 (m.fraction.toNat + m.ticksToCarry * m.increment.toNat), time := m.time + 1 }

def Part.carry (p : Part) : Part := p.modMtu Mtu.carry

/-- R3: the base increment. -/
def baseIncrement : Nat := 85899346

/-- R3: the adjustment for trim `t`: the quotient rounded to the nearest integer, an exact half away from zero. -/
def adjustment (t : Int) : Int :=
  let n : Nat := (2 * (baseIncrement * t.natAbs) + 1000000000) / 2000000000
  if t < 0 then -(n : Int) else n

/-- R3: the increment for trim `t`. -/
def incrementOf (t : Int) : BitVec 32 := BitVec.ofInt 32 (baseIncrement + adjustment t)

/-- A signed value clamped to `-limit .. limit` (R4, R6). -/
def clampSigned (limit n : Int) : Int := if n < -limit then -limit else if limit < n then limit else n

/-- R4: TIME_TRIM. -/
def Part.timeTrimOrder (p : Part) (ref : OrderRef) (ppb : Word) : Part :=
  let trim := clampSigned 200000 ppb.toInt
  ((p.modMtu fun m => { m with trim := trim, increment := incrementOf trim }).rewrite .mtu).complete ref
    (.clampedIf (decide (trim ≠ ppb.toInt)))

/-! ## Applying a step (R8, R9) -/

/-- A stored time that may be absent is moved. -/
def moved (o : Time) (t : Option Time) : Option Time := t.map (· + o)

def OutputPulse.shift (o : Time) (q : OutputPulse) : OutputPulse := { q with ending := q.ending + o }

/-- R8: the Machine Time Unit's own times. -/
def Mtu.shift (o : Time) (m : Mtu) : Mtu :=
  { m with time := m.time + o, windowEnd := moved o m.windowEnd, lossDeadline := moved o m.lossDeadline }

/-- R8: the stamps of the mark window. -/
def Cvt.shift (o : Time) (c : Cvt) : Cvt := { c with marks := c.marks.map fun m => { m with stamp := m.stamp + o } }

/-- R8: the acknowledge deadlines. -/
def Rbp.shift (o : Time) (b : Rbp) : Rbp :=
  { b with robots := b.robots.map fun k => { k with deadline := moved o k.deadline } }

/-- R8: scheduled trigger times and pulse ends. -/
def Ctu.shift (o : Time) (b : Ctu) : Ctu :=
  { b with cameras := b.cameras.map fun k =>
      { k with schedule := k.schedule.map fun f => { f with time := moved o f.time }
               pulse := k.pulse.map (OutputPulse.shift o) } }

/-- R8: scheduled pulses and the output's end. -/
def Rej.shift (o : Time) (e : Rej) : Rej :=
  { e with output := e.output.map (OutputPulse.shift o)
           schedule := e.schedule.map fun q =>
             { q with times := q.times.map fun t => ⟨t.start + o, t.ending + o⟩ } }

/-- R8: the silence deadlines. -/
def Spm.shift (o : Time) (b : Spm) : Spm :=
  { b with ports := b.ports.map fun q => { q with deadline := moved o q.deadline } }

/-- R8: expiries and debounce deadlines. -/
def Sac.shift (o : Time) (b : Sac) : Sac :=
  { b with zones := b.zones.map fun k =>
      { k with expiry := moved o k.expiry, doorDeadline := moved o k.doorDeadline
               buttonDeadline := moved o k.buttonDeadline } }

/-- R8: the age deadline. -/
def Rpu.shift (o : Time) (u : Rpu) : Rpu := { u with ageDeadline := moved o u.ageDeadline }

/-- R8: machine time and every stored schedule and deadline move together. -/
def Part.shift (p : Part) (o : Time) : Part :=
  { p with mtu := p.mtu.shift o, cvt := p.cvt.shift o, rbp := p.rbp.shift o, ctu := p.ctu.shift o, rej := p.rej.shift o,
           spm := p.spm.shift o, sac := p.sac.shift o, rpu := p.rpu.shift o }

/-- R9: a step that moves time sets STEPPED in every record of the list. -/
def Part.markStepped (p : Part) (offset : Int) : Part :=
  if offset = 0 then p
  else p.modTrl fun t => { t with records := t.records.map fun r => { r with stepped := true } }

/-- R162, R192: a step that moves an expiry or the age deadline changes a field whose change rewrites the mirror record
of the Service Access Controller, of the Report Unit. -/
def Part.mirrorStep (p : Part) (offset : Int) : Part :=
  let p := if offset ≠ 0 ∧ (eights.any fun z => p.sac.zones[z].expiry.isSome) = true then p.rewrite .sac else p
  if offset ≠ 0 ∧ p.rpu.ageDeadline.isSome = true then p.rewrite .rpu else p

/-- R8, R9: a step is applied. The changes it raises show machine time after the offset, as the completion time does: the
model's choice (log 38). -/
def Part.applyStep (p : Part) (q : PendingStep) : Part :=
  let before := p.now
  let p := (p.shift (BitVec.ofInt 48 q.offset)).markStepped q.offset
  let p := p.modMtu fun m => { m with pendingStep := none, beforeStep := before, lastOffset := q.offset }
  (((p.complete q.ref (.clampedIf q.clamped)).raise .stepApplied).rewrite .mtu).mirrorStep q.offset

/-- R12: the pending step, if there is one, is applied. -/
def Part.releaseStep (p : Part) : Part :=
  match p.mtu.pendingStep with
  | some q => p.applyStep q
  | none => p

/-- R6, R7: TIME_STEP. -/
def Part.timeStepOrder (p : Part) (ref : OrderRef) (offset : Word) : Part :=
  let o := clampSigned 1000000 offset.toInt
  let q : PendingStep := { offset := o, clamped := decide (o ≠ offset.toInt), ref := ref }
  let p := p.completeIf (p.mtu.pendingStep.map (·.ref)) .superseded
  match p.mtu.syncState with
  | .absent => p.applyStep q
  | .present => (p.modMtu fun m => { m with pendingStep := some q }).rewrite .mtu

/-! ## The sync input (R10 to R14) -/

/-- R11: the sync state after a pulse stamped `stamp`. -/
def Mtu.judge (m : Mtu) (stamp : Time) : SyncState :=
  match m.windowEnd with
  | some w => if Time.before w stamp then m.syncState else .present
  | none => m.syncState

/-- R10: a sync pulse. -/
def Part.syncPulse (p : Part) : Part :=
  let before := p.mtu.syncState
  let stamp := p.now
  let p := p.modMtu fun m =>
    { m with lastSync := stamp, syncState := m.judge stamp, windowEnd := some (stamp + 1100000)
             lossDeadline := some (stamp + 2000000) }
  let p := p.raise (if p.mtu.syncState = before then .syncPulse else .syncPresent)
  (p.rewrite .mtu).releaseStep

/-- R10: SYNC changes to `level`; a rising edge in mode PULSE is a pulse. -/
def Part.syncLevel (p : Part) (level : Bool) : Part :=
  let rising := level && !p.syncLine
  let p := p.setSyncLine level
  if rising && p.mtu.syncMode == .pulse then p.syncPulse else p

/-- R13: the sync is lost. -/
def Part.loseSync (p : Part) : Part :=
  let p := p.modMtu fun m => { m with syncState := .absent, lossDeadline := none }
  (((p.report .syncLost 0).raise .syncLost).rewrite .mtu).releaseStep

/-- R13: the sync loss deadline is reached. -/
def Part.syncLoss (p : Part) : Part :=
  if deadlineReached p.mtu.lossDeadline p.now then
    match p.mtu.syncState with
    | .present => p.loseSync
    | .absent => p.modMtu fun m => { m with lossDeadline := none }
  else p

/-- R14: the sync mode of the profile just adopted is taken. -/
def Part.syncAdopt (p : Part) (mode : SyncMode) : Part :=
  if p.mtu.syncMode = mode then p
  else
    let p := if mode = .none then p.releaseStep else p
    (p.modMtu fun m =>
      { m with syncMode := mode, syncState := .absent, windowEnd := none, lossDeadline := none }).rewrite .mtu

/-! ## The snapshot and the line reset (R15, R17) -/

/-- R15: a host read of time word 0; before READY has first shown it returns 0 and loads nothing. -/
def Part.readTime (p : Part) : Part :=
  if p.rpu.phase = .startingUp then p.modRpu fun u => { u with busData := 0 }
  else
    let now := p.now
    (p.modMtu fun m => { m with latch := now }).modRpu fun u => { u with busData := now.extractLsb' 0 16 }

/-- R17: a pending step is discarded. -/
def Part.timeLineReset (p : Part) : Part :=
  if p.mtu.pendingStep.isSome then (p.modMtu fun m => { m with pendingStep := none }).rewrite .mtu else p

end Sys2Proof.Machine
end

