-- ==== Sys2Proof/Machine/Report.lean ====
section
/-! DEFINITION. The Report Unit's own events (10_orders_bulletins_and_outcome_pages.md): seen writes, page returns, page
age, OUTCOME_FLUSH, FAULT_UNLOCK and INT_LEVEL. What every block asks of it stands in Ops.lean. -/

namespace Sys2Proof.Machine

/-- R184: the bulletin after a seen write. -/
def Bulletin.see (b : Bulletin) (value : Half) : Bulletin :=
  if value = b.change then { b with seen := value, level := .info, levelCause := 0, levelMember := 0 }
  else { b with seen := value }

/-- R184: a host write to a bulletin's seen count; caught up, the level and its cause and member are written too. -/
def Part.seenWrite (p : Part) (b : Fin 10) (value : Half) : Part :=
  if p.rpu.phase = .ready then
    let caughtUp := value = p.rpu.bulletins[b].change
    let p := p.modRpu fun u => { u with bulletins := modAt u.bulletins b (·.see value) }
    let p := p.store (bulletinBase b + 2) (leBytes 2 value.toNat)
    if caughtUp then p.store (bulletinBase b + 4) [0, 0, 0] else p
  else p

/-- R189: a page error on page `i`; the state word stays as it stood. -/
def Part.pageError (p : Part) (i : Fin 8) : Part :=
  ((p.modOdk fun o => { o with protocolErrors := inc16 o.protocolErrors }).raise .pageError
    (BitVec.ofNat 8 i.val)).rewrite .odk

/-- R189: page `i` is returned; as the next page with none FILLING it becomes FILLING. -/
def Part.returnPage (p : Part) (i : Fin 8) : Part :=
  let p := p.modPage i fun g => { g with state := .empty, count := 0, cause := .none }
  let p := p.store (entryBase i) (p.rpu.pages[i].bytes.take 4)
  if p.rpu.nextPage = i ∧ p.fillingPage.isNone then (p.openPage i).rewrite .rpu else p

/-- R189: a host write to the state word of page `i`; the low byte is the new state. -/
def Part.pageStateWrite (p : Part) (i : Fin 8) (value : Half) : Part :=
  if p.rpu.phase = .ready then
    if value.setWidth 8 = (0 : Byte) then
      match p.rpu.pages[i].state with
      | .full => p.returnPage i
      | .filling => p.pageError i
      | .empty => p
    else p.pageError i
  else p

/-- R186: the age deadline of the FILLING page is reached. -/
def Part.pageAge (p : Part) : Part :=
  if deadlineReached p.rpu.ageDeadline p.now then
    match p.fillingPage with
    | some i => p.closePage i .age
    | none => p
  else p

/-- R186, R198: the FILLING page closes if it holds a record. -/
def Part.closeFilling (p : Part) (cause : CloseCause) : Part :=
  match p.fillingPage with
  | some i => if p.rpu.pages[i].count = 0 then p else p.closePage i cause
  | none => p

/-- R186: OUTCOME_FLUSH. -/
def Part.outcomeFlushOrder (p : Part) (ref : OrderRef) : Part := (p.closeFilling .flush).complete ref .ok

/-- R191: FAULT_UNLOCK. R191 names no member for UNLOCKED; the model raises it with 0 (log 37). -/
def Part.faultUnlockOrder (p : Part) (ref : OrderRef) (count : Half) : Part :=
  if p.rpu.fault.kind.isNone then p.complete ref .ok
  else if count.toNat = p.rpu.fault.further then
    (((p.modRpu fun u => { u with fault := .clear }).storeFault).raise .unlocked).complete ref .ok
  else p.complete ref .state

/-- R196: the threshold a write to INT_LEVEL sets. -/
def thresholdOf (value : Half) : Nat := min value.toNat 3

/-- R196: a write to INT_LEVEL. -/
def Part.intLevel (p : Part) (value : Half) : Part :=
  if p.rpu.phase = .startingUp ∨ p.rpu.threshold = thresholdOf value then p
  else (p.modRpu fun u => { u with threshold := thresholdOf value }).rewrite .rpu

end Sys2Proof.Machine
end

