-- ==== Sys2Proof/Machine/Candidate.lean ====
section
/-! DEFINITION. The candidate of a PROFILE_ADOPT (09_the_line_profile.md): the fields of R165 at the offsets of R194, the
twelve checks of R168 in their order, and the profile that a candidate which passes them holds. -/

namespace Sys2Proof.Machine

/-- R173: where the staging area starts. -/
def stagingBase : Nat := 0x5000
/-- R173: its size. -/
def stagingSize : Nat := 12288

/-- A field of the candidate (R194). -/
def Memory.field (m : Memory) (offset width : Nat) : Nat := Memory.number m (stagingBase + offset) width

/-! ## Where the fields lie (R194) -/

def robotField (r offset : Nat) : Nat := 0x020 + 16 * r + offset
def slotField (s : Nat) : Nat := 0x082 + s
def cameraField (c offset : Nat) : Nat := 0x090 + 16 * c + offset
def portField (i offset : Nat) : Nat := 0x100 + 8 * i + offset
def zoneField (z offset : Nat) : Nat := 0x180 + 8 * z + offset

def Memory.pitch (m : Memory) : Nat := m.field 0x008 2
def Memory.samplePhase (m : Memory) : Nat := m.field 0x00A 2
def Memory.spacing (m : Memory) : Nat := m.field 0x00C 2
def Memory.decisionPoint (m : Memory) : Nat := m.field 0x014 4
def Memory.grace (m : Memory) : Nat := m.field 0x018 2
def Memory.robotStation (m : Memory) (r : Nat) : Nat := m.field (robotField r 0) 4
def Memory.slotCount (m : Memory) : Nat := m.field 0x080 1
def Memory.slotEntry (m : Memory) (s : Nat) : Nat := m.field (slotField s) 1
def Memory.cameraStation (m : Memory) (c : Nat) : Nat := m.field (cameraField c 0) 4
def Memory.cameraPresent (m : Memory) (c : Nat) : Bool := m.field (cameraField c 8) 1 == 1
def Memory.ejectorStation (m : Memory) : Nat := m.field 0x0F0 4
def Memory.confirmSpan (m : Memory) : Nat := m.field 0x0F4 4
def Memory.portRole (m : Memory) (i : Nat) : Nat := m.field (portField i 0) 1
def Memory.zoneRobots (m : Memory) (z : Nat) : Nat := m.field (zoneField z 0) 1
def Memory.zoneCameras (m : Memory) (z : Nat) : Nat := m.field (zoneField z 1) 1

/-! ## The checks (R168) -/

/-- What a check finds: nothing, or a failure with the index it names. -/
abbrev Finding := Option (Option Nat)

/-- A check that concerns no single element. -/
def Finding.whole (passes : Bool) : Finding := if passes then none else some none

/-- A check made on each element in turn: the first that fails. -/
def Finding.each (elements : List Nat) (passes : Nat → Bool) : Finding :=
  (elements.find? fun i => !passes i).map some

/-- The first failure of several findings. -/
def Finding.first (l : List Finding) : Finding := l.findSome? id

def within (low n high : Nat) : Bool := decide (low ≤ n) && decide (n ≤ high)

/-- Robots, cameras. -/
def upToSix : List Nat := [0, 1, 2, 3, 4, 5]
/-- Zones. -/
def upToEight : List Nat := [0, 1, 2, 3, 4, 5, 6, 7]
/-- Ports. -/
def upToSixteen : List Nat := [0, 1, 2, 3, 4, 5, 6, 7, 8, 9, 10, 11, 12, 13, 14, 15]

/-- The slots of the rotation. -/
def Memory.slotIndices (m : Memory) : List Nat := List.range m.slotCount

/-- Check 2 for camera `c`: every field but the station (R165, R194). -/
def Memory.cameraInRange (m : Memory) (c : Nat) : Bool :=
  within 0 (m.field (cameraField c 8) 1) 1 && within 1 (m.field (cameraField c 6) 2) 65535 &&
    within 0 (m.field (cameraField c 9) 1) 1 && within 0 (m.field (cameraField c 10) 1) 1 &&
    within 0 (m.field (cameraField c 11) 1) 1

/-- Check 2 for port `i`: the index is read only for the roles that name a member or a zone. -/
def Memory.portInRange (m : Memory) (i : Nat) : Bool :=
  let role := m.portRole i
  let index := m.field (portField i 1) 1
  within 0 role 5 && ((role != 2 && role != 3) || within 0 index 5) && (role != 4 || within 0 index 7) &&
    within 1 (m.field (portField i 2) 2) 60000 && within 0 (m.field (portField i 4) 1) 2

/-- Check 2 for zone `z`: a set with bit 6 or 7 set names an index out of range. -/
def Memory.zoneInRange (m : Memory) (z : Nat) : Bool :=
  within 0 (m.zoneRobots z) 63 && within 0 (m.zoneCameras z) 63 && within 0 (m.field (zoneField z 2) 1) 1 &&
    within 0 (m.field (zoneField z 3) 1) 1 && within 0 (m.field (zoneField z 4) 1) 3 &&
    within 1 (m.field (zoneField z 5) 1) 240

/-- R168: the pitch that RANGE judges G against. -/
def Memory.gracePitch (m : Memory) : Nat := if within 32 m.pitch 4096 then m.pitch else 4096

/-- Check 2 RANGE, group by group in the order of R165's table, and in a group of several elements element by element: which
one is named where two fail is the model's reading (log 29). -/
def Memory.checkRange (m : Memory) : Finding :=
  Finding.first
    [.whole (within 0 (m.field 0x002 1) 1), .whole (within 65536 (m.field 0x010 4) 4294967295),
     .whole (within 0 m.grace m.gracePitch), .whole (within 1 m.slotCount 12),
     .each m.slotIndices (fun s => within 0 (m.slotEntry s) 5 || m.slotEntry s == 255),
     .whole (within 0 (m.field 0x081 1) 1), .each upToSix m.cameraInRange,
     .whole (within 1 (m.field 0x0FA 2) 65535), .whole (within 0 (m.field 0x0FC 1) 1),
     .each upToSixteen m.portInRange, .each upToEight m.zoneInRange]

/-- Check 4 DISTANCE, in the order in which R168 names the distances (log 29). -/
def Memory.checkDistance (m : Memory) : Finding :=
  let ok := fun n => decide (n < 1048576)
  Finding.first
    [.each upToSix (fun r => ok (m.robotStation r)),
     .each upToSix (fun c => !m.cameraPresent c || ok (m.cameraStation c)),
     .whole (ok m.decisionPoint && ok m.ejectorStation && ok m.confirmSpan)]

/-- Check 5 for slot `s`: the robot it names ends its pitch and grace before the decision point. -/
def Memory.slotBeforeDecision (m : Memory) (s : Nat) : Bool :=
  m.slotEntry s == 255 || decide (m.robotStation (m.slotEntry s) + m.pitch + m.grace < m.decisionPoint)

/-- Check 6 for camera `c`. -/
def Memory.cameraBeforeDecision (m : Memory) (c : Nat) : Bool :=
  !m.cameraPresent c ||
    (decide (m.cameraStation c < m.decisionPoint) && decide (m.decisionPoint ≤ m.cameraStation c + 15 * m.pitch))

/-- Check 10 for zone `z`: no earlier zone shares a member with it. -/
def Memory.zoneDisjoint (m : Memory) (z : Nat) : Bool :=
  (List.range z).all fun y => m.zoneRobots y &&& m.zoneRobots z == 0 && m.zoneCameras y &&& m.zoneCameras z == 0

/-- Check 11 for robot `r`. -/
def Memory.timeoutsInRange (m : Memory) (r : Nat) : Bool :=
  within 10 (m.field (robotField r 8) 2) 10000 && within 10 (m.field (robotField r 10) 2) 10000

/-- Check 12 for port `i`: it is not a second LINE_PC port. -/
def Memory.soleLinePc (m : Memory) (i : Nat) : Bool :=
  m.portRole i != 1 || (List.range i).all fun j => m.portRole j != 1

/-- R168: the twelve checks in their order. -/
def Memory.checks (m : Memory) : List (Byte × Finding) :=
  [(1, .whole (m.field 0x000 2 == 3)),
   (2, m.checkRange),
   (3, .whole (within 32 m.pitch 4096 && within 16 m.spacing 1024 && decide (m.samplePhase < m.pitch))),
   (4, m.checkDistance),
   (5, .each m.slotIndices m.slotBeforeDecision),
   (6, .each upToSix m.cameraBeforeDecision),
   (7, .whole (decide (m.decisionPoint < m.ejectorStation))),
   (8, .whole (decide (m.ejectorStation + m.confirmSpan ≤ 255 * m.pitch))),
   (9, .whole (decide (m.confirmSpan ≤ 7 * m.pitch))),
   (10, .each upToEight m.zoneDisjoint),
   (11, .each upToSix m.timeoutsInRange),
   (12, .each upToSixteen m.soleLinePc)]

/-- R168: the first check that fails, as a refusal. -/
def Memory.refusal (m : Memory) : Option AdoptRefusal :=
  m.checks.findSome? fun c => c.2.map fun index => ⟨.param, c.1, index⟩

/-! ## The profile of a candidate that passes (R165, R194) -/

def Memory.roleOf (m : Memory) (i : Nat) : Role :=
  let index := m.field (portField i 1) 1
  match m.portRole i with
  | 1 => .linePc
  | 2 => .robot (Fin.ofNat 6 index)
  | 3 => .camera (Fin.ofNat 6 index)
  | 4 => .service (Fin.ofNat 8 index)
  | 5 => .other
  | _ => .unassigned

def Memory.actionOf (m : Memory) (i : Nat) : SilenceAction :=
  match m.field (portField i 4) 1 with
  | 1 => .haltMember
  | 2 => .degradeMember
  | _ => .report

def Memory.buttonLevelOf (m : Memory) (z : Nat) : AccessLevel :=
  match m.field (zoneField z 4) 1 with
  | 1 => .observe
  | 2 => .adjust
  | 3 => .maintain
  | _ => .none

def Memory.slotOf (m : Memory) (s : Nat) : Option (Fin 6) :=
  if m.slotEntry s = 255 then none else some (Fin.ofNat 6 (m.slotEntry s))

def Memory.robotOf (m : Memory) (r : Nat) : RobotSettings :=
  { station := m.robotStation r
    window := ⟨m.field (robotField r 4) 2, m.field (robotField r 6) 2⟩
    runTimeout := m.field (robotField r 8) 2
    haltTimeout := m.field (robotField r 10) 2
    threshold := m.field (robotField r 12) 1 }

def Memory.cameraOf (m : Memory) (c : Nat) : CameraSettings :=
  { present := m.cameraPresent c
    station := m.cameraStation c
    lead := m.field (cameraField c 4) 2
    width := m.field (cameraField c 6) 2
    activeLow := m.field (cameraField c 9) 1 == 1
    source := if m.field (cameraField c 10) 1 = 1 then .orders else .lines
    required := m.field (cameraField c 11) 1 == 1
    threshold := m.field (cameraField c 12) 1 }

def Memory.portOf (m : Memory) (i : Nat) : PortSettings :=
  { role := m.roleOf i, limit := m.field (portField i 2) 2, action := m.actionOf i }

def Memory.zoneOf (m : Memory) (z : Nat) : ZoneSettings :=
  { robots := BitVec.ofNat 6 (m.zoneRobots z)
    cameras := BitVec.ofNat 6 (m.zoneCameras z)
    doorPresent := m.field (zoneField z 2) 1 == 1
    buttonPresent := m.field (zoneField z 3) 1 == 1
    buttonLevel := m.buttonLevelOf z
    buttonMinutes := m.field (zoneField z 5) 1 }

/-- The profile a candidate holds. -/
def Memory.profile (m : Memory) : Profile :=
  { id := BitVec.ofNat 32 (m.field 0x004 4)
    syncMode := if m.field 0x002 1 = 1 then .pulse else .none
    pitch := m.pitch
    samplePhase := m.samplePhase
    spacing := m.spacing
    tolerance := m.field 0x00E 2
    crawlLimit := m.field 0x010 4
    decision := m.decisionPoint
    grace := m.grace
    robots := Vector.ofFn fun r => m.robotOf r.val
    rotation := { slots := m.slotIndices.map m.slotOf, skip := m.field 0x081 1 == 1 }
    cameras := Vector.ofFn fun c => m.cameraOf c.val
    ejector := m.ejectorStation
    confirmSpan := m.confirmSpan
    ejectLead := m.field 0x0F8 2
    ejectWidth := m.field 0x0FA 2
    ejectActiveLow := m.field 0x0FC 1 == 1
    ports := Vector.ofFn fun i => m.portOf i.val
    zones := Vector.ofFn fun z => m.zoneOf z.val }

end Sys2Proof.Machine
end

