-- ==== Sys2Proof/Machine/Adoption.lean ====
section
/-! DEFINITION. Adopting a profile (09_the_line_profile.md): PROFILE_ADOPT, the copy, its end, the refusal, and the
adoption in which every block takes its part. -/

namespace Sys2Proof.Machine

/-- R166: PROFILE_ADOPT is refused: 1 TRACKER, 2 ZONE. -/
def Part.adoptionObstacle (p : Part) : Option Byte :=
  if p.cvt.tracker = .tracking ∨ p.cvt.tracker = .draining then some 1
  else if p.cvt.profile.isSome && !p.allSealed then some 2
  else none

/-- R168, R169, R171: a PROFILE_ADOPT is refused: the refusal is recorded, the order completes, TRACK is told. -/
def Part.refuseAdoption (p : Part) (ref : OrderRef) (r : AdoptRefusal) : Part :=
  let p := p.modCvt fun c =>
    { c with adoption := none, profileRecord := { c.profileRecord with refusal := some r } }
  ((p.complete ref r.result r.detail).raise .profileRefused).rewrite .profile

/-- R166: PROFILE_ADOPT. -/
def Part.profileAdoptOrder (p : Part) (ref : OrderRef) : Part :=
  match p.adoptionObstacle with
  | some detail => p.refuseAdoption ref ⟨.state, detail, none⟩
  | none => (p.modCvt fun c => { c with adoption := some ⟨ref, 0, []⟩ }).rewrite .profile

/-- R167: the copy goes on up to byte `target`, whole words, from the lowest offset on; the bytes that R194 assigns to no
field are read with the rest (log 42). -/
def Adoption.advance (a : Adoption) (mem : Memory) (target : Nat) : Adoption :=
  let n := min (target - target % 2) stagingSize
  if n ≤ a.progress then a
  else { a with progress := n, candidate := a.candidate ++ Memory.span mem (stagingBase + a.progress) (stagingBase + n) }

/-- R167: a copy in progress has read `target` bytes. -/
def Part.advanceCopy (p : Part) (target : Nat) : Part :=
  p.modCvt fun c => { c with adoption := c.adoption.map fun a => a.advance p.mem target }

/-- R25: the Conveyor Tracker takes its part of the profile just adopted. -/
def Part.trackerAdopt (p : Part) : Part :=
  let p := (p.modCvt fun c =>
    { c with highWater := c.position, depth := 0, excursion := false, phase := 0, markCount := 0 }).enterCrawl
  ((p.modCvt fun c => { c with tracker := .ready }).raise .profiled).rewrite .cvt

/-- R78, R171: some robot's window close is clamped. -/
def Profile.clamps (f : Profile) : Bool := f.robots.toList.any fun k => decide (f.pitch < k.window.closing)

/-- R170: each block takes its part of `f`, the zones last. -/
def Part.takeParts (p : Part) (f : Profile) : Part :=
  let p := p.modCvt fun c => { c with profile := some f }
  let p := ((p.syncAdopt f.syncMode).trackerAdopt.robotsAdopt f).camerasAdopt
  ((p.rewrite .rej).portsAdopt f).zonesAdopt f

/-- R170, R171: the candidate is adopted. -/
def Part.adopt (p : Part) (ref : OrderRef) (f : Profile) : Part :=
  let p := p.takeParts f
  let p := p.modCvt fun c =>
    { c with adoption := none
             profileRecord := { c.profileRecord with count := inc16 c.profileRecord.count
                                                     adoptedAt := Time.low p.now } }
  (p.complete ref (.clampedIf f.clamps)).rewrite .profile

/-- R168, R169: the copy has ended with candidate `m`. -/
def Part.judgeCandidate (p : Part) (ref : OrderRef) (m : Memory) : Part :=
  match m.refusal with
  | some r => p.refuseAdoption ref r
  | none =>
    if p.cvt.profile.isSome && !p.allSealed then p.refuseAdoption ref ⟨.state, 2, none⟩
    else p.adopt ref m.profile

/-- R167: the copy ends: what it has not read yet is read as it stands. -/
def Part.copyEnd (p : Part) : Part :=
  match p.cvt.adoption with
  | some a => p.judgeCandidate a.ref (a.advance p.mem stagingSize).candidate
  | none => p

end Sys2Proof.Machine
end

