-- ==== Sys2Proof/Machine/Operands.lean ====
section
/-! DEFINITION. The operand forms of an order (R181): the kind byte and the parameters of a cell, read as the order they
spell, with the kind's code and what the BUSY rule of R178 keeps to one order. -/

namespace Sys2Proof.Machine

/-- R181: the kind's code. -/
def kindCode : Order → Byte
  | .profileAdopt => 1 | .lineStart => 2 | .lineStop => 3 | .markReject _ => 4 | .countersClear => 5 | .timeTrim _ => 6
  | .timeStep _ => 7 | .robotRun _ => 8 | .robotHalt _ => 9 | .robotClear _ => 10 | .windowSet _ _ _ => 11
  | .rotationSet _ _ _ => 12 | .cameraService _ _ => 13 | .cameraRestore _ => 14 | .verdict _ _ _ => 15
  | .ejectTest => 16 | .portAdmit _ _ => 17 | .hallHold => 18 | .hallRelease => 19 | .accessRequest _ _ _ _ => 20
  | .accessExtend _ _ => 21 | .accessEnd _ => 22 | .resumeZone _ => 23 | .outcomeFlush => 24 | .faultUnlock _ => 25

/-- R175, R181: where the parameters of a cell start. -/
def paramBase (n : Fin 48) : Nat := cellBase n + 12

/-- An 8-bit parameter. -/
def Memory.par8 (m : Memory) (n : Fin 48) (offset : Nat) : Byte := Memory.byte m (paramBase n + offset)
/-- A 16-bit parameter. -/
def Memory.par16 (m : Memory) (n : Fin 48) (offset : Nat) : Half :=
  BitVec.ofNat 16 (Memory.number m (paramBase n + offset) 2)
/-- A 32-bit parameter. -/
def Memory.par32 (m : Memory) (n : Fin 48) (offset : Nat) : Word :=
  BitVec.ofNat 32 (Memory.number m (paramBase n + offset) 4)

/-- R181: the twelve slot entries of a ROTATION_SET. -/
def Memory.parSlots (m : Memory) (n : Fin 48) : List Byte :=
  [m.par8 n 2, m.par8 n 3, m.par8 n 4, m.par8 n 5, m.par8 n 6, m.par8 n 7, m.par8 n 8, m.par8 n 9, m.par8 n 10,
   m.par8 n 11, m.par8 n 12, m.par8 n 13]

/-- R175: the kind byte of a cell. -/
def Memory.kind (m : Memory) (n : Fin 48) : Byte := Memory.byte m (cellBase n + 1)
/-- R175: the hand of a cell. -/
def Memory.hand (m : Memory) (n : Fin 48) : Byte := Memory.byte m (cellBase n)
/-- R175: the host tag of a cell. -/
def Memory.tag (m : Memory) (n : Fin 48) : Half := BitVec.ofNat 16 (Memory.number m (cellBase n + 8) 2)

/-- R181: the order that cell `n` spells, or none where its kind is not one of the table. -/
def Memory.order (m : Memory) (n : Fin 48) : Option Order :=
  match (m.kind n).toNat with
  | 1 => some .profileAdopt
  | 2 => some .lineStart
  | 3 => some .lineStop
  | 4 => some (.markReject (m.par32 n 0))
  | 5 => some .countersClear
  | 6 => some (.timeTrim (m.par32 n 0))
  | 7 => some (.timeStep (m.par32 n 0))
  | 8 => some (.robotRun (m.par8 n 0))
  | 9 => some (.robotHalt (m.par8 n 0))
  | 10 => some (.robotClear (m.par8 n 0))
  | 11 => some (.windowSet (m.par8 n 0) (m.par16 n 2) (m.par16 n 4))
  | 12 => some (.rotationSet (m.par8 n 0) (m.par8 n 1) (m.parSlots n))
  | 13 => some (.cameraService (m.par8 n 0) (m.par8 n 1))
  | 14 => some (.cameraRestore (m.par8 n 0))
  | 15 => some (.verdict (m.par8 n 0) (m.par8 n 1) (m.par32 n 4))
  | 16 => some .ejectTest
  | 17 => some (.portAdmit (m.par8 n 0) (m.par8 n 1))
  | 18 => some .hallHold
  | 19 => some .hallRelease
  | 20 => some (.accessRequest (m.par8 n 0) (m.par8 n 1) (m.par16 n 2) (m.par16 n 4))
  | 21 => some (.accessExtend (m.par8 n 0) (m.par16 n 2))
  | 22 => some (.accessEnd (m.par8 n 0))
  | 23 => some (.resumeZone (m.par8 n 0))
  | 24 => some .outcomeFlush
  | 25 => some (.faultUnlock (m.par16 n 0))
  | _ => none

/-- R178: the robot, the zone or the profile an order is on; none where the index is out of range. -/
def busyKeyOf : Order → Option BusyKey
  | .robotRun r | .robotHalt r | .robotClear r =>
    if h : r.toNat < 6 then some (.robot ⟨r.toNat, h⟩) else none
  | .accessRequest z _ _ _ | .resumeZone z => if h : z.toNat < 8 then some (.zone ⟨z.toNat, h⟩) else none
  | .profileAdopt | .lineStart => some .profile
  | .lineStop | .markReject _ | .countersClear | .timeTrim _ | .timeStep _ | .windowSet _ _ _ | .rotationSet _ _ _
  | .cameraService _ _ | .cameraRestore _ | .verdict _ _ _ | .ejectTest | .portAdmit _ _ | .hallHold | .hallRelease
  | .accessExtend _ _ | .accessEnd _ | .outcomeFlush | .faultUnlock _ => none

end Sys2Proof.Machine
end

