-- ==== Sys2Proof/Machine/Silence.lean ====
section
/-! DEFINITION. A port's silence (07_cabinet_switch_ports.md, R138), with the member action it takes. -/

namespace Sys2Proof.Machine

/-- R138: an action that does not fit the role acts as REPORT. -/
def Port.fittedAction (q : Port) : SilenceAction :=
  match q.action, q.role with
  | .haltMember, .robot _ => .haltMember
  | .degradeMember, .camera _ => .degradeMember
  | _, _ => .report

/-- R138: port `i` has fallen silent. -/
def Part.fallSilent (p : Part) (i : Fin 16) : Part :=
  let p := p.modPort i fun q => { q with silent := true, silences := inc16 q.silences }
  let q := p.spm.ports[i]
  let p := (p.raise .silent (portMember i)).portOutcome i .silent q.fittedAction.code
  let p :=
    match q.role with
    | .camera c => p.cameraSilence c q.action
    | .robot r => if q.action = SilenceAction.haltMember then p.requestHalt r .portSilent else p
    | .unassigned | .linePc | .service _ | .other => p
  p.rewrite .spm

/-- R138: the silence deadline of port `i` is reached: it is disarmed, and a port not silent already falls silent. -/
def Part.portSilence (p : Part) (i : Fin 16) : Part :=
  if deadlineReached p.spm.ports[i].deadline p.now then
    let silent := p.spm.ports[i].silent
    let p := p.modPort i fun q => { q with deadline := none }
    if silent then p else p.fallSilent i
  else p

end Sys2Proof.Machine
end

