-- ==== Sys2Proof/Machine/Desk.lean ====
section
/-! DEFINITION. The Order Desk (10_orders_bulletins_and_outcome_pages.md): hand writes (R176, R177) and the take of an
order (R178), with the hand-over to its owner. Completion stands in Ops.lean. -/

namespace Sys2Proof.Machine

/-! ## Hand writes (R176) -/

/-- R176: a protocol error on cell `n`: the hand word stays as it stood. -/
def Part.protocolError (p : Part) (n : Fin 48) : Part :=
  ((p.modOdk fun o => { o with protocolErrors := inc16 o.protocolErrors }).raise .protocolError
    (BitVec.ofNat 8 n.val)).rewrite .odk

/-- The part stores a hand word. -/
def Part.storeHand (p : Part) (n : Fin 48) (value : Half) : Part := p.store (cellBase n) (leBytes 2 value.toNat)

/-- R176, R177: the cell is posted. -/
def Part.postCell (p : Part) (n : Fin 48) (value : Half) : Part :=
  ((p.storeHand n value).modOdk fun o => { o with queue := o.queue ++ [n] }).rewrite .odk

/-- R177: the order is withdrawn. -/
def Part.withdrawCell (p : Part) (n : Fin 48) (value : Half) : Part :=
  ((p.storeHand n value).modOdk fun o => { o with queue := o.queue.filter fun x => x != n }).rewrite .odk

/-- R176: a host write to the hand word of cell `n`, judged against the hand as it stands. -/
def Part.handWrite (p : Part) (n : Fin 48) (value : Half) : Part :=
  if p.rpu.phase = .ready then
    let hand := (Memory.hand p.mem n).toNat
    let new := value.toNat % 256
    if hand = 0 ∨ hand = 3 ∨ hand = 4 then
      if new = 1 then p.postCell n value
      else if new = 0 then p.storeHand n value
      else p.protocolError n
    else if hand = 1 ∧ new = 0 then p.withdrawCell n value
    else p.protocolError n
  else p

/-! ## The take (R178) -/

/-- R178: an order is handed to its owner. -/
def Part.perform (p : Part) (ref : OrderRef) : Order → Part
  | .profileAdopt => p.profileAdoptOrder ref
  | .lineStart => p.lineStartOrder ref
  | .lineStop => p.lineStopOrder ref
  | .markReject seq => p.markRejectOrder ref seq
  | .countersClear => p.countersClearOrder ref
  | .timeTrim ppb => p.timeTrimOrder ref ppb
  | .timeStep offset => p.timeStepOrder ref offset
  | .robotRun robot => p.robotRunOrder ref robot
  | .robotHalt robot => p.robotHaltOrder ref robot
  | .robotClear robot => p.robotClearOrder ref robot
  | .windowSet robot opening closing => p.windowSetOrder ref robot opening closing
  | .rotationSet count skip entries => p.rotationSetOrder ref count skip entries
  | .cameraService camera out => p.cameraServiceOrder ref camera out
  | .cameraRestore camera => p.cameraRestoreOrder ref camera
  | .verdict camera verdict seq => p.verdictOrder ref camera verdict seq
  | .ejectTest => p.ejectTestOrder ref
  | .portAdmit port opening => p.portAdmitOrder ref port opening
  | .hallHold => p.hallHoldOrder ref
  | .hallRelease => p.hallReleaseOrder ref
  | .accessRequest zone level minutes badge => p.accessRequestOrder ref zone level minutes badge
  | .accessExtend zone minutes => p.accessExtendOrder ref zone minutes
  | .accessEnd zone => p.accessEndOrder ref zone
  | .resumeZone zone => p.resumeZoneOrder ref zone
  | .outcomeFlush => p.outcomeFlushOrder ref
  | .faultUnlock count => p.faultUnlockOrder ref count

/-- R178: the in-flight table already holds an order on what this order is on. -/
def Odk.busy (o : Odk) (order : Order) : Bool :=
  match busyKeyOf order with
  | some k => o.inflight.any fun e => e.key == some k
  | none => false

/-- The reference that the next take of cell `n` gives (R178). -/
def Part.nextRef (p : Part) (n : Fin 48) : OrderRef := ⟨n, p.odk.takeIdentity + 1⟩

/-- The entry that the take of cell `n` makes, as long as the take lasts (R178, R179). -/
def Part.takeEntry (p : Part) (n : Fin 48) : InFlight :=
  { ref := p.nextRef n, kind := Memory.kind p.mem n, key := (Memory.order p.mem n).bind busyKeyOf
    tag := Memory.tag p.mem n, kept := false, orphaned := false }

/-- R178: cell `n` leaves the queue and is written TAKEN, its result cleared, with its take number. -/
def Part.markTaken (p : Part) (n : Fin 48) : Part :=
  let e := p.takeEntry n
  let p := p.modOdk fun o =>
    { o with queue := o.queue.tail, takeIdentity := o.takeIdentity + 1, inflight := o.inflight ++ [e] }
  (p.store (cellBase n) [2, e.kind, 0, 0, 0, 0, 0, 0]).store (cellBase n + 10)
    (leBytes 2 (p.odk.takeIdentity.toNat % 65536))

/-- R178: an order still held as its take ends is kept. -/
def Part.endTake (p : Part) (ref : OrderRef) : Part :=
  (p.modOdk fun o =>
    { o with inflight := o.inflight.map fun e => if e.ref = ref then { e with kept := true } else e }).rewrite .odk

/-- R178: the order of a taken cell is refused, or handed to its owner. A PROFILE_ADOPT that the desk itself refuses with
BUSY is no refusal of R171: the model's choice (log 39). -/
def Part.answer (p : Part) (ref : OrderRef) (order : Option Order) (busy : Bool) : Part :=
  match order with
  | none => p.complete ref .kind
  | some o => if busy then p.complete ref .busy else p.perform ref o

/-- R178: the desk takes cell `n`. -/
def Part.take (p : Part) (n : Fin 48) : Part :=
  let order := Memory.order p.mem n
  let busy := match order with | some o => p.odk.busy o | none => false
  let ref := p.nextRef n
  ((p.markTaken n).answer ref order busy).endTake ref

/-- R178: the cell the desk may take now: the head of the queue, while no line reset is in progress. -/
def Part.takeable (p : Part) : Option (Fin 48) := if p.rpu.lineResetBusy then none else p.odk.queue.head?

/-- R178: ORDER_TAKE. -/
def Part.orderTake (p : Part) : Part :=
  match p.takeable with
  | some n => p.take n
  | none => p

/-- The take of cell `n` that finds the order `o` in it; anything else is not this event (log 3). -/
def Part.takeAs (p : Part) (n : Fin 48) (o : Order) : Part :=
  if p.takeable = some n ∧ Memory.order p.mem n = some o then p.take n else p

end Sys2Proof.Machine
end

