-- ==== Sys2Proof/WellFormed.lean ====
section
/-! DEFINITION. Which commands are well formed: the operands that a type does not already bound. -/

namespace Sys2Proof

/-- A command as the table's rows describe it: ROTATION_SET carries the twelve entry bytes of R181, a
HOST_MEMORY_WRITE goes to a word that is not watched, a REGISTER_WRITE_DISCARDED is one the table discards. -/
def Instr.wf : Instr → Bool
  | .rotationSet _ _ _ entries => decide (entries.length = 12)
  | .hostMemoryWrite offset _ _ => wordOffset offset && !watchedOffset offset
  | .registerWriteDiscarded register value => discardedWrite register value
  | .powerOn _ | .startupComplete | .machineTimeCarry | .timeTrim _ _ | .timeStep _ _ | .syncPulse _ | .syncLost
  | .timeSnapshotRead | .encoderCount _ _ _ _ | .markTimeout | .lineStart _ | .lineStop _ | .markReject _ _
  | .countersClear _ | .robotRun _ _ | .robotHalt _ _ | .runAck _ _ | .haltAck _ _ | .runTimeout _
  | .haltTimeout _ | .robotFault _ | .robotClear _ _ | .windowSet _ _ _ _ | .fillStrobe _ _ _
  | .cameraService _ _ _ | .cameraFireTime _ | .triggerPulseEnd _ | .verdictStrobe _ _ _ _ | .verdict _ _ _ _
  | .cameraRestore _ _ | .ejectPulseStart | .ejectOutputEnd | .ejectTest _ | .confirm _ | .portAdmit _ _ _
  | .hallHold _ | .hallRelease _ | .linkEvent _ _ | .actPulse _ _ | .portSilence _ | .accessRequest _ _ _ _ _
  | .doorChange _ _ | .doorDebounce _ | .reqChange _ _ | .buttonDebounce _ | .accessExpiry _ | .accessEnd _ _
  | .accessExtend _ _ _ | .resumeZone _ _ | .profileAdopt _ | .copyEnd | .handWrite _ _ | .orderTake
  | .seenWrite _ _ | .pageAge | .outcomeFlush _ | .pageStateWrite _ _ | .faultUnlock _ _ | .intLevel _
  | .exchangeReset | .exchangeResetEnd | .lineReset _ | .lineResetEnd | .robotInputChange _ _ _ => true

end Sys2Proof
end

