-- ==== Sys2Proof/Machine/Reset.lean ====
section
/-! DEFINITION. Start-up and the two resets (R197, R198), and the host bus (R174, R195, R196). -/

namespace Sys2Proof.Machine

/-! ## What start-up and an exchange reset write (R197) -/

/-- R197: the header: layout number 3, 48 cells, 10 bulletins, 8 pages, 32 records a page, 256 transit records. -/
def headerBytes (dropped : Nat) : List Byte :=
  leBytes 2 3 ++ leBytes 2 48 ++ leBytes 2 10 ++ leBytes 2 8 ++ leBytes 2 32 ++ leBytes 2 256 ++ leBytes 4 dropped

/-- Every block rewrites its mirror record. -/
def Part.rewriteAll (p : Part) : Part := MirrorId.all.foldl Part.rewrite p

/-- R197: the header, the bulletins, the fault record, the page directory and the mirror are written. -/
def Part.writeBoard (p : Part) : Part :=
  let p := p.store 0x0000 (headerBytes p.rpu.dropped)
  let p := tens.foldl Part.storeBulletin p
  (eights.foldl Part.storePage p.storeFault).rewriteAll

/-- R197: start-up ends. -/
def Part.startupComplete (p : Part) : Part :=
  if p.rpu.phase = .startingUp then p.writeBoard.modRpu fun u => { u with phase := .ready } else p

/-! ## Exchange reset (R197) -/

/-- R197: the Order Desk at an exchange reset. -/
def Odk.exchangeReset (o : Odk) : Odk :=
  { o with queue := [], inflight := o.inflight.map (fun e => { e with orphaned := true }), protocolErrors := 0 }

/-- R197: the Report Unit at an exchange reset. -/
def Rpu.exchangeReset (u : Rpu) : Rpu :=
  let sequence := nextPageSequence u.lastPageSeq
  { u with bulletins := Vector.replicate 10 .powerOn, threshold := 1, pages := Page.fresh sequence, ageDeadline := none
           nextPage := 0, lastPageSeq := sequence, dropping := false, dropped := 0
           updateCounts := Vector.replicate 11 0, phase := .exchangeReset }

/-- R197: every byte of the memory outside the staging area becomes 0. R173 has the bytes that no table assigns written 0
too, and R197 keeps the staging area: that every byte of it is kept, those that R194 assigns to no field too, is the
model's choice (log 42). -/
def Part.clearBoard (p : Part) : Part := { p with mem := Memory.span p.mem stagingBase (stagingBase + stagingSize) }

/-- R197: an exchange reset begins. -/
def Part.beginExchangeReset (p : Part) : Part :=
  ((p.modOdk Odk.exchangeReset).modRpu Rpu.exchangeReset).clearBoard.writeBoard

/-- R196, R197: a write of 1 to CONTROL. -/
def Part.exchangeReset (p : Part) : Part := if p.rpu.phase = .ready then p.beginExchangeReset else p

/-- R197: the exchange reset ends. -/
def Part.exchangeResetEnd (p : Part) : Part :=
  if p.rpu.phase = .exchangeReset then p.modRpu fun u => { u with phase := .ready } else p

/-! ## Line reset (R198) -/

/-- The order cells. -/
def cells : List (Fin 48) := List.finRange 48

/-- R198: cell `n`, POSTED or TAKEN, is written REFUSED with ABORTED. A TAKEN cell gets the tag and take number of its
take; a POSTED one keeps its own. R198 says how the cell is written, 'as R179 writes a cell'; that an aborted order that
was kept raises no COMPLETED is the model's choice (log 36). -/
def Part.abortCell (p : Part) (inflight : List InFlight) (n : Fin 48) : Part :=
  let hand := (Memory.hand p.mem n).toNat
  let entry := if hand = 2 then inflight.find? fun e => e.ref.cell == n && !e.orphaned else none
  match entry with
  | some e => p.writeResult n e.kind.toNat e.tag.toNat (e.ref.takeId.toNat % 65536) ⟨.aborted, 0⟩
  | none =>
    if hand = 1 ∨ hand = 2 then
      p.store (cellBase n) ([4, Memory.kind p.mem n, Result.aborted.code, 0] ++ leBytes 4 (Time.low p.now).toNat)
    else p

/-- R198: the desk's cells at a line reset, from the in-flight table as it stood. -/
def Part.abortCells (p : Part) (inflight : List InFlight) : Part :=
  (cells.foldl (fun p n => p.abortCell inflight n) p).rewrite .odk

/-- R198: a line reset begins: the tables are emptied, each block resets, the page closes, the cells are written. The
ports are not reached (R142) and their record is rewritten (R141), the zones' once more after the robots' reports
(R162). -/
def Part.beginLineReset (p : Part) : Part :=
  let inflight := p.odk.inflight
  let p := (p.modRpu fun u => { u with lineResetBusy := true }).modOdk fun o => { o with queue := [], inflight := [] }
  let p := p.zonesDropOrders.timeLineReset.trackerLineReset.transitLineReset
  let p := ((p.camerasLineReset.ejectorLineReset.robotsLineReset).rewrite .spm).rewrite .sac
  (p.closeFilling .lineReset).abortCells inflight

/-- R196, R198: a write of 2 to CONTROL. -/
def Part.controlLineReset (p : Part) : Part :=
  if p.rpu.phase = .startingUp ∨ p.rpu.lineResetBusy = true then p else p.beginLineReset

/-- R198: LRST goes active. -/
def Part.pinLineReset (p : Part) : Part := if p.lrst then p else (p.setLrst true).beginLineReset

/-- R198: LRST is inactive and every block has finished: the line reset ends. -/
def Part.lineResetEnd (p : Part) : Part :=
  let p := p.setLrst false
  if p.rpu.lineResetBusy then (p.modRpu fun u => { u with lineResetBusy := false }).raise .lineReset else p

/-! ## The host bus (R174, R195, R196) -/

/-- R174: a host write of `value` at a word of the exchange memory; a watched word is an arrival at its owner. -/
def Part.hostStore (p : Part) (offset : Nat) (value : Half) : Part :=
  if watchedOffset offset then
    if offset < 0x0200 then p.seenWrite (Fin.ofNat 10 ((offset - 0x0100) / 16)) value
    else if offset < 0x0E00 then p.handWrite (Fin.ofNat 48 ((offset - 0x0200) / 64)) value
    else p.pageStateWrite (Fin.ofNat 8 ((offset - 0x0E40) / 16)) value
  else p.store offset (leBytes 2 value.toNat)

/-- R167, R174, R197: a host memory write; a copy in progress has come to `progress` before it. -/
def Part.hostMemoryWrite (p : Part) (offset : Nat) (value : Half) (progress : Nat) : Part :=
  if p.rpu.phase = .ready then (p.advanceCopy progress).hostStore offset value else p

/-- R174, R197: what a host read of a word of the exchange memory returns. -/
def Part.memoryRead (p : Part) (offset : Nat) : Half :=
  if p.rpu.phase = .ready then BitVec.ofNat 16 (p.load offset 2) else 0

/-- R195, R196: a host write to a register word. -/
def Part.registerWrite (p : Part) (register : Fin 8) (value : Half) : Part :=
  if discardedWrite register value then p
  else if register = 3 then p.intLevel value
  else if value = 1 then p.exchangeReset
  else p.controlLineReset

/-- R197: the supply is applied with these levels on the inputs. The model's counter of free values goes on. -/
def Part.applyPower (p : Part) (pins : Pins) : Part := { Part.powerOn pins with freeCount := p.freeCount }

end Sys2Proof.Machine
end

