-- ==== Sys2Proof/Machine/State.lean ====
section
/-! DEFINITION. The state: the part and the queue of the commands that wait for it; the reasons a step can stop; the
state after reset. -/

namespace Sys2Proof.Machine

/-- The part (Machine/Blocks.lean) and the queue of waiting commands, first in, first out. -/
structure State where
  part : Part
  pending : List Instr
  deriving DecidableEq, Repr

/-- Why a step stops. -/
inductive Fault where
  /-- Raised by HOST_MEMORY_WRITE at an offset that is no word of the exchange memory: odd, or past 0x7FFF (R173,
  R174). Safe: the part has no such access. -/
  | offExchangeMemory (offset : Nat)
  deriving DecidableEq, Repr

/-- Why a step has no meaning. -/
inductive Refusal where
  /-- Raised by an arm of exec whose command is not modelled yet. Safe: nothing is claimed about it. -/
  | notModelled (mnemonic : String)
  deriving DecidableEq, Repr

/-- R197: the machine right after power-on, every input line low, nothing waiting. -/
def State.reset : State := { part := .powerOn .low, pending := [] }

/-- `s` with its part changed by `f`: every meaning is built from this, so that a command never touches the queue. -/
def State.onPart (f : Part → Part) (s : State) : State := { s with part := f s.part }

/-- What a command answers. -/
abbrev Answer := Host.Outcome State Fault Refusal

/-- The next state of a command whose effect on the part is `f`. -/
def State.after (f : Part → Part) (s : State) : Answer := .next (s.onPart f)

end Sys2Proof.Machine
end

