-- ==== Sys2Proof/Machine/Bus.lean ====
section
/-! DEFINITION. The meanings of the host bus rows. -/

namespace Sys2Proof.Machine

/-- TIME_SNAPSHOT_READ, R15. -/
def execTimeSnapshotRead (s : State) : Answer := s.after fun p => p.readTime

/-- HAND_WRITE, R176. -/
def execHandWrite (cell : Fin 48) (value : Half) (s : State) : Answer := s.after fun p => p.handWrite cell value

/-- SEEN_WRITE, R184. -/
def execSeenWrite (bulletin : Fin 10) (value : Half) (s : State) : Answer :=
  s.after fun p => p.seenWrite bulletin value

/-- PAGE_STATE_WRITE, R189. -/
def execPageStateWrite (page : Fin 8) (value : Half) (s : State) : Answer :=
  s.after fun p => p.pageStateWrite page value

/-- INT_LEVEL, R196. -/
def execIntLevel (value : Half) (s : State) : Answer := s.after fun p => p.intLevel value

/-- REGISTER_WRITE_DISCARDED, R195, R196: a write the table discards; any other write acts as the register's own. -/
def execRegisterWriteDiscarded (register : Fin 8) (value : Half) (s : State) : Answer :=
  s.after fun p => p.registerWrite register value

/-- HOST_MEMORY_WRITE, R174; an offset that is no word of the exchange memory (R173) does not exist. -/
def execHostMemoryWrite (offset : Nat) (value : Half) (progress : Nat) (s : State) : Answer :=
  if wordOffset offset then s.after fun p => p.hostMemoryWrite offset value progress
  else .fault (.offExchangeMemory offset)

end Sys2Proof.Machine
end

