-- ==== Sys2Proof/Machine/Deadlines.lean ====
section
/-! DEFINITION. The meanings of the rows in which a stored time is reached (R5), and of COPY_END. -/

namespace Sys2Proof.Machine

/-- SYNC_LOST, R13. -/
def execSyncLost (s : State) : Answer := s.after fun p => p.syncLoss

/-- MARK_TIMEOUT, R31. -/
def execMarkTimeout (s : State) : Answer := s.after fun p => p.markTimedOut

/-- RUN_TIMEOUT, R66. -/
def execRunTimeout (robot : Fin 6) (s : State) : Answer := s.after fun p => p.runTimedOut robot

/-- HALT_TIMEOUT, R69. -/
def execHaltTimeout (robot : Fin 6) (s : State) : Answer := s.after fun p => p.haltTimedOut robot

/-- CAMERA_FIRE_TIME, R97. -/
def execCameraFireTime (camera : Fin 6) (s : State) : Answer := s.after fun p => p.cameraFireTime camera

/-- TRIGGER_PULSE_END, R98. -/
def execTriggerPulseEnd (camera : Fin 6) (s : State) : Answer := s.after fun p => p.triggerPulseEnd camera

/-- EJECT_PULSE_START, R116. -/
def execEjectPulseStart (s : State) : Answer := s.after fun p => p.ejectPulseStart

/-- EJECT_OUTPUT_END, R112. -/
def execEjectOutputEnd (s : State) : Answer := s.after fun p => p.ejectOutputEnd

/-- PORT_SILENCE, R138. -/
def execPortSilence (port : Fin 16) (s : State) : Answer := s.after fun p => p.portSilence port

/-- DOOR_DEBOUNCE, R145. -/
def execDoorDebounce (zone : Fin 8) (s : State) : Answer := s.after fun p => p.doorDebounce zone

/-- BUTTON_DEBOUNCE, R145, R153. -/
def execButtonDebounce (zone : Fin 8) (s : State) : Answer := s.after fun p => p.buttonDebounce zone

/-- ACCESS_EXPIRY, R155. -/
def execAccessExpiry (zone : Fin 8) (s : State) : Answer := s.after fun p => p.accessExpiry zone

/-- PAGE_AGE, R186. -/
def execPageAge (s : State) : Answer := s.after fun p => p.pageAge

/-- COPY_END, R167, R168. -/
def execCopyEnd (s : State) : Answer := s.after fun p => p.copyEnd

end Sys2Proof.Machine
end

