-- ==== Sys2Proof/Machine/Lines.lean ====
section
/-! DEFINITION. The meanings of the rows in which an input line changes. -/

namespace Sys2Proof.Machine

/-- SYNC_PULSE, R10. -/
def execSyncPulse (level : Bool) (s : State) : Answer := s.after fun p => p.syncLevel level

/-- ENCODER_COUNT, R19. -/
def execEncoderCount (a b infeed : Bool) (choices : List Nat) (s : State) : Answer :=
  s.after fun p => p.encoderPair (a, b) infeed choices

/-- RUN_ACK, R66, R70. -/
def execRunAck (robot : Fin 6) (level : Bool) (s : State) : Answer := s.after fun p => p.robotLine robot .runAck level

/-- HALT_ACK, R69, R70, R74. -/
def execHaltAck (robot : Fin 6) (level : Bool) (s : State) : Answer :=
  s.after fun p => p.robotLine robot .haltAck level

/-- ROBOT_FAULT, R71. -/
def execRobotFault (robot : Fin 6) (s : State) : Answer := s.after fun p => p.robotLine robot .fault true

/-- ROBOT_INPUT_CHANGE, R71, R87. -/
def execRobotInputChange (robot : Fin 6) (line : RobotLine) (level : Bool) (s : State) : Answer :=
  s.after fun p => p.robotLine robot line level

/-- FILL_STROBE, R83. -/
def execFillStrobe (robot : Fin 6) (ok short : Bool) (s : State) : Answer :=
  s.after fun p => p.fillLines robot ok short

/-- VERDICT_STROBE, R101. -/
def execVerdictStrobe (camera : Fin 6) (pass fail : Bool) (tag : BitVec 5) (s : State) : Answer :=
  s.after fun p => p.verdictLines camera pass fail tag

/-- CONFIRM, R120. -/
def execConfirm (level : Bool) (s : State) : Answer := s.after fun p => p.confirmLine level

/-- LINK_EVENT, R134. -/
def execLinkEvent (port : Fin 16) (level : Bool) (s : State) : Answer := s.after fun p => p.linkEvent port level

/-- ACT_PULSE, R137. -/
def execActPulse (port : Fin 16) (level : Bool) (s : State) : Answer := s.after fun p => p.actPulse port level

/-- DOOR_CHANGE, R145. -/
def execDoorChange (zone : Fin 8) (level : Bool) (s : State) : Answer := s.after fun p => p.doorChange zone level

/-- REQ_CHANGE, R145. -/
def execReqChange (zone : Fin 8) (level : Bool) (s : State) : Answer := s.after fun p => p.reqChange zone level

end Sys2Proof.Machine
end

