-- ==== Sys2Proof/Machine/Orders.lean ====
section
/-! DEFINITION. The meanings of ORDER_TAKE and of the 25 order rows: the take (R178) of exactly that order from the cell at the
head of the post queue (log 3). -/

namespace Sys2Proof.Machine

/-- ORDER_TAKE, R178. -/
def execOrderTake (s : State) : Answer := s.after fun p => p.orderTake

/-- TIME_TRIM, R4. -/
def execTimeTrim (cell : Fin 48) (ppb : Word) (s : State) : Answer := s.after fun p => p.takeAs cell (.timeTrim ppb)

/-- TIME_STEP, R6. -/
def execTimeStep (cell : Fin 48) (offset : Word) (s : State) : Answer :=
  s.after fun p => p.takeAs cell (.timeStep offset)

/-- LINE_START, R26. -/
def execLineStart (cell : Fin 48) (s : State) : Answer := s.after fun p => p.takeAs cell .lineStart

/-- LINE_STOP, R27. -/
def execLineStop (cell : Fin 48) (s : State) : Answer := s.after fun p => p.takeAs cell .lineStop

/-- MARK_REJECT, R50. -/
def execMarkReject (cell : Fin 48) (seq : Word) (s : State) : Answer :=
  s.after fun p => p.takeAs cell (.markReject seq)

/-- COUNTERS_CLEAR, R59. -/
def execCountersClear (cell : Fin 48) (s : State) : Answer := s.after fun p => p.takeAs cell .countersClear

/-- ROBOT_RUN, R65. -/
def execRobotRun (cell : Fin 48) (robot : Byte) (s : State) : Answer :=
  s.after fun p => p.takeAs cell (.robotRun robot)

/-- ROBOT_HALT, R67. -/
def execRobotHalt (cell : Fin 48) (robot : Byte) (s : State) : Answer :=
  s.after fun p => p.takeAs cell (.robotHalt robot)

/-- ROBOT_CLEAR, R73. -/
def execRobotClear (cell : Fin 48) (robot : Byte) (s : State) : Answer :=
  s.after fun p => p.takeAs cell (.robotClear robot)

/-- ROTATION_SET, R77. -/
def execRotationSet (cell : Fin 48) (count skip : Byte) (entries : List Byte) (s : State) : Answer :=
  s.after fun p => p.takeAs cell (.rotationSet count skip entries)

/-- WINDOW_SET, R81. -/
def execWindowSet (cell : Fin 48) (robot : Byte) (opening closing : Half) (s : State) : Answer :=
  s.after fun p => p.takeAs cell (.windowSet robot opening closing)

/-- CAMERA_SERVICE, R94. -/
def execCameraService (cell : Fin 48) (camera out : Byte) (s : State) : Answer :=
  s.after fun p => p.takeAs cell (.cameraService camera out)

/-- VERDICT, R102. -/
def execVerdict (cell : Fin 48) (camera verdict : Byte) (seq : Word) (s : State) : Answer :=
  s.after fun p => p.takeAs cell (.verdict camera verdict seq)

/-- CAMERA_RESTORE, R106. -/
def execCameraRestore (cell : Fin 48) (camera : Byte) (s : State) : Answer :=
  s.after fun p => p.takeAs cell (.cameraRestore camera)

/-- EJECT_TEST, R119. -/
def execEjectTest (cell : Fin 48) (s : State) : Answer := s.after fun p => p.takeAs cell .ejectTest

/-- PORT_ADMIT, R128. -/
def execPortAdmit (cell : Fin 48) (port opening : Byte) (s : State) : Answer :=
  s.after fun p => p.takeAs cell (.portAdmit port opening)

/-- HALL_HOLD, R130. -/
def execHallHold (cell : Fin 48) (s : State) : Answer := s.after fun p => p.takeAs cell .hallHold

/-- HALL_RELEASE, R131. -/
def execHallRelease (cell : Fin 48) (s : State) : Answer := s.after fun p => p.takeAs cell .hallRelease

/-- ACCESS_REQUEST, R149. -/
def execAccessRequest (cell : Fin 48) (zone level : Byte) (minutes badge : Half) (s : State) : Answer :=
  s.after fun p => p.takeAs cell (.accessRequest zone level minutes badge)

/-- ACCESS_END, R156. -/
def execAccessEnd (cell : Fin 48) (zone : Byte) (s : State) : Answer :=
  s.after fun p => p.takeAs cell (.accessEnd zone)

/-- ACCESS_EXTEND, R157. -/
def execAccessExtend (cell : Fin 48) (zone : Byte) (minutes : Half) (s : State) : Answer :=
  s.after fun p => p.takeAs cell (.accessExtend zone minutes)

/-- RESUME_ZONE, R159. -/
def execResumeZone (cell : Fin 48) (zone : Byte) (s : State) : Answer :=
  s.after fun p => p.takeAs cell (.resumeZone zone)

/-- PROFILE_ADOPT, R166. -/
def execProfileAdopt (cell : Fin 48) (s : State) : Answer := s.after fun p => p.takeAs cell .profileAdopt

/-- OUTCOME_FLUSH, R186. -/
def execOutcomeFlush (cell : Fin 48) (s : State) : Answer := s.after fun p => p.takeAs cell .outcomeFlush

/-- FAULT_UNLOCK, R191. -/
def execFaultUnlock (cell : Fin 48) (count : Half) (s : State) : Answer :=
  s.after fun p => p.takeAs cell (.faultUnlock count)

end Sys2Proof.Machine
end

