-- ==== Sys2Proof/Machine/Power.lean ====
section
/-! DEFINITION. The meanings of the power, reset and clock rows. -/

namespace Sys2Proof.Machine

/-- POWER_ON, R197. -/
def execPowerOn (pins : Pins) (s : State) : Answer := s.after fun p => p.applyPower pins

/-- STARTUP_COMPLETE, R197. -/
def execStartupComplete (s : State) : Answer := s.after fun p => p.startupComplete

/-- MACHINE_TIME_CARRY, R2. -/
def execMachineTimeCarry (s : State) : Answer := s.after fun p => p.carry

/-- EXCHANGE_RESET, R196, R197. -/
def execExchangeReset (s : State) : Answer := s.after fun p => p.exchangeReset

/-- EXCHANGE_RESET_END, R197. -/
def execExchangeResetEnd (s : State) : Answer := s.after fun p => p.exchangeResetEnd

/-- LINE_RESET, R198. -/
def execLineReset (byPin : Bool) (s : State) : Answer :=
  s.after fun p => if byPin then p.pinLineReset else p.controlLineReset

/-- LINE_RESET_END, R198. -/
def execLineResetEnd (s : State) : Answer := s.after fun p => p.lineResetEnd

end Sys2Proof.Machine
end

