-- ==== Sys2Proof/Machine/Dispatch.lean ====
section
/-! DEFINITION. One arm per command: the call of its meaning. -/

namespace Sys2Proof.Machine

def exec (i : Instr) (s : State) : Host.Outcome State Fault Refusal :=
  match i with
  | .powerOn pins => Sys2Proof.Machine.execPowerOn pins s
  | .startupComplete => Sys2Proof.Machine.execStartupComplete s
  | .machineTimeCarry => Sys2Proof.Machine.execMachineTimeCarry s
  | .timeTrim cell ppb => Sys2Proof.Machine.execTimeTrim cell ppb s
  | .timeStep cell offset => Sys2Proof.Machine.execTimeStep cell offset s
  | .syncPulse level => Sys2Proof.Machine.execSyncPulse level s
  | .syncLost => Sys2Proof.Machine.execSyncLost s
  | .timeSnapshotRead => Sys2Proof.Machine.execTimeSnapshotRead s
  | .encoderCount a b infeed choices => Sys2Proof.Machine.execEncoderCount a b infeed choices s
  | .markTimeout => Sys2Proof.Machine.execMarkTimeout s
  | .lineStart cell => Sys2Proof.Machine.execLineStart cell s
  | .lineStop cell => Sys2Proof.Machine.execLineStop cell s
  | .markReject cell seq => Sys2Proof.Machine.execMarkReject cell seq s
  | .countersClear cell => Sys2Proof.Machine.execCountersClear cell s
  | .robotRun cell robot => Sys2Proof.Machine.execRobotRun cell robot s
  | .robotHalt cell robot => Sys2Proof.Machine.execRobotHalt cell robot s
  | .runAck robot level => Sys2Proof.Machine.execRunAck robot level s
  | .haltAck robot level => Sys2Proof.Machine.execHaltAck robot level s
  | .runTimeout robot => Sys2Proof.Machine.execRunTimeout robot s
  | .haltTimeout robot => Sys2Proof.Machine.execHaltTimeout robot s
  | .robotFault robot => Sys2Proof.Machine.execRobotFault robot s
  | .robotClear cell robot => Sys2Proof.Machine.execRobotClear cell robot s
  | .rotationSet cell count skip entries => Sys2Proof.Machine.execRotationSet cell count skip entries s
  | .windowSet cell robot opening closing => Sys2Proof.Machine.execWindowSet cell robot opening closing s
  | .fillStrobe robot ok short => Sys2Proof.Machine.execFillStrobe robot ok short s
  | .cameraService cell camera out => Sys2Proof.Machine.execCameraService cell camera out s
  | .cameraFireTime camera => Sys2Proof.Machine.execCameraFireTime camera s
  | .triggerPulseEnd camera => Sys2Proof.Machine.execTriggerPulseEnd camera s
  | .verdictStrobe camera pass fail tag => Sys2Proof.Machine.execVerdictStrobe camera pass fail tag s
  | .verdict cell camera verdict seq => Sys2Proof.Machine.execVerdict cell camera verdict seq s
  | .cameraRestore cell camera => Sys2Proof.Machine.execCameraRestore cell camera s
  | .ejectPulseStart => Sys2Proof.Machine.execEjectPulseStart s
  | .ejectOutputEnd => Sys2Proof.Machine.execEjectOutputEnd s
  | .ejectTest cell => Sys2Proof.Machine.execEjectTest cell s
  | .confirm level => Sys2Proof.Machine.execConfirm level s
  | .portAdmit cell port opening => Sys2Proof.Machine.execPortAdmit cell port opening s
  | .hallHold cell => Sys2Proof.Machine.execHallHold cell s
  | .hallRelease cell => Sys2Proof.Machine.execHallRelease cell s
  | .linkEvent port level => Sys2Proof.Machine.execLinkEvent port level s
  | .actPulse port level => Sys2Proof.Machine.execActPulse port level s
  | .portSilence port => Sys2Proof.Machine.execPortSilence port s
  | .accessRequest cell zone level minutes badge => Sys2Proof.Machine.execAccessRequest cell zone level minutes badge s
  | .doorChange zone level => Sys2Proof.Machine.execDoorChange zone level s
  | .doorDebounce zone => Sys2Proof.Machine.execDoorDebounce zone s
  | .reqChange zone level => Sys2Proof.Machine.execReqChange zone level s
  | .buttonDebounce zone => Sys2Proof.Machine.execButtonDebounce zone s
  | .accessExpiry zone => Sys2Proof.Machine.execAccessExpiry zone s
  | .accessEnd cell zone => Sys2Proof.Machine.execAccessEnd cell zone s
  | .accessExtend cell zone minutes => Sys2Proof.Machine.execAccessExtend cell zone minutes s
  | .resumeZone cell zone => Sys2Proof.Machine.execResumeZone cell zone s
  | .profileAdopt cell => Sys2Proof.Machine.execProfileAdopt cell s
  | .copyEnd => Sys2Proof.Machine.execCopyEnd s
  | .handWrite cell value => Sys2Proof.Machine.execHandWrite cell value s
  | .orderTake => Sys2Proof.Machine.execOrderTake s
  | .seenWrite bulletin value => Sys2Proof.Machine.execSeenWrite bulletin value s
  | .pageAge => Sys2Proof.Machine.execPageAge s
  | .outcomeFlush cell => Sys2Proof.Machine.execOutcomeFlush cell s
  | .pageStateWrite page value => Sys2Proof.Machine.execPageStateWrite page value s
  | .faultUnlock cell count => Sys2Proof.Machine.execFaultUnlock cell count s
  | .intLevel value => Sys2Proof.Machine.execIntLevel value s
  | .exchangeReset => Sys2Proof.Machine.execExchangeReset s
  | .exchangeResetEnd => Sys2Proof.Machine.execExchangeResetEnd s
  | .lineReset byPin => Sys2Proof.Machine.execLineReset byPin s
  | .lineResetEnd => Sys2Proof.Machine.execLineResetEnd s
  | .registerWriteDiscarded register value => Sys2Proof.Machine.execRegisterWriteDiscarded register value s
  | .hostMemoryWrite offset value progress => Sys2Proof.Machine.execHostMemoryWrite offset value progress s
  | .robotInputChange robot line level => Sys2Proof.Machine.execRobotInputChange robot line level s

end Sys2Proof.Machine
end

