-- ==== Sys2Proof/Safety.lean ====
section
/-! DEFINITION. What the statements call safe: the canonical memory (log 9), one FILLING page with room (R186), even
update counts (R193), the depth of the conveyor (R20), the merge counter within its width, and the three laws that guard
people: a service socket is closed while its zone is SEALED (R127), a door is released only over safe robots (R154), a
held robot neither starts nor runs (R64). -/

namespace Sys2Proof.Machine

/-- R186: at most one page is FILLING. -/
def oneFilling (pages : Vector Page 8) : Bool :=
  eights.all fun i => eights.all fun j => i == j || !(pages[i].state == .filling && pages[j].state == .filling)

/-- R186: a FILLING page has room for a record: it closes when its count reaches 32. -/
def fillingRoom (pages : Vector Page 8) : Bool :=
  eights.all fun i => !(pages[i].state == .filling) || decide (pages[i].count < 32)

/-- R193: between writes every update count is even. -/
def evenCounts (counts : Vector Half 11) : Bool := counts.toList.all fun c => !c.getLsbD 0

/-- The memory is canonical (log 9), the mirror's counts are even, at most one page is FILLING, and it has room. -/
def Part.tidy (p : Part) : Prop :=
  Memory.wf p.mem = true ∧ evenCounts p.rpu.updateCounts = true ∧ oneFilling p.rpu.pages = true ∧
    fillingRoom p.rpu.pages = true

/-- R165, R173: the profile staging area. -/
def Part.staging (p : Part) : Memory := Memory.span p.mem stagingBase (stagingBase + stagingSize)

/-- R20: high-water is ahead of position by the depth. -/
def Part.depthHolds (p : Part) : Prop := p.cvt.highWater = p.cvt.position + counts p.cvt.depth

/-- The ejector's counters are 32-bit, saturating (06_the_reject_ejector.md, the table of what the REJ holds): MERGES stays
within them. -/
abbrev Part.mergesFit (p : Part) : Prop := p.rej.counters.merges ≤ 4294967295

/-- R127: a SERVICE port is OPEN, or HELD to become OPEN, only while its zone is not SEALED. -/
def Part.socketsFollowZones (p : Part) : Prop :=
  ∀ (i : Fin 16) (z : Fin 8), p.spm.ports[i].role = .service z →
    p.spm.ports[i].admission = .opened ∨ p.spm.ports[i].admission = .held → p.sac.zones[z].state ≠ .sealed

/-- R154: DOOR_REL is on only while the zone has a door and is OPEN or OVERSTAY at MAINTAIN with every member robot
safe. -/
def Part.doorsFollowRobots (p : Part) : Prop :=
  ∀ z : Fin 8, p.sac.zones[z].doorRel = true → p.doorRelCondition z = true

/-- R144: before the first adoption no zone exists: every record reads SEALED. -/
def Part.zonesNeedProfile (p : Part) : Prop := p.cvt.profile = none → ∀ z : Fin 8, p.sac.zones[z].state = .sealed

/-- R64: RUN_REQ of a robot is never on while a zone holds the robot. -/
def Part.heldRobotsRest (p : Part) : Prop := ∀ r : Fin 6, p.held r = true → p.rbp.robots[r].runReq = false

end Sys2Proof.Machine
end

