-- ==== Sys2Proof/Vocabulary.lean ====
section
/-! DEFINITION. The words the statements are written in: where a command leads, which bytes of the exchange memory it
may store to, what it tells on the bulletins and latches as a fault, and how the desk answers an order. -/

namespace Sys2Proof.Machine

/-- The command answers a next state: the queue as it was, and a part of which `P` holds. -/
def Leads (c : Instr) (s : State) (P : Part → Prop) : Prop := ∃ q, exec c s = .next { s with part := q } ∧ P q

/-! ## One member of a block -/

/-- The block with robot `r` as `k`. -/
def Rbp.put (b : Rbp) (r : Fin 6) (k : Robot) : Rbp := { b with robots := b.robots.set r k }
/-- The block with camera `c` as `k`. -/
def Ctu.put (b : Ctu) (c : Fin 6) (k : Camera) : Ctu := { b with cameras := b.cameras.set c k }
/-- The block with port `i` as `k`. -/
def Spm.put (b : Spm) (i : Fin 16) (k : Port) : Spm := { b with ports := b.ports.set i k }
/-- The block with zone `z` as `k`. -/
def Sac.put (b : Sac) (z : Fin 8) (k : Zone) : Sac := { b with zones := b.zones.set z k }

/-! ## The exchange memory -/

/-- `len` bytes from offset `a` on. -/
def Memory.read (m : Memory) : Nat → Nat → List Byte
  | _, 0 => []
  | a, len + 1 => Memory.byte m a :: Memory.read m (a + 1) len

/-- The areas of the exchange memory that the part itself stores to (R173). Of a cell these are its first twelve bytes
(R175). -/
inductive Area where
  | cell (n : Fin 48)
  | bulletin (b : Fin 10)
  | fault
  | entry (i : Fin 8)
  | record (i : Fin 8) (k : Nat)
  | dropped
  | mirror (m : MirrorId)
  deriving DecidableEq, Repr

def Area.base : Area → Nat
  | .cell n => cellBase n
  | .bulletin b => bulletinBase b
  | .fault => 0x0E00
  | .entry i => entryBase i
  | .record i k => recordBase i k
  | .dropped => 0x000C
  | .mirror m => m.base

def Area.size : Area → Nat
  | .cell _ => 12
  | .bulletin _ | .fault | .entry _ => 16
  | .record _ _ => 32
  | .dropped => 4
  | .mirror m => m.size

/-- Every byte outside the areas of `l` reads as before. -/
def Memory.storesOnly (before after : Memory) (l : List Area) : Prop :=
  ∀ a, (∀ x ∈ l, a < x.base ∨ x.base + x.size ≤ a) → Memory.byte after a = Memory.byte before a

/-- The mirror record `m` shows the part (R192, R193). -/
def Part.mirrored (p : Part) (m : MirrorId) : Prop := Memory.read p.mem m.base m.size = mirrorBytes p m

/-! ## Bulletins and the fault record -/

/-- A change with its member. -/
abbrev Tidings := List (News × Byte)

/-- R183: the bulletins after the changes `l`, one after another, at time `now`. -/
def announced (v : Vector Bulletin 10) (now : Time) (l : Tidings) : Vector Bulletin 10 :=
  l.foldl (fun v x => modAt v x.1.bulletin fun b => b.changed x.1.severity x.1.code x.2 (Time.low now)) v

/-- From `p` to `q` the Report Unit raised the changes `l` and nothing else happened in it; update counts may rise. -/
def Part.tells (p q : Part) (l : Tidings) : Prop :=
  q.rpu = { p.rpu with bulletins := announced p.rpu.bulletins q.now l, updateCounts := q.rpu.updateCounts }

/-- R191: the fault record after a report. -/
def FaultRecord.after (f : FaultRecord) (k : FaultKind) (member : Byte) (seq : Word) (now : Time) : FaultRecord :=
  match f.kind with
  | none => { kind := some k, member := member, seq := seq, time := Time.low now, further := f.further }
  | some _ => { f with further := inc16 f.further }

/-- As `tells`, with the fault `k` reported besides: latched or counted, and raised on FAULT. -/
def Part.tellsFault (p q : Part) (k : FaultKind) (member : Byte) (seq : Word) (l : Tidings) : Prop :=
  q.rpu = { p.rpu with
    fault := p.rpu.fault.after k member seq q.now
    bulletins := announced p.rpu.bulletins q.now ((.fault k, member) :: l)
    updateCounts := q.rpu.updateCounts }

/-! ## Time -/

/-- `n` core clock ticks. -/
def Part.ticks : Nat → Part → Part
  | 0, p => p
  | n + 1, p => Part.ticks n p.tick

/-- R19: the pair `b` follows `a` in forward travel: 00, 10, 11, 01, 00. -/
def forwardCount (a b : Bool × Bool) : Prop :=
  (a, b) ∈ [((false, false), (true, false)), ((true, false), (true, true)), ((true, true), (false, true)),
    ((false, true), (false, false))]

/-- R8: every schedule time and deadline the part stores, in the order of the rule's table. -/
def Part.storedTimes (p : Part) : List (Option Time) :=
  [p.mtu.windowEnd, p.mtu.lossDeadline] ++ (p.cvt.marks.map fun m => some m.stamp) ++
  (p.rbp.robots.toList.map (·.deadline)) ++
  (p.ctu.cameras.toList.flatMap fun k => (k.schedule.map (·.time)) ++ [k.pulse.map (·.ending)]) ++
  (p.rej.schedule.flatMap fun q => [q.times.map (·.start), q.times.map (·.ending)]) ++
  [p.rej.output.map (·.ending)] ++ (p.spm.ports.toList.map (·.deadline)) ++
  (p.sac.zones.toList.flatMap fun z => [z.expiry, z.doorDeadline, z.buttonDeadline]) ++ [p.rpu.ageDeadline]

/-- How far machine time is past each stored time. -/
def Part.differences (p : Part) : List (Option Time) := p.storedTimes.map (Option.map fun t => p.now - t)

/-! ## Outcome records (R185 to R187) -/

/-- R186, R187: the areas that one outcome record handed over by `p` may go to. -/
def Part.outcomeAreas (p : Part) : List Area :=
  match p.fillingPage with
  | some i => [.record i p.rpu.pages[i].count, .entry i, .entry (i + 1), .bulletin 8, .mirror .rpu]
  | none => [.dropped, .bulletin 8, .mirror .rpu]

/-- R186: a directory entry as its page becomes FILLING after the page sequence `last`. -/
def Page.filling (last : Word) : Page :=
  { state := .filling, count := 0, cause := .none, sequence := if last = 4294967295 then 1 else last + 1
    first := 0, last := 0 }

/-- R186, R187: from `p` to `q` one outcome record of this kind and body was handed over. With a page FILLING it is
written at its place and counted: the first of a page arms the age deadline, the 32nd closes the page with COUNT. With
none FILLING it is dropped and counted, and the first drop is told. -/
def Part.handsOver (p q : Part) (kind : Byte) (body : List Byte) : Prop :=
  let u := p.rpu
  let v := q.rpu
  let now := Time.low q.now
  let tells (l : Tidings) := v.bulletins[8] = (announced u.bulletins q.now l)[8]
  v.outcomeNumber = u.outcomeNumber + 1 ∧
  match p.fillingPage with
  | some i =>
    let g := u.pages[i]
    let filled : Page := { g with count := g.count + 1, last := now, first := if g.count = 0 then now else g.first }
    let full := u.pages.set i { filled with state := .full, cause := .count }
    let next := Page.filling u.lastPageSeq
    let after : Fin 8 := i + 1
    let opens := u.pages[after].state = .empty
    Memory.read q.mem (recordBase i g.count) (8 + body.length) =
      [kind, 0] ++ leBytes 2 (v.outcomeNumber.toNat % 65536) ++ leBytes 4 now.toNat ++ body ∧
    Memory.read q.mem (entryBase i) 16 = v.pages[i].bytes ∧ v.dropped = u.dropped ∧
    (g.count + 1 ≠ 32 →
      v.pages = u.pages.set i filled ∧ v.lastPageSeq = u.lastPageSeq ∧ v.dropping = u.dropping ∧
      v.nextPage = u.nextPage ∧ v.ageDeadline = (if g.count = 0 then some (q.now + 2000000) else u.ageDeadline) ∧
      tells []) ∧
    (g.count + 1 = 32 →
      v.pages = (if opens then full.set after next else full) ∧
      v.lastPageSeq = (if opens then next.sequence else u.lastPageSeq) ∧
      v.dropping = (if opens then false else u.dropping) ∧ v.nextPage = after ∧ v.ageDeadline = none ∧
      tells [(.pageFull, BitVec.ofNat 8 i.val)])
  | none =>
    v.pages = u.pages ∧ v.lastPageSeq = u.lastPageSeq ∧ v.nextPage = u.nextPage ∧ v.ageDeadline = u.ageDeadline ∧
    v.dropped = inc32 u.dropped ∧ Memory.read q.mem 0x000C 4 = leBytes 4 v.dropped ∧ v.dropping = true ∧
    tells (if u.dropping then [] else [(.dropping, 0)])

/-- R186: a FILLING page has room (it closes at 32 records). -/
def Part.roomy (p : Part) : Prop := ∀ i, p.fillingPage = some i → p.rpu.pages[i].count < 32

/-- From `p` to `q` the bulletins other than OUTCOMES carry the changes `l` and no other. -/
def Part.tellsBeside (p q : Part) (l : Tidings) : Prop :=
  (∀ b : Fin 10, b ≠ 8 → q.rpu.bulletins[b] = (announced p.rpu.bulletins q.now l)[b]) ∧
  q.rpu.threshold = p.rpu.threshold ∧ q.rpu.phase = p.rpu.phase ∧ q.rpu.lineResetBusy = p.rpu.lineResetBusy ∧
  q.rpu.busData = p.rpu.busData

/-- From `p` to `q` one outcome record of this kind and body was handed over, the changes `l` were told beside it, and
besides the record's own areas (R186, R187) only `k` was stored to. -/
def Part.records (p q : Part) (kind : Byte) (body : List Byte) (l : Tidings) (k : List Area) : Prop :=
  (p.roomy → p.handsOver q kind body) ∧ p.tellsBeside q l ∧ Memory.storesOnly p.mem q.mem (p.outcomeAreas ++ k)

/-- From `p` to `q` two outcome records were handed over, the changes `l` told beside them, and besides the areas of the
records only `k` was stored to; for a page that neither of them fills. -/
def Part.recordsTwice (p q : Part) (first second : Byte × List Byte) (l : Tidings) (k : List Area) : Prop :=
  p.tellsBeside q l ∧ q.rpu.outcomeNumber = p.rpu.outcomeNumber + 2 ∧
  (p.fillingPage = none → q.rpu.dropped = inc32 (inc32 p.rpu.dropped)) ∧
  ∀ i : Fin 8, p.fillingPage = some i → p.rpu.pages[i].count < 30 →
    let n := p.rpu.pages[i].count
    let shown (k : Nat) (x : Byte × List Byte) :=
      Memory.byte q.mem (recordBase i k) = x.1 ∧ Memory.read q.mem (recordBase i k + 8) 24 = x.2
    shown n first ∧ shown (n + 1) second ∧ q.rpu.pages[i].count = n + 2 ∧
    Memory.storesOnly p.mem q.mem ([.record i n, .record i (n + 1), .entry i, .mirror .rpu] ++ k)

/-! ## Orders (R178 to R180) -/

/-- R178: the desk may take cell `n`, which holds the order `o`: it heads the queue, no line reset is in progress, BUSY
does not refuse it, and the in-flight table has no order of this cell and nothing of the identity it will get. -/
def Part.canTake (p : Part) (n : Fin 48) (o : Order) : Prop :=
  p.takeable = some n ∧ Memory.order p.mem n = some o ∧ p.odk.busy o = false ∧
    ∀ e ∈ p.odk.inflight, e.ref ≠ p.nextRef n ∧ (e.orphaned = false → e.ref.cell ≠ n)

/-- R178: the queue and the take identity after a take. -/
def Odk.afterTake (o : Odk) : Odk := { o with queue := o.queue.tail, takeIdentity := o.takeIdentity + 1 }

/-- R175, R179: the first twelve bytes of a completed cell. -/
def InFlight.result (e : InFlight) (c : Completion) (now : Time) : List Byte :=
  [if c.result.refuses then 4 else 3, e.kind, c.result.code, c.detail] ++ leBytes 4 (Time.low now).toNat ++
    leBytes 2 e.tag.toNat ++ leBytes 2 (e.ref.takeId.toNat % 65536)

/-- R178: the first twelve bytes of a TAKEN cell. -/
def InFlight.taken (e : InFlight) : List Byte :=
  [2, e.kind, 0, 0, 0, 0, 0, 0] ++ leBytes 2 e.tag.toNat ++ leBytes 2 (e.ref.takeId.toNat % 65536)

/-- R178, R179: the order in cell `n` of `p` was taken and completed with this result; in flight are `others`. -/
def Part.answersAmong (p q : Part) (n : Fin 48) (c : Completion) (others : List InFlight) : Prop :=
  q.odk = { p.odk.afterTake with inflight := others } ∧
    Memory.read q.mem (cellBase n) 12 = (p.takeEntry n).result c q.now

/-- R178, R179: the order in cell `n` of `p` was taken and completed; nothing else in flight changed. -/
def Part.answers (p q : Part) (n : Fin 48) (result : Result) (detail : Byte := 0) : Prop :=
  p.answersAmong q n ⟨result, detail⟩ p.odk.inflight

/-- R178, R179: the order in cell `n` of `p` was taken and completed, and nothing but the desk, the cell and the desk's
mirror record changed. -/
def Part.onlyAnswers (p q : Part) (n : Fin 48) (result : Result) (detail : Byte := 0) : Prop :=
  p.answers q n result detail ∧ q = { p with odk := q.odk, rpu := q.rpu, mem := q.mem } ∧ p.tells q [] ∧
    Memory.storesOnly p.mem q.mem [.cell n, .mirror .odk]

/-- R178: the order in cell `n` of `p` was taken and is held by its owner; in flight besides are `others`. -/
def Part.keepsAmong (p q : Part) (n : Fin 48) (others : List InFlight) : Prop :=
  q.odk = { p.odk.afterTake with inflight := others ++ [{ p.takeEntry n with kept := true }] } ∧
    Memory.read q.mem (cellBase n) 12 = (p.takeEntry n).taken

/-- R178: as above, nothing else in flight having changed. -/
def Part.keeps (p q : Part) (n : Fin 48) : Prop := p.keepsAmong q n p.odk.inflight

/-- R179: the entries in flight but the order `ref`. -/
def Odk.without (o : Odk) (ref : OrderRef) : List InFlight := o.inflight.filter fun e => e.ref != ref

/-- R179: the in-flight table holds the order of `e`, taken at an earlier event and not orphaned. -/
def Odk.holds (o : Odk) (e : InFlight) : Prop := o.entry e.ref = some e ∧ e.kept = true ∧ e.orphaned = false

/-- R179: the cell of `e` shows this result. -/
def Part.shows (q : Part) (e : InFlight) (result : Result) (detail : Byte := 0) : Prop :=
  Memory.read q.mem (cellBase e.ref.cell) 12 = e.result ⟨result, detail⟩ q.now

/-- The COMPLETED change of an order kept past its take. -/
def InFlight.told (e : InFlight) : News × Byte := (.completed, BitVec.ofNat 8 e.ref.cell.val)

/-- R179: from `p` to `q` the held order of `e` completed with this result and nothing else changed on the desk. -/
def Part.concludes (p q : Part) (e : InFlight) (result : Result) (detail : Byte := 0) : Prop :=
  q.odk = { p.odk with inflight := p.odk.without e.ref } ∧ q.shows e result detail

/-- Every zone that has robot `r` as a member is SEALED with its door locked, and no resume waits for it: a report on it
(R74) changes no zone. -/
def Part.unwatched (p : Part) (r : Fin 6) : Prop :=
  ∀ z : Fin 8, (p.zoneHasRobot z r = true → p.sac.zones[z].state = .sealed ∧ p.sac.zones[z].doorRel = false) ∧
    p.sac.zones[z].resumeSet[r] ≠ .waiting

/-- R66, R69: the handshake of robot `r` ended with this change: the order in flight, if any, completed with it, and is
none in `q`. -/
def Part.endsHandshake (p q : Part) (r : Fin 6) (news : News) (result : Result) : Prop :=
  match p.rbp.robots[r].order with
  | none => q.odk = p.odk ∧ p.tells q [(news, robotMember r)]
  | some ref => ∀ e : InFlight, e.ref = ref → p.odk.holds e →
      p.concludes q e result ∧ p.tells q [e.told, (news, robotMember r)]

/-- R72: robot `r` entered FAULTED with this cause: the order in flight, if any, failed with it, the fault is reported
and told. -/
def Part.endsInFault (p q : Part) (r : Fin 6) (cause : RobotFault) : Prop :=
  match p.rbp.robots[r].order with
  | none => q.odk = p.odk ∧ p.tellsFault q (.robot cause) (robotMember r) 0 [(.robotFault cause, robotMember r)]
  | some ref => ∀ e : InFlight, e.ref = ref → p.odk.holds e →
      p.concludes q e .failedTimeout cause.code ∧
      p.tellsFault q (.robot cause) (robotMember r) 0 [e.told, (.robotFault cause, robotMember r)]

/-! ## Evidence (R46) -/

/-- R46: the record of `seq`, while UNDECIDED, with its verdict of camera `c` gone to `v` from NOT_YET or TRIGGERED. -/
def Record.judged (x : Record) (seq : Word) (c : Fin 6) (v : Verdict) : Record :=
  if x.seq = seq ∧ x.decision = .undecided then
    { x with views := x.views.set c (x.views[c].map fun w =>
        { w with verdict := if w.verdict = .notYet ∨ w.verdict = .triggered then v else w.verdict }) }
  else x

/-- R91, R97: the record of `seq`, while UNDECIDED, as camera `c` fires for it at time `now`; an ACTIVE camera's verdict
becomes TRIGGERED. -/
def Record.fired (x : Record) (seq : Word) (c : Fin 6) (now : Time) (active : Bool) : Record :=
  if x.seq = seq ∧ x.decision = .undecided then
    { x with views := x.views.set c (x.views[c].map fun w =>
        { trigger := some (w.trigger.getD now)
          verdict := if active = true ∧ (w.verdict = .notYet ∨ w.verdict = .triggered) then .triggered else w.verdict }) }
  else x

/-- R46: the record of `seq`, while UNDECIDED, with its fill result gone from PENDING to `v`. -/
def Record.filled (x : Record) (seq : Word) (v : FillResult) : Record :=
  if x.seq = seq ∧ x.decision = .undecided ∧ x.fill = .pending then { x with fill := v } else x

/-- R47: the record with its evidence closed: a verdict still open becomes NO_VERDICT, a fill result still PENDING
NO_REPORT. -/
def Record.closed (x : Record) : Record := { x with
  fill := if x.fill = .pending then .noReport else x.fill
  views := x.views.map (Option.map fun v =>
    { v with verdict := if v.verdict = .notYet ∨ v.verdict = .triggered then .noVerdict else v.verdict }) }

/-- R48: the causes of a record whose evidence is closed. -/
def Record.causesUnder (x : Record) (f : Profile) : Causes :=
  let shows (m : Fin 6) (v : Verdict) := x.views[m].map (·.verdict) = some v
  { fillShort := decide (x.fill = .short), fillMissing := decide (x.fill = .noReport ∨ x.fill = .unfilled)
    cameraFail := decide (∃ m : Fin 6, shows m .fail)
    noVerdict := decide (∃ m : Fin 6, f.cameras[m].required = true ∧ shows m .noVerdict)
    cameraOut := decide (∃ m : Fin 6, f.cameras[m].required = true ∧ shows m .cameraOut)
    marked := x.marked }

/-- The list with each of its records changed by `f`. -/
def Trl.each (t : Trl) (f : Record → Record) : Trl := { t with records := t.records.map f }

/-- A counter that saturates at 4,294,967,295 and gains 1. -/
def up (n : Nat) : Nat := min 4294967295 (n + 1)

/-- R91, R97, R100: from `p` to `q` the fire of `seq`, the oldest of camera `c`, happened; `k` is the camera before it,
`rest` the fires behind it, `s` the camera's settings. A DEGRADED camera only fires; an ACTIVE one has the container
join the awaiting list, the oldest entry making room for it where the list is full or holds its tag. -/
def Part.happens (p q : Part) (c : Fin 6) (s : CameraSettings) (k : Camera) (seq : Word) (rest : List Fire) : Prop :=
  let fired : Camera := { k with
    schedule := rest, pulse := some ⟨p.now + BitVec.ofNat 48 s.width, !s.activeLow⟩, lastTag := seq.setWidth 5
    counters := { k.counters with triggers := up k.counters.triggers } }
  q = { p with trl := q.trl, ctu := q.ctu, rpu := q.rpu, mem := q.mem } ∧ q.mirrored .ctu ∧
  (p.cameraState c = .degraded →
    q.ctu = p.ctu.put c fired ∧ q.trl = p.trl.each (·.fired seq c p.now false) ∧ p.tells q [] ∧
    Memory.storesOnly p.mem q.mem [.mirror .ctu]) ∧
  (p.cameraState c = .active → k.awaiting.length < 16 → (∀ x ∈ k.awaiting, tagOf x ≠ tagOf seq) →
    q.ctu = p.ctu.put c { fired with awaiting := k.awaiting ++ [seq] } ∧
    q.trl = p.trl.each (·.fired seq c p.now true) ∧ p.tells q [] ∧
    Memory.storesOnly p.mem q.mem [.mirror .ctu]) ∧
  (∀ oldest others, p.cameraState c = .active → k.awaiting = oldest :: others →
    16 ≤ k.awaiting.length ∨ (∃ x ∈ k.awaiting, tagOf x = tagOf seq) →
    others.length < 16 → (∀ x ∈ others, tagOf x ≠ tagOf seq) →
    p.missedThreshold c = 0 ∨ min 255 (k.missedRun + 1) ≠ p.missedThreshold c →
    q.ctu = p.ctu.put c { fired with
      awaiting := others ++ [seq], missedRun := min 255 (k.missedRun + 1)
      counters := { fired.counters with noVerdict := up k.counters.noVerdict } } ∧
    q.trl = ((p.trl.each (·.fired seq c p.now false)).each (·.judged oldest c .noVerdict)).each
      (·.judged seq c .triggered) ∧
    p.tells q [(.awaitFull, BitVec.ofNat 8 c.val)] ∧
    Memory.storesOnly p.mem q.mem [.bulletin 3, .mirror .ctu])

/-- R103, R107: the camera after it has closed what it still holds open for container `x`. -/
def Camera.closing (k : Camera) (x : Record) (m : Fin 6) : Camera :=
  let missed : Camera := { k with counters := { k.counters with noVerdict := up k.counters.noVerdict } }
  if x.seq ∈ k.awaiting then
    { missed with awaiting := k.awaiting.filter (· != x.seq), missedRun := min 255 (k.missedRun + 1) }
  else if x.seq ∈ k.schedule.map (·.seq) then { missed with schedule := k.schedule.filter fun y => y.seq != x.seq }
  else if x.views[m].map (·.verdict) = some .notYet then missed
  else k

/-! ## High-water advances (R20, R23, R28 to R30) -/

/-- R20, R23, R30: the part after the count that the pair `pair` completes at depth 0, before what the advance reaches is
raised: position, high-water, phase and mark count have moved. -/
def Part.counted (p : Part) (f : Profile) (pair : Bool × Bool) (infeed : Bool) : Part := { p with cvt := { p.cvt with
  decoder := some pair, infeed := infeed, position := p.cvt.position + 1, highWater := p.cvt.highWater + 1
  phase := if p.cvt.phase + 1 < f.pitch then p.cvt.phase + 1 else 0
  markCount := if p.cvt.markCount + 1 < f.spacing then p.cvt.markCount + 1 else 0 } }

/-- R22, R24, R28 to R30: the count from pair `was` to pair `pair` is a high-water advance, and of the stations, the
watches, the sample and the mark `e` alone is due on it. -/
def Part.advances (p : Part) (f : Profile) (was pair : Bool × Bool) (infeed : Bool) (e : Pending) : Prop :=
  let c := (p.counted f pair infeed).cvt
  p.cvt.decoder = some was ∧ forwardCount was pair ∧ p.cvt.depth = 0 ∧ p.cvt.profile = some f ∧
  (∀ r ∈ p.trl.records, ∀ s ∈ r.stations,
    Position.reached (f.stationOf r s) c.highWater = true ↔ e = .arrival r.seq s) ∧
  (∀ x ∈ p.cvt.watches, Position.reached x.target c.highWater = true ↔ e = .watch x) ∧
  (c.phase = f.samplePhase ↔ e = .sample) ∧ (c.markCount = 0 ↔ e = .mark)

/-- R28: as above, with the arrival of record `r` at its station `s` due. -/
def Part.arrives (p : Part) (f : Profile) (was pair : Bool × Bool) (infeed : Bool) (r : Record) (s : Station) : Prop :=
  p.advances f was pair infeed (.arrival r.seq s) ∧ r ∈ p.trl.records ∧ (∀ x ∈ p.trl.records, x.seq = r.seq → x = r) ∧
  s ∈ r.stations ∧ f.stationOf r s = p.cvt.highWater + 1

/-- R28: the part once the arrival of `seq` at its station `s` has been raised: it is raised once. -/
def Part.past (p : Part) (seq : Word) (s : Station) : Part := { p with trl := p.trl.each fun x =>
  if x.seq = seq then { x with stations := x.stations.filter (· != s) } else x }

/-- R34, while the newest mark is at high-water itself with stamp now: the projected arrival at `x`. -/
def Part.etaOf (p : Part) (pace : Nat) (x : Position) : Time :=
  p.now + BitVec.ofNat 48 (((x - p.cvt.highWater).toNat * pace + 32768) / 65536)

/-- The later of two stored times (R5). -/
def latest (a b : Time) : Time := if 0 < (b - a).toInt then b else a
/-- The earlier of two stored times (R5). -/
def earliest (a b : Time) : Time := if 0 < (a - b).toInt then b else a

/-! ## The rotation (R75, R76) -/

/-- R75: the slot names NONE, or a robot that is RUNNING. -/
def Rbp.serves (b : Rbp) (slot : Nat) : Prop :=
  b.rotation.slots[slot]? = some none ∨
    ∃ r : Fin 6, b.rotation.slots[slot]? = some (some r) ∧ b.robots[r].state = .running

/-- R76: the rotation after a wrap: a pending rotation is live, the cursor at slot 0. -/
def Rbp.wrapped (b : Rbp) : Rbp :=
  match b.pendingRotation with
  | some x => { b with rotation := x.rotation, pendingRotation := none, cursor := 0 }
  | none => { b with cursor := 0 }

/-- R75, R76: the cursor goes to the slot after `slot`. -/
def Rbp.movedPast (b : Rbp) (slot : Nat) : Rbp :=
  if slot + 1 < b.rotation.slots.length then { b with cursor := slot + 1 } else b.wrapped

/-- R75, R76: the rotation `b` gives a container this slot and robot and stands as `after`. Skip-halted clear: the
cursor's slot. Skip-halted set: the first slot from the cursor on that serves; a search that goes on from the last slot
to slot 0 wraps there, with a pending rotation into a fresh turn of it; where no slot of the turn serves, robot NONE
and the slot at which the search began. -/
def Rbp.assigns (b : Rbp) (slot : Nat) (robot : Option (Fin 6)) (after : Rbp) : Prop :=
  let n := b.rotation.slots.length
  let finds (b : Rbp) (low : Nat) := low ≤ slot ∧ b.serves slot ∧ (∀ j, low ≤ j → j < slot → ¬ b.serves j) ∧
    b.rotation.slots[slot]? = some robot ∧ after = b.movedPast slot
  let fails (b : Rbp) (start : Nat) := slot = start ∧ robot = none ∧ after = b.movedPast start
  (b.rotation.skip = false → slot = b.cursor ∧ b.rotation.slots[slot]? = some robot ∧ after = b.movedPast slot) ∧
  (b.rotation.skip = true →
    finds b b.cursor ∨
    (b.cursor = 0 ∧ (∀ j < n, ¬ b.serves j) ∧ fails b 0) ∨
    (0 < b.cursor ∧ (∀ j, b.cursor ≤ j → j < n → ¬ b.serves j) ∧
      ((b.pendingRotation = none ∧ slot < b.cursor ∧ finds b 0) ∨
        (b.pendingRotation = none ∧ (∀ j < n, ¬ b.serves j) ∧ fails b b.cursor) ∨
        (b.pendingRotation ≠ none ∧ finds b.wrapped 0) ∨
        (b.pendingRotation ≠ none ∧ (∀ j < b.wrapped.rotation.slots.length, ¬ b.wrapped.serves j) ∧
          fails b.wrapped 0))))

/-- Every station of the profile lies past the entry of a container. -/
def Profile.stationsAhead (f : Profile) : Prop :=
  let ahead (n : Nat) := 0 < n ∧ n < 2 ^ 31
  (∀ r : Fin 6, ahead f.robots[r].station) ∧ (∀ m : Fin 6, ahead f.cameras[m].station) ∧ ahead f.decision ∧
    ahead f.ejector ∧ ahead (f.ejector + f.confirmSpan)

/-! ## The ejector's output (R117) -/

/-- R117: a pulse that ends at `ending` turns the output on, or joins it; `inactive` is the inactive level of EJECT. -/
def Rej.driven (e : Rej) (ending : Time) (inactive : Bool) : Rej :=
  match e.output with
  | none => { e with
      output := some ⟨ending, !inactive⟩, counters := { e.counters with pulses := up e.counters.pulses } }
  | some o => { e with
      output := some { o with ending := latest o.ending ending }
      counters := { e.counters with merges := up e.counters.merges } }

/-- R117: the list with the members of a pulse FIRED. -/
def Trl.fired (t : Trl) (members : List Word) : Trl :=
  t.each fun x => if x.seq ∈ members then { x with eject := .fired } else x

/-! ## Leaving the list (R51 to R56) -/

/-- R53, R56: the list after the REJECT record `r` has left it. -/
def Trl.without (t : Trl) (r : Record) : Trl := { t with
  records := t.records.filter fun x => x.seq != r.seq, rejected := up t.rejected, causes := t.causes.add r.causes }

/-! ## Service sockets (R132, R133, R137) -/

/-- R133: the ports after a close request of zone `z`: its HELD and OPEN ones are CLOSED. -/
def Spm.shut (s : Spm) (z : Fin 8) : Spm :=
  let shut (k : Port) : Port :=
    if k.role = .service z ∧ (k.admission = .held ∨ k.admission = .opened) then
      { k with admission := .closed, deadline := none }
    else k
  { s with ports := s.ports.map shut }

/-- R132, R137: the ports after an open request of zone `z`: its CLOSED ones are OPEN, supervised if their link is up, or
HELD while the hall is held. -/
def Spm.unlock (s : Spm) (z : Fin 8) (now : Time) : Spm :=
  let unlock (k : Port) : Port :=
    if k.role = .service z ∧ k.admission = .closed then
      if s.hallHold then { k with admission := .held, deadline := none }
      else { k with admission := .opened, deadline := if k.link then some (now + ms k.limit) else none }
    else k
  { s with ports := s.ports.map unlock }

/-- R132, R136: as `unlock`, the QUARANTINED sockets of the zone opened or held with the CLOSED ones. -/
def Spm.release (s : Spm) (z : Fin 8) (now : Time) : Spm :=
  let release (k : Port) : Port :=
    if k.role = .service z ∧ (k.admission = .closed ∨ k.admission = .quarantined) then
      if s.hallHold then { k with admission := .held, deadline := none }
      else { k with admission := .opened, deadline := if k.link then some (now + ms k.limit) else none }
    else k
  { s with ports := s.ports.map release }

/-! ## Zones (R144 to R160) -/

/-- R148: the zone after a grant at time `now`, DOOR_REL apart; its access order has completed. -/
def Zone.granted (k : Zone) (level : AccessLevel) (origin : ZoneOrigin) (length : Nat) (badge : Half) (now : Time) :
    Zone := { k with
  state := .opened, level := level, origin := origin, badge := badge
  expiry := some (now + BitVec.ofNat 48 (60000000 * length)), accessOrder := none, request := none }

/-- R147: the zone after a sealing. -/
def Zone.shut (k : Zone) : Zone := { k with
  state := .sealed, level := .none, origin := .none, badge := 0, expiry := none, doorRel := false }

/-- No service socket of zone `z` is QUARANTINED. -/
def Part.clearSockets (p : Part) (z : Fin 8) : Prop :=
  ∀ i : Fin 16, p.spm.ports[i].role = .service z → p.spm.ports[i].admission ≠ .quarantined

/-- R146, R147: every member camera of zone `z` that is not OFF has its zone_service at `on`. -/
def Part.camerasAre (p : Part) (z : Fin 8) (on : Bool) : Prop :=
  ∀ c : Fin 6, p.zoneHasCamera z c = true → p.cameraState c ≠ .off → p.ctu.cameras[c].zoneService = on

/-- Robot `r` is a member of zone `z` and of no other, and no resume waits for it. -/
def Part.ofOnly (p : Part) (z : Fin 8) (r : Fin 6) : Prop :=
  p.zoneHasRobot z r = true ∧ (∀ y, y ≠ z → p.zoneHasRobot y r = false) ∧
    ∀ y : Fin 8, p.sac.zones[y].resumeSet[r] ≠ .waiting

/-- R148, R146: from `p` to `q` zone `z` was granted and stands as `k`: the sockets of a SEALED zone are unlocked, a
level that rises to ADJUST or above takes the member cameras into service. Where they are in service already, nothing
else changed but the record, the changes told and the desk's part. -/
def Part.grants (p q : Part) (z : Fin 8) (k : Zone) (told : Tidings) (areas : List Area) : Prop :=
  let rises := k.level ≠ .observe ∧ p.sac.zones[z].level.code < k.level.code
  q.sac = p.sac.put z k ∧ q.mirrored .sac ∧ q.rpu.fault = p.rpu.fault ∧
  q.spm = (if p.sac.zones[z].state = .sealed then p.spm.unlock z p.now else p.spm) ∧ (rises → q.camerasAre z true) ∧
  ((rises → p.camerasAre z true) →
    q = { p with spm := q.spm, sac := q.sac, odk := q.odk, rpu := q.rpu, mem := q.mem } ∧
    p.records q 2 (k.outcome (zoneMember z) .granted k.badge ⟨.ok, 0⟩ 255) (told ++ [(.granted, zoneMember z)])
      (areas ++ [.bulletin 6, .mirror .spm, .mirror .sac]))

/-- R147: from `p` to `q` zone `z` was sealed with this event and stands as `k`: its sockets are closed, its member
cameras out of service. Where they are out of it already, nothing else changed but the record, the changes told and
the desk's part. -/
def Part.seals (p q : Part) (z : Fin 8) (k : Zone) (event : AccessEvent) (told : Tidings) (areas : List Area) : Prop :=
  q.sac = p.sac.put z k ∧ q.mirrored .sac ∧ q.rpu.fault = p.rpu.fault ∧ q.spm = p.spm.shut z ∧ q.camerasAre z false ∧
  (p.camerasAre z false →
    q = { p with spm := q.spm, sac := q.sac, odk := q.odk, rpu := q.rpu, mem := q.mem } ∧
    p.records q 2 (k.outcome (zoneMember z) event 0 ⟨.ok, 0⟩ 255) (told ++ [(event.sealNews, zoneMember z)])
      (areas ++ [.bulletin 6, .mirror .spm, .mirror .sac]))

/-- R156: from `p` to `q` the access of zone `z`, which stood as `k`, ended: it was sealed, or with its door open it
waits for the door. -/
def Part.endsAccess (p q : Part) (z : Fin 8) (k : Zone) (areas : List Area) : Prop :=
  if p.doorOpen z = true then
    q.sac = p.sac.put z { k with state := .waitClose, expiry := none, doorRel := false } ∧ q.mirrored .sac ∧
    q = { p with sac := q.sac, odk := q.odk, rpu := q.rpu, mem := q.mem } ∧ p.tells q [(.waitClose, zoneMember z)] ∧
    Memory.storesOnly p.mem q.mem (areas ++ [.bulletin 6, .mirror .sac])
  else p.seals q z k.shut .ended [] areas

/-! ## The line profile (R166 to R171) -/

/-- R169, R171: from `p` to `q` a PROFILE_ADOPT was refused: the refusal stands in the profile record, no adoption is in
flight, and beside it only the desk's part changed. -/
def Part.refusesProfile (p q : Part) (r : AdoptRefusal) : Prop :=
  q.cvt = { p.cvt with adoption := none, profileRecord := { p.cvt.profileRecord with refusal := some r } } ∧
  q = { p with cvt := q.cvt, odk := q.odk, rpu := q.rpu, mem := q.mem } ∧ q.mirrored .profile

/-- R78: a window as it goes live under the pitch `pitch`. -/
def Window.clamped (x : Window) (pitch : Nat) : Window := ⟨x.opening, min x.closing pitch⟩

/-- R90: the Robot Pacer under the profile `f`. -/
def Rbp.under (b : Rbp) (f : Profile) : Rbp := { b with
  robots := Vector.ofFn fun r : Fin 6 =>
    { b.robots[r] with live := f.robots[r].window.clamped f.pitch, failureRun := 0 }
  rotation := f.rotation, cursor := 0 }

/-- R111: the Camera Trigger Unit under the profile `f`. -/
def Ctu.under (b : Ctu) (f : Profile) : Ctu := { b with
  cameras := Vector.ofFn fun c : Fin 6 =>
    if f.cameras[c].present then { b.cameras[c] with missedRun := 0 }
    else { b.cameras[c] with hostService := false, zoneService := false, degraded := false, degradeCause := none
                             portSilent := false, missedRun := 0 } }

/-- R143: the Switch Port Monitor under the profile `f`, at time `now`. -/
def Spm.under (b : Spm) (f : Profile) (now : Time) : Spm := { b with
  ports := Vector.ofFn fun i : Fin 16 =>
    let k := b.ports[i]
    let s := f.ports[i]
    if k.role = s.role then
      { k with limit := s.limit, action := s.action
               deadline := if k.link = true ∧ k.admission = .opened then some (now + ms s.limit) else k.deadline }
    else { k with role := s.role, admission := .closed, limit := s.limit, action := s.action, deadline := none
                  silent := false, drops := 0, silences := 0, quarantines := 0 } }

/-- R164: the Service Access Controller under the profile `f`, while no door reads open. -/
def Sac.under (b : Sac) (f : Profile) : Sac :=
  { b with zones := Vector.ofFn fun z : Fin 8 =>
      { b.zones[z] with haltedByZone := b.zones[z].haltedByZone &&& f.zones[z].robots } }

/-! ## The candidate (R168, R194) -/

/-- The number that these bytes spell, the least significant first (R174). -/
def leValue : List Byte → Nat
  | [] => 0
  | b :: l => b.toNat + 256 * leValue l

/-- R194: the field of `width` bytes at this offset from the start of the staging area. -/
def Memory.staged (m : Memory) (offset width : Nat) : Nat := leValue (Memory.read m (0x5000 + offset) width)

/-- R168: what a check judges: an element, or none in particular, with what makes it pass. -/
abbrev Judged := Option Nat × Prop

/-- A check that concerns no single element. -/
def judged (passes : Prop) : List Judged := [(none, passes)]
/-- A check of the elements 0 to `n` − 1 in turn. -/
def judgedEach (n : Nat) (passes : Nat → Prop) : List Judged := (List.range n).map fun i => (some i, passes i)

/-- R165, R194: what RANGE judges, in the order of R165's table. -/
def Memory.rangeTable (m : Memory) : List Judged :=
  let u := m.staged
  let pitch := u 0x008 2
  judged (u 0x002 1 ≤ 1) ++ judged (65536 ≤ u 0x010 4) ++
  judged (u 0x018 2 ≤ if 32 ≤ pitch ∧ pitch ≤ 4096 then pitch else 4096) ++
  judged (1 ≤ u 0x080 1 ∧ u 0x080 1 ≤ 12) ++
  judgedEach (u 0x080 1) (fun s => u (0x082 + s) 1 ≤ 5 ∨ u (0x082 + s) 1 = 255) ++ judged (u 0x081 1 ≤ 1) ++
  judgedEach 6 (fun c => 1 ≤ u (0x096 + 16 * c) 2 ∧ u (0x098 + 16 * c) 1 ≤ 1 ∧ u (0x099 + 16 * c) 1 ≤ 1 ∧
    u (0x09A + 16 * c) 1 ≤ 1 ∧ u (0x09B + 16 * c) 1 ≤ 1) ++
  judged (1 ≤ u 0x0FA 2) ++ judged (u 0x0FC 1 ≤ 1) ++
  judgedEach 16 (fun i =>
    let role := u (0x100 + 8 * i) 1
    let index := u (0x101 + 8 * i) 1
    role ≤ 5 ∧ (role = 2 ∨ role = 3 → index ≤ 5) ∧ (role = 4 → index ≤ 7) ∧ 1 ≤ u (0x102 + 8 * i) 2 ∧
      u (0x102 + 8 * i) 2 ≤ 60000 ∧ u (0x104 + 8 * i) 1 ≤ 2) ++
  judgedEach 8 (fun z => u (0x180 + 8 * z) 1 ≤ 63 ∧ u (0x181 + 8 * z) 1 ≤ 63 ∧ u (0x182 + 8 * z) 1 ≤ 1 ∧
    u (0x183 + 8 * z) 1 ≤ 1 ∧ u (0x184 + 8 * z) 1 ≤ 3 ∧ 1 ≤ u (0x185 + 8 * z) 1 ∧ u (0x185 + 8 * z) 1 ≤ 240)

/-- R168: the twelve checks in their order, each with its detail. -/
def Memory.checkTable (m : Memory) : List (Byte × List Judged) :=
  let u := m.staged
  let pitch := u 0x008 2
  let decision := u 0x014 4
  let ejector := u 0x0F0 4
  let span := u 0x0F4 4
  let slot (s : Nat) := u (0x082 + s) 1
  let station (r : Nat) := u (0x020 + 16 * r) 4
  let camera (c : Nat) := u (0x090 + 16 * c) 4
  let present (c : Nat) := u (0x098 + 16 * c) 1 = 1
  let shares (y z : Nat) :=
    ∃ bit < 6, (u (0x180 + 8 * y) 1).testBit bit = true ∧ (u (0x180 + 8 * z) 1).testBit bit = true ∨
      (u (0x181 + 8 * y) 1).testBit bit = true ∧ (u (0x181 + 8 * z) 1).testBit bit = true
  [(1, judged (u 0x000 2 = 3)),
   (2, m.rangeTable),
   (3, judged ((32 ≤ pitch ∧ pitch ≤ 4096) ∧ (16 ≤ u 0x00C 2 ∧ u 0x00C 2 ≤ 1024) ∧ u 0x00A 2 < pitch)),
   (4, judgedEach 6 (fun r => station r < 1048576) ++ judgedEach 6 (fun c => present c → camera c < 1048576) ++
     judged (decision < 1048576 ∧ ejector < 1048576 ∧ span < 1048576)),
   (5, judgedEach (u 0x080 1) fun s => slot s ≠ 255 → station (slot s) + pitch + u 0x018 2 < decision),
   (6, judgedEach 6 fun c => present c → camera c < decision ∧ decision - camera c ≤ 15 * pitch),
   (7, judged (decision < ejector)),
   (8, judged (ejector + span ≤ 255 * pitch)),
   (9, judged (span ≤ 7 * pitch)),
   (10, judgedEach 8 fun z => ∀ y < z, ¬ shares y z),
   (11, judgedEach 6 fun r => (10 ≤ u (0x028 + 16 * r) 2 ∧ u (0x028 + 16 * r) 2 ≤ 10000) ∧
     (10 ≤ u (0x02A + 16 * r) 2 ∧ u (0x02A + 16 * r) 2 ≤ 10000)),
   (12, judgedEach 16 fun i => u (0x100 + 8 * i) 1 = 1 → ∀ j < i, u (0x100 + 8 * j) 1 ≠ 1)]

/-! ## Orders as commands (log 3) -/

/-- The order row that carries this order in cell `n`. -/
def orderRow (n : Fin 48) : Order → Instr
  | .profileAdopt => .profileAdopt n
  | .lineStart => .lineStart n
  | .lineStop => .lineStop n
  | .markReject seq => .markReject n seq
  | .countersClear => .countersClear n
  | .timeTrim ppb => .timeTrim n ppb
  | .timeStep offset => .timeStep n offset
  | .robotRun robot => .robotRun n robot
  | .robotHalt robot => .robotHalt n robot
  | .robotClear robot => .robotClear n robot
  | .windowSet robot opening closing => .windowSet n robot opening closing
  | .rotationSet count skip entries => .rotationSet n count skip entries
  | .cameraService camera out => .cameraService n camera out
  | .cameraRestore camera => .cameraRestore n camera
  | .verdict camera verdict seq => .verdict n camera verdict seq
  | .ejectTest => .ejectTest n
  | .portAdmit port opening => .portAdmit n port opening
  | .hallHold => .hallHold n
  | .hallRelease => .hallRelease n
  | .accessRequest zone level minutes badge => .accessRequest n zone level minutes badge
  | .accessExtend zone minutes => .accessExtend n zone minutes
  | .accessEnd zone => .accessEnd n zone
  | .resumeZone zone => .resumeZone n zone
  | .outcomeFlush => .outcomeFlush n
  | .faultUnlock count => .faultUnlock n count

/-- R181: the number that `width` bytes of cell `n` spell at this offset from its byte 12. -/
def Memory.parameter (m : Memory) (n : Fin 48) (offset width : Nat) : Nat :=
  leValue (Memory.read m (cellBase n + 12 + offset) width)

/-- R181: the parameters of this order stand in cell `n`, each at its offset and width. -/
def Memory.spells (m : Memory) (n : Fin 48) : Order → Prop :=
  let par (offset : Nat) {k : Nat} (v : BitVec k) := m.parameter n offset (k / 8) = v.toNat
  fun
  | .profileAdopt | .lineStart | .lineStop | .countersClear | .ejectTest | .hallHold | .hallRelease | .outcomeFlush =>
    True
  | .markReject v | .timeTrim v | .timeStep v => par 0 v
  | .robotRun v | .robotHalt v | .robotClear v | .cameraRestore v | .accessEnd v | .resumeZone v => par 0 v
  | .windowSet robot opening closing => par 0 robot ∧ par 2 opening ∧ par 4 closing
  | .rotationSet count skip entries => par 0 count ∧ par 1 skip ∧ entries = Memory.read m (cellBase n + 14) 12
  | .cameraService camera out => par 0 camera ∧ par 1 out
  | .verdict camera verdict seq => par 0 camera ∧ par 1 verdict ∧ par 4 seq
  | .portAdmit port opening => par 0 port ∧ par 1 opening
  | .accessRequest zone level minutes badge => par 0 zone ∧ par 1 level ∧ par 2 minutes ∧ par 4 badge
  | .accessExtend zone minutes => par 0 zone ∧ par 2 minutes
  | .faultUnlock count => par 0 count

/-! ## Pages (R185, R186) -/

/-- R186: from `p` to `q` page `i` closed with this cause, after the changes `l`; the page after it became FILLING if it
was EMPTY. -/
def Part.closes (p q : Part) (i : Fin 8) (cause : CloseCause) (l : Tidings) : Prop :=
  let full := p.rpu.pages.set i { p.rpu.pages[i] with state := .full, cause := cause }
  let next := Page.filling p.rpu.lastPageSeq
  let after : Fin 8 := i + 1
  let opens := p.rpu.pages[after].state = .empty
  q.rpu = { p.rpu with
    pages := if opens then full.set after next else full
    lastPageSeq := if opens then next.sequence else p.rpu.lastPageSeq
    dropping := if opens then false else p.rpu.dropping
    ageDeadline := none, nextPage := after
    bulletins := announced p.rpu.bulletins q.now (l ++ [(.pageFull, BitVec.ofNat 8 i.val)])
    updateCounts := q.rpu.updateCounts } ∧
  Memory.read q.mem (entryBase i) 16 = q.rpu.pages[i].bytes

/-- R189: from `p` to `q` a protocol error was counted and told. -/
def Part.errs (p q : Part) (news : News) (member : Byte) : Prop :=
  q.odk = { p.odk with protocolErrors := min 65535 (p.odk.protocolErrors + 1) } ∧
  q = { p with odk := q.odk, rpu := q.rpu, mem := q.mem } ∧ p.tells q [(news, member)] ∧ q.mirrored .odk ∧
  Memory.storesOnly p.mem q.mem [.bulletin 0, .mirror .odk]

end Sys2Proof.Machine
end

