-- ==== Sys2Proof/Certificates/Slice0/Obligations.lean ====
section
/-! DEFINITION. The statements for the provers. A state is written ⟨p, w⟩: the part and the queue of waiting commands.
`Leads c ⟨p, w⟩ fun q => …` says that the command answers a next state, with the queue as it was and the part `q`.
The commands are the model's as logs 1 (a line's command carries its new level), 2 (one whose event cannot occur changes
nothing), 3 (an order's row is its take) and 8 (a deadline's event comes when it is commanded) have them. -/

open Sys2Proof Sys2Proof.Machine

/-! ## The machine -/

/-- A step runs the command at the front of the queue on the part, with the queue's rest. -/
def Obligations.StepRunsFront : Prop :=
  ∀ (c : Instr) (p : Part) (w : List Instr), step ⟨p, c :: w⟩ = exec c ⟨p, w⟩

/-- Every well-formed command answers a next state and leaves the queue alone: no command is refused and none faults. -/
def Obligations.EveryCommandAnswers : Prop :=
  ∀ (c : Instr) (p : Part) (w : List Instr), c.wf = true → Leads c ⟨p, w⟩ fun _ => True

/-! ## 1. Machine time -/

/-- R2 (and log 4, that a step on an empty queue is one core clock tick): the tick adds the increment to the fraction,
a carry out of its 32 bits is one microsecond of machine time, and nothing else changes. MACHINE_TIME_CARRY is the
ticks up to and including the one that carries: before it machine time stands still, with it machine time advances by
one microsecond. -/
def Obligations.ClockTicksAndCarries : Prop :=
  (∀ p : Part, ∃ q, step ⟨p, []⟩ = .next ⟨q, []⟩ ∧
    q.mtu.time = (if p.mtu.fraction.toNat + p.mtu.increment.toNat < 2 ^ 32 then p.mtu.time else p.mtu.time + 1) ∧
    q.mtu.fraction = p.mtu.fraction + p.mtu.increment ∧
    q = { p with mtu := { p.mtu with time := q.mtu.time, fraction := q.mtu.fraction } }) ∧
  (∀ (p : Part) (w : List Instr), 0 < p.mtu.increment.toNat →
    ∃ n, (∀ k ≤ n, (Part.ticks k p).mtu.time = p.mtu.time) ∧
      Leads .machineTimeCarry ⟨p, w⟩ fun q => q = Part.ticks (n + 1) p ∧ q.mtu.time = p.mtu.time + 1)

/-- R3: the increment of a trim within the limits: the base increment plus the quotient 85,899,346 × t / 1,000,000,000
rounded to the nearest integer, an exact half away from zero; it is what a TIME_TRIM sets. -/
def Obligations.TrimGivesTheIncrement : Prop :=
  (∀ (p : Part) (w : List Instr) (cell : Fin 48) (ppb : Word), p.canTake cell (.timeTrim ppb) →
    Leads (.timeTrim cell ppb) ⟨p, w⟩ fun q => q.mtu.increment = incrementOf q.mtu.trim) ∧
  ∀ t : Int, -200000 ≤ t → t ≤ 200000 →
    (incrementOf t).toInt = 85899346 + adjustment t ∧
    2 * (1000000000 * adjustment t - 85899346 * t).natAbs ≤ 1000000000 ∧
    (2 * (1000000000 * adjustment t - 85899346 * t).natAbs = 1000000000 →
      (85899346 * t).natAbs < (1000000000 * adjustment t).natAbs) ∧
    (t = 0 → adjustment t = 0) ∧ (85899346 * t).natAbs ≤ 17179869200000 ∧
    85882166 ≤ (incrementOf t).toInt ∧ (incrementOf t).toInt ≤ 85916526

/-- R4: TIME_TRIM, in every state: the trim clamped to ±200,000 and its increment; machine time, the fraction, a pending
step and the sync state as they stood; CLAMPED or OK at once; the mirror record rewritten. The next tick adds the new
increment. -/
def Obligations.TimeTrimSetsTheRate : Prop :=
  ∀ (p : Part) (w : List Instr) (cell : Fin 48) (ppb : Word), p.canTake cell (.timeTrim ppb) →
    let trim := max (-200000) (min 200000 ppb.toInt)
    Leads (.timeTrim cell ppb) ⟨p, w⟩ fun q =>
      q.mtu = { p.mtu with trim := trim, increment := incrementOf trim } ∧
      q.tick.mtu.fraction = p.mtu.fraction + incrementOf trim ∧
      q = { p with mtu := q.mtu, odk := q.odk, rpu := q.rpu, mem := q.mem } ∧
      p.answers q cell (if ppb.toInt = trim then .ok else .clamped) ∧ p.tells q [] ∧ q.mirrored .mtu ∧
      Memory.storesOnly p.mem q.mem [.cell cell, .mirror .mtu, .mirror .odk]

/-- R6, R8, R9: a TIME_STEP taken while the sync is ABSENT is applied at once: machine time and every stored time move
by the clamped offset, a non-zero step marks every record of the list, the order completes, TIME is told, and the mirror
record of the MTU is rewritten, and by a non-zero step those of SAC and RPU where R162 and R192 ask it: where a zone's
expiry, where the age deadline is set. No mirror record but these and the desk's is stored to. (The model's choices: the
change told with member 0, log 37, and at machine time after the offset, log 38.) -/
def Obligations.TimeStepAppliesAtOnce : Prop :=
  ∀ (p : Part) (w : List Instr) (cell : Fin 48) (offset : Word), p.canTake cell (.timeStep offset) →
    p.mtu.syncState = .absent → p.mtu.pendingStep = none →
    let o := max (-1000000) (min 1000000 offset.toInt)
    let moved := p.shift (BitVec.ofInt 48 o)
    Leads (.timeStep cell offset) ⟨p, w⟩ fun q =>
      q.now = p.now + BitVec.ofInt 48 o ∧ q.differences = p.differences ∧
      q.mtu = { moved.mtu with pendingStep := none, beforeStep := p.now, lastOffset := o } ∧
      q.trl = { p.trl with
        records := if o = 0 then p.trl.records else p.trl.records.map fun r => { r with stepped := true } } ∧
      q = { moved with mtu := q.mtu, trl := q.trl, odk := q.odk, rpu := q.rpu, mem := q.mem } ∧
      p.answers q cell (if offset.toInt = o then .ok else .clamped) ∧ moved.tells q [(.stepApplied, 0)] ∧
      q.mirrored .mtu ∧ (∀ (z : Fin 8) (t : Time), o ≠ 0 → p.sac.zones[z].expiry = some t → q.mirrored .sac) ∧
      (∀ t, o ≠ 0 → p.rpu.ageDeadline = some t → q.mirrored .rpu) ∧
      Memory.storesOnly p.mem q.mem
        [.cell cell, .bulletin 7, .mirror .mtu, .mirror .sac, .mirror .rpu, .mirror .odk]

/-- R6, R7: a TIME_STEP taken while the sync is PRESENT is held as the pending step, its cell TAKEN; a step pending
before it, held by its order, ends SUPERSEDED. -/
def Obligations.TimeStepPends : Prop :=
  ∀ (p : Part) (w : List Instr) (cell : Fin 48) (offset : Word), p.canTake cell (.timeStep offset) →
    p.mtu.syncState = .present →
    let o := max (-1000000) (min 1000000 offset.toInt)
    Leads (.timeStep cell offset) ⟨p, w⟩ fun q =>
      q.mtu = { p.mtu with pendingStep := some ⟨o, decide (offset.toInt ≠ o), p.nextRef cell⟩ } ∧
      q = { p with mtu := q.mtu, odk := q.odk, rpu := q.rpu, mem := q.mem } ∧
      (p.mtu.pendingStep = none → p.keeps q cell ∧ p.tells q [] ∧
        Memory.storesOnly p.mem q.mem [.cell cell, .mirror .mtu, .mirror .odk]) ∧
      (∀ (before : PendingStep) (e : InFlight), p.mtu.pendingStep = some before → before.ref = e.ref → p.odk.holds e →
        p.keepsAmong q cell (p.odk.without e.ref) ∧ q.shows e .superseded ∧ p.tells q [e.told] ∧
        Memory.storesOnly p.mem q.mem
          [.cell cell, .cell e.ref.cell, .bulletin 0, .mirror .mtu, .mirror .odk])

/-- R10, R11, R13: SYNC and the sync loss deadline. In mode PULSE a rising edge is stamped, judged against the window
end as it stood, and arms both deadlines; in mode NONE, or where the level does not rise, only the line's level is
held. The loss deadline reached while PRESENT loses the sync, which is reported; reached while ABSENT it is disarmed;
not reached, nothing happens. (With a step pending: PendingStepIsReleased. The changes on TIME with member 0 are the
model's choice, log 37.) -/
def Obligations.SyncIsJudgedAndLost : Prop :=
  (∀ (p : Part) (w : List Instr) (level : Bool),
    let inWindow := ∃ t, p.mtu.windowEnd = some t ∧ (p.now - t).toInt ≤ 0
    (p.mtu.syncMode = .none ∨ level = false ∨ p.syncLine = true →
      Leads (.syncPulse level) ⟨p, w⟩ fun q => q = { p with syncLine := level }) ∧
    (p.mtu.syncMode = .pulse → level = true → p.syncLine = false → p.mtu.pendingStep = none →
      Leads (.syncPulse level) ⟨p, w⟩ fun q =>
        (inWindow → q.mtu.syncState = .present) ∧ (¬ inWindow → q.mtu.syncState = p.mtu.syncState) ∧
        q.mtu = { p.mtu with lastSync := p.now, syncState := q.mtu.syncState, windowEnd := some (p.now + 1100000)
                             lossDeadline := some (p.now + 2000000) } ∧
        q = { p with syncLine := true, mtu := q.mtu, rpu := q.rpu, mem := q.mem } ∧
        p.tells q [(if q.mtu.syncState = p.mtu.syncState then .syncPulse else .syncPresent, 0)] ∧ q.mirrored .mtu ∧
        Memory.storesOnly p.mem q.mem [.bulletin 7, .mirror .mtu])) ∧
  (∀ (p : Part) (w : List Instr) (t : Time), p.mtu.lossDeadline = some t →
    ((p.now - t).toInt < 0 → Leads .syncLost ⟨p, w⟩ fun q => q = p) ∧
    (0 ≤ (p.now - t).toInt → p.mtu.syncState = .absent →
      Leads .syncLost ⟨p, w⟩ fun q => q = { p with mtu := { p.mtu with lossDeadline := none } }) ∧
    (0 ≤ (p.now - t).toInt → p.mtu.syncState = .present → p.mtu.pendingStep = none →
      Leads .syncLost ⟨p, w⟩ fun q =>
        q.mtu = { p.mtu with syncState := .absent, lossDeadline := none } ∧
        q = { p with mtu := q.mtu, rpu := q.rpu, mem := q.mem } ∧
        p.tellsFault q .syncLost 0 0 [(.syncLost, 0)] ∧ q.mirrored .mtu ∧
        Memory.storesOnly p.mem q.mem [.fault, .bulletin 9, .bulletin 7, .mirror .mtu]))

/-- R12, R8, R9: a sync pulse, once stamped and judged, and the loss of the sync apply the pending step: machine time
and every stored time move by its offset, a non-zero step marks every record of the list, the order completes with OK
or CLAMPED at the time after the step, TIME is told, and nothing is pending. (The model's choices: the changes on TIME
with member 0, log 37; those of the step at machine time after the offset, log 38.) -/
def Obligations.PendingStepIsReleased : Prop :=
  ∀ (p : Part) (w : List Instr) (step : PendingStep) (e : InFlight), p.mtu.pendingStep = some step →
    p.odk.holds e → step.ref = e.ref →
    let inWindow := ∃ t, p.mtu.windowEnd = some t ∧ (p.now - t).toInt ≤ 0
    let releases (c : Instr) (before : Part) (fault : FaultRecord) (first : Tidings) :=
      let moved := before.shift (BitVec.ofInt 48 step.offset)
      Leads c ⟨p, w⟩ fun q =>
        q.now = p.now + BitVec.ofInt 48 step.offset ∧ q.differences = before.differences ∧
        q.mtu = { moved.mtu with pendingStep := none, beforeStep := p.now, lastOffset := step.offset } ∧
        q.trl = { p.trl with
          records := if step.offset = 0 then p.trl.records
            else p.trl.records.map fun r => { r with stepped := true } } ∧
        q = { moved with mtu := q.mtu, trl := q.trl, odk := q.odk, rpu := q.rpu, mem := q.mem } ∧
        p.concludes q e (if step.clamped then .clamped else .ok) ∧
        q.rpu = { moved.rpu with
          fault := fault, updateCounts := q.rpu.updateCounts
          bulletins := announced (announced p.rpu.bulletins p.now first) q.now [e.told, (.stepApplied, 0)] } ∧
        q.mirrored .mtu ∧
        Memory.storesOnly p.mem q.mem
          ([.cell e.ref.cell, .bulletin 0, .bulletin 7, .mirror .mtu, .mirror .sac, .mirror .rpu, .mirror .odk] ++
            (if first.length = 2 then [.fault, .bulletin 9] else []))
    (∀ state, p.mtu.syncMode = .pulse → p.syncLine = false →
      (inWindow → state = .present) → (¬ inWindow → state = p.mtu.syncState) →
      releases (.syncPulse true)
        { p with syncLine := true, mtu := { p.mtu with
            lastSync := p.now, syncState := state, windowEnd := some (p.now + 1100000)
            lossDeadline := some (p.now + 2000000) } }
        p.rpu.fault [(if state = p.mtu.syncState then .syncPulse else .syncPresent, 0)]) ∧
    (∀ t, p.mtu.syncState = .present → p.mtu.lossDeadline = some t → 0 ≤ (p.now - t).toInt →
      releases .syncLost { p with mtu := { p.mtu with syncState := .absent, lossDeadline := none } }
        (p.rpu.fault.after .syncLost 0 0 p.now) [(.fault .syncLost, 0), (.syncLost, 0)])

/-- R15: a host read of time word 0 takes machine time into the latch and returns its low word; reads of words 1 and 2
return the latch's other words; before READY it returns 0 and loads nothing; writes to the time words are discarded. -/
def Obligations.SnapshotHoldsTheTime : Prop :=
  ∀ (p : Part) (w : List Instr),
    (p.rpu.phase ≠ .startingUp → Leads .timeSnapshotRead ⟨p, w⟩ fun q =>
      q = { p with mtu := { p.mtu with latch := p.now }, rpu := { p.rpu with busData := p.now.extractLsb' 0 16 } } ∧
      q.registerRead 6 = p.now.extractLsb' 16 16 ∧ q.registerRead 7 = p.now.extractLsb' 32 16) ∧
    (p.rpu.phase = .startingUp → Leads .timeSnapshotRead ⟨p, w⟩ fun q =>
      q = { p with rpu := { p.rpu with busData := 0 } } ∧ q.registerRead 6 = 0 ∧ q.registerRead 7 = 0) ∧
    (∀ (register : Fin 8) (value : Half), 5 ≤ register.val →
      Leads (.registerWriteDiscarded register value) ⟨p, w⟩ fun q => q = p) ∧
    (∀ pins : Pins, (Part.powerOn pins).mtu.latch = 0)

/-! ## 2. Conveyor position and pace -/

/-- R19 to R21: the encoder pair. The first pair and a pair unchanged are only held; a change of both lines leaves
position alone, is counted and told, and the new pair is the decoder state. A backward count moves position back and
deepens the depth, up to 2^31 − 1, where high-water goes back with position. The depth first beyond the tolerance
begins an excursion: counted, reported, told, and CRAWL is entered. -/
def Obligations.EncoderPairIsDecoded : Prop :=
  (∀ (p : Part) (w : List Instr) (a b infeed : Bool) (choices : List Nat),
    let held : Cvt := { p.cvt with decoder := some (a, b), infeed := infeed }
    (p.cvt.decoder = none ∨ p.cvt.decoder = some (a, b) →
      Leads (.encoderCount a b infeed choices) ⟨p, w⟩ fun q => q = { p with cvt := held }) ∧
    (p.cvt.decoder = some (!a, !b) →
      Leads (.encoderCount a b infeed choices) ⟨p, w⟩ fun q =>
        q.cvt = { held with encoderErrors := min 65535 (p.cvt.encoderErrors + 1) } ∧
        q = { p with cvt := q.cvt, rpu := q.rpu, mem := q.mem } ∧ p.tells q [(.encoderError, 0)] ∧ q.mirrored .cvt ∧
        Memory.storesOnly p.mem q.mem [.bulletin 1, .mirror .cvt])) ∧
  (∀ (p : Part) (w : List Instr) (was pair : Bool × Bool) (infeed : Bool) (choices : List Nat),
    p.cvt.decoder = some was → forwardCount pair was →
    let deepest := p.cvt.depth = 2 ^ 31 - 1
    let depth := if deepest then p.cvt.depth else p.cvt.depth + 1
    let moved : Cvt := { p.cvt with
      decoder := some pair, infeed := infeed, position := p.cvt.position - 1, depth := depth
      highWater := if deepest then p.cvt.highWater - 1 else p.cvt.highWater }
    p.cvt.depth ≤ 2 ^ 31 - 1 →
    (depth ≤ p.tolerance ∨ p.cvt.excursion = true →
      Leads (.encoderCount pair.1 pair.2 infeed choices) ⟨p, w⟩ fun q => q = { p with cvt := moved }) ∧
    (p.tolerance < depth → p.cvt.excursion = false →
      Leads (.encoderCount pair.1 pair.2 infeed choices) ⟨p, w⟩ fun q =>
        q.cvt = { moved with excursion := true, reverseExcursions := min 65535 (p.cvt.reverseExcursions + 1)
                             marks := [], pace := 0, paceState := .crawl } ∧
        q.rpu.fault = p.rpu.fault.after .encoderReverse 0 0 p.now ∧
        (p.cvt.paceState ≠ .timed →
          q = { p with cvt := q.cvt, rpu := q.rpu, mem := q.mem } ∧
          p.tellsFault q .encoderReverse 0 0 [(.reverse, 0)] ∧ q.mirrored .cvt ∧
          Memory.storesOnly p.mem q.mem [.fault, .bulletin 9, .bulletin 1, .mirror .cvt])))

/-- R20, R21, R23: a forward count at a depth reduces the depth and leaves high-water; the count that brings the depth
to 0 ends an excursion. At depth 0 it is a high-water advance: high-water and the pitch phase move with position; where
the advance reaches no station, no watch, no sample and no mark, nothing else changes. -/
def Obligations.ForwardCountAdvances : Prop :=
  ∀ (p : Part) (w : List Instr) (was pair : Bool × Bool) (infeed : Bool) (choices : List Nat),
    p.cvt.decoder = some was → forwardCount was pair →
    let moved : Cvt := { p.cvt with decoder := some pair, infeed := infeed, position := p.cvt.position + 1 }
    let advanced : Cvt := { moved with highWater := p.cvt.highWater + 1 }
    (1 < p.cvt.depth ∨ (p.cvt.depth = 1 ∧ p.cvt.excursion = false) →
      Leads (.encoderCount pair.1 pair.2 infeed choices) ⟨p, w⟩ fun q =>
        q = { p with cvt := { moved with depth := p.cvt.depth - 1 } }) ∧
    (p.cvt.depth = 1 → p.cvt.excursion = true →
      Leads (.encoderCount pair.1 pair.2 infeed choices) ⟨p, w⟩ fun q =>
        q.cvt = { moved with depth := 0, excursion := false } ∧
        q = { p with cvt := q.cvt, rpu := q.rpu, mem := q.mem } ∧ p.tells q [(.reverseEnd, 0)] ∧ q.mirrored .cvt ∧
        Memory.storesOnly p.mem q.mem [.bulletin 1, .mirror .cvt]) ∧
    (p.cvt.depth = 0 → p.cvt.profile = none →
      Leads (.encoderCount pair.1 pair.2 infeed choices) ⟨p, w⟩ fun q => q = { p with cvt := advanced }) ∧
    (∀ f, p.cvt.depth = 0 → p.cvt.profile = some f →
      let phase := if p.cvt.phase + 1 < f.pitch then p.cvt.phase + 1 else 0
      Leads (.encoderCount pair.1 pair.2 infeed choices) ⟨p, w⟩ fun q =>
        q.cvt.position = p.cvt.position + 1 ∧ q.cvt.highWater = p.cvt.highWater + 1 ∧ q.cvt.depth = 0 ∧
        q.cvt.phase = phase ∧ q.cvt.profile = some f ∧
        ((∀ r ∈ p.trl.records, ∀ s ∈ r.stations, ¬ Position.reached (f.stationOf r s) (p.cvt.highWater + 1) = true) →
          (∀ x ∈ p.cvt.watches, ¬ Position.reached x.target (p.cvt.highWater + 1) = true) →
          phase ≠ f.samplePhase → p.cvt.markCount + 1 < f.spacing →
          q = { p with cvt := { advanced with phase := phase, markCount := p.cvt.markCount + 1 } }))

/-- R30, R32, R33: the advance that brings the mark count to M takes a mark, here with nothing else due on it and no
fire or pulse pending (NewPaceReachesFires has them): CRAWL goes to WARMING, two marks stay WARMING, and from three on
the pace of the window makes the state TIMED, told PACE_TIMED where it was not, or beyond the limit sends the tracker
to CRAWL, told PACE_CRAWL where it was TIMED. (The merge counter within its 32 bits: EveryStepKeepsTheBoard.) -/
def Obligations.MarksGiveThePace : Prop :=
  ∀ (p : Part) (w : List Instr) (f : Profile) (was pair : Bool × Bool) (infeed : Bool) (choices : List Nat),
    p.cvt.decoder = some was → forwardCount was pair → p.cvt.depth = 0 → p.cvt.profile = some f →
    p.trl.records = [] → p.cvt.watches = [] → p.rej.schedule = [] → (∀ c : Fin 6, p.ctu.cameras[c].schedule = []) →
    p.mergesFit → f.spacing ≤ p.cvt.markCount + 1 →
    (if p.cvt.phase + 1 < f.pitch then p.cvt.phase + 1 else 0) ≠ f.samplePhase →
    let marks := p.cvt.marks.drop (p.cvt.marks.length - 8) ++ [⟨p.now, p.cvt.highWater + 1⟩]
    let span := (p.now - (marks.headD ⟨p.now, 0⟩).stamp).toNat
    let pace := max 1 (span * 65536 / ((marks.length - 1) * f.spacing))
    p.cvt.marks.length ≤ 9 →
    Leads (.encoderCount pair.1 pair.2 infeed choices) ⟨p, w⟩ fun q =>
      let tells (l : Tidings) := p.tells q l ∧ q.mirrored .cvt ∧
        Memory.storesOnly p.mem q.mem [.bulletin 1, .mirror .cvt, .mirror .rej]
      q.cvt.markCount = 0 ∧ q.cvt.highWater = p.cvt.highWater + 1 ∧
      q = { p with cvt := q.cvt, rpu := q.rpu, mem := q.mem } ∧
      (p.cvt.paceState = .crawl →
        q.cvt.marks = marks ∧ q.cvt.paceState = .warming ∧ q.cvt.pace = p.cvt.pace ∧ tells []) ∧
      (p.cvt.paceState = .warming → marks.length < 3 →
        q.cvt.marks = marks ∧ q.cvt.paceState = .warming ∧ q.cvt.pace = p.cvt.pace ∧ tells []) ∧
      (p.cvt.paceState = .timed ∨ p.cvt.paceState = .warming ∧ 3 ≤ marks.length →
        (pace ≤ 4294967295 ∧ pace ≤ f.crawlLimit →
          q.cvt.marks = marks ∧ q.cvt.paceState = .timed ∧ q.cvt.pace = pace ∧
          tells (if p.cvt.paceState = .timed then [] else [(.paceTimed, 0)])) ∧
        (¬ (pace ≤ 4294967295 ∧ pace ≤ f.crawlLimit) →
          q.cvt.marks = [] ∧ q.cvt.paceState = .crawl ∧ q.cvt.pace = 0 ∧
          tells (if p.cvt.paceState = .timed then [(.paceCrawl, 0)] else [])))

/-- R34, R36, R97, R114, R117: the mark of an advance gives a pace within the limit, nothing else being due: every
pending fire and pulse is projected afresh. A camera that fires takes the new times, and the oldest fire whose time is
reached falls due; one in SERVICE keeps its fires. Each pulse starts by its oldest member and ends by its newest; one
that starts at or before the end of the pulse before it, or of the output, merges, and one whose start is reached
starts. (The model's choices: a fire marked due keeps its mark while its time is replaced, log 24; one whose target is
reached keeps its time, log 33. The merge counter within its 32 bits: EveryStepKeepsTheBoard.) -/
def Obligations.NewPaceReachesFires : Prop :=
  ∀ (p : Part) (w : List Instr) (f : Profile) (was pair : Bool × Bool) (infeed : Bool) (choices : List Nat),
    p.advances f was pair infeed .mark → p.cvt.marks.length ≤ 9 → p.mergesFit →
    let marks := p.cvt.marks.drop (p.cvt.marks.length - 8) ++ [⟨p.now, p.cvt.highWater + 1⟩]
    let span := (p.now - (marks.headD ⟨p.now, 0⟩).stamp).toNat
    let pace := max 1 (span * 65536 / ((marks.length - 1) * f.spacing))
    p.cvt.paceState = .timed ∨ p.cvt.paceState = .warming ∧ 3 ≤ marks.length →
    pace ≤ 4294967295 → pace ≤ f.crawlLimit →
    let count := Instr.encoderCount pair.1 pair.2 infeed choices
    let d := p.counted f pair infeed
    let c : Part := { d with cvt := { d.cvt with marks := marks, pace := pace, paceState := .timed } }
    let fires (m : Fin 6) := p.cameraState m = .active ∨ p.cameraState m = .degraded
    let time (m : Fin 6) (x : Fire) : Option Time := (p.record x.seq).bind fun r =>
      let target := r.entryPos + counts f.cameras[m].station
      if 0 < (target - c.cvt.highWater).toInt then
        some (c.etaOf pace target - BitVec.ofNat 48 f.cameras[m].lead) else none
    let start (seq : Word) : Time := match p.record seq with
      | some r => c.etaOf pace (r.entryPos + counts f.ejector) - BitVec.ofNat 48 f.ejectLead
      | none => 0
    let timesOf (u : Pulse) : PulseTimes :=
      ⟨start (u.members.headD 0), start (u.members.getLastD 0) + BitVec.ofNat 48 f.ejectWidth⟩
    let joins (t : Time) (u : Pulse) := ¬ 0 < ((timesOf u).start - t).toInt
    let reached (t : Time) := 0 ≤ (p.now - t).toInt
    let quiet := ∀ m x t, fires m → x ∈ p.ctu.cameras[m].schedule → time m x = some t → ¬ reached t
    let known := ∀ u ∈ p.rej.schedule, u.members ≠ [] ∧ ∀ seq ∈ u.members, ∃ r, p.record seq = some r ∧
      0 < (r.entryPos + counts f.ejector - c.cvt.highWater).toInt
    let merged (n : Nat) := { p.rej.counters with merges := min 4294967295 (p.rej.counters.merges + n) }
    (quiet → (∀ m : Fin 6, (p.ctu.cameras[m].schedule.map (·.seq)).Nodup) → known →
      (∀ u ∈ p.rej.schedule, ¬ reached (timesOf u).start) →
      (∀ before u v after, p.rej.schedule = before ++ u :: v :: after → ¬ joins (timesOf u).ending v) →
      (∀ u after o, p.rej.schedule = u :: after → p.rej.output = some o → ¬ joins o.ending u) →
      Leads count ⟨p, w⟩ fun q =>
        q.ctu = { p.ctu with cameras := Vector.ofFn fun m : Fin 6 =>
          let k := p.ctu.cameras[m]
          if (fires m) then { k with schedule := k.schedule.map fun x =>
            { x with time := if (time m x).isSome then time m x else x.time } }
          else k } ∧
        q.rej = { p.rej with schedule := p.rej.schedule.map fun u => { u with times := some (timesOf u) } } ∧
        q = { c with ctu := q.ctu, rej := q.rej, rpu := q.rpu, mem := q.mem } ∧
        p.tells q (if p.cvt.paceState = .timed then [] else [(.paceTimed, 0)]) ∧ q.mirrored .cvt ∧ q.mirrored .rej ∧
        Memory.storesOnly p.mem q.mem [.bulletin 1, .mirror .cvt, .mirror .rej]) ∧
    (∀ (m : Fin 6) (x : Fire) (t : Time), fires m → p.ctu.cameras[m].schedule = [x] → time m x = some t → reached t →
      let k := p.ctu.cameras[m]
      let s := f.cameras[m]
      Leads count ⟨p, w⟩ fun q =>
        (k.pulse = none → q.ctu.cameras[m].schedule = [] ∧ q.ctu.cameras[m].lastTag = x.seq.setWidth 5 ∧
          q.ctu.cameras[m].pulse = some ⟨p.now + BitVec.ofNat 48 s.width, !s.activeLow⟩ ∧
          q.ctu.cameras[m].counters.triggers = up k.counters.triggers) ∧
        (k.pulse ≠ none → q.ctu = q.ctu.put m { k with schedule := [⟨x.seq, some t, true⟩] })) ∧
    (∀ u v, known → p.rej.schedule = [u, v] → p.rej.output = none → joins (timesOf u).ending v →
      ¬ reached (timesOf u).start → ¬ reached (timesOf v).start → Leads count ⟨p, w⟩ fun q =>
        q.rej = { p.rej with
          schedule := [⟨u.members ++ v.members, some
            ⟨earliest (timesOf u).start (timesOf v).start, latest (timesOf u).ending (timesOf v).ending⟩⟩]
          counters := merged 1 }) ∧
    (∀ u o, known → p.rej.schedule = [u] → p.rej.output = some o → joins o.ending u → p.confirming = true →
      p.rej.confirm.length + u.members.length ≤ 8 → Leads count ⟨p, w⟩ fun q =>
        q.rej = { p.rej with
          schedule := [], output := some { o with ending := latest o.ending (timesOf u).ending }
          confirm := p.rej.confirm ++ u.members, counters := merged 1 } ∧
        (quiet → q.trl = c.trl.fired u.members)) ∧
    (∀ u, known → p.rej.schedule = [u] → p.rej.output = none → reached (timesOf u).start → p.confirming = true →
      p.rej.confirm.length + u.members.length ≤ 8 → Leads count ⟨p, w⟩ fun q =>
        q.rej = { ({ p.rej with schedule := [] } : Rej).driven (timesOf u).ending f.ejectActiveLow with
          confirm := p.rej.confirm ++ u.members } ∧
        (quiet → q.trl = c.trl.fired u.members))

/-- R31, R38, R115: the mark timeout. Machine time past the newest stamp by more than floor(M × C_lim / 65,536) enters
CRAWL: the window is emptied, the pace is 0; from TIMED the loss of pace is told, every fire waits for its position,
one marked due keeping its mark (the model's choice, log 24), and every timed pulse becomes one by position for each
member. Otherwise nothing happens. -/
def Obligations.MarkTimeoutEntersCrawl : Prop :=
  ∀ (p : Part) (w : List Instr) (f : Profile) (m : Mark), p.cvt.profile = some f → p.cvt.marks.getLast? = some m →
    ((p.now - m.stamp).toInt ≤ (f.spacing * f.crawlLimit / 65536 : Nat) → Leads .markTimeout ⟨p, w⟩ fun q => q = p) ∧
    ((f.spacing * f.crawlLimit / 65536 : Nat) < (p.now - m.stamp).toInt →
      Leads .markTimeout ⟨p, w⟩ fun q =>
        q.cvt = { p.cvt with marks := [], pace := 0, paceState := .crawl } ∧ q.mirrored .cvt ∧
        (p.cvt.paceState ≠ .timed → q = { p with cvt := q.cvt, rpu := q.rpu, mem := q.mem } ∧ p.tells q [] ∧
          Memory.storesOnly p.mem q.mem [.mirror .cvt]) ∧
        (p.cvt.paceState = .timed →
          q = { p with cvt := q.cvt, ctu := q.ctu, rej := q.rej, rpu := q.rpu, mem := q.mem } ∧
          q.ctu.cameras = p.ctu.cameras.map (fun k =>
            { k with schedule := k.schedule.map fun x => { x with time := none } }) ∧
          q.rej = { p.rej with
            schedule := (p.rej.schedule.flatMap (·.members)).map fun seq => { members := [seq], times := none } } ∧
          p.tells q [(.paceCrawl, 0)] ∧
          Memory.storesOnly p.mem q.mem [.bulletin 1, .mirror .rej, .mirror .cvt]))

/-- R26, R27: LINE_START and LINE_STOP. READY starts; DRAINING starts and ends the held LINE_STOP with SUPERSEDED;
UNPROFILED and TRACKING refuse a start with STATE. A stop in TRACKING with an empty list stops the line at once, with
no bulletin told (the model's choice, log 32); with records it drains, the cell held TAKEN; any other state refuses it
with STATE. -/
def Obligations.LineStartsAndStops : Prop :=
  (∀ (p : Part) (w : List Instr) (cell : Fin 48), p.canTake cell .lineStart →
    (p.cvt.tracker = .ready → Leads (.lineStart cell) ⟨p, w⟩ fun q =>
      q.cvt = { p.cvt with tracker := .tracking } ∧
      q = { p with cvt := q.cvt, odk := q.odk, rpu := q.rpu, mem := q.mem } ∧ p.answers q cell .ok ∧
      p.tells q [(.started, 0)] ∧ q.mirrored .cvt ∧
      Memory.storesOnly p.mem q.mem [.cell cell, .bulletin 1, .mirror .cvt, .mirror .odk]) ∧
    (∀ e : InFlight, p.cvt.tracker = .draining → p.cvt.drainOrder = some e.ref → p.odk.holds e →
      Leads (.lineStart cell) ⟨p, w⟩ fun q =>
        q.cvt = { p.cvt with tracker := .tracking, drainOrder := none } ∧
        q = { p with cvt := q.cvt, odk := q.odk, rpu := q.rpu, mem := q.mem } ∧
        p.answersAmong q cell ⟨.ok, 0⟩ (p.odk.without e.ref) ∧ q.shows e .superseded ∧
        p.tells q [e.told, (.started, 0)] ∧
        Memory.storesOnly p.mem q.mem
          [.cell cell, .cell e.ref.cell, .bulletin 0, .bulletin 1, .mirror .cvt, .mirror .odk]) ∧
    (p.cvt.tracker = .unprofiled ∨ p.cvt.tracker = .tracking →
      Leads (.lineStart cell) ⟨p, w⟩ fun q => p.onlyAnswers q cell .state)) ∧
  (∀ (p : Part) (w : List Instr) (cell : Fin 48), p.canTake cell .lineStop →
    (p.cvt.tracker = .tracking → p.trl.records = [] →
      Leads (.lineStop cell) ⟨p, w⟩ fun q =>
        q.cvt = { p.cvt with tracker := .ready } ∧
        (p.rbp.pendingRotation = none → (∀ r : Fin 6, p.rbp.robots[r].pendingWindow = none) →
          q = { p with cvt := q.cvt, odk := q.odk, rpu := q.rpu, mem := q.mem } ∧ p.answers q cell .ok ∧
          p.tells q [] ∧ q.mirrored .cvt ∧ Memory.storesOnly p.mem q.mem [.cell cell, .mirror .cvt, .mirror .odk])) ∧
    (p.cvt.tracker = .tracking → p.trl.records ≠ [] →
      Leads (.lineStop cell) ⟨p, w⟩ fun q =>
        q.cvt = { p.cvt with tracker := .draining, drainOrder := some (p.nextRef cell) } ∧
        q = { p with cvt := q.cvt, odk := q.odk, rpu := q.rpu, mem := q.mem } ∧ p.keeps q cell ∧
        p.tells q [(.draining, 0)] ∧
        Memory.storesOnly p.mem q.mem [.cell cell, .bulletin 1, .mirror .cvt, .mirror .odk]) ∧
    (p.cvt.tracker ≠ .tracking → Leads (.lineStop cell) ⟨p, w⟩ fun q => p.onlyAnswers q cell .state))

/-! ## 3. The transit list -/

/-- R24, R44, R45, R58, R75, R76, R96, R60: the advance that brings the phase to the sample phase, with nothing else due
on it. A gap only rewrites the mirror record. In READY and DRAINING a container present is counted untracked; in
TRACKING it is admitted, with the slot and robot of the rotation, a wrap adopting a pending rotation, and a fire for
each present camera, at its projection or by position; one whose time is reached falls due at once. A record of robot
NONE is UNFILLED, after the list's mirror record has shown it PENDING. With the admitted counter full it is turned away.
(A search under skip-halted that adopts a rotation at its wrap goes on as a search, whatever that rotation's own flag
says: the model's choice, log 22.) -/
def Obligations.SamplesAreTaken : Prop :=
  ∀ (p : Part) (w : List Instr) (f : Profile) (was pair : Bool × Bool) (infeed : Bool) (choices : List Nat),
    p.advances f was pair infeed .sample →
    let c := p.counted f pair infeed
    let count := Instr.encoderCount pair.1 pair.2 infeed choices
    let passesBy (q : Part) (news : News) :=
      q = { c with trl := { c.trl with untracked := up c.trl.untracked }, rpu := q.rpu, mem := q.mem } ∧
      p.tells q [(news, 0)] ∧ q.mirrored .trl ∧ q.mirrored .cvt ∧
      Memory.storesOnly p.mem q.mem [.bulletin 1, .mirror .trl, .mirror .cvt]
    (infeed = false ∨ p.cvt.tracker = .unprofiled → Leads count ⟨p, w⟩ fun q =>
      q = { c with rpu := q.rpu, mem := q.mem } ∧ p.tells q [] ∧ q.mirrored .cvt ∧
      Memory.storesOnly p.mem q.mem [.mirror .cvt]) ∧
    (infeed = true → p.cvt.tracker = .ready ∨ p.cvt.tracker = .draining → Leads count ⟨p, w⟩ fun q =>
      passesBy q .untracked) ∧
    (infeed = true → p.cvt.tracker = .tracking → p.trl.admitted = 4294967295 → Leads count ⟨p, w⟩ fun q =>
      passesBy q .countersFull) ∧
    (infeed = true → p.cvt.tracker = .tracking → p.trl.admitted < 4294967295 → f.stationsAhead →
      (∀ x ∈ p.trl.records, x.seq ≠ p.trl.nextSeq) →
      (∀ m : Fin 6, ∀ x ∈ p.ctu.cameras[m].schedule, x.seq ≠ p.trl.nextSeq) →
      p.rbp.cursor < p.rbp.rotation.slots.length → p.rbp.rotation.slots.length ≤ 12 →
      (∀ x, p.rbp.pendingRotation = some x → 1 ≤ x.rotation.slots.length ∧ x.rotation.slots.length ≤ 12) →
      let seq := p.trl.nextSeq
      let entry := p.cvt.highWater + 1
      let present (m : Fin 6) := f.cameras[m].present = true
      let fires (m : Fin 6) := p.cameraState m = .active ∨ p.cameraState m = .degraded
      let time (m : Fin 6) := if (fires m) then
          (c.project (entry + counts f.cameras[m].station)).map (· - BitVec.ofNat 48 f.cameras[m].lead)
        else none
      (∀ (slot : Nat) (robot : Option (Fin 6)) (b : Rbp), p.rbp.assigns slot robot b →
        (∀ (m : Fin 6) (t : Time), present m → time m = some t → (p.now - t).toInt < 0) →
        let r : Record :=
          { seq := seq, entryPos := entry, entryTime := p.now, slot := slot, robot := robot
            fill := if robot = none then .unfilled else .pending
            views := Vector.ofFn fun m : Fin 6 => if (present m) then some ⟨.notYet, none⟩ else none
            marked := false, stepped := false, decision := .undecided
            causes := ⟨false, false, false, false, false, false⟩, eject := .none
            stations := (if robot = none then [] else [.robot]) ++
              ((sixes.filter fun m => present m).map Station.camera ++ [.decision, .ejector, .confirmEnd]) }
        Leads count ⟨p, w⟩ fun q =>
          q.trl = { p.trl with
            records := p.trl.records ++ [r], nextSeq := if seq = 4294967295 then 1 else seq + 1
            admitted := p.trl.admitted + 1 } ∧
          q.rbp = b ∧
          q.ctu = { p.ctu with cameras := Vector.ofFn fun m : Fin 6 =>
            let k := p.ctu.cameras[m]
            if (present m) then { k with schedule := k.schedule ++ [⟨seq, time m, false⟩] } else k } ∧
          q = { c with trl := q.trl, rbp := q.rbp, ctu := q.ctu, odk := q.odk, rpu := q.rpu, mem := q.mem } ∧
          ({ q with trl := { q.trl with records := p.trl.records ++ [{ r with fill := .pending }] } } :
            Part).mirrored .trl ∧ q.mirrored .rbp ∧ q.mirrored .cvt ∧
          (p.rbp.pendingRotation = b.pendingRotation → q.odk = p.odk ∧ p.tells q [] ∧
            Memory.storesOnly p.mem q.mem [.mirror .trl, .mirror .rbp, .mirror .cvt]) ∧
          (∀ (x : PendingRotation) (e : InFlight), p.rbp.pendingRotation = some x → b.pendingRotation = none →
            x.ref = e.ref → p.odk.holds e →
            p.concludes q e .ok ∧ p.tells q [e.told, (.rotationAdopted, 0)] ∧
            Memory.storesOnly p.mem q.mem
              [.cell e.ref.cell, .bulletin 0, .bulletin 2, .mirror .odk, .mirror .trl, .mirror .rbp,
               .mirror .cvt])) ∧
      (∀ (m : Fin 6) (t : Time), present m → time m = some t → 0 ≤ (p.now - t).toInt →
        p.ctu.cameras[m].schedule = [] → Leads count ⟨p, w⟩ fun q =>
          let k := p.ctu.cameras[m]
          let s := f.cameras[m]
          (k.pulse = none → q.ctu.cameras[m].schedule = [] ∧ q.ctu.cameras[m].lastTag = seq.setWidth 5 ∧
            q.ctu.cameras[m].pulse = some ⟨p.now + BitVec.ofNat 48 s.width, !s.activeLow⟩ ∧
            q.ctu.cameras[m].counters.triggers = up k.counters.triggers) ∧
          (k.pulse ≠ none → q.ctu = q.ctu.put m { k with schedule := [⟨seq, some t, true⟩] })))

/-- R47 to R49, R60, R103, R84: a record reaches its decision point, nothing else being due on the advance. Its evidence
is closed at each present camera and at its robot, its causes are composed, and it is PASS where they are empty, else
REJECT, SCHEDULED, with a pulse by position while the tracker is not TIMED (a TIMED reject is RejectsAreTaken's). A
missed run or a failure run that the closing brings to its threshold degrades the camera, halts the robot. The list's
mirror record shows the decision with the eject state as it was (R60). A record already decided is left alone. (The
robot's fill window whose closing watch the decision cancels stands open: the model's choice, log 23.) -/
def Obligations.DecisionIsComposed : Prop :=
  ∀ (p : Part) (w : List Instr) (f : Profile) (was pair : Bool × Bool) (infeed : Bool) (choices : List Nat)
    (r : Record), p.arrives f was pair infeed r .decision →
    let c := (p.counted f pair infeed).past r.seq .decision
    let count := Instr.encoderCount pair.1 pair.2 infeed choices
    let closed := ({ r with stations := r.stations.filter (· != .decision) } : Record).closed
    let causes := closed.causesUnder f
    let passes := causes = ⟨false, false, false, false, false, false⟩
    let decided (eject : EjectState) := c.trl.each fun x => if x.seq = r.seq then
        { closed with decision := if passes then .pass else .reject, causes := causes, eject := eject }
      else x
    let missed (m : Fin 6) := min 255 (p.ctu.cameras[m].missedRun + 1)
    let run (i : Fin 6) := min 255 (p.rbp.robots[i].failureRun + 1)
    let awaited (m : Fin 6) := f.cameras[m].present = true ∧ r.seq ∈ p.ctu.cameras[m].awaiting
    let unreported (i : Fin 6) := r.fill = .pending ∧ r.robot = some i
    (r.decision ≠ .undecided → Leads count ⟨p, w⟩ fun q => q = c) ∧
    (r.decision = .undecided → passes ∨ p.cvt.paceState ≠ .timed →
      (∀ m, awaited m → f.cameras[m].threshold = 0 ∨ missed m ≠ f.cameras[m].threshold) →
      (∀ i, unreported i → f.robots[i].threshold = 0 ∨ run i ≠ f.robots[i].threshold) →
      Leads count ⟨p, w⟩ fun q =>
        q.trl = decided (if passes then r.eject else .scheduled) ∧
        q.ctu = { p.ctu with cameras := Vector.ofFn fun m : Fin 6 =>
          if f.cameras[m].present = true then p.ctu.cameras[m].closing r m else p.ctu.cameras[m] } ∧
        q.rbp = { p.rbp with robots := Vector.ofFn fun i : Fin 6 =>
          let k := p.rbp.robots[i]
          if (unreported i) then { k with
            reportList := k.reportList.filter (· != r.seq), failureRun := run i
            counters := { k.counters with noReport := up k.counters.noReport } }
          else k } ∧
        q.cvt = { c.cvt with watches := p.cvt.watches.filter fun x =>
          ¬ (r.fill = .pending ∧ r.robot = some x.robot ∧ x.seq = r.seq) } ∧
        q.rej = (if passes then p.rej else
          { p.rej with schedule := p.rej.schedule ++ [{ members := [r.seq], times := none }] }) ∧
        q = { c with trl := q.trl, ctu := q.ctu, rbp := q.rbp, cvt := q.cvt, rej := q.rej, rpu := q.rpu
                     mem := q.mem } ∧
        p.tells q [] ∧ ({ q with trl := decided r.eject } : Part).mirrored .trl ∧ (¬ passes → q.mirrored .rej) ∧
        Memory.storesOnly p.mem q.mem [.mirror .ctu, .mirror .rbp, .mirror .trl, .mirror .rej]) ∧
    (∀ m, r.decision = .undecided → awaited m → p.cameraState m = .active → f.cameras[m].threshold ≠ 0 →
      missed m = f.cameras[m].threshold → Leads count ⟨p, w⟩ fun q =>
        q.ctu.cameras[m].degraded = true ∧ q.ctu.cameras[m].degradeCause = some .missedVerdicts ∧
        q.ctu.cameras[m].missedRun = 0 ∧ q.ctu.cameras[m].awaiting = []) ∧
    (∀ i, r.decision = .undecided → unreported i → f.robots[i].threshold ≠ 0 → run i = f.robots[i].threshold →
      p.rbp.robots[i].runReq = true → p.rbp.robots[i].pins.haltAck = false → p.rbp.robots[i].pendingWindow = none →
      Leads count ⟨p, w⟩ fun q =>
        q.rbp.robots[i].state = .halting ∧ q.rbp.robots[i].haltOrigin = some .fillFailures ∧
        q.rbp.robots[i].failureRun = 0)

/-- R113, R117: a REJECT container handed over while the tracker is TIMED, at its decision point, its evidence final and
nothing else due on the advance. Its own pulse would start at the projected arrival less the lead. Past the end of the
last pulse it joins the schedule, and starts at once where its start is reached; at or before that end it merges, into
the newest pending pulse, or with none pending into the output, and is then FIRED. -/
def Obligations.RejectsAreTaken : Prop :=
  ∀ (p : Part) (w : List Instr) (f : Profile) (was pair : Bool × Bool) (infeed : Bool) (choices : List Nat)
    (r : Record) (mark : Mark), p.arrives f was pair infeed r .decision → r.decision = .undecided →
    r.fill ≠ .pending → r.marked = true ∨ r.fill ≠ .ok →
    (∀ m : Fin 6, r.views[m].map (·.verdict) ≠ some .notYet ∧ r.views[m].map (·.verdict) ≠ some .triggered ∧
      r.seq ∉ p.ctu.cameras[m].awaiting ∧ r.seq ∉ p.ctu.cameras[m].schedule.map (·.seq)) →
    p.cvt.paceState = .timed → p.cvt.marks.getLast? = some mark →
    let c := (p.counted f pair infeed).past r.seq .decision
    let count := Instr.encoderCount pair.1 pair.2 infeed choices
    let distance := (r.entryPos + counts f.ejector - mark.pos).toInt
    0 < distance →
    let start := mark.stamp + BitVec.ofNat 48 ((distance.toNat * p.cvt.pace + 32768) / 65536) -
      BitVec.ofNat 48 f.ejectLead
    let ending := start + BitVec.ofNat 48 f.ejectWidth
    let past (t : Time) := 0 < (start - t).toInt
    let reached := 0 ≤ (p.now - start).toInt
    let decided (eject : EjectState) := c.trl.each fun x =>
      if x.seq = r.seq then { x with decision := .reject, causes := r.causesUnder f, eject := eject } else x
    let takes (q : Part) (rej : Rej) (eject : EjectState) :=
      q.rej = rej ∧ q.trl = decided eject ∧ q = { c with trl := q.trl, rej := q.rej, rpu := q.rpu, mem := q.mem } ∧
      p.tells q [] ∧ ({ q with trl := decided r.eject } : Part).mirrored .trl ∧ q.mirrored .rej ∧
      Memory.storesOnly p.mem q.mem [.mirror .trl, .mirror .rej]
    (∀ before u t, p.rej.schedule = before ++ [u] → u.times = some t → ¬ past t.ending → Leads count ⟨p, w⟩ fun q =>
      takes q { p.rej with
        schedule := before ++ [⟨u.members ++ [r.seq], some ⟨earliest t.start start, latest t.ending ending⟩⟩]
        counters := { p.rej.counters with merges := up p.rej.counters.merges } } .scheduled) ∧
    (∀ o, p.rej.schedule = [] → p.rej.output = some o → ¬ past o.ending → Leads count ⟨p, w⟩ fun q =>
      let joined := p.rej.driven ending f.ejectActiveLow
      (p.confirming = false → q.record r.seq = none ∧ q.rej = joined) ∧
      (p.confirming = true → p.rej.confirm.length < 8 →
        takes q { joined with confirm := p.rej.confirm ++ [r.seq] } .fired)) ∧
    ((∀ u, p.rej.schedule.getLast? = some u → ∃ t, u.times = some t ∧ past t.ending) →
      (∀ o, p.rej.schedule = [] → p.rej.output = some o → past o.ending) → Leads count ⟨p, w⟩ fun q =>
      (¬ reached → takes q { p.rej with
        schedule := p.rej.schedule ++ [⟨[r.seq], some ⟨start, ending⟩⟩] } .scheduled) ∧
      (reached → ⟨[r.seq], some ⟨start, ending⟩⟩ ∉ p.rej.schedule →
        let joined := p.rej.driven ending f.ejectActiveLow
        (p.confirming = false → q.record r.seq = none ∧ q.rej = joined) ∧
        (p.confirming = true → p.rej.confirm.length < 8 →
          takes q { joined with confirm := p.rej.confirm ++ [r.seq] } .fired)))

/-- R50, R59: MARK_REJECT and COUNTERS_CLEAR. MARK_REJECT marks an UNDECIDED record; a decided or absent one gives
STALE and is left alone. COUNTERS_CLEAR in READY sets every production, cause, encoder, robot, camera and ejector
counter to 0 and leaves the next sequence and the fault record; in any other state it is refused with STATE. -/
def Obligations.MarkRejectAndCountersClear : Prop :=
  (∀ (p : Part) (w : List Instr) (cell : Fin 48) (seq : Word), p.canTake cell (.markReject seq) →
    (∀ r, p.record seq = some r → r.decision = .undecided →
      Leads (.markReject cell seq) ⟨p, w⟩ fun q =>
        q.trl = { p.trl with
          records := p.trl.records.map fun x => if x.seq = seq then { x with marked := true } else x } ∧
        q = { p with trl := q.trl, odk := q.odk, rpu := q.rpu, mem := q.mem } ∧ p.answers q cell .ok ∧ p.tells q [] ∧
        Memory.storesOnly p.mem q.mem [.cell cell, .mirror .trl, .mirror .odk]) ∧
    ((∀ r, p.record seq = some r → r.decision ≠ .undecided) →
      Leads (.markReject cell seq) ⟨p, w⟩ fun q => p.onlyAnswers q cell .stale)) ∧
  (∀ (p : Part) (w : List Instr) (cell : Fin 48), p.canTake cell .countersClear →
    (p.cvt.tracker = .ready → Leads (.countersClear cell) ⟨p, w⟩ fun q =>
      q.trl = { p.trl with admitted := 0, passed := 0, rejected := 0, abandoned := 0, untracked := 0
                           causes := ⟨0, 0, 0, 0, 0, 0⟩ } ∧
      q.cvt = { p.cvt with encoderErrors := 0, reverseExcursions := 0 } ∧
      q.rbp = { p.rbp with robots := p.rbp.robots.map fun k => { k with counters := ⟨0, 0, 0, 0, 0, 0⟩ } } ∧
      q.ctu = { p.ctu with cameras := p.ctu.cameras.map fun k => { k with counters := ⟨0, 0, 0, 0, 0, 0, 0, 0⟩ } } ∧
      q.rej = { p.rej with counters := ⟨0, 0, 0, 0, 0, 0, 0⟩ } ∧
      q = { p with trl := q.trl, cvt := q.cvt, rbp := q.rbp, ctu := q.ctu, rej := q.rej, odk := q.odk, rpu := q.rpu
                   mem := q.mem } ∧
      p.answers q cell .ok ∧ p.tells q [(.countersCleared, 0)] ∧
      Memory.storesOnly p.mem q.mem
        [.cell cell, .bulletin 1, .mirror .trl, .mirror .cvt, .mirror .rbp, .mirror .ctu, .mirror .rej, .mirror .odk]) ∧
    (p.cvt.tracker ≠ .ready → Leads (.countersClear cell) ⟨p, w⟩ fun q => p.onlyAnswers q cell .state))

/-! ## 4. The filler robots -/

/-- R65: ROBOT_RUN, its checks in their order, and the start: STARTING with the acknowledge deadline armed and the cell
held, or RUNNING at once where RUN_ACK is already asserted, no COMPLETED being told of an order that ends within its
take (the model's choice, log 16). An index above 5 is refused with PARAM. -/
def Obligations.RobotRunStarts : Prop :=
  ∀ (p : Part) (w : List Instr) (cell : Fin 48) (robot : Byte), p.canTake cell (.robotRun robot) →
    (6 ≤ robot.toNat → Leads (.robotRun cell robot) ⟨p, w⟩ fun q => p.onlyAnswers q cell .param) ∧
    ∀ r : Fin 6, robot.toNat = r.val →
      let k := p.rbp.robots[r]
      (p.cvt.tracker = .unprofiled → Leads (.robotRun cell robot) ⟨p, w⟩ fun q => p.onlyAnswers q cell .state) ∧
      (p.cvt.tracker ≠ .unprofiled → p.held r = true →
        Leads (.robotRun cell robot) ⟨p, w⟩ fun q => p.onlyAnswers q cell .locked) ∧
      (p.cvt.tracker ≠ .unprofiled → p.held r = false →
        k.state ∈ [.starting, .running, .halting, .faulted] ∨ k.pins.fault = true →
        Leads (.robotRun cell robot) ⟨p, w⟩ fun q => p.onlyAnswers q cell .state) ∧
      (∀ f, p.cvt.tracker ≠ .unprofiled → p.cvt.profile = some f → p.held r = false →
        k.state = .stopped ∨ k.state = .halted → k.pins.fault = false →
        Leads (.robotRun cell robot) ⟨p, w⟩ fun q =>
          q.rbp.robots[r] = (if k.pins.runAck then
              { k with state := .running, haltOrigin := none, order := none, deadline := none }
            else
              { k with state := .starting, haltOrigin := none, order := some (p.nextRef cell)
                       deadline := some (p.now + BitVec.ofNat 48 (1000 * f.robots[r].runTimeout)) }) ∧
          q.rbp = p.rbp.put r q.rbp.robots[r] ∧ q.mtu = p.mtu ∧ q.cvt = p.cvt ∧
          (p.unwatched r →
            q = { p with rbp := q.rbp, odk := q.odk, rpu := q.rpu, mem := q.mem } ∧ q.mirrored .rbp ∧
            (k.pins.runAck = false → p.keeps q cell ∧ p.tells q [] ∧
              Memory.storesOnly p.mem q.mem [.cell cell, .mirror .rbp, .mirror .odk]) ∧
            (k.pins.runAck = true → p.answers q cell .ok ∧ p.tells q [(.running, robotMember r)] ∧
              Memory.storesOnly p.mem q.mem [.cell cell, .bulletin 2, .mirror .rbp, .mirror .odk])))

/-- R67, R69: ROBOT_HALT. A STARTING or RUNNING robot begins to halt, or is HALTED at once where HALT_ACK is asserted,
with no COMPLETED told (the model's choice, log 16); the order joins a halt under way; STOPPED and HALTED answer OK,
FAULTED STATE, an index above 5 PARAM. -/
def Obligations.RobotHaltHalts : Prop :=
  ∀ (p : Part) (w : List Instr) (cell : Fin 48) (robot : Byte), p.canTake cell (.robotHalt robot) →
    (6 ≤ robot.toNat → Leads (.robotHalt cell robot) ⟨p, w⟩ fun q => p.onlyAnswers q cell .param) ∧
    ∀ r : Fin 6, robot.toNat = r.val →
      let k := p.rbp.robots[r]
      (k.state = .stopped ∨ k.state = .halted →
        Leads (.robotHalt cell robot) ⟨p, w⟩ fun q => p.onlyAnswers q cell .ok) ∧
      (k.state = .faulted → Leads (.robotHalt cell robot) ⟨p, w⟩ fun q => p.onlyAnswers q cell .state) ∧
      (k.state = .halting → k.order = none → Leads (.robotHalt cell robot) ⟨p, w⟩ fun q =>
        q.rbp = p.rbp.put r { k with order := some (p.nextRef cell) } ∧
        q = { p with rbp := q.rbp, odk := q.odk, rpu := q.rpu, mem := q.mem } ∧ p.keeps q cell ∧ p.tells q [] ∧
        Memory.storesOnly p.mem q.mem [.cell cell, .mirror .rbp, .mirror .odk]) ∧
      (∀ f, p.cvt.profile = some f → k.state = .starting ∨ (k.state = .running ∧ k.pendingWindow = none) →
        Leads (.robotHalt cell robot) ⟨p, w⟩ fun q =>
          let open_ := if k.state = .running then [] else k.openWindows
          q.rbp.robots[r] = (if k.pins.haltAck then
              { k with state := .halted, haltOrigin := some .order, order := none, deadline := none
                       openWindows := open_ }
            else
              { k with state := .halting, haltOrigin := some .order, order := some (p.nextRef cell)
                       deadline := some (p.now + BitVec.ofNat 48 (1000 * f.robots[r].haltTimeout))
                       openWindows := open_ }) ∧
          q.rbp = p.rbp.put r q.rbp.robots[r] ∧ q.mtu = p.mtu ∧ q.cvt = p.cvt ∧
          (p.unwatched r →
            q = { p with rbp := q.rbp, odk := q.odk, rpu := q.rpu, mem := q.mem } ∧ q.mirrored .rbp ∧
            (k.pins.haltAck = false → p.keeps q cell ∧ p.tells q [] ∧
              Memory.storesOnly p.mem q.mem [.cell cell, .mirror .rbp, .mirror .odk]) ∧
            (k.pins.haltAck = true → p.answers q cell .ok ∧ p.tells q [(.halted, robotMember r)] ∧
              Memory.storesOnly p.mem q.mem [.cell cell, .bulletin 2, .mirror .rbp, .mirror .odk])))

/-- R66, R69: the acknowledge a robot waits for. RUN_ACK asserted makes a STARTING robot RUNNING, HALT_ACK asserted a
HALTING robot HALTED: the deadline is disarmed and the order in flight completes with OK. -/
def Obligations.AcknowledgeEndsTheWait : Prop :=
  ∀ (p : Part) (w : List Instr) (r : Fin 6) (c : Instr) (state : RobotState) (pins : RobotPins) (news : News),
    let k := p.rbp.robots[r]
    (c = .runAck r true ∧ k.state = .starting ∧ k.pins.runAck = false ∧ state = .running ∧
        pins = { k.pins with runAck := true } ∧ news = .running) ∨
      (c = .haltAck r true ∧ k.state = .halting ∧ k.pins.haltAck = false ∧ state = .halted ∧
        pins = { k.pins with haltAck := true } ∧ news = .halted) →
    Leads c ⟨p, w⟩ fun q =>
      q.rbp = p.rbp.put r
        { k with state := state, deadline := none, order := none, pins := pins } ∧
      q.mtu = p.mtu ∧ q.cvt = p.cvt ∧
      (p.unwatched r →
        q = { p with rbp := q.rbp, odk := q.odk, rpu := q.rpu, mem := q.mem } ∧ q.mirrored .rbp ∧
        p.endsHandshake q r news .ok)

/-- R66, R69 to R72: what makes a robot FAULTED: an acknowledge deadline reached, an acknowledge lost, FAULT going
active in any state but STOPPED. The cause is recorded, the deadline disarmed, the order in flight fails with the cause
as its detail, the fault is reported and told. A deadline not reached yet does nothing. -/
def Obligations.RobotFaultsAreEntered : Prop :=
  ∀ (p : Part) (w : List Instr) (r : Fin 6) (c : Instr) (pins : RobotPins) (cause : RobotFault),
    let k := p.rbp.robots[r]
    ((∀ t, k.deadline = some t → (p.now - t).toInt < 0) →
      Leads (.runTimeout r) ⟨p, w⟩ (fun q => q = p) ∧ Leads (.haltTimeout r) ⟨p, w⟩ (fun q => q = p)) ∧
    ((k.state = .running → k.pendingWindow = none) →
      (c = .runTimeout r ∧ k.state = .starting ∧ pins = k.pins ∧ cause = .runTimeout ∧
          (∃ t, k.deadline = some t ∧ 0 ≤ (p.now - t).toInt)) ∨
        (c = .haltTimeout r ∧ k.state = .halting ∧ pins = k.pins ∧ cause = .haltTimeout ∧
          (∃ t, k.deadline = some t ∧ 0 ≤ (p.now - t).toInt)) ∨
        (c = .runAck r false ∧ k.state = .running ∧ k.pins.runAck = true ∧
          pins = { k.pins with runAck := false } ∧ cause = .runLost) ∨
        (c = .haltAck r false ∧ k.state = .halted ∧ k.pins.haltAck = true ∧
          pins = { k.pins with haltAck := false } ∧ cause = .haltLost) ∨
        (c = .robotFault r ∧ k.state ≠ .stopped ∧ k.pins.fault = false ∧
          pins = { k.pins with fault := true } ∧ cause = .robotFault) →
      Leads c ⟨p, w⟩ fun q =>
        q.rbp = p.rbp.put r
          { k with state := .faulted, faultCause := some cause, deadline := none, order := none, pins := pins
                   openWindows := if k.state = .running then [] else k.openWindows } ∧
        q.mtu = p.mtu ∧ q.cvt = p.cvt ∧
        (p.unwatched r →
          q = { p with rbp := q.rbp, odk := q.odk, rpu := q.rpu, mem := q.mem } ∧ q.mirrored .rbp ∧
          p.endsInFault q r cause))

/-- R70, R71, R87: ROBOT_INPUT_CHANGE is the change of one of the five lines: the rows of the acknowledges, of FAULT
going active and of the fill strobe are its cases. A change that acts on no state is only held and shown. -/
def Obligations.InputLinesAreSampled : Prop :=
  ∀ (p : Part) (w : List Instr) (r : Fin 6) (level : Bool),
    let k := p.rbp.robots[r]
    exec (.robotInputChange r .runAck level) ⟨p, w⟩ = exec (.runAck r level) ⟨p, w⟩ ∧
    exec (.robotInputChange r .haltAck level) ⟨p, w⟩ = exec (.haltAck r level) ⟨p, w⟩ ∧
    exec (.robotInputChange r .fault true) ⟨p, w⟩ = exec (.robotFault r) ⟨p, w⟩ ∧
    exec (.robotInputChange r .fillOk level) ⟨p, w⟩ = exec (.fillStrobe r level k.pins.fillShort) ⟨p, w⟩ ∧
    exec (.robotInputChange r .fillShort level) ⟨p, w⟩ = exec (.fillStrobe r k.pins.fillOk level) ⟨p, w⟩ ∧
    ∀ (line : RobotLine) (l : Bool),
      (k.pins.with line l = k.pins → Leads (.robotInputChange r line l) ⟨p, w⟩ fun q => q = p) ∧
      (k.pins.with line l ≠ k.pins →
        (line = .runAck ∧ ¬ (k.state = .starting ∧ l = true) ∧ ¬ (k.state = .running ∧ l = false)) ∨
          (line = .haltAck ∧ k.state ∈ [.stopped, .starting, .running]) ∨
          (line = .fault ∧ (l = false ∨ k.state = .stopped)) ∨
          ((line = .fillOk ∨ line = .fillShort) ∧ l = false) →
        Leads (.robotInputChange r line l) ⟨p, w⟩ fun q =>
          q.rbp = p.rbp.put r { k with pins := k.pins.with line l } ∧
          q = { p with rbp := q.rbp, rpu := q.rpu, mem := q.mem } ∧ p.tells q [] ∧ q.mirrored .rbp ∧
          Memory.storesOnly p.mem q.mem [.mirror .rbp])

/-- R73: ROBOT_CLEAR takes a FAULTED robot with FAULT inactive to STOPPED, clearing its cause and its halt origin; any
other robot refuses with STATE, an index above 5 with PARAM. -/
def Obligations.RobotClearClears : Prop :=
  ∀ (p : Part) (w : List Instr) (cell : Fin 48) (robot : Byte), p.canTake cell (.robotClear robot) →
    (6 ≤ robot.toNat → Leads (.robotClear cell robot) ⟨p, w⟩ fun q => p.onlyAnswers q cell .param) ∧
    ∀ r : Fin 6, robot.toNat = r.val →
      let k := p.rbp.robots[r]
      (k.state ≠ .faulted ∨ k.pins.fault = true →
        Leads (.robotClear cell robot) ⟨p, w⟩ fun q => p.onlyAnswers q cell .state) ∧
      (k.state = .faulted → k.pins.fault = false → Leads (.robotClear cell robot) ⟨p, w⟩ fun q =>
        q.rbp = p.rbp.put r
          { k with state := .stopped, faultCause := none, haltOrigin := none } ∧ q.mtu = p.mtu ∧ q.cvt = p.cvt ∧
        (p.unwatched r →
          q = { p with rbp := q.rbp, odk := q.odk, rpu := q.rpu, mem := q.mem } ∧ p.answers q cell .ok ∧
          p.tells q [(.cleared, robotMember r)] ∧ q.mirrored .rbp ∧
          Memory.storesOnly p.mem q.mem [.cell cell, .bulletin 2, .mirror .rbp, .mirror .odk]))

/-- R79 to R82, R84, R85: a robot's station arrival and its fill watches, each alone on its advance. The arrival adopts
the robot's pending window; with the robot not RUNNING or a zero window the container is UNFILLED, else its watches are
registered, and an open of 0 opens at once. An opening window has the container join the report list, a closing one
stands open no longer, and a grace end makes a container still unreported NO_REPORT, a bad result of the failure run. A
record already decided is left alone. -/
def Obligations.FillWindowsAreKept : Prop :=
  ∀ (p : Part) (w : List Instr) (f : Profile) (was pair : Bool × Bool) (infeed : Bool) (choices : List Nat),
    let count := Instr.encoderCount pair.1 pair.2 infeed choices
    (∀ (r : Record) (i : Fin 6), p.arrives f was pair infeed r .robot → r.robot = some i →
      let c := (p.counted f pair infeed).past r.seq .robot
      let k := p.rbp.robots[i]
      let live : Window := match k.pendingWindow with | some x => x.window.clamped f.pitch | none => k.live
      let served : Robot := { k with pendingWindow := none, live := live }
      let opened : Robot :=
        { served with reportList := k.reportList ++ [r.seq], openWindows := k.openWindows ++ [r.seq] }
      let watch (kind : WatchKind) (n : Nat) : Watch := ⟨i, r.seq, kind, p.cvt.highWater + 1 + counts n⟩
      (r.decision ≠ .undecided → Leads count ⟨p, w⟩ fun q => q = c) ∧
      (r.decision = .undecided → live.closing + f.grace < 2 ^ 31 → Leads count ⟨p, w⟩ fun q =>
        q = { c with trl := q.trl, cvt := q.cvt, rbp := q.rbp, odk := q.odk, rpu := q.rpu, mem := q.mem } ∧
        (k.state ≠ .running ∨ live.closing ≤ live.opening →
          q.rbp = p.rbp.put i { served with counters := { k.counters with unfilled := up k.counters.unfilled } } ∧
          q.trl = c.trl.each (·.filled r.seq .unfilled) ∧ q.cvt = c.cvt ∧ q.mirrored .rbp) ∧
        (k.state = .running → live.opening < live.closing →
          q.rbp = p.rbp.put i (if live.opening = 0 then opened else served) ∧ q.trl = c.trl ∧
          q.cvt = { c.cvt with watches := p.cvt.watches ++
            ((if live.opening = 0 then [] else [watch .opening live.opening]) ++
              [watch .closing live.closing, watch .grace (live.closing + f.grace)]) }) ∧
        (k.pendingWindow = none → q.odk = p.odk ∧ p.tells q [] ∧ Memory.storesOnly p.mem q.mem [.mirror .rbp]) ∧
        (∀ (x : PendingWindow) (e : InFlight), k.pendingWindow = some x → x.ref = e.ref → p.odk.holds e →
          p.concludes q e (if f.pitch < x.window.closing then .clamped else .ok) ∧
          p.tells q ((if live.closing ≤ live.opening then [(.zeroWindow, robotMember i)] else []) ++ [e.told]) ∧
          Memory.storesOnly p.mem q.mem
            [.cell e.ref.cell, .bulletin 0, .bulletin 2, .mirror .rbp, .mirror .odk]))) ∧
    (∀ (x : Watch) (before after : List Watch), p.advances f was pair infeed (.watch x) →
      p.cvt.watches = before ++ x :: after → x ∉ before → x ∉ after →
      let d := p.counted f pair infeed
      let c : Part := { d with cvt := { d.cvt with watches := before ++ after } }
      let k := p.rbp.robots[x.robot]
      let run := min 255 (k.failureRun + 1)
      let unreported : Robot := { k with
        reportList := k.reportList.filter (· != x.seq)
        counters := { k.counters with noReport := up k.counters.noReport } }
      let judges (q : Part) (after : Robot) (l : Tidings) :=
        q = { c with trl := c.trl.each (·.filled x.seq .noReport), rbp := p.rbp.put x.robot after, rpu := q.rpu
                     mem := q.mem } ∧
        p.tells q l ∧ q.mirrored .rbp ∧ Memory.storesOnly p.mem q.mem [.bulletin 2, .mirror .rbp]
      (x.kind = .opening → Leads count ⟨p, w⟩ fun q =>
        q = { c with rbp := p.rbp.put x.robot { k with
          reportList := k.reportList ++ [x.seq]
          openWindows := if k.state = .running then k.openWindows ++ [x.seq] else k.openWindows } }) ∧
      (x.kind = .closing → Leads count ⟨p, w⟩ fun q =>
        q = { c with rbp := p.rbp.put x.robot { k with openWindows := k.openWindows.filter (· != x.seq) } }) ∧
      (x.kind = .grace → x.seq ∉ k.reportList → Leads count ⟨p, w⟩ fun q =>
        q = { c with rbp := p.rbp.put x.robot { k with reported := k.reported.filter (· != x.seq) } }) ∧
      (x.kind = .grace → x.seq ∈ k.reportList →
        (f.robots[x.robot].threshold = 0 ∨ run ≠ f.robots[x.robot].threshold → Leads count ⟨p, w⟩ fun q =>
          judges q { unreported with failureRun := run } []) ∧
        (f.robots[x.robot].threshold ≠ 0 → run = f.robots[x.robot].threshold → Leads count ⟨p, w⟩ fun q =>
          (k.runReq = false →
            judges q { unreported with failureRun := 0 } [(.fillFailures, robotMember x.robot)]) ∧
          (k.runReq = true → k.pins.haltAck = false → k.pendingWindow = none →
            q.rbp.robots[x.robot].state = .halting ∧ q.rbp.robots[x.robot].haltOrigin = some .fillFailures ∧
            q.rbp.robots[x.robot].failureRun = 0 ∧
            q.rbp.robots[x.robot].counters.noReport = up k.counters.noReport))))

/-- R76 to R78, R81: ROTATION_SET and WINDOW_SET. A ROTATION_SET with a count outside 1 to 12, a flag or an entry out
of range is refused with PARAM; in UNPROFILED and READY the rotation is adopted at once, else it pends, and one pending
before it ends SUPERSEDED. A WINDOW_SET with an index above 5 is refused with PARAM. With the tracker UNPROFILED or
READY or the robot not RUNNING the window is live at once, its close clamped to the pitch (before the first adoption
the clamp is free, log 11); a zero window is told. Else it pends, and one pending before it ends SUPERSEDED. -/
def Obligations.RotationAndWindowSet : Prop :=
  (∀ (p : Part) (w : List Instr) (cell : Fin 48) (count skip : Byte) (entries : List Byte), entries.length = 12 →
    p.canTake cell (.rotationSet count skip entries) →
    let valid := 1 ≤ count.toNat ∧ count.toNat ≤ 12 ∧ skip.toNat ≤ 1 ∧
      ∀ b ∈ entries.take count.toNat, b.toNat ≤ 5 ∨ b = 255
    let slots : List (Option (Fin 6)) := (entries.take count.toNat).map six
    let rotation : Rotation := ⟨slots, skip.toNat == 1⟩
    (¬ valid → Leads (.rotationSet cell count skip entries) ⟨p, w⟩ fun q => p.onlyAnswers q cell .param) ∧
    (valid → p.cvt.tracker = .unprofiled ∨ p.cvt.tracker = .ready →
      Leads (.rotationSet cell count skip entries) ⟨p, w⟩ fun q =>
        q.rbp = { p.rbp with rotation := rotation, pendingRotation := none, cursor := 0 } ∧
        q = { p with rbp := q.rbp, odk := q.odk, rpu := q.rpu, mem := q.mem } ∧ p.answers q cell .ok ∧
        p.tells q [(.rotationAdopted, 0)] ∧ q.mirrored .rbp ∧
        Memory.storesOnly p.mem q.mem [.cell cell, .bulletin 2, .mirror .rbp, .mirror .odk]) ∧
    (valid → p.cvt.tracker = .tracking ∨ p.cvt.tracker = .draining →
      Leads (.rotationSet cell count skip entries) ⟨p, w⟩ fun q =>
        q.rbp = { p.rbp with pendingRotation := some ⟨rotation, p.nextRef cell⟩ } ∧
        q = { p with rbp := q.rbp, odk := q.odk, rpu := q.rpu, mem := q.mem } ∧
        (p.rbp.pendingRotation = none → p.keeps q cell ∧ p.tells q [] ∧
          Memory.storesOnly p.mem q.mem [.cell cell, .mirror .rbp, .mirror .odk]) ∧
        (∀ (before : PendingRotation) (e : InFlight), p.rbp.pendingRotation = some before → before.ref = e.ref →
          p.odk.holds e →
          p.keepsAmong q cell (p.odk.without e.ref) ∧ q.shows e .superseded ∧ p.tells q [e.told] ∧
          Memory.storesOnly p.mem q.mem [.cell cell, .cell e.ref.cell, .bulletin 0, .mirror .rbp, .mirror .odk]))) ∧
  (∀ (p : Part) (w : List Instr) (cell : Fin 48) (robot : Byte) (opening closing : Half),
    p.canTake cell (.windowSet robot opening closing) →
    (6 ≤ robot.toNat → Leads (.windowSet cell robot opening closing) ⟨p, w⟩ fun q => p.onlyAnswers q cell .param) ∧
    ∀ r : Fin 6, robot.toNat = r.val →
      let k := p.rbp.robots[r]
      let atOnce := p.cvt.tracker = .unprofiled ∨ p.cvt.tracker = .ready ∨ k.state ≠ .running
      (∀ f, p.cvt.profile = some f → atOnce →
        Leads (.windowSet cell robot opening closing) ⟨p, w⟩ fun q =>
          let live : Window := ⟨opening.toNat, min closing.toNat f.pitch⟩
          q.rbp = p.rbp.put r { k with live := live } ∧
          q = { p with rbp := q.rbp, odk := q.odk, rpu := q.rpu, mem := q.mem } ∧
          p.answers q cell (if f.pitch < closing.toNat then .clamped else .ok) ∧
          p.tells q (if live.closing ≤ live.opening then [(.zeroWindow, robotMember r)] else []) ∧ q.mirrored .rbp ∧
          Memory.storesOnly p.mem q.mem [.cell cell, .bulletin 2, .mirror .rbp, .mirror .odk]) ∧
      (p.cvt.profile = none → atOnce →
        Leads (.windowSet cell robot opening closing) ⟨p, w⟩ fun q =>
          ∃ live : Window, live.opening = opening.toNat ∧ live.closing ≤ closing.toNat ∧
            q.rbp = p.rbp.put r { k with live := live } ∧
            q = { p with rbp := q.rbp, odk := q.odk, rpu := q.rpu, mem := q.mem, freeCount := q.freeCount } ∧
            p.answers q cell (if live.closing < closing.toNat then .clamped else .ok) ∧
            Memory.storesOnly p.mem q.mem [.cell cell, .bulletin 2, .mirror .rbp, .mirror .odk]) ∧
      (p.cvt.tracker = .tracking ∨ p.cvt.tracker = .draining → k.state = .running →
        Leads (.windowSet cell robot opening closing) ⟨p, w⟩ fun q =>
          q.rbp = p.rbp.put r
            { k with pendingWindow := some ⟨⟨opening.toNat, closing.toNat⟩, p.nextRef cell⟩ } ∧
          q = { p with rbp := q.rbp, odk := q.odk, rpu := q.rpu, mem := q.mem } ∧
          (k.pendingWindow = none → p.keeps q cell ∧ p.tells q [] ∧
            Memory.storesOnly p.mem q.mem [.cell cell, .mirror .rbp, .mirror .odk]) ∧
          (∀ (before : PendingWindow) (e : InFlight), k.pendingWindow = some before → before.ref = e.ref →
            p.odk.holds e →
            p.keepsAmong q cell (p.odk.without e.ref) ∧ q.shows e .superseded ∧ p.tells q [e.told] ∧
            Memory.storesOnly p.mem q.mem
              [.cell cell, .cell e.ref.cell, .bulletin 0, .mirror .rbp, .mirror .odk])))

/-- R83, R85: a fill strobe. Its kind is SHORT where both lines rise; the oldest container of the report list takes it,
else a reported container makes it a DUPLICATE, else it is STRAY. A good fill ends the failure run, a bad one adds to
it; the one that brings it to the threshold ends it, tells FILL_FAILURES and halts the robot. With neither line rising
there is no strobe. -/
def Obligations.FillStrobeReports : Prop :=
  ∀ (p : Part) (w : List Instr) (r : Fin 6) (ok short : Bool),
    let k := p.rbp.robots[r]
    let rises := (ok = true ∧ k.pins.fillOk = false) ∨ (short = true ∧ k.pins.fillShort = false)
    let isShort := short = true ∧ k.pins.fillShort = false
    let sampled : Robot := { k with pins := { k.pins with fillOk := ok, fillShort := short } }
    let run := min 255 (k.failureRun + 1)
    let takes (fill : FillResult) : List Record := p.trl.records.map fun x =>
      if some x.seq = k.reportList.head? ∧ x.decision = .undecided ∧ x.fill = .pending then { x with fill := fill } else x
    (¬ rises → Leads (.fillStrobe r ok short) ⟨p, w⟩ fun q =>
      q.rbp = p.rbp.put r sampled ∧
      q = { p with rbp := q.rbp, rpu := q.rpu, mem := q.mem } ∧ p.tells q [] ∧
      Memory.storesOnly p.mem q.mem [.mirror .rbp]) ∧
    (∀ seq rest, rises → ¬ isShort → k.reportList = seq :: rest → Leads (.fillStrobe r ok short) ⟨p, w⟩ fun q =>
      q.rbp = p.rbp.put r { sampled with
        reportList := k.reportList.filter (· != seq), reported := k.reported ++ [seq], failureRun := 0
        counters := { k.counters with ok := min 4294967295 (k.counters.ok + 1) } } ∧
      q.trl = { p.trl with records := takes .ok } ∧
      q = { p with trl := q.trl, rbp := q.rbp, rpu := q.rpu, mem := q.mem } ∧ p.tells q [] ∧ q.mirrored .rbp ∧
      Memory.storesOnly p.mem q.mem [.mirror .rbp]) ∧
    (∀ seq rest, isShort → k.reportList = seq :: rest →
      p.failureThreshold r = 0 ∨ run ≠ p.failureThreshold r → Leads (.fillStrobe r ok short) ⟨p, w⟩ fun q =>
      q.rbp = p.rbp.put r { sampled with
        reportList := k.reportList.filter (· != seq), reported := k.reported ++ [seq], failureRun := run
        counters := { k.counters with short := min 4294967295 (k.counters.short + 1) } } ∧
      q.trl = { p.trl with records := takes .short } ∧
      q = { p with trl := q.trl, rbp := q.rbp, rpu := q.rpu, mem := q.mem } ∧ p.tells q [] ∧ q.mirrored .rbp ∧
      Memory.storesOnly p.mem q.mem [.mirror .rbp]) ∧
    (∀ seq rest, isShort → k.reportList = seq :: rest →
      p.failureThreshold r ≠ 0 → run = p.failureThreshold r → Leads (.fillStrobe r ok short) ⟨p, w⟩ fun q =>
      (k.runReq = false →
        q.rbp = p.rbp.put r { sampled with
          reportList := k.reportList.filter (· != seq), reported := k.reported ++ [seq], failureRun := 0
          counters := { k.counters with short := min 4294967295 (k.counters.short + 1) } } ∧
        q = { p with trl := q.trl, rbp := q.rbp, rpu := q.rpu, mem := q.mem } ∧
        p.tells q [(.fillFailures, robotMember r)]) ∧
      (k.runReq = true → k.pins.haltAck = false → k.pendingWindow = none →
        q.rbp.robots[r].state = .halting ∧ q.rbp.robots[r].haltOrigin = some .fillFailures ∧
        q.rbp.robots[r].failureRun = 0 ∧ q.rbp.robots[r].order = none)) ∧
    (rises → k.reportList = [] → Leads (.fillStrobe r ok short) ⟨p, w⟩ fun q =>
      q.rbp = p.rbp.put r { sampled with
        counters := if k.reported = [] then { k.counters with stray := min 4294967295 (k.counters.stray + 1) }
          else { k.counters with duplicate := min 4294967295 (k.counters.duplicate + 1) } } ∧
      q = { p with rbp := q.rbp, rpu := q.rpu, mem := q.mem } ∧ p.tells q [] ∧ q.mirrored .rbp ∧
      Memory.storesOnly p.mem q.mem [.mirror .rbp])

/-! ## 5. The inspection cameras -/

/-- R94, R93, R35, R106: CAMERA_SERVICE and CAMERA_RESTORE. Parameters out of range are refused with PARAM, a camera
that is OFF (for a restore, also one whose port is silent) with STATE; a flag already as asked changes nothing. Into
SERVICE the fires wait by position and, from ACTIVE, the awaiting list is given up. While zone_service holds the camera
the host's flag alone changes. Out of SERVICE every fire is taken afresh: while TIMED it gets its projected time, one
whose time or target is reached falls due, any other goes on waiting by position. A restore clears degraded, its cause
and the missed run. -/
def Obligations.CameraOrdersAreTaken : Prop :=
  ∀ (p : Part) (w : List Instr) (cell : Fin 48) (camera out : Byte),
    (p.canTake cell (.cameraService camera out) →
      (6 ≤ camera.toNat ∨ 2 ≤ out.toNat →
        Leads (.cameraService cell camera out) ⟨p, w⟩ fun q => p.onlyAnswers q cell .param) ∧
      ∀ c : Fin 6, camera.toNat = c.val → out.toNat < 2 →
        let k := p.ctu.cameras[c]
        let member : Byte := BitVec.ofNat 8 c.val
        let stands (q : Part) (after : Camera) (l : Tidings) :=
          q.ctu = p.ctu.put c after ∧ q = { p with ctu := q.ctu, odk := q.odk, rpu := q.rpu, mem := q.mem } ∧
          p.answers q cell .ok ∧ p.tells q l ∧ q.mirrored .ctu ∧
          Memory.storesOnly p.mem q.mem [.cell cell, .bulletin 3, .mirror .ctu, .mirror .odk]
        (p.cameraState c = .off →
          Leads (.cameraService cell camera out) ⟨p, w⟩ fun q => p.onlyAnswers q cell .state) ∧
        (p.cameraState c ≠ .off → k.hostService = (out.toNat == 1) →
          Leads (.cameraService cell camera out) ⟨p, w⟩ fun q => p.onlyAnswers q cell .ok) ∧
        (p.cameraState c = .degraded ∨ p.cameraState c = .active → out.toNat = 1 →
          Leads (.cameraService cell camera out) ⟨p, w⟩ fun q =>
            let lost := if p.cameraState c = .active then k.awaiting else []
            q.ctu = p.ctu.put c { k with
              hostService := true, awaiting := if p.cameraState c = .active then [] else k.awaiting
              schedule := k.schedule.map fun x => { x with time := none, due := false }
              counters := { k.counters with
                noVerdict := if lost = [] then k.counters.noVerdict
                  else min 4294967295 (k.counters.noVerdict + lost.length) } } ∧
            q.trl = p.trl.each (fun x => if x.seq ∈ lost then x.judged x.seq c .noVerdict else x) ∧
            q = { p with trl := q.trl, ctu := q.ctu, odk := q.odk, rpu := q.rpu, mem := q.mem } ∧
            p.answers q cell .ok ∧ p.tells q [(.serviceIn, member)] ∧ q.mirrored .ctu ∧
            Memory.storesOnly p.mem q.mem [.cell cell, .bulletin 3, .mirror .ctu, .mirror .odk]) ∧
        (p.cameraState c = .service → k.zoneService = true → k.hostService ≠ (out.toNat == 1) →
          Leads (.cameraService cell camera out) ⟨p, w⟩ fun q =>
            stands q { k with hostService := out.toNat == 1 } [] ∧ q.cameraState c = .service) ∧
        (p.cameraState c = .service → k.zoneService = false → out.toNat = 0 →
          let time (x : Fire) : Option Time := (p.cameraTarget c x.seq).bind fun y =>
            (p.project y.1).map (· - BitVec.ofNat 48 y.2.lead)
          (∀ x ∈ k.schedule, ∃ y, p.cameraTarget c x.seq = some y) →
          ((k.schedule.map (·.seq)).Nodup →
            (∀ x ∈ k.schedule, ∀ y, p.cameraTarget c x.seq = some y →
              p.isReached y.1 = false ∧ ∀ t, time x = some t → (p.now - t).toInt < 0) →
            Leads (.cameraService cell camera out) ⟨p, w⟩ fun q =>
              stands q { k with
                hostService := false, schedule := k.schedule.map fun x => { x with time := time x } }
                [(.serviceOut, member)]) ∧
          (∀ x y, k.schedule = [x] → p.cameraTarget c x.seq = some y →
            p.isReached y.1 = true ∨ (∃ t, time x = some t ∧ 0 ≤ (p.now - t).toInt) →
            Leads (.cameraService cell camera out) ⟨p, w⟩ fun q =>
              q.ctu.cameras[c].hostService = false ∧ p.answers q cell .ok ∧
              (k.pulse = none → q.ctu.cameras[c].schedule = [] ∧ q.ctu.cameras[c].lastTag = x.seq.setWidth 5 ∧
                q.ctu.cameras[c].pulse = some ⟨p.now + BitVec.ofNat 48 y.2.width, !y.2.activeLow⟩ ∧
                q.ctu.cameras[c].counters.triggers = up k.counters.triggers) ∧
              (k.pulse ≠ none → q.ctu.cameras[c].pulse = k.pulse ∧
                (q.ctu.cameras[c].schedule.map fun f => (f.seq, f.due)) = [(x.seq, true)])))) ∧
    (p.canTake cell (.cameraRestore camera) →
      (6 ≤ camera.toNat → Leads (.cameraRestore cell camera) ⟨p, w⟩ fun q => p.onlyAnswers q cell .param) ∧
      ∀ c : Fin 6, camera.toNat = c.val →
        let k := p.ctu.cameras[c]
        (p.cameraState c = .off ∨ k.portSilent = true →
          Leads (.cameraRestore cell camera) ⟨p, w⟩ fun q => p.onlyAnswers q cell .state) ∧
        (p.cameraState c ≠ .off → k.portSilent = false → Leads (.cameraRestore cell camera) ⟨p, w⟩ fun q =>
          q.ctu = p.ctu.put c { k with degraded := false, degradeCause := none, missedRun := 0 } ∧
          q = { p with ctu := q.ctu, odk := q.odk, rpu := q.rpu, mem := q.mem } ∧ p.answers q cell .ok ∧
          p.tells q (if p.cameraState c = .degraded then [(.restored, BitVec.ofNat 8 c.val)] else []) ∧
          q.mirrored .ctu ∧ Memory.storesOnly p.mem q.mem [.cell cell, .bulletin 3, .mirror .ctu, .mirror .odk]))

/-- R91, R97, R98, R100: CAMERA_FIRE_TIME and TRIGGER_PULSE_END. The oldest fire whose time is reached and which is not
due falls due with every fire before it; with no pulse on, the oldest happens. At a pulse's end the pulse goes off, and a
due oldest fire happens late. Where no time is reached nothing happens. -/
def Obligations.CamerasFire : Prop :=
  ∀ (p : Part) (w : List Instr) (c : Fin 6) (s : CameraSettings), p.cameraSettings c = some s →
    let k := p.ctu.cameras[c]
    let passed (x : Fire) := x.due = false ∧ ∃ t, x.time = some t ∧ 0 ≤ (p.now - t).toInt
    ((∀ x ∈ k.schedule, ¬ passed x) → Leads (.cameraFireTime c) ⟨p, w⟩ fun q => q = p) ∧
    (p.cameraState c ≠ .active → p.cameraState c ≠ .degraded → Leads (.cameraFireTime c) ⟨p, w⟩ fun q => q = p) ∧
    (∀ before x after, k.schedule = before ++ x :: after → passed x → (∀ y ∈ before, ¬ passed y ∧ y.seq ≠ x.seq) →
      p.cameraState c = .active ∨ p.cameraState c = .degraded →
      (k.pulse ≠ none → Leads (.cameraFireTime c) ⟨p, w⟩ fun q =>
        q = { p with ctu := p.ctu.put c { k with
          schedule := before.map (fun y => { y with due := true }) ++ { x with due := true } :: after } }) ∧
      (∀ y ys, k.pulse = none → before ++ [x] = y :: ys → Leads (.cameraFireTime c) ⟨p, w⟩ fun q =>
        p.happens q c s k y.seq (ys.map (fun y => { y with due := true }) ++ after))) ∧
    ((∀ o, k.pulse = some o → (p.now - o.ending).toInt < 0) → Leads (.triggerPulseEnd c) ⟨p, w⟩ fun q => q = p) ∧
    (∀ o, k.pulse = some o → 0 ≤ (p.now - o.ending).toInt →
      ((∀ x, k.schedule.head? = some x → x.due = false) → Leads (.triggerPulseEnd c) ⟨p, w⟩ fun q =>
        q.ctu = p.ctu.put c { k with pulse := none } ∧ q = { p with ctu := q.ctu, rpu := q.rpu, mem := q.mem } ∧
        p.tells q [] ∧ q.mirrored .ctu ∧ Memory.storesOnly p.mem q.mem [.mirror .ctu]) ∧
      (∀ x rest, k.schedule = x :: rest → x.due = true → Leads (.triggerPulseEnd c) ⟨p, w⟩ fun q =>
        p.happens q c s { k with counters := { k.counters with late := up k.counters.late } } x.seq rest))

/-- R99 with R37, R97: a container reaches camera `m`'s station, nothing else being due on the advance. A fire still
waiting falls due by position, late while the tracker is TIMED and it had a time, which it drops, also where it then
waits (log 24): with a pulse on it waits, else the oldest due fire happens. A due fire is left alone; in SERVICE the
fire leaves with CAMERA_OUT or EXEMPT; a container fired for while DEGRADED becomes NO_VERDICT; a verdict TRIGGERED or
final is left alone. -/
def Obligations.CameraStationIsActedOn : Prop :=
  ∀ (p : Part) (w : List Instr) (f : Profile) (was pair : Bool × Bool) (infeed : Bool) (choices : List Nat)
    (r : Record) (m : Fin 6), p.arrives f was pair infeed r (.camera m) →
    let c := (p.counted f pair infeed).past r.seq (.camera m)
    let count := Instr.encoderCount pair.1 pair.2 infeed choices
    let k := p.ctu.cameras[m]
    let judges (q : Part) (after : Camera) (v : Verdict) :=
      q = { c with trl := c.trl.each (·.judged r.seq m v), ctu := p.ctu.put m after, rpu := q.rpu, mem := q.mem } ∧
      p.tells q []
    ((∀ x ∈ k.schedule, x.seq ≠ r.seq) →
      (r.views[m].map (·.verdict) = some .notYet → Leads count ⟨p, w⟩ fun q =>
        judges q { k with counters := { k.counters with noVerdict := up k.counters.noVerdict } } .noVerdict ∧
        q.mirrored .ctu ∧ Memory.storesOnly p.mem q.mem [.mirror .ctu]) ∧
      (r.views[m].map (·.verdict) ≠ some .notYet → Leads count ⟨p, w⟩ fun q => q = c)) ∧
    (∀ before x after, k.schedule = before ++ x :: after → x.seq = r.seq → (∀ y ∈ before ++ after, y.seq ≠ r.seq) →
      (p.cameraState m = .service → Leads count ⟨p, w⟩ fun q =>
        judges q { k with schedule := before ++ after }
          (if f.cameras[m].required = true then .cameraOut else .exempt) ∧
        Memory.storesOnly p.mem q.mem []) ∧
      (p.cameraState m = .active ∨ p.cameraState m = .degraded →
        (x.due = true → Leads count ⟨p, w⟩ fun q => q = c) ∧
        (x.due = false →
          let late : Camera := if x.time ≠ none ∧ p.cvt.paceState = .timed then
              { k with counters := { k.counters with latePosition := up k.counters.latePosition } }
            else k
          let marked := before.map (fun y => { y with due := true }) ++ [⟨x.seq, none, true⟩]
          (k.pulse ≠ none → Leads count ⟨p, w⟩ fun q =>
            q = { c with ctu := p.ctu.put m { late with schedule := marked ++ after } }) ∧
          (∀ y ys, k.pulse = none → marked = y :: ys → Leads count ⟨p, w⟩ fun q =>
            c.happens q m f.cameras[m] late y.seq (ys ++ after)))))

/-- R101, R102: VERDICT_STROBE and VERDICT. A strobe (FAIL where both lines rise) on an ACTIVE camera of source LINES is
matched by its tag, an order by the full sequence: the entry leaves the list, its record takes the verdict, the missed
run is 0. What matches nothing is STALE; a strobe on any other camera is IGNORED (on an OFF one by the model's choice,
log 32); an order that names no camera, an OFF one, one of source LINES or no verdict is refused with PARAM. -/
def Obligations.VerdictsAreMatched : Prop :=
  ∀ (p : Part) (w : List Instr) (c : Fin 6),
    let k := p.ctu.cameras[c]
    let taken (k : Camera) (seq : Word) (pass : Bool) : Camera := { k with
      awaiting := k.awaiting.filter (· != seq), missedRun := 0
      counters := if pass then { k.counters with pass := up k.counters.pass }
        else { k.counters with fail := up k.counters.fail } }
    let stale (k : Camera) : Camera := { k with counters := { k.counters with stale := up k.counters.stale } }
    let ignored (k : Camera) : Camera := { k with counters := { k.counters with ignored := up k.counters.ignored } }
    (∀ (pass fail : Bool) (tag : BitVec 5),
      let held : Camera := { k with passLine := pass, failLine := fail, tagIn := tag }
      let fails := fail = true ∧ k.failLine = false
      let rises := fails ∨ (pass = true ∧ k.passLine = false)
      let strobe := Instr.verdictStrobe c pass fail tag
      (¬ rises → Leads strobe ⟨p, w⟩ fun q => q = { p with ctu := p.ctu.put c held }) ∧
      (∀ s seq, rises → p.cameraState c = .active → p.cameraSettings c = some s → s.source = .lines →
        k.awaiting.find? (fun x => tagOf x == tag) = some seq → Leads strobe ⟨p, w⟩ fun q =>
          q.ctu = p.ctu.put c (taken held seq (¬ fails)) ∧
          q.trl = p.trl.each (·.judged seq c (if fails then .fail else .pass)) ∧
          q = { p with trl := q.trl, ctu := q.ctu, rpu := q.rpu, mem := q.mem } ∧ p.tells q [] ∧ q.mirrored .ctu ∧
          Memory.storesOnly p.mem q.mem [.mirror .ctu]) ∧
      (∀ s, rises → p.cameraState c = .active → p.cameraSettings c = some s → s.source = .lines →
        (∀ x ∈ k.awaiting, tagOf x ≠ tag) → Leads strobe ⟨p, w⟩ fun q =>
          q.ctu = p.ctu.put c (stale held) ∧ q = { p with ctu := q.ctu, rpu := q.rpu, mem := q.mem } ∧ p.tells q [] ∧
          q.mirrored .ctu ∧ Memory.storesOnly p.mem q.mem [.mirror .ctu]) ∧
      (rises → p.cameraState c ≠ .active ∨ (∀ s, p.cameraSettings c = some s → s.source = .orders) →
        Leads strobe ⟨p, w⟩ fun q =>
          q.ctu = p.ctu.put c (ignored held) ∧ q = { p with ctu := q.ctu, rpu := q.rpu, mem := q.mem } ∧
          p.tells q [] ∧ q.mirrored .ctu ∧ Memory.storesOnly p.mem q.mem [.mirror .ctu])) ∧
    (∀ (cell : Fin 48) (camera verdict : Byte) (seq : Word), p.canTake cell (.verdict camera verdict seq) →
      let order := Instr.verdict cell camera verdict seq
      (6 ≤ camera.toNat ∨ 2 ≤ verdict.toNat → Leads order ⟨p, w⟩ fun q => p.onlyAnswers q cell .param) ∧
      (camera.toNat = c.val →
        p.cameraState c = .off ∨ (∃ s, p.cameraSettings c = some s ∧ s.source = .lines) →
        Leads order ⟨p, w⟩ fun q => p.onlyAnswers q cell .param) ∧
      (∀ s, camera.toNat = c.val → verdict.toNat < 2 → p.cameraState c ≠ .off → p.cameraSettings c = some s →
        s.source = .orders →
        (seq ∈ k.awaiting → Leads order ⟨p, w⟩ fun q =>
          q.ctu = p.ctu.put c (taken k seq (verdict.toNat = 0)) ∧
          q.trl = p.trl.each (·.judged seq c (if verdict.toNat = 0 then .pass else .fail)) ∧
          q = { p with trl := q.trl, ctu := q.ctu, odk := q.odk, rpu := q.rpu, mem := q.mem } ∧
          p.answers q cell .ok ∧ p.tells q [] ∧ q.mirrored .ctu ∧
          Memory.storesOnly p.mem q.mem [.cell cell, .mirror .ctu, .mirror .odk]) ∧
        (seq ∉ k.awaiting → Leads order ⟨p, w⟩ fun q =>
          q.ctu = p.ctu.put c (stale k) ∧ q = { p with ctu := q.ctu, odk := q.odk, rpu := q.rpu, mem := q.mem } ∧
          p.answers q cell .stale ∧ p.tells q [] ∧ q.mirrored .ctu ∧
          Memory.storesOnly p.mem q.mem [.cell cell, .mirror .ctu, .mirror .odk])))

/-! ## 6. The reject ejector -/

/-- R112, R116, R117, R119: EJECT_PULSE_START, EJECT_OUTPUT_END and EJECT_TEST. The oldest timed pulse whose start is
reached leaves the schedule and turns the output on for its time, or joins a pulse that is on, which then ends at the
later of the two ends. Its members are FIRED and join the confirm list; with the confirm span 0 a fired member leaves
the list instead. Where no start is reached nothing happens. The output goes off at its end time, not before.
EJECT_TEST in READY turns it on for the profile's width or lets it end later, counts and is told; in any other state it
is refused with STATE. -/
def Obligations.EjectorPulsesRun : Prop :=
  (∀ (p : Part) (w : List Instr),
    let reached (u : Pulse) := ∃ t, u.times = some t ∧ 0 ≤ (p.now - t.start).toInt
    ((∀ u ∈ p.rej.schedule, ¬ reached u) → Leads .ejectPulseStart ⟨p, w⟩ fun q => q = p) ∧
    ∀ (before after : List Pulse) (u : Pulse) (t : PulseTimes), p.rej.schedule = before ++ u :: after →
      u.times = some t → reached u → (∀ x ∈ before, ¬ reached x) → (∀ x ∈ before ++ after, x ≠ u) →
      let driven := ({ p.rej with schedule := before ++ after } : Rej).driven t.ending p.ejectInactive
      (p.confirming = true → p.rej.confirm.length + u.members.length ≤ 8 →
        Leads .ejectPulseStart ⟨p, w⟩ fun q =>
          q.rej = { driven with confirm := p.rej.confirm ++ u.members } ∧
          q.trl = p.trl.fired u.members ∧
          q = { p with trl := q.trl, rej := q.rej, rpu := q.rpu, mem := q.mem } ∧ p.tells q [] ∧ q.mirrored .rej ∧
          Memory.storesOnly p.mem q.mem [.mirror .rej]) ∧
      (∀ seq r, p.confirming = false → u.members = [seq] → p.record seq = some r → r.decision = .reject →
        p.cvt.tracker ≠ .draining →
        Leads .ejectPulseStart ⟨p, w⟩ fun q =>
          q.rej = driven ∧ q.trl = p.trl.without { r with eject := .fired } ∧
          q = { p with trl := q.trl, rej := q.rej, rpu := q.rpu, mem := q.mem } ∧ q.rpu.fault = p.rpu.fault ∧
          p.records q 1 { r with eject := EjectState.fired }.outcome [] [.mirror .trl, .mirror .rej])) ∧
  (∀ (p : Part) (w : List Instr),
    ((∀ o, p.rej.output = some o → (p.now - o.ending).toInt < 0) →
      Leads .ejectOutputEnd ⟨p, w⟩ fun q => q = p) ∧
    (∀ o, p.rej.output = some o → 0 ≤ (p.now - o.ending).toInt → Leads .ejectOutputEnd ⟨p, w⟩ fun q =>
      q.rej = { p.rej with output := none } ∧ q = { p with rej := q.rej, rpu := q.rpu, mem := q.mem } ∧
      p.tells q [] ∧ q.mirrored .rej ∧ Memory.storesOnly p.mem q.mem [.mirror .rej]) ∧
    ∀ cell : Fin 48, p.canTake cell .ejectTest →
      (p.cvt.tracker ≠ .ready → Leads (.ejectTest cell) ⟨p, w⟩ fun q => p.onlyAnswers q cell .state) ∧
      (∀ f, p.cvt.tracker = .ready → p.cvt.profile = some f → Leads (.ejectTest cell) ⟨p, w⟩ fun q =>
        let ending := p.now + BitVec.ofNat 48 f.ejectWidth
        q.rej = { p.rej with
          output := some (match p.rej.output with
            | none => ⟨ending, !f.ejectActiveLow⟩
            | some o => { o with ending := latest o.ending ending })
          counters := { p.rej.counters with testPulses := up p.rej.counters.testPulses } } ∧
        q = { p with rej := q.rej, odk := q.odk, rpu := q.rpu, mem := q.mem } ∧ p.answers q cell .ok ∧
        p.tells q [(.test, 0)] ∧ q.mirrored .rej ∧
        Memory.storesOnly p.mem q.mem [.cell cell, .bulletin 4, .mirror .rej, .mirror .odk]))

/-- R37, R51, R53, R116, R117, R121, R122: a record reaches its ejector station or its confirm end, nothing else being
due on the advance. A PASS is removed. At a REJECT the pulse it is the oldest member of starts: by position, or late if
it was timed, at the later of its end and a full width; its members are FIRED and join the confirm list, which pushes
out its oldest entry when full, or with the confirm span 0 a fired member leaves. A member that is not the oldest, or
fired already, starts nothing. At the confirm end a container still in the confirm list is UNCONFIRMED and removed. (There
the ejector's mirror record shows the part where a FILLING page has room, as EveryStepKeepsTheBoard has it.) -/
def Obligations.EjectorStationIsActedOn : Prop :=
  ∀ (p : Part) (w : List Instr) (f : Profile) (was pair : Bool × Bool) (infeed : Bool) (choices : List Nat)
    (r : Record),
    let count := Instr.encoderCount pair.1 pair.2 infeed choices
    let unconfirms (c q : Part) (after : Rej) (x : Record) (news : News) :=
      let gone : Record := { x with eject := .unconfirmed }
      q.rej = { after with counters := { after.counters with unconfirmed := up after.counters.unconfirmed } } ∧
      q.rpu.fault = p.rpu.fault.after .ejectUnconfirmed 0 x.seq p.now ∧
      q = { c with trl := q.trl, rej := q.rej, rpu := q.rpu, mem := q.mem } ∧
      p.records q 1 gone.outcome [(.fault .ejectUnconfirmed, 0), (news, 0)]
        [.fault, .bulletin 9, .bulletin 4, .mirror .trl, .mirror .rej]
    let stays := p.cvt.tracker ≠ .draining ∨ ∃ x ∈ p.trl.records, x.seq ≠ r.seq
    (p.arrives f was pair infeed r .ejector →
      let c := (p.counted f pair infeed).past r.seq .ejector
      (r.decision = .pass → Leads count ⟨p, w⟩ fun q =>
        q.trl = { c.trl with
          records := c.trl.records.filter (fun x => x.seq != r.seq), passed := up p.trl.passed } ∧
        (stays →
          q = { c with trl := q.trl, rpu := q.rpu, mem := q.mem } ∧ q.rpu.fault = p.rpu.fault ∧ q.mirrored .trl ∧
          p.records q 1 r.outcome [] [.mirror .trl]) ∧
        (p.cvt.tracker = .draining → p.trl.records = [r] → q.cvt.tracker = .ready ∧ q.cvt.drainOrder = none)) ∧
      (r.decision = .reject → (∀ u ∈ p.rej.schedule, u.members.head? ≠ some r.seq) → Leads count ⟨p, w⟩ fun q =>
        q = c) ∧
      (∀ before u after, r.decision = .reject → p.rej.schedule = before ++ u :: after →
        u.members.head? = some r.seq →
        (∀ x ∈ before, x.members.head? ≠ some r.seq) → (∀ x ∈ before ++ after, x ≠ u) →
        let own := p.now + BitVec.ofNat 48 f.ejectWidth
        let rest : Rej := { p.rej with schedule := before ++ after }
        let driven : Rej := match u.times with
          | none => rest.driven own f.ejectActiveLow
          | some t => ({ rest with counters := { rest.counters with latePulse := up rest.counters.latePulse } } :
              Rej).driven (latest t.ending own) f.ejectActiveLow
        (p.confirming = true → p.rej.confirm.length + u.members.length ≤ 8 → Leads count ⟨p, w⟩ fun q =>
          q = { c with
            trl := c.trl.fired u.members, rej := { driven with confirm := p.rej.confirm ++ u.members }
            rpu := q.rpu, mem := q.mem } ∧
          p.tells q [] ∧ q.mirrored .rej ∧ Memory.storesOnly p.mem q.mem [.mirror .rej]) ∧
        (∀ oldest others x, p.confirming = true → u.members = [r.seq] → p.rej.confirm = oldest :: others →
          others.length = 7 → oldest ∉ others → oldest ≠ r.seq → p.record oldest = some x → x.decision = .reject →
          Leads count ⟨p, w⟩ fun q =>
            unconfirms c q { driven with confirm := others ++ [r.seq] } x .confirmFull ∧ q.mirrored .rej ∧
            q.trl = (c.trl.fired [r.seq]).without x) ∧
        (p.confirming = false → u.members = [r.seq] → stays → Leads count ⟨p, w⟩ fun q =>
          q.rej = driven ∧ q.trl = c.trl.without { r with eject := .fired } ∧
          q = { c with trl := q.trl, rej := q.rej, rpu := q.rpu, mem := q.mem } ∧ q.rpu.fault = p.rpu.fault ∧
          p.records q 1 { r with eject := EjectState.fired }.outcome [] [.mirror .trl, .mirror .rej]))) ∧
    (p.arrives f was pair infeed r .confirmEnd →
      let c := (p.counted f pair infeed).past r.seq .confirmEnd
      (r.seq ∉ p.rej.confirm → Leads count ⟨p, w⟩ fun q => q = c) ∧
      (r.seq ∈ p.rej.confirm → r.decision = .reject → stays → Leads count ⟨p, w⟩ fun q =>
        unconfirms c q { p.rej with confirm := p.rej.confirm.filter (· != r.seq) } r .unconfirmed ∧
        (p.roomy → q.mirrored .rej) ∧ q.trl = c.trl.without r))

/-- R120: CONFIRM. A rising edge confirms the oldest fired container, which leaves both lists CONFIRMED; with none fired
it is stray. Where the line does not rise, or the confirm span is 0, only the line's level is held. The last record to
leave ends a drain (R27). -/
def Obligations.ConfirmIsJudged : Prop :=
  ∀ (p : Part) (w : List Instr) (level : Bool),
    let rises := level = true ∧ p.rej.confirmLine = false
    let held : Rej := { p.rej with confirmLine := level }
    (¬ rises ∨ p.confirming = false → Leads (.confirm level) ⟨p, w⟩ fun q => q = { p with rej := held }) ∧
    (rises → p.confirming = true → p.rej.confirm = [] → Leads (.confirm level) ⟨p, w⟩ fun q =>
      q.rej = { held with counters := { p.rej.counters with strayEject := up p.rej.counters.strayEject } } ∧
      q = { p with rej := q.rej, rpu := q.rpu, mem := q.mem } ∧ p.tells q [(.strayEject, 0)] ∧ q.mirrored .rej ∧
      Memory.storesOnly p.mem q.mem [.bulletin 4, .mirror .rej]) ∧
    (∀ seq rest r, rises → p.confirming = true → p.rej.confirm = seq :: rest → p.record seq = some r →
      r.decision = .reject → Leads (.confirm level) ⟨p, w⟩ fun q =>
      q.rej = { held with
        confirm := rest, counters := { p.rej.counters with confirmed := up p.rej.counters.confirmed } } ∧
      q.trl = p.trl.without { r with eject := .confirmed } ∧
      (p.cvt.tracker ≠ .draining →
        q = { p with trl := q.trl, rej := q.rej, rpu := q.rpu, mem := q.mem } ∧ q.rpu.fault = p.rpu.fault ∧
        p.records q 1 { r with eject := EjectState.confirmed }.outcome [] [.mirror .trl, .mirror .rej]) ∧
      (p.cvt.tracker = .draining → p.trl.records = [r] → q.cvt.tracker = .ready ∧ q.cvt.drainOrder = none))

/-! ## 7. The cabinet switch ports -/

/-- R128 to R131, R136: PORT_ADMIT, HALL_HOLD and HALL_RELEASE. PORT_ADMIT out of range: PARAM; an UNASSIGNED port:
STATE; to open a service socket whose zone is SEALED: LOCKED. Opening acts on a CLOSED port, which is HELD while the
hall is held unless it is the LINE_PC port (a QUARANTINED port whose zone is not SEALED, which no run has, is left as
it is, log 35); closing acts on a HELD, OPEN or QUARANTINED port, whose quarantine then ends with a record. HALL_HOLD
makes every OPEN port but the LINE_PC port HELD, HALL_RELEASE every HELD port OPEN; a hall already as asked answers OK
and nothing changes. -/
def Obligations.AdmissionOrdersAreTaken : Prop :=
  (∀ (p : Part) (w : List Instr) (cell : Fin 48) (port opening : Byte), p.canTake cell (.portAdmit port opening) →
    let order := Instr.portAdmit cell port opening
    (16 ≤ port.toNat ∨ 2 ≤ opening.toNat → Leads order ⟨p, w⟩ fun q => p.onlyAnswers q cell .param) ∧
    ∀ i : Fin 16, port.toNat = i.val → opening.toNat < 2 →
      let k := p.spm.ports[i]
      let locked := ∃ z : Fin 8, k.role = .service z ∧ p.sac.zones[z].state = .sealed
      (k.role = .unassigned → Leads order ⟨p, w⟩ fun q => p.onlyAnswers q cell .state) ∧
      (opening.toNat = 1 → locked → Leads order ⟨p, w⟩ fun q => p.onlyAnswers q cell .locked) ∧
      (opening.toNat = 1 → k.role ≠ .unassigned → ¬ locked → k.admission ≠ .closed →
        Leads order ⟨p, w⟩ fun q => p.onlyAnswers q cell .ok) ∧
      (opening.toNat = 1 → k.role ≠ .unassigned → ¬ locked → k.admission = .closed →
        Leads order ⟨p, w⟩ fun q =>
          q.spm = p.spm.put i (if p.spm.hallHold = true ∧ k.role ≠ .linePc then
              { k with admission := .held, deadline := none }
            else { k with admission := .opened, deadline := if k.link then some (p.now + ms k.limit) else none }) ∧
          q = { p with spm := q.spm, odk := q.odk, rpu := q.rpu, mem := q.mem } ∧ p.answers q cell .ok ∧
          p.tells q [] ∧ q.mirrored .spm ∧ Memory.storesOnly p.mem q.mem [.cell cell, .mirror .spm, .mirror .odk]) ∧
      (opening.toNat = 0 → k.role ≠ .unassigned → k.admission = .closed →
        Leads order ⟨p, w⟩ fun q => p.onlyAnswers q cell .ok) ∧
      (opening.toNat = 0 → k.role ≠ .unassigned → k.admission ≠ .closed → Leads order ⟨p, w⟩ fun q =>
        let shut : Port := { k with admission := .closed, deadline := none }
        q.spm = p.spm.put i shut ∧
        q = { p with spm := q.spm, odk := q.odk, rpu := q.rpu, mem := q.mem } ∧ p.answers q cell .ok ∧
        q.mirrored .spm ∧ q.rpu.fault = p.rpu.fault ∧
        (k.admission ≠ .quarantined → p.tells q [] ∧
          Memory.storesOnly p.mem q.mem [.cell cell, .mirror .spm, .mirror .odk]) ∧
        (k.admission = .quarantined →
          p.records q 3 (shut.outcome i p.spm.hallHold .quarantineEnded 0) [(.quarantineEnded, portMember i)]
            [.cell cell, .bulletin 5, .mirror .spm, .mirror .odk]))) ∧
  (∀ (p : Part) (w : List Instr) (cell : Fin 48),
    let takes (q : Part) (ports : Vector Port 16) (hold : Bool) (news : News) :=
      q.spm = { ports := ports, hallHold := hold } ∧
      q = { p with spm := q.spm, odk := q.odk, rpu := q.rpu, mem := q.mem } ∧ p.answers q cell .ok ∧
      p.tells q [(news, 0)] ∧ q.mirrored .spm ∧
      Memory.storesOnly p.mem q.mem [.cell cell, .bulletin 5, .mirror .spm, .mirror .odk]
    (p.canTake cell .hallHold →
      (p.spm.hallHold = true → Leads (.hallHold cell) ⟨p, w⟩ fun q => p.onlyAnswers q cell .ok) ∧
      (p.spm.hallHold = false → Leads (.hallHold cell) ⟨p, w⟩ fun q =>
        takes q (p.spm.ports.map fun k =>
          if k.admission = .opened ∧ k.role ≠ .linePc then { k with admission := .held, deadline := none } else k)
          true .hallHold)) ∧
    (p.canTake cell .hallRelease →
      (p.spm.hallHold = false → Leads (.hallRelease cell) ⟨p, w⟩ fun q => p.onlyAnswers q cell .ok) ∧
      (p.spm.hallHold = true → Leads (.hallRelease cell) ⟨p, w⟩ fun q =>
        takes q (p.spm.ports.map fun k =>
          if k.admission = .held then
            { k with admission := .opened, deadline := if k.link then some (p.now + ms k.limit) else none }
          else k) false .hallRelease)))

/-- R134 to R137, R139: LINK and ACT. An unchanged link level does nothing; on an UNASSIGNED port the level is held and
nothing is rewritten (the model's choice, log 28). A link that comes up on an OPEN port begins its supervision; on a
CLOSED socket of a SEALED zone the port is QUARANTINED and PORT_INTRUSION reported. A link that goes down is counted,
ends supervision, and ends a quarantine. A rising edge of ACT on a supervised port renews its deadline; on a silent one
it ends the silence, with a record, and the camera of the port is no longer silent. Any other sample is only held. -/
def Obligations.PortsAreWatched : Prop :=
  (∀ (p : Part) (w : List Instr) (i : Fin 16) (level : Bool),
    let k := p.spm.ports[i]
    let member := portMember i
    let intruded := k.admission = .closed ∧ ∃ z : Fin 8, k.role = .service z ∧ p.sac.zones[z].state = .sealed
    let down : Port := { k with link := false, drops := min 65535 (k.drops + 1), deadline := none }
    (k.link = level → Leads (.linkEvent i level) ⟨p, w⟩ fun q => q = p) ∧
    (k.link ≠ level → k.role = .unassigned → Leads (.linkEvent i level) ⟨p, w⟩ fun q =>
      q = { p with spm := p.spm.put i { k with link := level } }) ∧
    (k.link = false → k.role ≠ .unassigned → ¬ intruded → Leads (.linkEvent i true) ⟨p, w⟩ fun q =>
      q.spm = p.spm.put i { k with
        link := true, deadline := if k.admission = .opened then some (p.now + ms k.limit) else none } ∧
      q = { p with spm := q.spm, rpu := q.rpu, mem := q.mem } ∧ p.tells q [] ∧ q.mirrored .spm ∧
      Memory.storesOnly p.mem q.mem [.mirror .spm]) ∧
    (k.link = false → intruded → Leads (.linkEvent i true) ⟨p, w⟩ fun q =>
      let taken : Port := { k with
        link := true, admission := .quarantined, quarantines := min 65535 (k.quarantines + 1), deadline := none }
      q.spm = p.spm.put i taken ∧ q = { p with spm := q.spm, rpu := q.rpu, mem := q.mem } ∧ q.mirrored .spm ∧
      q.rpu.fault = p.rpu.fault.after .portIntrusion member 0 p.now ∧
      p.records q 3 (taken.outcome i p.spm.hallHold .quarantined 0)
        [(.fault .portIntrusion, member), (.quarantined, member)] [.fault, .bulletin 9, .bulletin 5, .mirror .spm]) ∧
    (k.link = true → k.role ≠ .unassigned → k.admission ≠ .quarantined →
      Leads (.linkEvent i false) ⟨p, w⟩ fun q =>
        q.spm = p.spm.put i down ∧ q = { p with spm := q.spm, rpu := q.rpu, mem := q.mem } ∧
        p.tells q (if k.admission = .opened then [(.linkDown, member)] else []) ∧ q.mirrored .spm ∧
        Memory.storesOnly p.mem q.mem [.bulletin 5, .mirror .spm]) ∧
    (k.link = true → k.role ≠ .unassigned → k.admission = .quarantined →
      Leads (.linkEvent i false) ⟨p, w⟩ fun q =>
        let ended : Port := { down with admission := .closed }
        q.spm = p.spm.put i ended ∧ q = { p with spm := q.spm, rpu := q.rpu, mem := q.mem } ∧ q.mirrored .spm ∧
        q.rpu.fault = p.rpu.fault ∧
        p.records q 3 (ended.outcome i p.spm.hallHold .quarantineEnded 0) [(.quarantineEnded, member)]
          [.bulletin 5, .mirror .spm])) ∧
  (∀ (p : Part) (w : List Instr) (i : Fin 16) (level : Bool),
    let k := p.spm.ports[i]
    let rises := level = true ∧ k.act = false
    let supervised := k.link = true ∧ k.admission = .opened
    let renewed : Port := { k with act := true, deadline := some (p.now + ms k.limit) }
    (¬ rises ∨ ¬ supervised → Leads (.actPulse i level) ⟨p, w⟩ fun q =>
      q = { p with spm := p.spm.put i { k with act := level } }) ∧
    (rises → supervised → k.silent = false → Leads (.actPulse i level) ⟨p, w⟩ fun q =>
      q = { p with spm := p.spm.put i renewed }) ∧
    (rises → supervised → k.silent = true → Leads (.actPulse i level) ⟨p, w⟩ fun q =>
      let resumed : Port := { renewed with silent := false }
      q.spm = p.spm.put i resumed ∧
      q.ctu = (match k.role with
        | .camera c => p.ctu.put c { p.ctu.cameras[c] with portSilent := false }
        | _ => p.ctu) ∧
      q = { p with spm := q.spm, ctu := q.ctu, rpu := q.rpu, mem := q.mem } ∧ q.mirrored .spm ∧
      q.rpu.fault = p.rpu.fault ∧
      p.records q 3 (resumed.outcome i p.spm.hallHold .resumed 0) [(.resumed, portMember i)]
        [.bulletin 5, .mirror .ctu, .mirror .spm]))

/-- R138, R104, R105, R68: PORT_SILENCE. A deadline not reached does nothing; one reached on a port already silent is
only disarmed. Else the port falls silent: counted, told, recorded with its action. The camera of the port is marked
silent, and degraded where the action asks it and it is not OFF: an ACTIVE one gives up its awaiting list, one in
SERVICE stays there. A robot is halted where the action asks it. -/
def Obligations.SilenceIsActedOn : Prop :=
  ∀ (p : Part) (w : List Instr) (i : Fin 16),
    let k := p.spm.ports[i]
    let quiet : Port := { k with deadline := none, silent := true, silences := min 65535 (k.silences + 1) }
    let spoken (q : Part) (action : SilenceAction) (l : Tidings) (areas : List Area) :=
      q.spm = p.spm.put i quiet ∧ q.mirrored .spm ∧ q.rpu.fault = p.rpu.fault ∧
      p.records q 3 (quiet.outcome i p.spm.hallHold .silent action.code) ((.silent, portMember i) :: l)
        ([.bulletin 5, .mirror .spm] ++ areas)
    ((∀ t, k.deadline = some t → (p.now - t).toInt < 0) → Leads (.portSilence i) ⟨p, w⟩ fun q => q = p) ∧
    (∀ t, k.deadline = some t → 0 ≤ (p.now - t).toInt →
      (k.silent = true → Leads (.portSilence i) ⟨p, w⟩ fun q =>
        q = { p with spm := p.spm.put i { k with deadline := none } }) ∧
      (k.silent = false → (∀ c, k.role ≠ .camera c) → (∀ r, k.role = .robot r → k.action ≠ .haltMember) →
        Leads (.portSilence i) ⟨p, w⟩ fun q =>
          q = { p with spm := q.spm, rpu := q.rpu, mem := q.mem } ∧ spoken q .report [] []) ∧
      (∀ c, k.silent = false → k.role = .camera c →
        k.action ≠ .degradeMember ∨ p.cameraState c = .off ∨ p.ctu.cameras[c].degraded = true →
        Leads (.portSilence i) ⟨p, w⟩ fun q =>
          q.ctu = p.ctu.put c { p.ctu.cameras[c] with portSilent := true } ∧
          q = { p with spm := q.spm, ctu := q.ctu, rpu := q.rpu, mem := q.mem } ∧
          spoken q (if k.action = .degradeMember then .degradeMember else .report) [] [.mirror .ctu]) ∧
      (∀ c, k.silent = false → k.role = .camera c → k.action = .degradeMember → p.cameraState c ≠ .off →
        p.ctu.cameras[c].degraded = false → Leads (.portSilence i) ⟨p, w⟩ fun q =>
          let m := p.ctu.cameras[c]
          let lost := if p.cameraState c = .active then m.awaiting else []
          q.ctu = p.ctu.put c { m with
            portSilent := true, degraded := true, degradeCause := some .portSilent, missedRun := 0
            awaiting := if p.cameraState c = .active then [] else m.awaiting
            counters := { m.counters with
              noVerdict := if lost = [] then m.counters.noVerdict
                else min 4294967295 (m.counters.noVerdict + lost.length) } } ∧
          q.trl = p.trl.each (fun x => if x.seq ∈ lost then x.judged x.seq c .noVerdict else x) ∧
          q = { p with trl := q.trl, spm := q.spm, ctu := q.ctu, rpu := q.rpu, mem := q.mem } ∧
          q.cameraState c = (if p.cameraState c = .active then .degraded else p.cameraState c) ∧
          spoken q .degradeMember [(.portSilent, BitVec.ofNat 8 c.val)] [.bulletin 3, .mirror .ctu]) ∧
      (∀ r, k.silent = false → k.role = .robot r → k.action = .haltMember →
        Leads (.portSilence i) ⟨p, w⟩ fun q =>
          (p.rbp.robots[r].runReq = false →
            q = { p with spm := q.spm, rpu := q.rpu, mem := q.mem } ∧ spoken q .haltMember [] []) ∧
          (p.rbp.robots[r].runReq = true → p.rbp.robots[r].pins.haltAck = false →
            p.rbp.robots[r].pendingWindow = none →
            q.rbp.robots[r].state = .halting ∧ q.rbp.robots[r].haltOrigin = some .portSilent ∧
            q.rbp.robots[r].order = none)))

/-! ## 8. Service access -/

/-- R149, R161: ACCESS_REQUEST. A zone above 7 is refused with PARAM (its record's zone bytes are free, log 10), any
zone before the first adoption with STATE, whatever its level (the order of these checks is log 21), a level outside 1
to 3 with PARAM, a zone that is neither SEALED nor OPEN at a lower level with STATE; each refusal hands over its
record. Else OBSERVE and ADJUST are granted at once. -/
def Obligations.AccessRequestIsJudged : Prop :=
  ∀ (p : Part) (w : List Instr) (cell : Fin 48) (zone level : Byte) (length badge : Half),
    p.canTake cell (.accessRequest zone level length badge) →
    let order := Instr.accessRequest cell zone level length badge
    let refuses (q : Part) (z : Fin 8) (result : Result) :=
      q = { p with odk := q.odk, rpu := q.rpu, mem := q.mem } ∧ p.answers q cell result ∧ q.rpu.fault = p.rpu.fault ∧
      p.records q 2 (p.sac.zones[z].outcome (zoneMember z) .refused badge ⟨result, 0⟩ 255) []
        [.cell cell, .mirror .odk]
    (8 ≤ zone.toNat → Leads order ⟨p, w⟩ fun q =>
      q = { p with odk := q.odk, rpu := q.rpu, mem := q.mem, freeCount := q.freeCount } ∧ p.answers q cell .param ∧
      q.rpu.fault = p.rpu.fault ∧ ∃ free rest : List Byte, free.length = 3 ∧ rest.length = 16 ∧
        p.records q 2 ([zone, 1] ++ free ++ [Result.param.code] ++ leBytes 2 badge.toNat ++ rest) []
          [.cell cell, .mirror .odk]) ∧
    ∀ z : Fin 8, zone.toNat = z.val →
      let k := p.sac.zones[z]
      (p.cvt.profile = none → Leads order ⟨p, w⟩ fun q => refuses q z .state) ∧
      (p.cvt.profile ≠ none → level.toNat = 0 ∨ 4 ≤ level.toNat → Leads order ⟨p, w⟩ fun q => refuses q z .param) ∧
      ∀ l : AccessLevel, p.cvt.profile ≠ none → l ≠ .none → level.toNat = l.code →
        let n := max 1 (min 240 length.toNat)
        let free := k.state = .sealed ∨ (k.state = .opened ∧ k.level.code < l.code)
        (¬ free → Leads order ⟨p, w⟩ fun q => refuses q z .state) ∧
        (free → l ≠ .maintain → p.clearSockets z → Leads order ⟨p, w⟩ fun q =>
          p.grants q z { k.granted l .order n badge p.now with doorRel := false } [] [.cell cell, .mirror .odk] ∧
          p.answers q cell (if length.toNat = n then .ok else .clamped))

/-- R132, R136, R148: a grant that takes a zone out of SEALED lets a QUARANTINED socket of it onto the line, OPEN, or
HELD while the hall is held, with its CLOSED ones: the quarantine ends, told and recorded before the grant (the
model's order, log 34). The ports' mirror record shows the part where a FILLING page has room, as EveryStepKeepsTheBoard
has it. -/
def Obligations.QuarantineEndsAtOpening : Prop :=
  ∀ (p : Part) (w : List Instr) (cell : Fin 48) (zone level : Byte) (length badge : Half) (z : Fin 8)
    (l : AccessLevel) (i : Fin 16), p.canTake cell (.accessRequest zone level length badge) →
    p.cvt.profile ≠ none → zone.toNat = z.val → level.toNat = l.code → l = .observe ∨ l = .adjust →
    p.sac.zones[z].state = .sealed → p.sac.zones[z].level = .none → (l = .adjust → p.camerasAre z true) →
    p.spm.ports[i].role = .service z → p.spm.ports[i].admission = .quarantined →
    (∀ j : Fin 16, p.spm.ports[j].role = .service z → p.spm.ports[j].admission = .quarantined → j = i) →
    let n := max 1 (min 240 length.toNat)
    let after : Zone := { p.sac.zones[z].granted l .order n badge p.now with doorRel := false }
    let freed := (p.spm.release z p.now).ports[i]
    Leads (.accessRequest cell zone level length badge) ⟨p, w⟩ fun q =>
      q.spm = p.spm.release z p.now ∧
      freed.admission = (if p.spm.hallHold then .held else .opened) ∧ q.sac = p.sac.put z after ∧
      q = { p with spm := q.spm, sac := q.sac, odk := q.odk, rpu := q.rpu, mem := q.mem } ∧
      p.answers q cell (if length.toNat = n then .ok else .clamped) ∧
      (fillingRoom p.rpu.pages = true → q.mirrored .spm) ∧ q.mirrored .sac ∧ q.rpu.fault = p.rpu.fault ∧
      p.recordsTwice q (3, freed.outcome i p.spm.hallHold .quarantineEnded 0)
        (2, after.outcome (zoneMember z) .granted badge ⟨.ok, 0⟩ 255)
        [(.quarantineEnded, portMember i), (.granted, zoneMember z)]
        [.cell cell, .bulletin 5, .bulletin 6, .mirror .spm, .mirror .sac, .mirror .odk]

/-- R150 to R152: ACCESS_REQUEST at MAINTAIN on a zone that is SEALED or OPEN below it. With every member robot safe it
is granted at once, DOOR_REL on where the zone has a door. With members RUNNING, STARTING or HALTING the zone is
HALTING, the active ones are asked to halt and join halted-by-zone, the cell is held; each halt acknowledged leaves the
zone waiting until every member is safe: then it is granted and the order completes. With a member FAULTED and HALT_ACK
inactive the request fails: a SEALED zone is sealed again, an OPEN one keeps its access. (The model's choices: HALTING
told before GRANTED or FAILED, the halts asked before the judgement, log 19; no COMPLETED told of an order that ends
within its take, log 16; the lowest index where several members fail, log 41.) -/
def Obligations.MaintainHaltsFirst : Prop :=
  ∀ (p : Part) (w : List Instr) (z : Fin 8) (f : Profile), p.cvt.profile = some f →
    let k := p.sac.zones[z]
    let member := zoneMember z
    let unlocked := if k.state = .sealed then p.spm.unlock z p.now else p.spm
    (∀ (cell : Fin 48) (zone : Byte) (length badge : Half), p.canTake cell (.accessRequest zone 3 length badge) →
      zone.toNat = z.val → k.state = .sealed ∨ (k.state = .opened ∧ k.level.code < 3) → p.clearSockets z →
      let order := Instr.accessRequest cell zone 3 length badge
      let n := max 1 (min 240 length.toNat)
      let halts (r : Fin 6) := p.zoneHasRobot z r = true ∧ p.rbp.robots[r].active = true
      ((∀ r : Fin 6, p.zoneHasRobot z r = true → p.rbp.robots[r].safe = true) → Leads order ⟨p, w⟩ fun q =>
        p.grants q z { k.granted .maintain .order n badge p.now with doorRel := p.hasDoor z } [(.halting, member)]
          [.cell cell, .mirror .odk] ∧
        p.answers q cell (if length.toNat = n then .ok else .clamped)) ∧
      ((∀ r : Fin 6, halts r →
          let b := p.rbp.robots[r]
          p.ofOnly z r ∧ b.pins.haltAck = false ∧ b.order = none ∧ (b.state = .running → b.pendingWindow = none)) →
        p.failingMember z = none → p.membersSafe z = false → Leads order ⟨p, w⟩ fun q =>
          q.sac = p.sac.put z { k with
            state := .halting, request := some ⟨.order, n, decide (n ≠ length.toNat), badge⟩
            accessOrder := some (p.nextRef cell), haltedByZone := q.sac.zones[z].haltedByZone
            doorRel := q.sac.zones[z].doorRel } ∧
          (k.doorRel = false → q.sac.zones[z].doorRel = false) ∧
          (∀ r : Fin 6, q.sac.zones[z].haltedByZone.getLsbD r.val = true ↔
            k.haltedByZone.getLsbD r.val = true ∨ halts r) ∧
          q.rbp = { p.rbp with robots := Vector.ofFn fun r : Fin 6 =>
            let b := p.rbp.robots[r]
            if (halts r) then { b with
              state := .halting, haltOrigin := some (.zone z)
              deadline := some (p.now + BitVec.ofNat 48 (1000 * f.robots[r].haltTimeout))
              openWindows := if b.state = .running then [] else b.openWindows }
            else b } ∧
          q.spm = unlocked ∧
          q = { p with rbp := q.rbp, spm := q.spm, sac := q.sac, odk := q.odk, rpu := q.rpu, mem := q.mem } ∧
          p.keeps q cell ∧ p.tells q [(.halting, member)] ∧ q.mirrored .sac ∧
          Memory.storesOnly p.mem q.mem
            [.cell cell, .bulletin 6, .mirror .spm, .mirror .rbp, .mirror .sac, .mirror .odk]) ∧
      (∀ r : Fin 6, (∀ x : Fin 6, p.zoneHasRobot z x = true → p.rbp.robots[x].active = false) →
        p.failingMember z = some r →
        let cause : Byte := match p.rbp.robots[r].faultCause with | some x => x.code | none => 0
        let fails (q : Part) (after : Zone) :=
          q.sac = p.sac.put z after ∧ q.mirrored .sac ∧ q.rpu.fault = p.rpu.fault ∧
          q = { p with spm := q.spm, sac := q.sac, odk := q.odk, rpu := q.rpu, mem := q.mem } ∧
          p.answers q cell .failedTimeout cause ∧
          p.records q 2 (after.outcome member .failed after.badge ⟨.failedTimeout, cause⟩ (robotMember r))
            [(.halting, member), (.failed, member)]
            [.cell cell, .bulletin 6, .mirror .spm, .mirror .sac, .mirror .odk]
        (k.state = .sealed → k.level = .none → p.camerasAre z false → Leads order ⟨p, w⟩ fun q =>
          fails q { k.shut with accessOrder := none, request := none } ∧ q.spm = unlocked.shut z) ∧
        (k.state = .opened → k.level ≠ .none → Leads order ⟨p, w⟩ fun q =>
          fails q { k with accessOrder := none, request := none, doorRel := false } ∧ q.spm = p.spm))) ∧
    (∀ (r : Fin 6) (x : ZoneRequest) (e : InFlight), p.ofOnly z r → k.state = .halting → k.request = some x →
      k.accessOrder = some e.ref → p.odk.holds e →
      let b := p.rbp.robots[r]
      let others := ∀ y : Fin 6, p.zoneHasRobot z y = true → y ≠ r → p.rbp.robots[y].safe = true
      b.state = .halting → b.pins.haltAck = false → b.order = none → Leads (.haltAck r true) ⟨p, w⟩ fun q =>
        q.rbp = p.rbp.put r
          { b with state := .halted, deadline := none, pins := { b.pins with haltAck := true } } ∧
        (others →
          q.sac = p.sac.put z
            { k.granted .maintain x.origin x.minutes x.badge p.now with doorRel := p.hasDoor z } ∧
          q.spm = p.spm ∧ q.cvt = p.cvt ∧ q.mtu = p.mtu ∧ (k.level.code < 3 → q.camerasAre z true) ∧
          p.concludes q e (if x.clamped then .clamped else .ok)) ∧
        (¬ others → p.failingMember z = none →
          q = { p with rbp := q.rbp, rpu := q.rpu, mem := q.mem } ∧ p.tells q [(.halted, robotMember r)] ∧
          q.mirrored .rbp ∧ Memory.storesOnly p.mem q.mem [.bulletin 2, .mirror .rbp]))

/-- R145, R153: the door and button inputs and their debounce. A change of the line arms the deadline, a change back
disarms it; a deadline not reached does nothing; one reached takes the line's level, and where no rule acts on the door
or the press, that is all. A release only updates the record. -/
def Obligations.InputsAreDebounced : Prop :=
  ∀ (p : Part) (w : List Instr) (z : Fin 8),
    let k := p.sac.zones[z]
    let rests (q : Part) (after : Zone) :=
      q.sac = p.sac.put z after ∧ q = { p with sac := q.sac, rpu := q.rpu, mem := q.mem } ∧ p.tells q [] ∧
      q.mirrored .sac ∧ Memory.storesOnly p.mem q.mem [.mirror .sac]
    (∀ level : Bool,
      (k.doorLine = level → Leads (.doorChange z level) ⟨p, w⟩ fun q => q = p) ∧
      (k.doorLine ≠ level → Leads (.doorChange z level) ⟨p, w⟩ fun q =>
        q = { p with sac := p.sac.put z { k with
          doorLine := level, doorDeadline := if level = k.door then none else some (p.now + 20000) } }) ∧
      (k.reqLine = level → Leads (.reqChange z level) ⟨p, w⟩ fun q => q = p) ∧
      (k.reqLine ≠ level → Leads (.reqChange z level) ⟨p, w⟩ fun q =>
        q = { p with sac := p.sac.put z { k with
          reqLine := level, buttonDeadline := if level = k.button then none else some (p.now + 20000) } })) ∧
    ((∀ t, k.doorDeadline = some t → (p.now - t).toInt < 0) → Leads (.doorDebounce z) ⟨p, w⟩ fun q => q = p) ∧
    (∀ t, k.doorDeadline = some t → 0 ≤ (p.now - t).toInt →
      p.hasDoor z = false ∨ (k.doorLine = true ∧ k.state ∈ [.waitClose, .overstay]) ∨
        (k.doorLine = true ∧ k.state = .opened ∧ k.level = .maintain) ∨
        (k.doorLine = false ∧ k.state ∈ [.sealed, .halting, .opened]) →
      Leads (.doorDebounce z) ⟨p, w⟩ fun q => rests q { k with door := k.doorLine, doorDeadline := none }) ∧
    ((∀ t, k.buttonDeadline = some t → (p.now - t).toInt < 0) → Leads (.buttonDebounce z) ⟨p, w⟩ fun q => q = p) ∧
    (∀ t, k.buttonDeadline = some t → 0 ≤ (p.now - t).toInt →
      (k.reqLine = false → Leads (.buttonDebounce z) ⟨p, w⟩ fun q =>
        q = { p with sac := p.sac.put z { k with button := false, buttonDeadline := none } }) ∧
      (k.reqLine = true →
        p.hasButton z = false ∨ k.state ∈ [.halting, .waitClose] ∨ (k.state = .sealed ∧ (p.buttonOf z).1 = .none) →
        Leads (.buttonDebounce z) ⟨p, w⟩ fun q => rests q { k with button := true, buttonDeadline := none }))

/-- R155, R156, R158: a debounced change of a zone's door that a rule acts on. Closing seals a zone in WAIT_CLOSE with
ENDED and in OVERSTAY with EXPIRED. Opening on a zone SEALED, HALTING or OPEN below MAINTAIN is an intrusion: the fault
is reported, the zone granted at MAINTAIN with origin INTRUSION, its robots asked to halt, and two records handed over:
INTRUSION before GRANTED, both of the zone as granted (the model's choice, log 20), as the changes on the ZONE bulletin
are in the order of the rules (log 19). -/
def Obligations.DoorsAreWatched : Prop :=
  ∀ (p : Part) (w : List Instr) (z : Fin 8) (t : Time),
    let k := p.sac.zones[z]
    let member := zoneMember z
    k.doorDeadline = some t → 0 ≤ (p.now - t).toInt → p.hasDoor z = true →
    (k.doorLine = false → k.state = .waitClose → Leads (.doorDebounce z) ⟨p, w⟩ fun q =>
      p.seals q z ({ k with door := false, doorDeadline := none } : Zone).shut .ended [] [] ∧ q.odk = p.odk) ∧
    (k.doorLine = false → k.state = .overstay → Leads (.doorDebounce z) ⟨p, w⟩ fun q =>
      p.seals q z ({ k with door := false, doorDeadline := none } : Zone).shut .expired [] [] ∧ q.odk = p.odk) ∧
    (k.doorLine = true → k.state ∈ [.sealed, .halting] ∨ (k.state = .opened ∧ k.level ≠ .maintain) →
      Leads (.doorDebounce z) ⟨p, w⟩ fun q =>
        let minutes := (p.buttonOf z).2
        let found : Zone := { k with door := true, doorDeadline := none }
        q.sac.zones[z].state = .opened ∧ q.sac.zones[z].level = .maintain ∧ q.sac.zones[z].origin = .intrusion ∧
        q.rpu.fault = p.rpu.fault.after .intrusion member 0 p.now ∧
        (∀ r : Fin 6, p.zoneHasRobot z r = true → q.rbp.robots[r].runReq = false) ∧
        (p.clearSockets z → (∀ r : Fin 6, p.zoneHasRobot z r = true → p.rbp.robots[r].active = false) →
          k.accessOrder = none → p.camerasAre z true →
          let after : Zone :=
            { found.granted .maintain .intrusion minutes 0 p.now with doorRel := p.membersSafe z }
          let record (event : AccessEvent) := after.outcome member event 0 ⟨.ok, 0⟩ 255
          q.sac = p.sac.put z after ∧
          q.spm = (if k.state = .sealed then p.spm.unlock z p.now else p.spm) ∧
          q = { p with spm := q.spm, sac := q.sac, rpu := q.rpu, mem := q.mem } ∧ q.mirrored .sac ∧
          p.recordsTwice q (2, record .intrusion) (2, record .granted)
            [(.fault .intrusion, member), (.intrusion, member), (.granted, member)]
            [.fault, .bulletin 9, .bulletin 6, .mirror .spm, .mirror .sac]))

/-- R153: a press on a zone that has a button. A SEALED zone is granted the button level for the button minutes with
badge 0, at MAINTAIN after its robots are safe; an OPEN or OVERSTAY access ends. (At MAINTAIN over safe robots HALTING
is told before GRANTED: the model's order, log 19.) -/
def Obligations.PressesAreTaken : Prop :=
  ∀ (p : Part) (w : List Instr) (z : Fin 8) (t : Time),
    let k := p.sac.zones[z]
    let found : Zone := { k with button := true, buttonDeadline := none }
    k.buttonDeadline = some t → 0 ≤ (p.now - t).toInt → p.hasButton z = true → k.reqLine = true →
    (k.state = .sealed → k.accessOrder = none → p.clearSockets z →
      let level := (p.buttonOf z).1
      let granted : Zone := found.granted level .button (p.buttonOf z).2 0 p.now
      (level = .observe ∨ level = .adjust → Leads (.buttonDebounce z) ⟨p, w⟩ fun q =>
        p.grants q z { granted with doorRel := false } [] [] ∧ q.odk = p.odk) ∧
      (level = .maintain → p.membersSafe z = true → Leads (.buttonDebounce z) ⟨p, w⟩ fun q =>
        p.grants q z { granted with doorRel := p.hasDoor z } [(.halting, zoneMember z)] [] ∧ q.odk = p.odk)) ∧
    (k.state = .opened ∨ k.state = .overstay → Leads (.buttonDebounce z) ⟨p, w⟩ fun q =>
      p.endsAccess q z found [] ∧ q.odk = p.odk)

/-- R156, R157: ACCESS_END and ACCESS_EXTEND. A zone above 7: PARAM; before the first adoption and in the states the
rules name: STATE. An end seals the zone, or with its door open takes it to WAIT_CLOSE; in HALTING the request ends
SUPERSEDED. An extension moves the expiry, at most 240 minutes ahead; OVERSTAY returns to OPEN. -/
def Obligations.AccessEndsAndExtends : Prop :=
  ∀ (p : Part) (w : List Instr) (cell : Fin 48) (zone : Byte),
    (p.canTake cell (.accessEnd zone) →
      (8 ≤ zone.toNat → Leads (.accessEnd cell zone) ⟨p, w⟩ fun q => p.onlyAnswers q cell .param) ∧
      ∀ z : Fin 8, zone.toNat = z.val →
        let k := p.sac.zones[z]
        (p.cvt.profile = none ∨ k.state ∈ [.sealed, .waitClose] →
          Leads (.accessEnd cell zone) ⟨p, w⟩ fun q => p.onlyAnswers q cell .state) ∧
        (p.cvt.profile ≠ none → k.state = .opened ∨ k.state = .overstay →
          Leads (.accessEnd cell zone) ⟨p, w⟩ fun q =>
            p.endsAccess q z k [.cell cell, .mirror .odk] ∧ p.answers q cell .ok) ∧
        (∀ e : InFlight, p.cvt.profile ≠ none → k.state = .halting → k.accessOrder = some e.ref → p.odk.holds e →
          Leads (.accessEnd cell zone) ⟨p, w⟩ fun q =>
            p.seals q z ({ k with accessOrder := none, request := none } : Zone).shut .ended [e.told]
              [.cell cell, .cell e.ref.cell, .bulletin 0, .mirror .odk] ∧
            p.answersAmong q cell ⟨.ok, 0⟩ (p.odk.without e.ref) ∧ q.shows e .superseded)) ∧
    ∀ length : Half, p.canTake cell (.accessExtend zone length) →
      let order := Instr.accessExtend cell zone length
      let n := max 1 (min 240 length.toNat)
      let added := BitVec.ofNat 48 (60000000 * n)
      (8 ≤ zone.toNat → Leads order ⟨p, w⟩ fun q => p.onlyAnswers q cell .param) ∧
      ∀ z : Fin 8, zone.toNat = z.val →
        let k := p.sac.zones[z]
        let extends_ (q : Part) (expiry : Time) (result : Result) :=
          let after : Zone := { k with state := .opened, expiry := some expiry, doorRel := p.doorRelCondition z }
          q.sac = p.sac.put z after ∧ q = { p with sac := q.sac, odk := q.odk, rpu := q.rpu, mem := q.mem } ∧
          p.answers q cell result ∧ q.mirrored .sac ∧ q.rpu.fault = p.rpu.fault ∧
          p.records q 2 (after.outcome (zoneMember z) .extended k.badge ⟨.ok, 0⟩ 255) []
            [.cell cell, .mirror .sac, .mirror .odk]
        (p.cvt.profile = none ∨ k.state ∈ [.sealed, .halting, .waitClose] →
          Leads order ⟨p, w⟩ fun q => p.onlyAnswers q cell .state) ∧
        (∀ t, p.cvt.profile ≠ none → k.state = .opened → k.expiry = some t → Leads order ⟨p, w⟩ fun q =>
          let limit := p.now + BitVec.ofNat 48 14400000000
          (0 < (t + added - limit).toInt → extends_ q limit .clamped) ∧
          (¬ 0 < (t + added - limit).toInt → extends_ q (t + added) (if length.toNat = n then .ok else .clamped))) ∧
        (p.cvt.profile ≠ none → k.state = .overstay → Leads order ⟨p, w⟩ fun q =>
          extends_ q (p.now + added) (if length.toNat = n then .ok else .clamped))

/-- R155: ACCESS_EXPIRY. A deadline not reached does nothing. Reached it is disarmed: an OPEN zone is sealed with
EXPIRED, or with its door open overstays, reported and recorded; a HALTING zone's request ends SUPERSEDED and the zone
is sealed with EXPIRED. -/
def Obligations.AccessExpires : Prop :=
  ∀ (p : Part) (w : List Instr) (z : Fin 8),
    let k := p.sac.zones[z]
    let member := zoneMember z
    ((∀ t, k.expiry = some t → (p.now - t).toInt < 0) → Leads (.accessExpiry z) ⟨p, w⟩ fun q => q = p) ∧
    ∀ t, k.expiry = some t → 0 ≤ (p.now - t).toInt →
      (k.state ∈ [.sealed, .waitClose, .overstay] → Leads (.accessExpiry z) ⟨p, w⟩ fun q =>
        q = { p with sac := p.sac.put z { k with expiry := none } }) ∧
      (k.state = .opened → p.doorOpen z = false → Leads (.accessExpiry z) ⟨p, w⟩ fun q =>
        p.seals q z k.shut .expired [] [] ∧ q.odk = p.odk) ∧
      (k.state = .opened → p.doorOpen z = true → Leads (.accessExpiry z) ⟨p, w⟩ fun q =>
        let after : Zone := { k with state := .overstay, expiry := none, doorRel := p.doorRelCondition z }
        q.sac = p.sac.put z after ∧ q = { p with sac := q.sac, rpu := q.rpu, mem := q.mem } ∧ q.mirrored .sac ∧
        q.rpu.fault = p.rpu.fault.after .overstay member 0 p.now ∧
        p.records q 2 (after.outcome member .overstay k.badge ⟨.ok, 0⟩ 255)
          [(.fault .overstay, member), (.overstay, member)] [.fault, .bulletin 9, .bulletin 6, .mirror .sac]) ∧
      (∀ e : InFlight, k.state = .halting → k.accessOrder = some e.ref → p.odk.holds e →
        Leads (.accessExpiry z) ⟨p, w⟩ fun q =>
          p.seals q z ({ k with accessOrder := none, request := none } : Zone).shut .expired [e.told]
            [.cell e.ref.cell, .bulletin 0, .mirror .odk] ∧
          p.concludes q e .superseded)

/-- R159, R160: RESUME_ZONE. A zone above 7: PARAM; before the first adoption or not SEALED: STATE. Else each robot of
halted-by-zone joins the resume set: one that runs counts as run, one that may not run fails with the code of its
refusal, one that may starts (or goes on starting) and is waited for. With none waited for the order completes, OK or
with the first failure's code, else the cell is held. A waited robot that runs is run, one that faults fails; the last
one settled completes the order, OK or with the first failure. (Of several robots refused at the take with different
codes the lowest index is the first failure: the model's choice, log 43.) -/
def Obligations.ZonesResume : Prop :=
  ∀ (p : Part) (w : List Instr),
    (∀ (cell : Fin 48) (zone : Byte), p.canTake cell (.resumeZone zone) →
      (8 ≤ zone.toNat → Leads (.resumeZone cell zone) ⟨p, w⟩ fun q => p.onlyAnswers q cell .param) ∧
      ∀ z : Fin 8, zone.toNat = z.val →
        let k := p.sac.zones[z]
        let done : Zone := { k with
          haltedByZone := 0, resumeOrder := none, resumeSet := Vector.replicate 6 .absent, resumeFailure := none }
        (p.cvt.profile = none ∨ k.state ≠ .sealed →
          Leads (.resumeZone cell zone) ⟨p, w⟩ fun q => p.onlyAnswers q cell .state) ∧
        ∀ f : Profile, p.cvt.profile = some f → k.state = .sealed →
          let member (r : Fin 6) := k.haltedByZone.getLsbD r.val = true
          let stands (r : Fin 6) := p.rbp.robots[r].state = .running ∨ p.rbp.robots[r].state = .starting
          let starts (r : Fin 6) := member r ∧ ¬ stands r ∧ p.runRefusal r = none
          let mark (r : Fin 6) : ResumeMark :=
            if ¬ member r then .absent else if p.rbp.robots[r].state = .running then .running
            else if p.rbp.robots[r].state = .starting ∨ p.runRefusal r = none then .waiting else .failed
          let failure := (sixes.find? fun r => mark r = .failed).bind p.runRefusal
          (∀ r, starts r → p.rbp.robots[r].pins.runAck = false ∧ p.unwatched r) →
          Leads (.resumeZone cell zone) ⟨p, w⟩ fun q =>
            q.rbp = { p.rbp with robots := Vector.ofFn fun r : Fin 6 =>
              let b := p.rbp.robots[r]
              if (starts r) then { b with
                state := .starting, haltOrigin := none, order := none
                deadline := some (p.now + BitVec.ofNat 48 (1000 * f.robots[r].runTimeout)) }
              else b } ∧
            q = { p with rbp := q.rbp, sac := q.sac, odk := q.odk, rpu := q.rpu, mem := q.mem } ∧ p.tells q [] ∧
            Memory.storesOnly p.mem q.mem [.cell cell, .mirror .rbp, .mirror .sac, .mirror .odk] ∧
            ((∀ r, mark r ≠ .waiting) → q.sac = p.sac.put z done ∧ q.mirrored .sac ∧
              p.answers q cell (failure.getD .ok)) ∧
            (∀ r, mark r = .waiting → p.keeps q cell ∧
              q.sac = p.sac.put z { done with
                resumeOrder := some (p.nextRef cell), resumeSet := Vector.ofFn mark
                resumeFailure := failure.map fun x => ⟨x, 0⟩ })) ∧
    ∀ (z : Fin 8) (r : Fin 6) (e : InFlight),
      let k := p.sac.zones[z]
      let b := p.rbp.robots[r]
      let settles (q : Part) (mark : ResumeMark) (failure : Option Completion) :=
        ((∀ y : Fin 6, y ≠ r → k.resumeSet[y] ≠ .waiting) →
          q.sac = p.sac.put z
            { k with resumeOrder := none, resumeSet := Vector.replicate 6 .absent, resumeFailure := none } ∧
          p.concludes q e (failure.getD ⟨.ok, 0⟩).result (failure.getD ⟨.ok, 0⟩).detail) ∧
        (∀ y : Fin 6, y ≠ r → k.resumeSet[y] = .waiting → q.odk = p.odk ∧
          q.sac = p.sac.put z { k with resumeSet := k.resumeSet.set r mark, resumeFailure := failure }) ∧
        q = { p with rbp := q.rbp, sac := q.sac, odk := q.odk, rpu := q.rpu, mem := q.mem }
      k.resumeOrder = some e.ref → p.odk.holds e → k.resumeSet[r] = .waiting →
      (∀ y : Fin 8, (p.zoneHasRobot y r = true → p.sac.zones[y].state = .sealed ∧ p.sac.zones[y].doorRel = false) ∧
        (y ≠ z → p.sac.zones[y].resumeSet[r] ≠ .waiting)) →
      b.state = .starting → b.order = none →
      (b.pins.runAck = false → Leads (.runAck r true) ⟨p, w⟩ fun q =>
        q.rbp = p.rbp.put r { b with state := .running, deadline := none, pins := { b.pins with runAck := true } } ∧
        settles q .running k.resumeFailure) ∧
      (∀ t, b.deadline = some t → 0 ≤ (p.now - t).toInt → Leads (.runTimeout r) ⟨p, w⟩ fun q =>
        q.rbp = p.rbp.put r { b with state := .faulted, faultCause := some .runTimeout, deadline := none } ∧
        settles q .failed (some (k.resumeFailure.getD ⟨.failedTimeout, RobotFault.runTimeout.code⟩)))

/-! ## 9. The line profile -/

/-- R166: PROFILE_ADOPT. In TRACKING and DRAINING it is refused with STATE and detail TRACKER, with a zone that is not
SEALED with detail ZONE; else the adoption is in flight, nothing of it read, and the cell is held. -/
def Obligations.ProfileAdoptIsTaken : Prop :=
  ∀ (p : Part) (w : List Instr) (cell : Fin 48), p.canTake cell .profileAdopt →
    let refuses (q : Part) (detail : Byte) :=
      p.refusesProfile q ⟨.state, detail, none⟩ ∧ p.answers q cell .state detail ∧
      p.tells q [(.profileRefused, 0)] ∧
      Memory.storesOnly p.mem q.mem [.cell cell, .bulletin 1, .mirror .profile, .mirror .odk]
    let stands := p.cvt.tracker = .unprofiled ∨ p.cvt.tracker = .ready
    (p.cvt.tracker = .tracking ∨ p.cvt.tracker = .draining →
      Leads (.profileAdopt cell) ⟨p, w⟩ fun q => refuses q 1) ∧
    (∀ z : Fin 8, stands → p.cvt.profile ≠ none → p.sac.zones[z].state ≠ .sealed →
      Leads (.profileAdopt cell) ⟨p, w⟩ fun q => refuses q 2) ∧
    (stands → p.cvt.profile = none ∨ (∀ z : Fin 8, p.sac.zones[z].state = .sealed) →
      Leads (.profileAdopt cell) ⟨p, w⟩ fun q =>
        q.cvt = { p.cvt with adoption := some ⟨p.nextRef cell, 0, []⟩ } ∧
        q = { p with cvt := q.cvt, odk := q.odk, rpu := q.rpu, mem := q.mem } ∧ p.keeps q cell ∧ p.tells q [] ∧
        q.mirrored .profile ∧ Memory.storesOnly p.mem q.mem [.cell cell, .mirror .profile, .mirror .odk])

/-- R168, R194, R165: the twelve checks in their order over the fields at their offsets: a candidate is refused with
PARAM, the detail of the first check that fails and the first element it fails for, and passes where none does. The
profile it holds is the fields at the offsets and with the codes of R194. (Which element a RANGE or DISTANCE refusal
names where several fail, in rangeTable and checkTable, is the model's reading and no rule's: log 29.) -/
def Obligations.CandidateIsChecked : Prop :=
  ∀ m : Memory,
    let u := m.staged
    let f := m.profile
    (m.refusal = none ↔ ∀ check ∈ m.checkTable, ∀ x ∈ check.2, x.2) ∧
    (∀ before detail l after first index failing others,
      m.checkTable = before ++ (detail, l) :: after → (∀ check ∈ before, ∀ x ∈ check.2, x.2) →
      l = first ++ (index, failing) :: others → (∀ x ∈ first, x.2) → ¬ failing →
      m.refusal = some ⟨.param, detail, index⟩) ∧
    f.id.toNat = u 0x004 4 ∧ (f.syncMode = .pulse ↔ u 0x002 1 = 1) ∧ f.pitch = u 0x008 2 ∧
    f.samplePhase = u 0x00A 2 ∧ f.spacing = u 0x00C 2 ∧ f.tolerance = u 0x00E 2 ∧ f.crawlLimit = u 0x010 4 ∧
    f.decision = u 0x014 4 ∧ f.grace = u 0x018 2 ∧
    (∀ r : Fin 6, f.robots[r] =
      { station := u (0x020 + 16 * r.val) 4, window := ⟨u (0x024 + 16 * r.val) 2, u (0x026 + 16 * r.val) 2⟩
        runTimeout := u (0x028 + 16 * r.val) 2, haltTimeout := u (0x02A + 16 * r.val) 2
        threshold := u (0x02C + 16 * r.val) 1 }) ∧
    f.rotation.slots.length = u 0x080 1 ∧ (f.rotation.skip = true ↔ u 0x081 1 = 1) ∧
    (∀ s < u 0x080 1, (u (0x082 + s) 1 = 255 → f.rotation.slots[s]? = some none) ∧
      ∀ r : Fin 6, u (0x082 + s) 1 = r.val → f.rotation.slots[s]? = some (some r)) ∧
    (∀ c : Fin 6, f.cameras[c] =
      { station := u (0x090 + 16 * c.val) 4, lead := u (0x094 + 16 * c.val) 2, width := u (0x096 + 16 * c.val) 2
        present := u (0x098 + 16 * c.val) 1 == 1, activeLow := u (0x099 + 16 * c.val) 1 == 1
        source := if u (0x09A + 16 * c.val) 1 = 1 then .orders else .lines
        required := u (0x09B + 16 * c.val) 1 == 1, threshold := u (0x09C + 16 * c.val) 1 }) ∧
    f.ejector = u 0x0F0 4 ∧ f.confirmSpan = u 0x0F4 4 ∧ f.ejectLead = u 0x0F8 2 ∧ f.ejectWidth = u 0x0FA 2 ∧
    (f.ejectActiveLow = true ↔ u 0x0FC 1 = 1) ∧
    (∀ i : Fin 16,
      let role := u (0x100 + 8 * i.val) 1
      let index := u (0x101 + 8 * i.val) 1
      let action := u (0x104 + 8 * i.val) 1
      (role = 0 → f.ports[i].role = .unassigned) ∧ (role = 1 → f.ports[i].role = .linePc) ∧
      (∀ r : Fin 6, role = 2 → index = r.val → f.ports[i].role = .robot r) ∧
      (∀ c : Fin 6, role = 3 → index = c.val → f.ports[i].role = .camera c) ∧
      (∀ z : Fin 8, role = 4 → index = z.val → f.ports[i].role = .service z) ∧
      (role = 5 → f.ports[i].role = .other) ∧ f.ports[i].limit = u (0x102 + 8 * i.val) 2 ∧
      (action = 0 → f.ports[i].action = .report) ∧ (action = 1 → f.ports[i].action = .haltMember) ∧
      (action = 2 → f.ports[i].action = .degradeMember)) ∧
    ∀ z : Fin 8,
      let k := f.zones[z]
      (∀ r : Fin 6, k.robots.getLsbD r.val = (u (0x180 + 8 * z.val) 1).testBit r.val) ∧
      (∀ c : Fin 6, k.cameras.getLsbD c.val = (u (0x181 + 8 * z.val) 1).testBit c.val) ∧
      (k.doorPresent = true ↔ u (0x182 + 8 * z.val) 1 = 1) ∧ (k.buttonPresent = true ↔ u (0x183 + 8 * z.val) 1 = 1) ∧
      (u (0x184 + 8 * z.val) 1 ≤ 3 → k.buttonLevel.code = u (0x184 + 8 * z.val) 1) ∧
      k.buttonMinutes = u (0x185 + 8 * z.val) 1

/-- R167 to R171, R14, R25, R78, R90, R111, R143, R164: COPY_END. The candidate is what was read before and the rest of
the staging area as it stands. One that fails a check, or meets a zone that is not SEALED, is refused. Else the profile
it holds is adopted: each block takes its part, doors that read open have their zones granted at MAINTAIN, the order
completes, CLAMPED where a window was clamped. With no adoption in flight nothing happens. (The order of the parts and
of several changes on one bulletin is the model's, logs 18 and 19; so is that the profile record keeps its refusal
after a success, log 32. The checks and the profile themselves: CandidateIsChecked.) -/
def Obligations.CopyEnds : Prop :=
  ∀ (p : Part) (w : List Instr),
    (p.cvt.adoption = none → Leads .copyEnd ⟨p, w⟩ fun q => q = p) ∧
    ∀ (a : Adoption) (e : InFlight), p.cvt.adoption = some a → a.ref = e.ref →
      let m : Memory := a.candidate ++ Memory.span p.mem (0x5000 + a.progress) 0x8000
      let f := m.profile
      let unsealed := p.cvt.profile ≠ none ∧ ∃ z : Fin 8, p.sac.zones[z].state ≠ .sealed
      (∀ r, m.refusal = some r ∨ (m.refusal = none ∧ unsealed ∧ r = ⟨.state, 2, none⟩) →
        Leads .copyEnd ⟨p, w⟩ fun q => p.refusesProfile q r ∧
          (p.odk.holds e → p.concludes q e r.result r.detail ∧ p.tells q [e.told, (.profileRefused, 0)] ∧
            Memory.storesOnly p.mem q.mem
              [.cell e.ref.cell, .bulletin 0, .bulletin 1, .mirror .profile, .mirror .odk]) ∧
          (p.odk.entry e.ref = some e → e.orphaned = true →
            q.odk = { p.odk with inflight := p.odk.without e.ref } ∧ p.tells q [(.profileRefused, 0)] ∧
            Memory.storesOnly p.mem q.mem [.bulletin 1, .mirror .profile, .mirror .odk])) ∧
      (m.refusal = none → ¬ unsealed → Leads .copyEnd ⟨p, w⟩ fun q =>
        let opens (z : Fin 8) := f.zones[z].doorPresent = true ∧ p.sac.zones[z].door = true
        let stale (i : Fin 16) := p.spm.ports[i].silent = true ∧ p.spm.ports[i].role ≠ f.ports[i].role
        q.cvt.profile = some f ∧ q.cvt.adoption = none ∧ q.cvt.tracker = .ready ∧
        q.cvt.position = p.cvt.position ∧ q.cvt.highWater = p.cvt.position ∧ q.cvt.depth = 0 ∧
        q.mtu.syncMode = f.syncMode ∧ q.rbp.rotation = f.rotation ∧ q.rbp.cursor = 0 ∧
        (∀ z, opens z → q.sac.zones[z].state = .opened ∧ q.sac.zones[z].level = .maintain ∧
          q.sac.zones[z].origin = .adoption ∧ q.sac.zones[z].badge = 0 ∧
          ∀ r : Fin 6, f.zones[z].robots.getLsbD r.val = true → q.rbp.robots[r].runReq = false) ∧
        (∀ i c, stale i → p.spm.ports[i].role = .camera c → q.ctu.cameras[c].portSilent = false) ∧
        ((∀ z, ¬ opens z) → (∀ i, ¬ stale i) → p.mtu.pendingStep = none → p.cvt.paceState ≠ .timed → p.odk.holds e →
          q.mtu = (if p.mtu.syncMode = f.syncMode then p.mtu else
            { p.mtu with syncMode := f.syncMode, syncState := .absent, windowEnd := none, lossDeadline := none }) ∧
          q.cvt = { p.cvt with
            highWater := p.cvt.position, depth := 0, excursion := false, phase := 0, markCount := 0, marks := []
            pace := 0, paceState := .crawl, tracker := .ready, profile := some f, adoption := none
            profileRecord := { p.cvt.profileRecord with
              count := min 65535 (p.cvt.profileRecord.count + 1), adoptedAt := Time.low p.now } } ∧
          q.rbp = p.rbp.under f ∧ q.ctu = p.ctu.under f ∧ q.spm = p.spm.under f p.now ∧ q.sac = p.sac.under f ∧
          q = { p with mtu := q.mtu, cvt := q.cvt, rbp := q.rbp, ctu := q.ctu, spm := q.spm, sac := q.sac, odk := q.odk
                       rpu := q.rpu, mem := q.mem } ∧
          p.concludes q e (if ∃ r : Fin 6, f.pitch < f.robots[r].window.closing then .clamped else .ok) ∧
          q.mirrored .profile ∧
          p.tells q ([(.profiled, 0)] ++
            ((sixes.filter fun r => (f.robots[r].window.clamped f.pitch).zero).map fun r =>
              (.zeroWindow, robotMember r)) ++ [e.told])))

/-! ## 10. Orders, bulletins and outcome pages -/

/-- R176, R177: HAND_WRITE, judged against the hand as it stands. A cell of the host's is posted at the tail of the
queue or freed, a POSTED one withdrawn from wherever it stands; any other write is a protocol error and leaves the word
(so does one over a hand above 4, which no run has, log 32). Before READY and in an exchange reset it is discarded. -/
def Obligations.HandWritesAreJudged : Prop :=
  ∀ (p : Part) (w : List Instr) (cell : Fin 48) (value : Half),
    let hand := (Memory.hand p.mem cell).toNat
    let new := value.toNat % 256
    let theirs := hand = 0 ∨ hand = 3 ∨ hand = 4
    let stored (q : Part) :=
      Memory.read q.mem (cellBase cell) 12 = leBytes 2 value.toNat ++ (Memory.read p.mem (cellBase cell) 12).drop 2
    let queues (q : Part) (queue : List (Fin 48)) :=
      q.odk = { p.odk with queue := queue } ∧ q = { p with odk := q.odk, rpu := q.rpu, mem := q.mem } ∧
      p.tells q [] ∧ stored q ∧ q.mirrored .odk ∧ Memory.storesOnly p.mem q.mem [.cell cell, .mirror .odk]
    (p.rpu.phase ≠ .ready → Leads (.handWrite cell value) ⟨p, w⟩ fun q => q = p) ∧
    (p.rpu.phase = .ready →
      (theirs → new = 1 → Leads (.handWrite cell value) ⟨p, w⟩ fun q => queues q (p.odk.queue ++ [cell])) ∧
      (theirs → new = 0 → Leads (.handWrite cell value) ⟨p, w⟩ fun q =>
        q = { p with mem := q.mem } ∧ stored q ∧ Memory.storesOnly p.mem q.mem [.cell cell]) ∧
      (hand = 1 → new = 0 → Leads (.handWrite cell value) ⟨p, w⟩ fun q =>
        queues q (p.odk.queue.filter fun n => n ≠ cell)) ∧
      (¬ (theirs ∧ new < 2) → ¬ (hand = 1 ∧ new = 0) → Leads (.handWrite cell value) ⟨p, w⟩ fun q =>
        p.errs q .protocolError (BitVec.ofNat 8 cell.val)))

/-- R178, R181 (and log 3, that the row of an order is its take): ORDER_TAKE takes the cell at the head of the queue,
unless a line reset is in progress: it is the row of the order in that cell, its kind and its parameters at the offsets
of R181, and no other order row finds anything to take. A kind that is none of the table's is refused with KIND, an
order on a robot, a zone or the profile that an order in flight is on with BUSY, a PROFILE_ADOPT too, of which the
profile record then shows nothing (the model's choice, log 39). -/
def Obligations.OrderTakeServesTheHead : Prop :=
  ∀ (p : Part) (w : List Instr),
    let idle := p.rpu.lineResetBusy = true ∨ p.odk.queue = []
    (idle → Leads .orderTake ⟨p, w⟩ fun q => q = p) ∧
    (∀ (n : Fin 48) (o : Order), idle ∨ p.odk.queue.head? ≠ some n ∨ Memory.order p.mem n ≠ some o →
      Leads (orderRow n o) ⟨p, w⟩ fun q => q = p) ∧
    (∀ n : Fin 48, (Memory.order p.mem n = none ↔ (Memory.kind p.mem n).toNat = 0 ∨ 25 < (Memory.kind p.mem n).toNat) ∧
      ∀ o, Memory.order p.mem n = some o → Memory.kind p.mem n = kindCode o ∧ Memory.spells p.mem n o) ∧
    (∀ o key, busyKeyOf o = some key ↔
      (∃ (x : Byte) (r : Fin 6), o ∈ [.robotRun x, .robotHalt x, .robotClear x] ∧ x.toNat = r.val ∧
        key = .robot r) ∨
      (∃ (x level : Byte) (length badge : Half) (z : Fin 8),
        o ∈ [.accessRequest x level length badge, .resumeZone x] ∧ x.toNat = z.val ∧ key = .zone z) ∨
      (o ∈ [.profileAdopt, .lineStart] ∧ key = .profile)) ∧
    ∀ (cell : Fin 48) (rest : List (Fin 48)), p.rpu.lineResetBusy = false → p.odk.queue = cell :: rest →
      (∀ o, Memory.order p.mem cell = some o → exec .orderTake ⟨p, w⟩ = exec (orderRow cell o) ⟨p, w⟩) ∧
      ((∀ e ∈ p.odk.inflight, e.ref ≠ p.nextRef cell) →
        (Memory.order p.mem cell = none → Leads .orderTake ⟨p, w⟩ fun q => p.onlyAnswers q cell .kind) ∧
        (∀ o, ∀ e ∈ p.odk.inflight, Memory.order p.mem cell = some o → e.key ≠ none → e.key = busyKeyOf o →
          Leads .orderTake ⟨p, w⟩ fun q => p.onlyAnswers q cell .busy))

/-- R174, R184, R195, R196: what the host writes. SEEN_WRITE stores the count and, where it has caught up, returns the
level to INFO and clears its NEWS bit; INT_LEVEL sets the threshold; a write to a watched word is the arrival at its
owner, any other write to the memory is stored and the copy in progress goes on; registers the table discards keep
everything. Before READY nothing is stored; an offset that is no word of the memory does not exist. (How far the copy
has come is the command's own operand, in whole words, log 6; an INT_LEVEL write of the threshold that stands rewrites
nothing, log 32.) -/
def Obligations.HostWritesAreTaken : Prop :=
  ∀ (p : Part) (w : List Instr) (value : Half),
    (∀ b : Fin 10,
      let k := p.rpu.bulletins[b]
      (p.rpu.phase ≠ .ready → Leads (.seenWrite b value) ⟨p, w⟩ fun q => q = p) ∧
      (p.rpu.phase = .ready → Leads (.seenWrite b value) ⟨p, w⟩ fun q =>
        q.rpu = { p.rpu with bulletins := p.rpu.bulletins.set b (if value = k.change then
          { k with seen := value, level := .info, levelCause := 0, levelMember := 0 } else { k with seen := value }) } ∧
        q = { p with rpu := q.rpu, mem := q.mem } ∧
        Memory.read q.mem (bulletinBase b + 2) 2 = leBytes 2 value.toNat ∧
        (value = k.change → Memory.read q.mem (bulletinBase b + 4) 3 = [0, 0, 0]) ∧
        ((q.registerRead 2).getLsbD b.val = true ↔ value ≠ k.change) ∧
        Memory.storesOnly p.mem q.mem [.bulletin b])) ∧
    (let threshold := min value.toNat 3
     (p.rpu.phase = .startingUp ∨ p.rpu.threshold = threshold → Leads (.intLevel value) ⟨p, w⟩ fun q => q = p) ∧
     (p.rpu.phase ≠ .startingUp → p.rpu.threshold ≠ threshold → Leads (.intLevel value) ⟨p, w⟩ fun q =>
      q.rpu = { p.rpu with threshold := threshold, updateCounts := q.rpu.updateCounts } ∧
      q = { p with rpu := q.rpu, mem := q.mem } ∧ q.registerRead 3 = BitVec.ofNat 16 threshold ∧ q.mirrored .rpu ∧
      (q.int = true ↔ ∃ b : Fin 10, p.rpu.bulletins[b].change ≠ p.rpu.bulletins[b].seen ∧
        threshold ≤ p.rpu.bulletins[b].level.code) ∧
      Memory.storesOnly p.mem q.mem [.mirror .rpu])) ∧
    (∀ offset progress : Nat,
      let write := Instr.hostMemoryWrite offset value progress
      (0x8000 ≤ offset ∨ offset % 2 = 1 → exec write ⟨p, w⟩ = .fault (.offExchangeMemory offset)) ∧
      (offset < 0x8000 → offset % 2 = 0 → p.rpu.phase ≠ .ready → Leads write ⟨p, w⟩ fun q => q = p) ∧
      (offset < 0x8000 → offset % 2 = 0 → p.rpu.phase = .ready → watchedOffset offset = false →
        Leads write ⟨p, w⟩ fun q =>
          q = { p with cvt := q.cvt, mem := q.mem } ∧ Memory.read q.mem offset 2 = leBytes 2 value.toNat ∧
          (∀ x, x ≠ offset → x ≠ offset + 1 → Memory.byte q.mem x = Memory.byte p.mem x) ∧
          (p.cvt.adoption = none → q.cvt = p.cvt) ∧
          ∀ a, p.cvt.adoption = some a →
            let read := min (progress - progress % 2) 12288
            q.cvt = { p.cvt with adoption := some { a with
              progress := max a.progress read
              candidate := a.candidate ++ Memory.span p.mem (0x5000 + a.progress) (0x5000 + read) } })) ∧
    (∀ b : Fin 10, exec (.hostMemoryWrite (0x0102 + 16 * b.val) value 0) ⟨p, w⟩ = exec (.seenWrite b value) ⟨p, w⟩) ∧
    (∀ n : Fin 48, exec (.hostMemoryWrite (0x0200 + 64 * n.val) value 0) ⟨p, w⟩ = exec (.handWrite n value) ⟨p, w⟩) ∧
    (∀ i : Fin 8,
      exec (.hostMemoryWrite (0x0E40 + 16 * i.val) value 0) ⟨p, w⟩ = exec (.pageStateWrite i value) ⟨p, w⟩) ∧
    (∀ register : Fin 8, register.val ≠ 3 → register.val ≠ 4 ∨ (value ≠ 1 ∧ value ≠ 2) →
      Leads (.registerWriteDiscarded register value) ⟨p, w⟩ fun q => q = p) ∧
    exec (.registerWriteDiscarded 3 value) ⟨p, w⟩ = exec (.intLevel value) ⟨p, w⟩ ∧
    exec (.registerWriteDiscarded 4 1) ⟨p, w⟩ = exec .exchangeReset ⟨p, w⟩ ∧
    exec (.registerWriteDiscarded 4 2) ⟨p, w⟩ = exec (.lineReset false) ⟨p, w⟩

/-- R186, R189, R191: PAGE_AGE, OUTCOME_FLUSH and PAGE_STATE_WRITE close and return pages. The age deadline reached
closes the FILLING page, a flush closes it if it holds a record; the page after it, if EMPTY, becomes FILLING. A FULL
page is returned EMPTY, and becomes FILLING where it is the next page and none is FILLING; any other write but EMPTY over
EMPTY is a page error. FAULT_UNLOCK with the right count clears the fault record, with another it is refused. (UNLOCKED
told with member 0 is the model's choice, log 37.) -/
def Obligations.PagesTurnAndFaultsUnlock : Prop :=
  ∀ (p : Part) (w : List Instr),
    ((∀ t, p.rpu.ageDeadline = some t → (p.now - t).toInt < 0) ∨ p.fillingPage = none →
      Leads .pageAge ⟨p, w⟩ fun q => q = p) ∧
    (∀ t i, p.rpu.ageDeadline = some t → 0 ≤ (p.now - t).toInt → p.fillingPage = some i →
      Leads .pageAge ⟨p, w⟩ fun q =>
        p.closes q i .age [] ∧ q = { p with rpu := q.rpu, mem := q.mem } ∧ q.mirrored .rpu ∧
        Memory.storesOnly p.mem q.mem [.entry i, .entry (i + 1), .bulletin 8, .mirror .rpu]) ∧
    (∀ cell : Fin 48, p.canTake cell .outcomeFlush →
      ((∀ i, p.fillingPage = some i → p.rpu.pages[i].count = 0) →
        Leads (.outcomeFlush cell) ⟨p, w⟩ fun q => p.onlyAnswers q cell .ok) ∧
      (∀ i, p.fillingPage = some i → p.rpu.pages[i].count ≠ 0 → Leads (.outcomeFlush cell) ⟨p, w⟩ fun q =>
        p.closes q i .flush [] ∧ q = { p with odk := q.odk, rpu := q.rpu, mem := q.mem } ∧ p.answers q cell .ok ∧
        Memory.storesOnly p.mem q.mem
          [.cell cell, .entry i, .entry (i + 1), .bulletin 8, .mirror .rpu, .mirror .odk])) ∧
    (∀ (i : Fin 8) (value : Half),
      let g := p.rpu.pages[i]
      let new := value.toNat % 256
      let empty : Page := { g with state := .empty, count := 0, cause := .none }
      (p.rpu.phase ≠ .ready ∨ (new = 0 ∧ g.state = .empty) →
        Leads (.pageStateWrite i value) ⟨p, w⟩ fun q => q = p) ∧
      (p.rpu.phase = .ready → new ≠ 0 ∨ g.state = .filling → Leads (.pageStateWrite i value) ⟨p, w⟩ fun q =>
        p.errs q .pageError (BitVec.ofNat 8 i.val)) ∧
      (p.rpu.phase = .ready → new = 0 → g.state = .full → p.rpu.nextPage ≠ i ∨ p.fillingPage ≠ none →
        Leads (.pageStateWrite i value) ⟨p, w⟩ fun q =>
          q = { p with rpu := { p.rpu with pages := p.rpu.pages.set i empty }, mem := q.mem } ∧
          Memory.read q.mem (entryBase i) 4 = [0, 0, 0, 0] ∧ Memory.storesOnly p.mem q.mem [.entry i]) ∧
      (p.rpu.phase = .ready → new = 0 → g.state = .full → p.rpu.nextPage = i → p.fillingPage = none →
        Leads (.pageStateWrite i value) ⟨p, w⟩ fun q =>
          let next := Page.filling p.rpu.lastPageSeq
          q.rpu = { p.rpu with pages := p.rpu.pages.set i next, lastPageSeq := next.sequence, dropping := false
                               updateCounts := q.rpu.updateCounts } ∧
          q = { p with rpu := q.rpu, mem := q.mem } ∧ Memory.read q.mem (entryBase i) 16 = next.bytes ∧
          q.mirrored .rpu ∧ Memory.storesOnly p.mem q.mem [.entry i, .mirror .rpu])) ∧
    (∀ (cell : Fin 48) (count : Half), p.canTake cell (.faultUnlock count) →
      let f := p.rpu.fault
      (f.kind = none → Leads (.faultUnlock cell count) ⟨p, w⟩ fun q => p.onlyAnswers q cell .ok) ∧
      (f.kind ≠ none → count.toNat ≠ f.further →
        Leads (.faultUnlock cell count) ⟨p, w⟩ fun q => p.onlyAnswers q cell .state) ∧
      (f.kind ≠ none → count.toNat = f.further → Leads (.faultUnlock cell count) ⟨p, w⟩ fun q =>
        q.rpu = { p.rpu with fault := ⟨none, 0, 0, 0, 0⟩, bulletins := announced p.rpu.bulletins q.now [(.unlocked, 0)]
                             updateCounts := q.rpu.updateCounts } ∧
        q = { p with odk := q.odk, rpu := q.rpu, mem := q.mem } ∧ p.answers q cell .ok ∧
        Memory.read q.mem 0x0E00 16 = List.replicate 16 0 ∧
        Memory.storesOnly p.mem q.mem [.cell cell, .fault, .bulletin 9, .mirror .odk]))

/-- R197: POWER_ON puts every block at its power-on values and 0 into the memory; STARTUP_COMPLETE writes the header,
the board and the mirror and shows READY. EXCHANGE_RESET empties the host's side (queue, cells, bulletins, pages) and
orphans what is in flight, and touches nothing of the line; host reads of the memory are 0 until EXCHANGE_RESET_END. The
model's choices: what power-on leaves where the spec is silent (log 7), the memory 0 at power-on (log 9), the last step
shown as 0 (log 14), page bytes, times and members zeroed by an exchange reset (log 15), the board written from the
state as it stands at STARTUP_COMPLETE (log 30), the time of the last adoption 0 before any (log 40), every byte of the
staging area kept by an exchange reset, those that R194 assigns to no field too (log 42). -/
def Obligations.PowerAndExchangeReset : Prop :=
  ∀ (p : Part) (w : List Instr),
    let header (dropped : Nat) : List Byte := [3, 0, 48, 0, 10, 0, 8, 0, 32, 0, 0, 1] ++ leBytes 4 dropped
    let board (q : Part) :=
      Memory.read q.mem 0 16 = header q.rpu.dropped ∧ (∀ b : Fin 10, Memory.read q.mem (bulletinBase b) 16 =
        q.rpu.bulletins[b].bytes) ∧ (∀ i : Fin 8, Memory.read q.mem (entryBase i) 16 = q.rpu.pages[i].bytes) ∧
      Memory.read q.mem 0x0E00 16 = q.rpu.fault.bytes ∧ ∀ m : MirrorId, q.mirrored m
    (∀ pins : Pins, Leads (.powerOn pins) ⟨p, w⟩ fun q =>
      q = { Part.powerOn pins with freeCount := p.freeCount } ∧ q.now = 0 ∧ q.mtu.trim = 0 ∧
      q.mtu.increment = 85899346 ∧ q.mtu.syncMode = .none ∧ q.mtu.syncState = .absent ∧ q.cvt.position = 0 ∧
      q.cvt.highWater = 0 ∧ q.cvt.tracker = .unprofiled ∧ q.cvt.profile = none ∧ q.cvt.paceState = .crawl ∧
      q.trl.records = [] ∧ q.trl.nextSeq = 1 ∧ q.rbp.rotation = ⟨[none], false⟩ ∧
      (∀ r : Fin 6, q.rbp.robots[r].state = .stopped ∧ q.rbp.robots[r].live = ⟨0, 0⟩) ∧
      (∀ c : Fin 6, q.cameraState c = .off ∧ q.trig c = false) ∧ q.eject = false ∧ q.spm.hallHold = false ∧
      (∀ i : Fin 16, q.spm.ports[i].role = .unassigned ∧ q.spm.ports[i].admission = .closed ∧
        q.spm.ports[i].link = pins.link.getLsbD i.val) ∧
      (∀ z : Fin 8, q.sac.zones[z].state = .sealed ∧ q.sac.zones[z].level = .none ∧ q.sac.zones[z].doorRel = false ∧
        q.sac.zones[z].door = pins.door.getLsbD z.val ∧ q.sac.zones[z].button = pins.req.getLsbD z.val) ∧
      q.odk = ⟨[], [], 0, 0⟩ ∧ q.rpu.threshold = 1 ∧ q.rpu.outcomeNumber = 0 ∧ q.rpu.lastPageSeq = 1 ∧
      q.fillingPage = some 0 ∧ (∀ a, Memory.byte q.mem a = 0) ∧ ∀ register, q.registerRead register = 0) ∧
    (p.rpu.phase ≠ .startingUp → Leads .startupComplete ⟨p, w⟩ fun q => q = p) ∧
    (p.rpu.phase = .startingUp → Leads .startupComplete ⟨p, w⟩ fun q =>
      q.rpu = { p.rpu with phase := .ready, updateCounts := q.rpu.updateCounts } ∧
      q = { p with rpu := q.rpu, mem := q.mem } ∧ board q ∧
      ∀ a, (0x0200 ≤ a ∧ a < 0x0E00) ∨ (0x1000 ≤ a ∧ a < 0x3000) ∨ 0x5000 ≤ a →
        Memory.byte q.mem a = Memory.byte p.mem a) ∧
    (p.rpu.phase ≠ .ready → Leads .exchangeReset ⟨p, w⟩ fun q => q = p) ∧
    (p.rpu.phase = .ready → Leads .exchangeReset ⟨p, w⟩ fun q =>
      let first := Page.filling p.rpu.lastPageSeq
      q.odk = { p.odk with
        queue := [], inflight := p.odk.inflight.map fun e => { e with orphaned := true }, protocolErrors := 0 } ∧
      q.rpu = { p.rpu with
        bulletins := Vector.replicate 10 ⟨0, 0, .info, 0, 0, 0, 0, 0⟩, threshold := 1
        pages := (Vector.replicate 8 ⟨.empty, 0, .none, 0, 0, 0⟩).set 0 first, ageDeadline := none, nextPage := 0
        lastPageSeq := first.sequence, dropping := false, dropped := 0, updateCounts := q.rpu.updateCounts
        phase := .exchangeReset } ∧
      q = { p with odk := q.odk, rpu := q.rpu, mem := q.mem } ∧ board q ∧ q.int = false ∧
      (∀ offset, q.memoryRead offset = 0) ∧
      (∀ a, (0x0200 ≤ a ∧ a < 0x0E00) ∨ (0x1000 ≤ a ∧ a < 0x3000) → Memory.byte q.mem a = 0) ∧
      ∀ a, 0x5000 ≤ a → a < 0x8000 → Memory.byte q.mem a = Memory.byte p.mem a) ∧
    (p.rpu.phase ≠ .exchangeReset → Leads .exchangeResetEnd ⟨p, w⟩ fun q => q = p) ∧
    (p.rpu.phase = .exchangeReset → Leads .exchangeResetEnd ⟨p, w⟩ fun q =>
      q = { p with rpu := { p.rpu with phase := .ready } })

/-- R198 with R17, R41, R62, R89, R110, R125, R163, R167: LINE_RESET, by the pin or the register, and its end (log 17).
The queue and the in-flight table are emptied, each block resets, a POSTED or TAKEN cell is written REFUSED with
ABORTED. A zone that was HALTING is granted, its robots being STOPPED; where none was, the FILLING page closes if it
holds a record, and nothing else changes. (The order of the blocks, and so PACE_CRAWL before ABANDONED on the TRACK
bulletin, is the model's, logs 18 and 19; that an aborted order raises no COMPLETED is log 36.) -/
def Obligations.LineResetStopsTheLine : Prop :=
  ∀ (p : Part) (w : List Instr),
    (p.lrst = true → Leads (.lineReset true) ⟨p, w⟩ fun q => q = p) ∧
    (p.rpu.phase = .startingUp ∨ p.rpu.lineResetBusy = true → Leads (.lineReset false) ⟨p, w⟩ fun q => q = p) ∧
    (∀ byPin : Bool, (if byPin then p.lrst = false else p.rpu.phase ≠ .startingUp ∧ p.rpu.lineResetBusy = false) →
      Leads (.lineReset byPin) ⟨p, w⟩ fun q =>
        let set : Part := { p with rpu := { p.rpu with lineResetBusy := true } }
        let aborted : Byte := Result.aborted.code
        q.rpu.lineResetBusy = true ∧ q.lrst = (byPin || p.lrst) ∧ q.syncLine = p.syncLine ∧
        q.odk = { p.odk with queue := [], inflight := [] } ∧ q.mtu = { p.mtu with pendingStep := none } ∧
        q.cvt = { p.cvt with
          tracker := if p.cvt.tracker = .unprofiled then .unprofiled else .ready
          highWater := p.cvt.position, depth := 0, excursion := false, phase := 0, markCount := 0, marks := []
          pace := 0, paceState := .crawl, drainOrder := none, watches := [], adoption := none } ∧
        q.trl = { p.trl with
          records := [], nextSeq := 1, abandoned := min 4294967295 (p.trl.abandoned + p.trl.records.length) } ∧
        q.rbp = { p.rbp with
          robots := p.rbp.robots.map fun k =>
            { k with state := .stopped, haltOrigin := none, faultCause := none, order := none, deadline := none
                     pendingWindow := none, reportList := [], reported := [], openWindows := [], failureRun := 0 }
          pendingRotation := none, cursor := 0 } ∧
        q.rej = { p.rej with output := none, schedule := [], confirm := [] } ∧
        q.rpu.fault = p.rpu.fault ∧ q.rpu.threshold = p.rpu.threshold ∧ q.rpu.phase = p.rpu.phase ∧
        (∀ n : Fin 48,
          let hand := (Memory.hand p.mem n).toNat
          (hand ≠ 1 → hand ≠ 2 →
            Memory.read q.mem (cellBase n) 12 = Memory.read p.mem (cellBase n) 12) ∧
          (hand = 1 → Memory.read q.mem (cellBase n) 12 =
            [4, Memory.kind p.mem n, aborted, 0] ++ leBytes 4 (Time.low q.now).toNat ++
              (Memory.read p.mem (cellBase n) 12).drop 8) ∧
          ∀ e ∈ p.odk.inflight, hand = 2 → e.ref.cell = n → e.orphaned = false →
            (∀ x ∈ p.odk.inflight, x.ref.cell = n → x.orphaned = false → x = e) → q.shows e .aborted) ∧
        (∀ (z : Fin 8) (r : Fin 6) (x : ZoneRequest), p.sac.zones[z].state = .halting →
          p.sac.zones[z].request = some x → p.zoneHasRobot z r = true →
          q.sac.zones[z].state = .opened ∧ q.sac.zones[z].level = .maintain ∧ q.sac.zones[z].origin = x.origin ∧
          q.sac.zones[z].badge = x.badge ∧ q.sac.zones[z].accessOrder = none ∧
          q.sac.zones[z].expiry = some (p.now + BitVec.ofNat 48 (60000000 * x.minutes))) ∧
        ((∀ z : Fin 8, p.sac.zones[z].state ≠ .halting) →
          let told : Tidings := (if p.cvt.paceState = .timed then [(.paceCrawl, 0)] else []) ++
            (if p.trl.records = [] then [] else [(.abandoned, 0)])
          q.spm = p.spm ∧
          q.ctu = { p.ctu with cameras := p.ctu.cameras.map fun k =>
            { k with pulse := none, schedule := [], awaiting := [], degraded := false, degradeCause := none
                     missedRun := 0 } } ∧
          q.sac = { p.sac with zones := Vector.ofFn fun z : Fin 8 =>
            let k := p.sac.zones[z]
            { k with
              accessOrder := none, resumeOrder := none, resumeFailure := none
              haltedByZone := k.haltedByZone ||| resumeBits k.resumeSet, resumeSet := Vector.replicate 6 .absent
              doorRel := if ∃ r : Fin 6, p.zoneHasRobot z r = true then
                  p.hasDoor z && (k.state == .opened || k.state == .overstay) && k.level == .maintain
                else k.doorRel } } ∧
          q.freeCount = p.freeCount ∧
          ((∀ i, p.fillingPage = some i → p.rpu.pages[i].count = 0) → set.tells q told) ∧
          (∀ i, p.fillingPage = some i → p.rpu.pages[i].count ≠ 0 → set.closes q i .lineReset told) ∧
          Memory.storesOnly p.mem q.mem ([.bulletin 1, .bulletin 8] ++ cells.map Area.cell ++ eights.map Area.entry ++
            MirrorId.all.map Area.mirror))) ∧
    (p.rpu.lineResetBusy = false → Leads .lineResetEnd ⟨p, w⟩ fun q => q = { p with lrst := false }) ∧
    (p.rpu.lineResetBusy = true → Leads .lineResetEnd ⟨p, w⟩ fun q =>
      let ended : Part := { p with rpu := { p.rpu with lineResetBusy := false }, lrst := false }
      q = { ended with rpu := q.rpu, mem := q.mem } ∧ ended.tells q [(.lineReset, 0)] ∧
      Memory.storesOnly p.mem q.mem [.bulletin 0])

/-! ## Invariants -/

/-- The machine right after power-on, with every input line low (the model's State.reset, log 7), keeps every invariant
stated below. -/
def Obligations.ResetIsSafe : Prop :=
  let p := State.reset.part
  State.reset.pending = [] ∧ p.tidy ∧ p.depthHolds ∧ p.mergesFit ∧ p.socketsFollowZones ∧ p.doorsFollowRobots ∧ p.heldRobotsRest ∧
    p.zonesNeedProfile

/-- Whatever command waits at the front, a step keeps the memory canonical (log 9), the update counts even (R193), at
most one page FILLING, and with room (R186), and high-water ahead of position by the depth (R20); it keeps the merge
counter within its 32 bits (the ejector's table: 32-bit, saturating), for a part that has it so; and but for a power-on
and a host memory write, no step changes a byte of the profile staging area (R165; that an exchange reset keeps its
unassigned bytes is the model's choice, log 42). -/
def Obligations.EveryStepKeepsTheBoard : Prop :=
  ∀ (p : Part) (w : List Instr) (t : State), p.tidy → p.depthHolds → step ⟨p, w⟩ = .next t →
    t.part.tidy ∧ t.part.depthHolds ∧ (p.mergesFit → t.part.mergesFit) ∧
    ((∀ pins, w.head? ≠ some (.powerOn pins)) → (∀ a v n, w.head? ≠ some (.hostMemoryWrite a v n)) →
      t.part.staging = p.staging)

/-- The laws that guard people hold through every step: a service socket is open only while its zone is not SEALED
(R127), a door is released only over safe robots (R154), a robot that a zone holds neither starts nor runs (R64); with
them, that before the first adoption every zone is SEALED (R144). -/
def Obligations.EveryStepGuardsPeople : Prop :=
  ∀ (p : Part) (w : List Instr) (t : State),
    p.socketsFollowZones → p.doorsFollowRobots → p.heldRobotsRest → p.zonesNeedProfile → step ⟨p, w⟩ = .next t →
    t.part.socketsFollowZones ∧ t.part.doorsFollowRobots ∧ t.part.heldRobotsRest ∧ t.part.zonesNeedProfile
end

