-- ==== Sys2Proof/Laws/State.lean ====
section
/-! SUPPORT. What each updater of the part changes and what it leaves: one theorem per updater, every field true by
rfl,
so that no later proof unfolds a record update. -/

namespace Sys2Proof.Machine

@[simp] theorem Part.modMtu_fields (p : Part) (f : Mtu → Mtu) :
    (p.modMtu f).mtu = f p.mtu ∧ (p.modMtu f).cvt = p.cvt ∧ (p.modMtu f).trl = p.trl ∧ (p.modMtu f).rbp = p.rbp ∧
    (p.modMtu f).ctu = p.ctu ∧ (p.modMtu f).rej = p.rej ∧ (p.modMtu f).spm = p.spm ∧ (p.modMtu f).sac = p.sac ∧
    (p.modMtu f).odk = p.odk ∧ (p.modMtu f).rpu = p.rpu ∧ (p.modMtu f).syncLine = p.syncLine ∧
    (p.modMtu f).lrst = p.lrst ∧ (p.modMtu f).mem = p.mem ∧ (p.modMtu f).freeCount = p.freeCount := by
  refine ⟨?_, ?_, ?_, ?_, ?_, ?_, ?_, ?_, ?_, ?_, ?_, ?_, ?_, ?_⟩ <;> rfl

@[simp] theorem Part.modCvt_fields (p : Part) (f : Cvt → Cvt) :
    (p.modCvt f).cvt = f p.cvt ∧ (p.modCvt f).mtu = p.mtu ∧ (p.modCvt f).trl = p.trl ∧ (p.modCvt f).rbp = p.rbp ∧
    (p.modCvt f).ctu = p.ctu ∧ (p.modCvt f).rej = p.rej ∧ (p.modCvt f).spm = p.spm ∧ (p.modCvt f).sac = p.sac ∧
    (p.modCvt f).odk = p.odk ∧ (p.modCvt f).rpu = p.rpu ∧ (p.modCvt f).syncLine = p.syncLine ∧
    (p.modCvt f).lrst = p.lrst ∧ (p.modCvt f).mem = p.mem ∧ (p.modCvt f).freeCount = p.freeCount := by
  refine ⟨?_, ?_, ?_, ?_, ?_, ?_, ?_, ?_, ?_, ?_, ?_, ?_, ?_, ?_⟩ <;> rfl

@[simp] theorem Part.modTrl_fields (p : Part) (f : Trl → Trl) :
    (p.modTrl f).trl = f p.trl ∧ (p.modTrl f).mtu = p.mtu ∧ (p.modTrl f).cvt = p.cvt ∧ (p.modTrl f).rbp = p.rbp ∧
    (p.modTrl f).ctu = p.ctu ∧ (p.modTrl f).rej = p.rej ∧ (p.modTrl f).spm = p.spm ∧ (p.modTrl f).sac = p.sac ∧
    (p.modTrl f).odk = p.odk ∧ (p.modTrl f).rpu = p.rpu ∧ (p.modTrl f).syncLine = p.syncLine ∧
    (p.modTrl f).lrst = p.lrst ∧ (p.modTrl f).mem = p.mem ∧ (p.modTrl f).freeCount = p.freeCount := by
  refine ⟨?_, ?_, ?_, ?_, ?_, ?_, ?_, ?_, ?_, ?_, ?_, ?_, ?_, ?_⟩ <;> rfl

@[simp] theorem Part.modRbp_fields (p : Part) (f : Rbp → Rbp) :
    (p.modRbp f).rbp = f p.rbp ∧ (p.modRbp f).mtu = p.mtu ∧ (p.modRbp f).cvt = p.cvt ∧ (p.modRbp f).trl = p.trl ∧
    (p.modRbp f).ctu = p.ctu ∧ (p.modRbp f).rej = p.rej ∧ (p.modRbp f).spm = p.spm ∧ (p.modRbp f).sac = p.sac ∧
    (p.modRbp f).odk = p.odk ∧ (p.modRbp f).rpu = p.rpu ∧ (p.modRbp f).syncLine = p.syncLine ∧
    (p.modRbp f).lrst = p.lrst ∧ (p.modRbp f).mem = p.mem ∧ (p.modRbp f).freeCount = p.freeCount := by
  refine ⟨?_, ?_, ?_, ?_, ?_, ?_, ?_, ?_, ?_, ?_, ?_, ?_, ?_, ?_⟩ <;> rfl

@[simp] theorem Part.modCtu_fields (p : Part) (f : Ctu → Ctu) :
    (p.modCtu f).ctu = f p.ctu ∧ (p.modCtu f).mtu = p.mtu ∧ (p.modCtu f).cvt = p.cvt ∧ (p.modCtu f).trl = p.trl ∧
    (p.modCtu f).rbp = p.rbp ∧ (p.modCtu f).rej = p.rej ∧ (p.modCtu f).spm = p.spm ∧ (p.modCtu f).sac = p.sac ∧
    (p.modCtu f).odk = p.odk ∧ (p.modCtu f).rpu = p.rpu ∧ (p.modCtu f).syncLine = p.syncLine ∧
    (p.modCtu f).lrst = p.lrst ∧ (p.modCtu f).mem = p.mem ∧ (p.modCtu f).freeCount = p.freeCount := by
  refine ⟨?_, ?_, ?_, ?_, ?_, ?_, ?_, ?_, ?_, ?_, ?_, ?_, ?_, ?_⟩ <;> rfl

@[simp] theorem Part.modRej_fields (p : Part) (f : Rej → Rej) :
    (p.modRej f).rej = f p.rej ∧ (p.modRej f).mtu = p.mtu ∧ (p.modRej f).cvt = p.cvt ∧ (p.modRej f).trl = p.trl ∧
    (p.modRej f).rbp = p.rbp ∧ (p.modRej f).ctu = p.ctu ∧ (p.modRej f).spm = p.spm ∧ (p.modRej f).sac = p.sac ∧
    (p.modRej f).odk = p.odk ∧ (p.modRej f).rpu = p.rpu ∧ (p.modRej f).syncLine = p.syncLine ∧
    (p.modRej f).lrst = p.lrst ∧ (p.modRej f).mem = p.mem ∧ (p.modRej f).freeCount = p.freeCount := by
  refine ⟨?_, ?_, ?_, ?_, ?_, ?_, ?_, ?_, ?_, ?_, ?_, ?_, ?_, ?_⟩ <;> rfl

@[simp] theorem Part.modSpm_fields (p : Part) (f : Spm → Spm) :
    (p.modSpm f).spm = f p.spm ∧ (p.modSpm f).mtu = p.mtu ∧ (p.modSpm f).cvt = p.cvt ∧ (p.modSpm f).trl = p.trl ∧
    (p.modSpm f).rbp = p.rbp ∧ (p.modSpm f).ctu = p.ctu ∧ (p.modSpm f).rej = p.rej ∧ (p.modSpm f).sac = p.sac ∧
    (p.modSpm f).odk = p.odk ∧ (p.modSpm f).rpu = p.rpu ∧ (p.modSpm f).syncLine = p.syncLine ∧
    (p.modSpm f).lrst = p.lrst ∧ (p.modSpm f).mem = p.mem ∧ (p.modSpm f).freeCount = p.freeCount := by
  refine ⟨?_, ?_, ?_, ?_, ?_, ?_, ?_, ?_, ?_, ?_, ?_, ?_, ?_, ?_⟩ <;> rfl

@[simp] theorem Part.modSac_fields (p : Part) (f : Sac → Sac) :
    (p.modSac f).sac = f p.sac ∧ (p.modSac f).mtu = p.mtu ∧ (p.modSac f).cvt = p.cvt ∧ (p.modSac f).trl = p.trl ∧
    (p.modSac f).rbp = p.rbp ∧ (p.modSac f).ctu = p.ctu ∧ (p.modSac f).rej = p.rej ∧ (p.modSac f).spm = p.spm ∧
    (p.modSac f).odk = p.odk ∧ (p.modSac f).rpu = p.rpu ∧ (p.modSac f).syncLine = p.syncLine ∧
    (p.modSac f).lrst = p.lrst ∧ (p.modSac f).mem = p.mem ∧ (p.modSac f).freeCount = p.freeCount := by
  refine ⟨?_, ?_, ?_, ?_, ?_, ?_, ?_, ?_, ?_, ?_, ?_, ?_, ?_, ?_⟩ <;> rfl

@[simp] theorem Part.modOdk_fields (p : Part) (f : Odk → Odk) :
    (p.modOdk f).odk = f p.odk ∧ (p.modOdk f).mtu = p.mtu ∧ (p.modOdk f).cvt = p.cvt ∧ (p.modOdk f).trl = p.trl ∧
    (p.modOdk f).rbp = p.rbp ∧ (p.modOdk f).ctu = p.ctu ∧ (p.modOdk f).rej = p.rej ∧ (p.modOdk f).spm = p.spm ∧
    (p.modOdk f).sac = p.sac ∧ (p.modOdk f).rpu = p.rpu ∧ (p.modOdk f).syncLine = p.syncLine ∧
    (p.modOdk f).lrst = p.lrst ∧ (p.modOdk f).mem = p.mem ∧ (p.modOdk f).freeCount = p.freeCount := by
  refine ⟨?_, ?_, ?_, ?_, ?_, ?_, ?_, ?_, ?_, ?_, ?_, ?_, ?_, ?_⟩ <;> rfl

@[simp] theorem Part.modRpu_fields (p : Part) (f : Rpu → Rpu) :
    (p.modRpu f).rpu = f p.rpu ∧ (p.modRpu f).mtu = p.mtu ∧ (p.modRpu f).cvt = p.cvt ∧ (p.modRpu f).trl = p.trl ∧
    (p.modRpu f).rbp = p.rbp ∧ (p.modRpu f).ctu = p.ctu ∧ (p.modRpu f).rej = p.rej ∧ (p.modRpu f).spm = p.spm ∧
    (p.modRpu f).sac = p.sac ∧ (p.modRpu f).odk = p.odk ∧ (p.modRpu f).syncLine = p.syncLine ∧
    (p.modRpu f).lrst = p.lrst ∧ (p.modRpu f).mem = p.mem ∧ (p.modRpu f).freeCount = p.freeCount := by
  refine ⟨?_, ?_, ?_, ?_, ?_, ?_, ?_, ?_, ?_, ?_, ?_, ?_, ?_, ?_⟩ <;> rfl

@[simp] theorem Part.modRobot_fields (p : Part) (r : Fin 6) (f : Robot → Robot) :
    (p.modRobot r f).rbp = { p.rbp with robots := modAt p.rbp.robots r f } ∧ (p.modRobot r f).mtu = p.mtu ∧
    (p.modRobot r f).cvt = p.cvt ∧ (p.modRobot r f).trl = p.trl ∧ (p.modRobot r f).ctu = p.ctu ∧
    (p.modRobot r f).rej = p.rej ∧ (p.modRobot r f).spm = p.spm ∧ (p.modRobot r f).sac = p.sac ∧
    (p.modRobot r f).odk = p.odk ∧ (p.modRobot r f).rpu = p.rpu ∧ (p.modRobot r f).syncLine = p.syncLine ∧
    (p.modRobot r f).lrst = p.lrst ∧ (p.modRobot r f).mem = p.mem ∧ (p.modRobot r f).freeCount = p.freeCount := by
  refine ⟨?_, ?_, ?_, ?_, ?_, ?_, ?_, ?_, ?_, ?_, ?_, ?_, ?_, ?_⟩ <;> rfl

@[simp] theorem Part.modCamera_fields (p : Part) (c : Fin 6) (f : Camera → Camera) :
    (p.modCamera c f).ctu = { p.ctu with cameras := modAt p.ctu.cameras c f } ∧ (p.modCamera c f).mtu = p.mtu ∧
    (p.modCamera c f).cvt = p.cvt ∧ (p.modCamera c f).trl = p.trl ∧ (p.modCamera c f).rbp = p.rbp ∧
    (p.modCamera c f).rej = p.rej ∧ (p.modCamera c f).spm = p.spm ∧ (p.modCamera c f).sac = p.sac ∧
    (p.modCamera c f).odk = p.odk ∧ (p.modCamera c f).rpu = p.rpu ∧ (p.modCamera c f).syncLine = p.syncLine ∧
    (p.modCamera c f).lrst = p.lrst ∧ (p.modCamera c f).mem = p.mem ∧ (p.modCamera c f).freeCount = p.freeCount := by
  refine ⟨?_, ?_, ?_, ?_, ?_, ?_, ?_, ?_, ?_, ?_, ?_, ?_, ?_, ?_⟩ <;> rfl

@[simp] theorem Part.modPort_fields (p : Part) (i : Fin 16) (f : Port → Port) :
    (p.modPort i f).spm = { p.spm with ports := modAt p.spm.ports i f } ∧ (p.modPort i f).mtu = p.mtu ∧
    (p.modPort i f).cvt = p.cvt ∧ (p.modPort i f).trl = p.trl ∧ (p.modPort i f).rbp = p.rbp ∧
    (p.modPort i f).ctu = p.ctu ∧ (p.modPort i f).rej = p.rej ∧ (p.modPort i f).sac = p.sac ∧
    (p.modPort i f).odk = p.odk ∧ (p.modPort i f).rpu = p.rpu ∧ (p.modPort i f).syncLine = p.syncLine ∧
    (p.modPort i f).lrst = p.lrst ∧ (p.modPort i f).mem = p.mem ∧ (p.modPort i f).freeCount = p.freeCount := by
  refine ⟨?_, ?_, ?_, ?_, ?_, ?_, ?_, ?_, ?_, ?_, ?_, ?_, ?_, ?_⟩ <;> rfl

@[simp] theorem Part.modZone_fields (p : Part) (z : Fin 8) (f : Zone → Zone) :
    (p.modZone z f).sac = { p.sac with zones := modAt p.sac.zones z f } ∧ (p.modZone z f).mtu = p.mtu ∧
    (p.modZone z f).cvt = p.cvt ∧ (p.modZone z f).trl = p.trl ∧ (p.modZone z f).rbp = p.rbp ∧
    (p.modZone z f).ctu = p.ctu ∧ (p.modZone z f).rej = p.rej ∧ (p.modZone z f).spm = p.spm ∧
    (p.modZone z f).odk = p.odk ∧ (p.modZone z f).rpu = p.rpu ∧ (p.modZone z f).syncLine = p.syncLine ∧
    (p.modZone z f).lrst = p.lrst ∧ (p.modZone z f).mem = p.mem ∧ (p.modZone z f).freeCount = p.freeCount := by
  refine ⟨?_, ?_, ?_, ?_, ?_, ?_, ?_, ?_, ?_, ?_, ?_, ?_, ?_, ?_⟩ <;> rfl

@[simp] theorem Part.modPage_fields (p : Part) (i : Fin 8) (f : Page → Page) :
    (p.modPage i f).rpu = { p.rpu with pages := modAt p.rpu.pages i f } ∧ (p.modPage i f).mtu = p.mtu ∧
    (p.modPage i f).cvt = p.cvt ∧ (p.modPage i f).trl = p.trl ∧ (p.modPage i f).rbp = p.rbp ∧
    (p.modPage i f).ctu = p.ctu ∧ (p.modPage i f).rej = p.rej ∧ (p.modPage i f).spm = p.spm ∧
    (p.modPage i f).sac = p.sac ∧ (p.modPage i f).odk = p.odk ∧ (p.modPage i f).syncLine = p.syncLine ∧
    (p.modPage i f).lrst = p.lrst ∧ (p.modPage i f).mem = p.mem ∧ (p.modPage i f).freeCount = p.freeCount := by
  refine ⟨?_, ?_, ?_, ?_, ?_, ?_, ?_, ?_, ?_, ?_, ?_, ?_, ?_, ?_⟩ <;> rfl

@[simp] theorem Part.modRecord_fields (p : Part) (seq : Word) (f : Record → Record) :
    (p.modRecord seq f).trl = { p.trl with records := p.trl.records.map fun r => if r.seq = seq then f r else r } ∧
    (p.modRecord seq f).mtu = p.mtu ∧ (p.modRecord seq f).cvt = p.cvt ∧ (p.modRecord seq f).rbp = p.rbp ∧
    (p.modRecord seq f).ctu = p.ctu ∧ (p.modRecord seq f).rej = p.rej ∧ (p.modRecord seq f).spm = p.spm ∧
    (p.modRecord seq f).sac = p.sac ∧ (p.modRecord seq f).odk = p.odk ∧ (p.modRecord seq f).rpu = p.rpu ∧
    (p.modRecord seq f).syncLine = p.syncLine ∧ (p.modRecord seq f).lrst = p.lrst ∧ (p.modRecord seq f).mem = p.mem ∧
    (p.modRecord seq f).freeCount = p.freeCount := by
  refine ⟨?_, ?_, ?_, ?_, ?_, ?_, ?_, ?_, ?_, ?_, ?_, ?_, ?_, ?_⟩ <;> rfl

@[simp] theorem Part.store_fields (p : Part) (base : Nat) (bytes : List Byte) :
    (p.store base bytes).mem = Memory.write p.mem base bytes ∧ (p.store base bytes).mtu = p.mtu ∧
    (p.store base bytes).cvt = p.cvt ∧ (p.store base bytes).trl = p.trl ∧ (p.store base bytes).rbp = p.rbp ∧
    (p.store base bytes).ctu = p.ctu ∧ (p.store base bytes).rej = p.rej ∧ (p.store base bytes).spm = p.spm ∧
    (p.store base bytes).sac = p.sac ∧ (p.store base bytes).odk = p.odk ∧ (p.store base bytes).rpu = p.rpu ∧
    (p.store base bytes).syncLine = p.syncLine ∧ (p.store base bytes).lrst = p.lrst ∧
    (p.store base bytes).freeCount = p.freeCount := by
  refine ⟨?_, ?_, ?_, ?_, ?_, ?_, ?_, ?_, ?_, ?_, ?_, ?_, ?_, ?_⟩ <;> rfl

@[simp] theorem Part.setSyncLine_fields (p : Part) (level : Bool) :
    (p.setSyncLine level).syncLine = level ∧ (p.setSyncLine level).mtu = p.mtu ∧ (p.setSyncLine level).cvt = p.cvt ∧
    (p.setSyncLine level).trl = p.trl ∧ (p.setSyncLine level).rbp = p.rbp ∧ (p.setSyncLine level).ctu = p.ctu ∧
    (p.setSyncLine level).rej = p.rej ∧ (p.setSyncLine level).spm = p.spm ∧ (p.setSyncLine level).sac = p.sac ∧
    (p.setSyncLine level).odk = p.odk ∧ (p.setSyncLine level).rpu = p.rpu ∧ (p.setSyncLine level).lrst = p.lrst ∧
    (p.setSyncLine level).mem = p.mem ∧ (p.setSyncLine level).freeCount = p.freeCount := by
  refine ⟨?_, ?_, ?_, ?_, ?_, ?_, ?_, ?_, ?_, ?_, ?_, ?_, ?_, ?_⟩ <;> rfl

@[simp] theorem Part.setLrst_fields (p : Part) (level : Bool) :
    (p.setLrst level).lrst = level ∧ (p.setLrst level).mtu = p.mtu ∧ (p.setLrst level).cvt = p.cvt ∧
    (p.setLrst level).trl = p.trl ∧ (p.setLrst level).rbp = p.rbp ∧ (p.setLrst level).ctu = p.ctu ∧
    (p.setLrst level).rej = p.rej ∧ (p.setLrst level).spm = p.spm ∧ (p.setLrst level).sac = p.sac ∧
    (p.setLrst level).odk = p.odk ∧ (p.setLrst level).rpu = p.rpu ∧ (p.setLrst level).syncLine = p.syncLine ∧
    (p.setLrst level).mem = p.mem ∧ (p.setLrst level).freeCount = p.freeCount := by
  refine ⟨?_, ?_, ?_, ?_, ?_, ?_, ?_, ?_, ?_, ?_, ?_, ?_, ?_, ?_⟩ <;> rfl

@[simp] theorem Part.spendFree_fields (p : Part) :
    p.spendFree.freeCount = p.freeCount + 1 ∧ p.spendFree.mtu = p.mtu ∧ p.spendFree.cvt = p.cvt ∧
    p.spendFree.trl = p.trl ∧ p.spendFree.rbp = p.rbp ∧ p.spendFree.ctu = p.ctu ∧ p.spendFree.rej = p.rej ∧
    p.spendFree.spm = p.spm ∧ p.spendFree.sac = p.sac ∧ p.spendFree.odk = p.odk ∧ p.spendFree.rpu = p.rpu ∧
    p.spendFree.syncLine = p.syncLine ∧ p.spendFree.lrst = p.lrst ∧ p.spendFree.mem = p.mem := by
  refine ⟨?_, ?_, ?_, ?_, ?_, ?_, ?_, ?_, ?_, ?_, ?_, ?_, ?_, ?_⟩ <;> rfl

@[simp] theorem Part.clearBoard_fields (p : Part) :
    p.clearBoard.mem = Memory.span p.mem stagingBase (stagingBase + stagingSize) ∧ p.clearBoard.mtu = p.mtu ∧
    p.clearBoard.cvt = p.cvt ∧ p.clearBoard.trl = p.trl ∧ p.clearBoard.rbp = p.rbp ∧ p.clearBoard.ctu = p.ctu ∧
    p.clearBoard.rej = p.rej ∧ p.clearBoard.spm = p.spm ∧ p.clearBoard.sac = p.sac ∧ p.clearBoard.odk = p.odk ∧
    p.clearBoard.rpu = p.rpu ∧ p.clearBoard.syncLine = p.syncLine ∧ p.clearBoard.lrst = p.lrst ∧
    p.clearBoard.freeCount = p.freeCount := by
  refine ⟨?_, ?_, ?_, ?_, ?_, ?_, ?_, ?_, ?_, ?_, ?_, ?_, ?_, ?_⟩ <;> rfl

/-! ## The state around the part -/

@[simp] theorem State.onPart_part (f : Part → Part) (s : State) : (s.onPart f).part = f s.part := rfl
@[simp] theorem State.onPart_pending (f : Part → Part) (s : State) : (s.onPart f).pending = s.pending := rfl
@[simp] theorem State.after_eq (f : Part → Part) (s : State) : s.after f = .next (s.onPart f) := rfl

/-! ## One entry of a table; indices in the form that simp gives them -/

/-- Every entry of a table after one of them has been changed. -/
theorem modAt_get {α : Type} {n : Nat} (v : Vector α n) (i j : Fin n) (f : α → α) :
    (modAt v i f)[j.val] = if j = i then f v[j.val] else v[j.val] := by
  by_cases h : j = i
  · subst h; simp [modAt]
  · have h' : i.val ≠ j.val := fun e => h (Fin.ext e.symm)
    simp [modAt, h, h']

@[simp] theorem modAt_same {α : Type} {n : Nat} (v : Vector α n) (i : Fin n) (f : α → α) :
    (modAt v i f)[i.val] = f v[i.val] := by simp [modAt]

/-- An entry that is not the changed one. -/
theorem modAt_other {α : Type} {n : Nat} (v : Vector α n) {i j : Fin n} (f : α → α) (h : j ≠ i) :
    (modAt v i f)[j.val] = v[j.val] := by rw [modAt_get, if_neg h]

/-! ## A field that a change of one entry leaves alone, in every entry -/

@[simp] theorem modAt_robot_state (v : Vector Robot 6) (i k : Fin 6) (g : Robot → Robot) (h : ∀ x,
    (g x).state = x.state) :
    (modAt v i g)[k.val].state = v[k.val].state := by rw [modAt_get]; split <;> simp [h]

@[simp] theorem modAt_robot_pins (v : Vector Robot 6) (i k : Fin 6) (g : Robot → Robot) (h : ∀ x,
    (g x).pins = x.pins) :
    (modAt v i g)[k.val].pins = v[k.val].pins := by rw [modAt_get]; split <;> simp [h]

@[simp] theorem modAt_camera_hostService (v : Vector Camera 6) (i k : Fin 6) (g : Camera → Camera) (h : ∀ x,
    (g x).hostService = x.hostService) :
    (modAt v i g)[k.val].hostService = v[k.val].hostService := by rw [modAt_get]; split <;> simp [h]

@[simp] theorem modAt_camera_zoneService (v : Vector Camera 6) (i k : Fin 6) (g : Camera → Camera) (h : ∀ x,
    (g x).zoneService = x.zoneService) :
    (modAt v i g)[k.val].zoneService = v[k.val].zoneService := by rw [modAt_get]; split <;> simp [h]

@[simp] theorem modAt_camera_passLine (v : Vector Camera 6) (i k : Fin 6) (g : Camera → Camera) (h : ∀ x,
    (g x).passLine = x.passLine) :
    (modAt v i g)[k.val].passLine = v[k.val].passLine := by rw [modAt_get]; split <;> simp [h]

@[simp] theorem modAt_camera_failLine (v : Vector Camera 6) (i k : Fin 6) (g : Camera → Camera) (h : ∀ x,
    (g x).failLine = x.failLine) :
    (modAt v i g)[k.val].failLine = v[k.val].failLine := by rw [modAt_get]; split <;> simp [h]

@[simp] theorem modAt_camera_tagIn (v : Vector Camera 6) (i k : Fin 6) (g : Camera → Camera) (h : ∀ x,
    (g x).tagIn = x.tagIn) :
    (modAt v i g)[k.val].tagIn = v[k.val].tagIn := by rw [modAt_get]; split <;> simp [h]

@[simp] theorem modAt_port_role (v : Vector Port 16) (i k : Fin 16) (g : Port → Port) (h : ∀ x, (g x).role = x.role) :
    (modAt v i g)[k.val].role = v[k.val].role := by rw [modAt_get]; split <;> simp [h]

@[simp] theorem modAt_port_admission (v : Vector Port 16) (i k : Fin 16) (g : Port → Port) (h : ∀ x,
    (g x).admission = x.admission) :
    (modAt v i g)[k.val].admission = v[k.val].admission := by rw [modAt_get]; split <;> simp [h]

@[simp] theorem modAt_port_link (v : Vector Port 16) (i k : Fin 16) (g : Port → Port) (h : ∀ x, (g x).link = x.link) :
    (modAt v i g)[k.val].link = v[k.val].link := by rw [modAt_get]; split <;> simp [h]

@[simp] theorem modAt_port_act (v : Vector Port 16) (i k : Fin 16) (g : Port → Port) (h : ∀ x, (g x).act = x.act) :
    (modAt v i g)[k.val].act = v[k.val].act := by rw [modAt_get]; split <;> simp [h]

@[simp] theorem modAt_zone_state (v : Vector Zone 8) (i k : Fin 8) (g : Zone → Zone) (h : ∀ x,
    (g x).state = x.state) :
    (modAt v i g)[k.val].state = v[k.val].state := by rw [modAt_get]; split <;> simp [h]

@[simp] theorem modAt_zone_level (v : Vector Zone 8) (i k : Fin 8) (g : Zone → Zone) (h : ∀ x,
    (g x).level = x.level) :
    (modAt v i g)[k.val].level = v[k.val].level := by rw [modAt_get]; split <;> simp [h]

@[simp] theorem modAt_zone_origin (v : Vector Zone 8) (i k : Fin 8) (g : Zone → Zone) (h : ∀ x,
    (g x).origin = x.origin) :
    (modAt v i g)[k.val].origin = v[k.val].origin := by rw [modAt_get]; split <;> simp [h]

@[simp] theorem modAt_zone_door (v : Vector Zone 8) (i k : Fin 8) (g : Zone → Zone) (h : ∀ x, (g x).door = x.door) :
    (modAt v i g)[k.val].door = v[k.val].door := by rw [modAt_get]; split <;> simp [h]

@[simp] theorem modAt_zone_doorLine (v : Vector Zone 8) (i k : Fin 8) (g : Zone → Zone) (h : ∀ x,
    (g x).doorLine = x.doorLine) :
    (modAt v i g)[k.val].doorLine = v[k.val].doorLine := by rw [modAt_get]; split <;> simp [h]

@[simp] theorem modAt_zone_button (v : Vector Zone 8) (i k : Fin 8) (g : Zone → Zone) (h : ∀ x,
    (g x).button = x.button) :
    (modAt v i g)[k.val].button = v[k.val].button := by rw [modAt_get]; split <;> simp [h]

@[simp] theorem modAt_zone_reqLine (v : Vector Zone 8) (i k : Fin 8) (g : Zone → Zone) (h : ∀ x,
    (g x).reqLine = x.reqLine) :
    (modAt v i g)[k.val].reqLine = v[k.val].reqLine := by rw [modAt_get]; split <;> simp [h]

end Sys2Proof.Machine
end

