-- ==== Sys2Proof/Laws/Memory.lean ====
section
/-! SUPPORT. The exchange memory: one byte of every operation's result, and that each keeps the canonical form. -/

namespace Sys2Proof.Machine

/-! ## The canonical form -/

theorem Memory.wf_iff (m : Memory) :
    Memory.wf m = true ↔ m.Pairwise (fun c d => c.1 < d.1) ∧ ∀ c ∈ m, c.2 ≠ 0 := by
  simp [Memory.wf, List.all_eq_true]

@[simp] theorem Memory.wf_nil : Memory.wf [] = true := rfl

/-- The entries of a block lie inside it. -/
theorem Memory.entries_range (bytes : List Byte) (base : Nat) :
    ∀ c ∈ Memory.entries base bytes, base ≤ c.1 ∧ c.1 < base + bytes.length ∧ c.2 ≠ 0 := by
  induction bytes generalizing base with
  | nil => simp [Memory.entries]
  | cons b bs ih =>
    intro c hc
    unfold Memory.entries at hc
    split at hc
    · obtain ⟨h1, h2, h3⟩ := ih (base + 1) c hc
      simp only [List.length_cons]
      exact ⟨by omega, by omega, h3⟩
    · rename_i hb
      rcases List.mem_cons.mp hc with h | h
      · subst h; simp only [List.length_cons]; exact ⟨Nat.le_refl _, by simp, hb⟩
      · obtain ⟨h1, h2, h3⟩ := ih (base + 1) c h
        simp only [List.length_cons]
        exact ⟨by omega, by omega, h3⟩

theorem Memory.entries_sorted (bytes : List Byte) (base : Nat) :
    (Memory.entries base bytes).Pairwise (fun c d => c.1 < d.1) := by
  induction bytes generalizing base with
  | nil => simp [Memory.entries]
  | cons b bs ih =>
    unfold Memory.entries
    split
    · exact ih _
    · refine List.pairwise_cons.mpr ⟨fun c hc => ?_, ih _⟩
      have := (Memory.entries_range bs (base + 1) c hc).1
      simp only; omega

/-- A write keeps the canonical form. -/
theorem Memory.write_wf (m : Memory) (base : Nat) (bytes : List Byte) (h : Memory.wf m = true) :
    Memory.wf (Memory.write m base bytes) = true := by
  rw [Memory.wf_iff] at h ⊢
  obtain ⟨hs, hz⟩ := h
  unfold Memory.write
  refine ⟨?_, ?_⟩
  · rw [List.pairwise_append]
    refine ⟨hs.filter _, ?_, ?_⟩
    · rw [List.pairwise_append]
      refine ⟨Memory.entries_sorted _ _, hs.filter _, ?_⟩
      intro c hc d hd
      have h1 := (Memory.entries_range bytes base c hc).2.1
      have h2 := (List.mem_filter.mp hd).2
      simp only [decide_eq_true_eq] at h2
      omega
    · intro c hc d hd
      have h1 := (List.mem_filter.mp hc).2
      simp only [decide_eq_true_eq] at h1
      rcases List.mem_append.mp hd with h | h
      · have := (Memory.entries_range bytes base d h).1; omega
      · have h2 := (List.mem_filter.mp h).2
        simp only [decide_eq_true_eq] at h2
        omega
  · intro c hc
    rcases List.mem_append.mp hc with h | h
    · exact hz c (List.mem_filter.mp h).1
    · rcases List.mem_append.mp h with h | h
      · exact (Memory.entries_range bytes base c h).2.2
      · exact hz c (List.mem_filter.mp h).1

/-- A part of the memory keeps the canonical form. -/
theorem Memory.span_wf (m : Memory) (low high : Nat) (h : Memory.wf m = true) :
    Memory.wf (Memory.span m low high) = true := by
  rw [Memory.wf_iff] at h ⊢
  exact ⟨h.1.filter _, fun c hc => h.2 c (List.mem_filter.mp hc).1⟩

/-! ## One byte -/

/-- A byte of two joined lists: the first list's where it lists the offset. -/
theorem Memory.byte_append (m n : Memory) (a : Nat) :
    Memory.byte (m ++ n) a = if m.any (fun c => c.1 == a) then Memory.byte m a else Memory.byte n a := by
  induction m with
  | nil => simp
  | cons c m ih =>
    obtain ⟨k, b⟩ := c
    by_cases h : k = a
    · subst h; simp [Memory.byte]
    · simp [Memory.byte, h, ih]

/-- A byte that no entry lists reads 0. -/
theorem Memory.byte_absent (m : Memory) (a : Nat) (h : ∀ c ∈ m, c.1 ≠ a) : Memory.byte m a = 0 := by
  induction m with
  | nil => rfl
  | cons c m ih =>
    obtain ⟨k, b⟩ := c
    have hk : k ≠ a := h (k, b) (by simp)
    simp only [Memory.byte, if_neg hk]
    exact ih fun c hc => h c (by simp [hc])

/-- A filter that keeps every entry of an offset keeps its byte. -/
theorem Memory.byte_filter (m : Memory) (keep : Host.Cell → Bool) (a : Nat) (h : ∀ c, c.1 = a → keep c = true) :
    Memory.byte (m.filter keep) a = Memory.byte m a := by
  induction m with
  | nil => rfl
  | cons c m ih =>
    obtain ⟨k, b⟩ := c
    by_cases hk : k = a
    · subst hk
      rw [List.filter_cons_of_pos (h (k, b) rfl)]
      simp [Memory.byte]
    · by_cases hf : keep (k, b) = true
      · rw [List.filter_cons_of_pos hf]; simp only [Memory.byte, if_neg hk, ih]
      · rw [List.filter_cons_of_neg hf]; simp only [Memory.byte, if_neg hk, ih]

/-- A filter that drops every entry of an offset leaves 0 there. -/
theorem Memory.byte_filter_out (m : Memory) (keep : Host.Cell → Bool) (a : Nat) (h : ∀ c, c.1 = a → keep c = false) :
    Memory.byte (m.filter keep) a = 0 := by
  refine Memory.byte_absent _ _ fun c hc e => ?_
  have h1 := h c e
  rw [(List.mem_filter.mp hc).2] at h1
  exact Bool.noConfusion h1

theorem Memory.entries_cons (base : Nat) (b : Byte) (bs : List Byte) :
    Memory.entries base (b :: bs) =
      if b = 0 then Memory.entries (base + 1) bs else (base, b) :: Memory.entries (base + 1) bs := by
  rw [Memory.entries]

theorem Memory.byte_entries (bytes : List Byte) (base a : Nat) :
    Memory.byte (Memory.entries base bytes) a = if base ≤ a then bytes.getD (a - base) 0 else 0 := by
  induction bytes generalizing base with
  | nil => simp [Memory.entries, Memory.byte]
  | cons b bs ih =>
    rw [Memory.entries_cons]
    by_cases h : a = base
    · subst h
      by_cases hb : b = 0
      · rw [if_pos hb, ih, if_neg (by omega)]; simp [hb]
      · rw [if_neg hb]; simp [Memory.byte]
    · have e : Memory.byte (if b = 0 then Memory.entries (base + 1) bs
          else (base, b) :: Memory.entries (base + 1) bs) a = Memory.byte (Memory.entries (base + 1) bs) a := by
        split
        · rfl
        · simp only [Memory.byte, if_neg (Ne.symm h)]
      rw [e, ih]
      by_cases h1 : base ≤ a
      · have h2 : base + 1 ≤ a := by omega
        have h3 : a - base = (a - (base + 1)) + 1 := by omega
        rw [if_pos h1, if_pos h2, h3, List.getD_cons_succ]
      · rw [if_neg h1, if_neg (by omega)]

/-- A byte of two joined lists, where the first lists nothing at the offset. -/
theorem Memory.byte_append_right (m n : Memory) (a : Nat) (h : ∀ c ∈ m, c.1 ≠ a) :
    Memory.byte (m ++ n) a = Memory.byte n a := by
  rw [Memory.byte_append, if_neg]
  simpa using fun b hc => h (a, b) hc rfl

/-- A byte of two joined lists, where the second reads 0 at the offset. -/
theorem Memory.byte_append_left (m n : Memory) (a : Nat) (h : Memory.byte n a = 0) :
    Memory.byte (m ++ n) a = Memory.byte m a := by
  rw [Memory.byte_append]
  split
  · rfl
  · rename_i hn
    rw [h, Memory.byte_absent m a]
    intro c hc e
    exact hn (List.any_eq_true.mpr ⟨c, hc, by simp [e]⟩)

/-- One byte after a write: the byte written there, or the byte that stood there. -/
theorem Memory.byte_write (m : Memory) (base : Nat) (bytes : List Byte) (a : Nat) :
    Memory.byte (Memory.write m base bytes) a =
      if base ≤ a ∧ a < base + bytes.length then bytes.getD (a - base) 0 else Memory.byte m a := by
  have e := Memory.byte_entries bytes base a
  unfold Memory.write
  by_cases h1 : a < base
  · rw [if_neg (show ¬ base ≤ a by omega)] at e
    rw [if_neg (show ¬(base ≤ a ∧ a < base + bytes.length) by omega), Memory.byte_append_left]
    · exact Memory.byte_filter _ _ _ fun c h => by rw [h]; simpa using h1
    · rw [Memory.byte_append_left, e]
      exact Memory.byte_filter_out _ _ _ fun c h => by rw [h]; simp; omega
  · rw [Memory.byte_append_right _ _ _ fun c hc h => by
      have := (List.mem_filter.mp hc).2; rw [h] at this; simp at this; omega]
    rw [if_pos (show base ≤ a by omega)] at e
    by_cases h2 : a < base + bytes.length
    · rw [if_pos (show base ≤ a ∧ a < base + bytes.length by omega), Memory.byte_append_left, e]
      exact Memory.byte_filter_out _ _ _ fun c h => by rw [h]; simp; omega
    · rw [if_neg (show ¬(base ≤ a ∧ a < base + bytes.length) by omega), Memory.byte_append_right _ _ _ fun c hc h => by
        have := (Memory.entries_range bytes base c hc).2.1; omega]
      exact Memory.byte_filter _ _ _ fun c h => by rw [h]; simp; omega

/-- Outside the bytes written, a write changes nothing. -/
theorem Memory.byte_write_outside (m : Memory) (base : Nat) (bytes : List Byte) (a : Nat)
    (h : a < base ∨ base + bytes.length ≤ a) : Memory.byte (Memory.write m base bytes) a = Memory.byte m a := by
  rw [Memory.byte_write, if_neg (by omega)]

theorem Memory.byte_span (m : Memory) (low high a : Nat) :
    Memory.byte (Memory.span m low high) a = if low ≤ a ∧ a < high then Memory.byte m a else 0 := by
  unfold Memory.span
  by_cases h : low ≤ a ∧ a < high
  · rw [if_pos h]; exact Memory.byte_filter _ _ _ fun c e => by rw [e]; simpa using h
  · rw [if_neg h]; exact Memory.byte_filter_out _ _ _ fun c e => by rw [e]; simpa using fun h1 => by omega

/-- A part of the memory that a write does not reach. -/
theorem Memory.span_write (m : Memory) (base : Nat) (bytes : List Byte) (low high : Nat)
    (h : base + bytes.length ≤ low ∨ high ≤ base) :
    Memory.span (Memory.write m base bytes) low high = Memory.span m low high := by
  have e : (Memory.entries base bytes).filter (fun c => decide (low ≤ c.1) && decide (c.1 < high)) = [] :=
    List.filter_eq_nil_iff.mpr fun c hc => by
      have := Memory.entries_range bytes base c hc
      simp only [Bool.and_eq_true, decide_eq_true_eq]; omega
  unfold Memory.span Memory.write
  rw [List.filter_append, List.filter_append, e, List.filter_filter, List.filter_filter, List.nil_append]
  rcases h with h | h
  · rw [List.filter_eq_nil_iff (p := fun c : Host.Cell => (decide (low ≤ c.1) && decide (c.1 < high)) && decide (c.1 < base))
      |>.mpr fun c _ => by simp only [Bool.and_eq_true, decide_eq_true_eq]; omega, List.nil_append]
    exact List.filter_congr fun c _ => by
      by_cases hl : low ≤ c.1
      · have : base + bytes.length ≤ c.1 := by omega
        simp [this]
      · simp [hl]
  · rw [List.filter_eq_nil_iff (p := fun c : Host.Cell => (decide (low ≤ c.1) && decide (c.1 < high)) &&
        decide (base + bytes.length ≤ c.1))
      |>.mpr fun c _ => by simp only [Bool.and_eq_true, decide_eq_true_eq]; omega, List.append_nil]
    exact List.filter_congr fun c _ => by
      by_cases hh : c.1 < high
      · have : c.1 < base := by omega
        simp [this]
      · simp [hh]

/-! ## Numbers and lengths -/

@[simp] theorem leBytes_length (n v : Nat) : (leBytes n v).length = n := by
  induction n generalizing v with
  | zero => rfl
  | succ n ih => simp [leBytes, ih]

/-- A number that stands in bytes no write reaches. -/
theorem Memory.number_congr (m m' : Memory) (a n : Nat) (h : ∀ k < n, Memory.byte m (a + k) = Memory.byte m' (a + k)) :
    Memory.number m a n = Memory.number m' a n := by
  induction n generalizing a with
  | zero => rfl
  | succ n ih =>
    unfold Memory.number
    have h0 := h 0 (by omega)
    simp only [Nat.add_zero] at h0
    rw [h0, ih (a + 1) fun k hk => by
      have := h (k + 1) (by omega)
      rwa [show a + (k + 1) = a + 1 + k by omega] at this]

/-- The number just written, read back. -/
theorem Memory.number_leBytes (n v a : Nat) (m : Memory) (h : ∀ k < n, Memory.byte m (a + k) = (leBytes n v).getD k 0) :
    Memory.number m a n = v % 256 ^ n := by
  induction n generalizing v a with
  | zero => simp [Memory.number, Nat.mod_one]
  | succ n ih =>
    unfold Memory.number
    have h0 := h 0 (by omega)
    simp only [Nat.add_zero, leBytes, List.getD_cons_zero] at h0
    have hs := ih (v / 256) (a + 1) fun k hk => by
      have := h (k + 1) (by omega)
      simp only [leBytes, List.getD_cons_succ] at this
      rwa [show a + 1 + k = a + (k + 1) by omega]
    have e : v % 256 ^ (n + 1) = v % 256 + 256 * (v / 256 % 256 ^ n) := by
      rw [Nat.pow_succ, Nat.mul_comm (256 ^ n) 256, Nat.mod_mul]
    rw [h0, hs, BitVec.toNat_ofNat, e]

@[simp] theorem Page.bytes_length (g : Page) : g.bytes.length = 16 := by simp [Page.bytes]
@[simp] theorem Bulletin.bytes_length (b : Bulletin) : b.bytes.length = 16 := by simp [Bulletin.bytes]
@[simp] theorem FaultRecord.bytes_length (f : FaultRecord) : f.bytes.length = 16 := by simp [FaultRecord.bytes]
@[simp] theorem mirrorBytes_length (p : Part) (m : MirrorId) : (mirrorBytes p m).length = m.size := by
  simp [mirrorBytes]

/-! ## The outcome records (R188): 24 bytes after the head -/

@[simp] theorem Zone.outcome_length (z : Zone) (member : Byte) (event : AccessEvent) (badge : Half) (c : Completion)
    (failing : Byte) : (z.outcome member event badge c failing).length = 24 := by simp [Zone.outcome]
@[simp] theorem absentZoneOutcome_length (free : Nat → Byte) (zone : Byte) (badge : Half) :
    (absentZoneOutcome free zone badge).length = 24 := by simp [absentZoneOutcome]
@[simp] theorem Record.outcome_length (r : Record) : r.outcome.length = 24 := by simp [Record.outcome]
@[simp] theorem Port.outcome_length (q : Port) (i : Fin 16) (hold : Bool) (event : PortEvent) (action : Nat) :
    (q.outcome i hold event action).length = 24 := by simp [Port.outcome]

end Sys2Proof.Machine
end

