-- ==== Sys2Proof/Laws/FrameOps.lean ====
section
/-! SUPPORT. What each operation of the shared operations (Machine/Ops.lean) leaves unchanged: one theorem per
operation. First the same
about a fold whose every step leaves a thing alone. -/

namespace Sys2Proof.Machine

/-- What every step of a fold leaves alone, the fold leaves alone. -/
theorem fold_keep {α β : Type} (π : Part → β) (l : List α) (f : Part → α → Part) (p : Part)
    (h : ∀ q a, π (f q a) = π q) : π (l.foldl f p) = π p := by
  induction l generalizing p with
  | nil => rfl
  | cons a l ih => rw [List.foldl_cons, ih, h]

theorem fold_mtu {α : Type} (l : List α) (f : Part → α → Part) (p : Part)
    (h : ∀ q a, (f q a).mtu = q.mtu) : (l.foldl f p).mtu = p.mtu :=
  fold_keep (fun q => q.mtu) l f p h

theorem fold_cvt {α : Type} (l : List α) (f : Part → α → Part) (p : Part)
    (h : ∀ q a, (f q a).cvt = q.cvt) : (l.foldl f p).cvt = p.cvt :=
  fold_keep (fun q => q.cvt) l f p h

theorem fold_trl {α : Type} (l : List α) (f : Part → α → Part) (p : Part)
    (h : ∀ q a, (f q a).trl = q.trl) : (l.foldl f p).trl = p.trl :=
  fold_keep (fun q => q.trl) l f p h

theorem fold_rbp {α : Type} (l : List α) (f : Part → α → Part) (p : Part)
    (h : ∀ q a, (f q a).rbp = q.rbp) : (l.foldl f p).rbp = p.rbp :=
  fold_keep (fun q => q.rbp) l f p h

theorem fold_ctu {α : Type} (l : List α) (f : Part → α → Part) (p : Part)
    (h : ∀ q a, (f q a).ctu = q.ctu) : (l.foldl f p).ctu = p.ctu :=
  fold_keep (fun q => q.ctu) l f p h

theorem fold_rej {α : Type} (l : List α) (f : Part → α → Part) (p : Part)
    (h : ∀ q a, (f q a).rej = q.rej) : (l.foldl f p).rej = p.rej :=
  fold_keep (fun q => q.rej) l f p h

theorem fold_spm {α : Type} (l : List α) (f : Part → α → Part) (p : Part)
    (h : ∀ q a, (f q a).spm = q.spm) : (l.foldl f p).spm = p.spm :=
  fold_keep (fun q => q.spm) l f p h

theorem fold_sac {α : Type} (l : List α) (f : Part → α → Part) (p : Part)
    (h : ∀ q a, (f q a).sac = q.sac) : (l.foldl f p).sac = p.sac :=
  fold_keep (fun q => q.sac) l f p h

theorem fold_odk {α : Type} (l : List α) (f : Part → α → Part) (p : Part)
    (h : ∀ q a, (f q a).odk = q.odk) : (l.foldl f p).odk = p.odk :=
  fold_keep (fun q => q.odk) l f p h

theorem fold_rpu {α : Type} (l : List α) (f : Part → α → Part) (p : Part)
    (h : ∀ q a, (f q a).rpu = q.rpu) : (l.foldl f p).rpu = p.rpu :=
  fold_keep (fun q => q.rpu) l f p h

theorem fold_syncLine {α : Type} (l : List α) (f : Part → α → Part) (p : Part)
    (h : ∀ q a, (f q a).syncLine = q.syncLine) : (l.foldl f p).syncLine = p.syncLine :=
  fold_keep (fun q => q.syncLine) l f p h

theorem fold_lrst {α : Type} (l : List α) (f : Part → α → Part) (p : Part)
    (h : ∀ q a, (f q a).lrst = q.lrst) : (l.foldl f p).lrst = p.lrst :=
  fold_keep (fun q => q.lrst) l f p h

theorem fold_mem {α : Type} (l : List α) (f : Part → α → Part) (p : Part)
    (h : ∀ q a, (f q a).mem = q.mem) : (l.foldl f p).mem = p.mem :=
  fold_keep (fun q => q.mem) l f p h

theorem fold_freeCount {α : Type} (l : List α) (f : Part → α → Part) (p : Part)
    (h : ∀ q a, (f q a).freeCount = q.freeCount) : (l.foldl f p).freeCount = p.freeCount :=
  fold_keep (fun q => q.freeCount) l f p h

theorem fold_cvt_position {α : Type} (l : List α) (f : Part → α → Part) (p : Part)
    (h : ∀ q a, (f q a).cvt.position = q.cvt.position) : (l.foldl f p).cvt.position = p.cvt.position :=
  fold_keep (fun q => q.cvt.position) l f p h

theorem fold_cvt_highWater {α : Type} (l : List α) (f : Part → α → Part) (p : Part)
    (h : ∀ q a, (f q a).cvt.highWater = q.cvt.highWater) : (l.foldl f p).cvt.highWater = p.cvt.highWater :=
  fold_keep (fun q => q.cvt.highWater) l f p h

theorem fold_cvt_depth {α : Type} (l : List α) (f : Part → α → Part) (p : Part)
    (h : ∀ q a, (f q a).cvt.depth = q.cvt.depth) : (l.foldl f p).cvt.depth = p.cvt.depth :=
  fold_keep (fun q => q.cvt.depth) l f p h

theorem fold_cvt_phase {α : Type} (l : List α) (f : Part → α → Part) (p : Part)
    (h : ∀ q a, (f q a).cvt.phase = q.cvt.phase) : (l.foldl f p).cvt.phase = p.cvt.phase :=
  fold_keep (fun q => q.cvt.phase) l f p h

theorem fold_cvt_profile {α : Type} (l : List α) (f : Part → α → Part) (p : Part)
    (h : ∀ q a, (f q a).cvt.profile = q.cvt.profile) : (l.foldl f p).cvt.profile = p.cvt.profile :=
  fold_keep (fun q => q.cvt.profile) l f p h

theorem fold_cvt_tracker {α : Type} (l : List α) (f : Part → α → Part) (p : Part)
    (h : ∀ q a, (f q a).cvt.tracker = q.cvt.tracker) : (l.foldl f p).cvt.tracker = p.cvt.tracker :=
  fold_keep (fun q => q.cvt.tracker) l f p h

theorem fold_cvt_adoption {α : Type} (l : List α) (f : Part → α → Part) (p : Part)
    (h : ∀ q a, (f q a).cvt.adoption = q.cvt.adoption) : (l.foldl f p).cvt.adoption = p.cvt.adoption :=
  fold_keep (fun q => q.cvt.adoption) l f p h

theorem fold_odk_queue {α : Type} (l : List α) (f : Part → α → Part) (p : Part)
    (h : ∀ q a, (f q a).odk.queue = q.odk.queue) : (l.foldl f p).odk.queue = p.odk.queue :=
  fold_keep (fun q => q.odk.queue) l f p h

theorem fold_odk_takeIdentity {α : Type} (l : List α) (f : Part → α → Part) (p : Part)
    (h : ∀ q a, (f q a).odk.takeIdentity = q.odk.takeIdentity) : (l.foldl f p).odk.takeIdentity = p.odk.takeIdentity :=
  fold_keep (fun q => q.odk.takeIdentity) l f p h

theorem fold_rpu_phase {α : Type} (l : List α) (f : Part → α → Part) (p : Part)
    (h : ∀ q a, (f q a).rpu.phase = q.rpu.phase) : (l.foldl f p).rpu.phase = p.rpu.phase :=
  fold_keep (fun q => q.rpu.phase) l f p h

theorem fold_rpu_lineResetBusy {α : Type} (l : List α) (f : Part → α → Part) (p : Part)
    (h : ∀ q a, (f q a).rpu.lineResetBusy = q.rpu.lineResetBusy) : (l.foldl f p).rpu.lineResetBusy = p.rpu.lineResetBusy :=
  fold_keep (fun q => q.rpu.lineResetBusy) l f p h

theorem fold_rpu_threshold {α : Type} (l : List α) (f : Part → α → Part) (p : Part)
    (h : ∀ q a, (f q a).rpu.threshold = q.rpu.threshold) : (l.foldl f p).rpu.threshold = p.rpu.threshold :=
  fold_keep (fun q => q.rpu.threshold) l f p h

theorem fold_rpu_busData {α : Type} (l : List α) (f : Part → α → Part) (p : Part)
    (h : ∀ q a, (f q a).rpu.busData = q.rpu.busData) : (l.foldl f p).rpu.busData = p.rpu.busData :=
  fold_keep (fun q => q.rpu.busData) l f p h

theorem fold_rpu_fault {α : Type} (l : List α) (f : Part → α → Part) (p : Part)
    (h : ∀ q a, (f q a).rpu.fault = q.rpu.fault) : (l.foldl f p).rpu.fault = p.rpu.fault :=
  fold_keep (fun q => q.rpu.fault) l f p h

theorem fold_spm_hallHold {α : Type} (l : List α) (f : Part → α → Part) (p : Part)
    (h : ∀ q a, (f q a).spm.hallHold = q.spm.hallHold) : (l.foldl f p).spm.hallHold = p.spm.hallHold :=
  fold_keep (fun q => q.spm.hallHold) l f p h

theorem fold_trl_nextSeq {α : Type} (l : List α) (f : Part → α → Part) (p : Part)
    (h : ∀ q a, (f q a).trl.nextSeq = q.trl.nextSeq) : (l.foldl f p).trl.nextSeq = p.trl.nextSeq :=
  fold_keep (fun q => q.trl.nextSeq) l f p h

theorem fold_rbp_state {α : Type} (l : List α) (f : Part → α → Part) (p : Part) (k : Fin 6)
    (h : ∀ q a, (f q a).rbp.robots[k.val].state = q.rbp.robots[k.val].state) : (l.foldl f p).rbp.robots[k.val].state = p.rbp.robots[k.val].state :=
  fold_keep (fun q => q.rbp.robots[k.val].state) l f p h

theorem fold_rbp_pins {α : Type} (l : List α) (f : Part → α → Part) (p : Part) (k : Fin 6)
    (h : ∀ q a, (f q a).rbp.robots[k.val].pins = q.rbp.robots[k.val].pins) : (l.foldl f p).rbp.robots[k.val].pins = p.rbp.robots[k.val].pins :=
  fold_keep (fun q => q.rbp.robots[k.val].pins) l f p h

theorem fold_spm_role {α : Type} (l : List α) (f : Part → α → Part) (p : Part) (k : Fin 16)
    (h : ∀ q a, (f q a).spm.ports[k.val].role = q.spm.ports[k.val].role) : (l.foldl f p).spm.ports[k.val].role = p.spm.ports[k.val].role :=
  fold_keep (fun q => q.spm.ports[k.val].role) l f p h

theorem fold_spm_link {α : Type} (l : List α) (f : Part → α → Part) (p : Part) (k : Fin 16)
    (h : ∀ q a, (f q a).spm.ports[k.val].link = q.spm.ports[k.val].link) : (l.foldl f p).spm.ports[k.val].link = p.spm.ports[k.val].link :=
  fold_keep (fun q => q.spm.ports[k.val].link) l f p h

theorem fold_sac_door {α : Type} (l : List α) (f : Part → α → Part) (p : Part) (k : Fin 8)
    (h : ∀ q a, (f q a).sac.zones[k.val].door = q.sac.zones[k.val].door) : (l.foldl f p).sac.zones[k.val].door = p.sac.zones[k.val].door :=
  fold_keep (fun q => q.sac.zones[k.val].door) l f p h

@[simp] theorem Part.rewrite_frame (p : Part) (m : MirrorId) :
    (p.rewrite m).mtu = p.mtu ∧ (p.rewrite m).cvt = p.cvt ∧ (p.rewrite m).trl = p.trl ∧ (p.rewrite m).rbp = p.rbp ∧
    (p.rewrite m).ctu = p.ctu ∧ (p.rewrite m).rej = p.rej ∧ (p.rewrite m).spm = p.spm ∧ (p.rewrite m).sac = p.sac ∧
    (p.rewrite m).odk = p.odk ∧ (p.rewrite m).syncLine = p.syncLine ∧ (p.rewrite m).lrst = p.lrst ∧
    (p.rewrite m).freeCount = p.freeCount ∧ (p.rewrite m).rpu.phase = p.rpu.phase ∧
    (p.rewrite m).rpu.lineResetBusy = p.rpu.lineResetBusy ∧ (p.rewrite m).rpu.threshold = p.rpu.threshold ∧
    (p.rewrite m).rpu.busData = p.rpu.busData ∧ (p.rewrite m).rpu.fault = p.rpu.fault := by
  unfold Part.rewrite; dsimp only; simp

@[simp] theorem Part.storeBulletin_frame (p : Part) (b : Fin 10) :
    (p.storeBulletin b).mtu = p.mtu ∧ (p.storeBulletin b).cvt = p.cvt ∧ (p.storeBulletin b).trl = p.trl ∧
    (p.storeBulletin b).rbp = p.rbp ∧ (p.storeBulletin b).ctu = p.ctu ∧ (p.storeBulletin b).rej = p.rej ∧
    (p.storeBulletin b).spm = p.spm ∧ (p.storeBulletin b).sac = p.sac ∧ (p.storeBulletin b).odk = p.odk ∧
    (p.storeBulletin b).rpu = p.rpu ∧ (p.storeBulletin b).syncLine = p.syncLine ∧ (p.storeBulletin b).lrst = p.lrst ∧
    (p.storeBulletin b).freeCount = p.freeCount := by
  unfold Part.storeBulletin; simp

@[simp] theorem Part.raise_frame (p : Part) (n : News) (member : Byte) :
    (p.raise n member).mtu = p.mtu ∧ (p.raise n member).cvt = p.cvt ∧ (p.raise n member).trl = p.trl ∧
    (p.raise n member).rbp = p.rbp ∧ (p.raise n member).ctu = p.ctu ∧ (p.raise n member).rej = p.rej ∧
    (p.raise n member).spm = p.spm ∧ (p.raise n member).sac = p.sac ∧ (p.raise n member).odk = p.odk ∧
    (p.raise n member).syncLine = p.syncLine ∧ (p.raise n member).lrst = p.lrst ∧
    (p.raise n member).freeCount = p.freeCount ∧ (p.raise n member).rpu.phase = p.rpu.phase ∧
    (p.raise n member).rpu.lineResetBusy = p.rpu.lineResetBusy ∧ (p.raise n member).rpu.threshold = p.rpu.threshold ∧
    (p.raise n member).rpu.busData = p.rpu.busData ∧ (p.raise n member).rpu.fault = p.rpu.fault := by
  unfold Part.raise; dsimp only; simp

@[simp] theorem Part.storeFault_frame (p : Part) :
    p.storeFault.mtu = p.mtu ∧ p.storeFault.cvt = p.cvt ∧ p.storeFault.trl = p.trl ∧ p.storeFault.rbp = p.rbp ∧
    p.storeFault.ctu = p.ctu ∧ p.storeFault.rej = p.rej ∧ p.storeFault.spm = p.spm ∧ p.storeFault.sac = p.sac ∧
    p.storeFault.odk = p.odk ∧ p.storeFault.rpu = p.rpu ∧ p.storeFault.syncLine = p.syncLine ∧
    p.storeFault.lrst = p.lrst ∧ p.storeFault.freeCount = p.freeCount := by
  unfold Part.storeFault; simp

@[simp] theorem Part.report_frame (p : Part) (k : FaultKind) (member : Byte) (seq : Word) :
    (p.report k member seq).mtu = p.mtu ∧ (p.report k member seq).cvt = p.cvt ∧ (p.report k member seq).trl = p.trl ∧
    (p.report k member seq).rbp = p.rbp ∧ (p.report k member seq).ctu = p.ctu ∧ (p.report k member seq).rej = p.rej ∧
    (p.report k member seq).spm = p.spm ∧ (p.report k member seq).sac = p.sac ∧ (p.report k member seq).odk = p.odk ∧
    (p.report k member seq).syncLine = p.syncLine ∧ (p.report k member seq).lrst = p.lrst ∧
    (p.report k member seq).freeCount = p.freeCount ∧ (p.report k member seq).rpu.phase = p.rpu.phase ∧
    (p.report k member seq).rpu.lineResetBusy = p.rpu.lineResetBusy ∧
    (p.report k member seq).rpu.threshold = p.rpu.threshold ∧
    (p.report k member seq).rpu.busData = p.rpu.busData := by
  unfold Part.report; dsimp only; simp

@[simp] theorem Part.storePage_frame (p : Part) (i : Fin 8) :
    (p.storePage i).mtu = p.mtu ∧ (p.storePage i).cvt = p.cvt ∧ (p.storePage i).trl = p.trl ∧
    (p.storePage i).rbp = p.rbp ∧ (p.storePage i).ctu = p.ctu ∧ (p.storePage i).rej = p.rej ∧
    (p.storePage i).spm = p.spm ∧ (p.storePage i).sac = p.sac ∧ (p.storePage i).odk = p.odk ∧
    (p.storePage i).rpu = p.rpu ∧ (p.storePage i).syncLine = p.syncLine ∧ (p.storePage i).lrst = p.lrst ∧
    (p.storePage i).freeCount = p.freeCount := by
  unfold Part.storePage; simp

@[simp] theorem Part.openPage_frame (p : Part) (i : Fin 8) :
    (p.openPage i).mtu = p.mtu ∧ (p.openPage i).cvt = p.cvt ∧ (p.openPage i).trl = p.trl ∧
    (p.openPage i).rbp = p.rbp ∧ (p.openPage i).ctu = p.ctu ∧ (p.openPage i).rej = p.rej ∧
    (p.openPage i).spm = p.spm ∧ (p.openPage i).sac = p.sac ∧ (p.openPage i).odk = p.odk ∧
    (p.openPage i).syncLine = p.syncLine ∧ (p.openPage i).lrst = p.lrst ∧ (p.openPage i).freeCount = p.freeCount ∧
    (p.openPage i).rpu.phase = p.rpu.phase ∧ (p.openPage i).rpu.lineResetBusy = p.rpu.lineResetBusy ∧
    (p.openPage i).rpu.threshold = p.rpu.threshold ∧ (p.openPage i).rpu.busData = p.rpu.busData ∧
    (p.openPage i).rpu.fault = p.rpu.fault := by
  unfold Part.openPage; dsimp only; simp

@[simp] theorem Part.closePage_frame (p : Part) (i : Fin 8) (cause : CloseCause) :
    (p.closePage i cause).mtu = p.mtu ∧ (p.closePage i cause).cvt = p.cvt ∧ (p.closePage i cause).trl = p.trl ∧
    (p.closePage i cause).rbp = p.rbp ∧ (p.closePage i cause).ctu = p.ctu ∧ (p.closePage i cause).rej = p.rej ∧
    (p.closePage i cause).spm = p.spm ∧ (p.closePage i cause).sac = p.sac ∧ (p.closePage i cause).odk = p.odk ∧
    (p.closePage i cause).syncLine = p.syncLine ∧ (p.closePage i cause).lrst = p.lrst ∧
    (p.closePage i cause).freeCount = p.freeCount ∧ (p.closePage i cause).rpu.phase = p.rpu.phase ∧
    (p.closePage i cause).rpu.lineResetBusy = p.rpu.lineResetBusy ∧
    (p.closePage i cause).rpu.threshold = p.rpu.threshold ∧ (p.closePage i cause).rpu.busData = p.rpu.busData ∧
    (p.closePage i cause).rpu.fault = p.rpu.fault := by
  unfold Part.closePage; dsimp only; (repeat' split) <;> simp

@[simp] theorem Part.storeDropped_frame (p : Part) :
    p.storeDropped.mtu = p.mtu ∧ p.storeDropped.cvt = p.cvt ∧ p.storeDropped.trl = p.trl ∧
    p.storeDropped.rbp = p.rbp ∧ p.storeDropped.ctu = p.ctu ∧ p.storeDropped.rej = p.rej ∧
    p.storeDropped.spm = p.spm ∧ p.storeDropped.sac = p.sac ∧ p.storeDropped.odk = p.odk ∧
    p.storeDropped.rpu = p.rpu ∧ p.storeDropped.syncLine = p.syncLine ∧ p.storeDropped.lrst = p.lrst ∧
    p.storeDropped.freeCount = p.freeCount := by
  unfold Part.storeDropped; simp

@[simp] theorem Part.dropOutcome_frame (p : Part) :
    p.dropOutcome.mtu = p.mtu ∧ p.dropOutcome.cvt = p.cvt ∧ p.dropOutcome.trl = p.trl ∧ p.dropOutcome.rbp = p.rbp ∧
    p.dropOutcome.ctu = p.ctu ∧ p.dropOutcome.rej = p.rej ∧ p.dropOutcome.spm = p.spm ∧ p.dropOutcome.sac = p.sac ∧
    p.dropOutcome.odk = p.odk ∧ p.dropOutcome.syncLine = p.syncLine ∧ p.dropOutcome.lrst = p.lrst ∧
    p.dropOutcome.freeCount = p.freeCount ∧ p.dropOutcome.rpu.phase = p.rpu.phase ∧
    p.dropOutcome.rpu.lineResetBusy = p.rpu.lineResetBusy ∧ p.dropOutcome.rpu.threshold = p.rpu.threshold ∧
    p.dropOutcome.rpu.busData = p.rpu.busData ∧ p.dropOutcome.rpu.fault = p.rpu.fault := by
  unfold Part.dropOutcome; dsimp only; (repeat' split) <;> simp

@[simp] theorem Part.fillPage_frame (p : Part) (i : Fin 8) (bytes : List Byte) :
    (p.fillPage i bytes).mtu = p.mtu ∧ (p.fillPage i bytes).cvt = p.cvt ∧ (p.fillPage i bytes).trl = p.trl ∧
    (p.fillPage i bytes).rbp = p.rbp ∧ (p.fillPage i bytes).ctu = p.ctu ∧ (p.fillPage i bytes).rej = p.rej ∧
    (p.fillPage i bytes).spm = p.spm ∧ (p.fillPage i bytes).sac = p.sac ∧ (p.fillPage i bytes).odk = p.odk ∧
    (p.fillPage i bytes).syncLine = p.syncLine ∧ (p.fillPage i bytes).lrst = p.lrst ∧
    (p.fillPage i bytes).freeCount = p.freeCount ∧ (p.fillPage i bytes).rpu.phase = p.rpu.phase ∧
    (p.fillPage i bytes).rpu.lineResetBusy = p.rpu.lineResetBusy ∧
    (p.fillPage i bytes).rpu.threshold = p.rpu.threshold ∧ (p.fillPage i bytes).rpu.busData = p.rpu.busData ∧
    (p.fillPage i bytes).rpu.fault = p.rpu.fault := by
  unfold Part.fillPage; dsimp only; (repeat' split) <;> simp

@[simp] theorem Part.handOutcome_frame (p : Part) (kind : Byte) (body : List Byte) :
    (p.handOutcome kind body).mtu = p.mtu ∧ (p.handOutcome kind body).cvt = p.cvt ∧
    (p.handOutcome kind body).trl = p.trl ∧ (p.handOutcome kind body).rbp = p.rbp ∧
    (p.handOutcome kind body).ctu = p.ctu ∧ (p.handOutcome kind body).rej = p.rej ∧
    (p.handOutcome kind body).spm = p.spm ∧ (p.handOutcome kind body).sac = p.sac ∧
    (p.handOutcome kind body).odk = p.odk ∧ (p.handOutcome kind body).syncLine = p.syncLine ∧
    (p.handOutcome kind body).lrst = p.lrst ∧ (p.handOutcome kind body).freeCount = p.freeCount ∧
    (p.handOutcome kind body).rpu.phase = p.rpu.phase ∧
    (p.handOutcome kind body).rpu.lineResetBusy = p.rpu.lineResetBusy ∧
    (p.handOutcome kind body).rpu.threshold = p.rpu.threshold ∧
    (p.handOutcome kind body).rpu.busData = p.rpu.busData ∧ (p.handOutcome kind body).rpu.fault = p.rpu.fault := by
  unfold Part.handOutcome; dsimp only; (repeat' split) <;> simp

@[simp] theorem Part.writeResult_frame (p : Part) (n : Fin 48) (kind : Nat) (tag : Nat) (takeNumber : Nat)
    (c : Completion) :
    (p.writeResult n kind tag takeNumber c).mtu = p.mtu ∧ (p.writeResult n kind tag takeNumber c).cvt = p.cvt ∧
    (p.writeResult n kind tag takeNumber c).trl = p.trl ∧ (p.writeResult n kind tag takeNumber c).rbp = p.rbp ∧
    (p.writeResult n kind tag takeNumber c).ctu = p.ctu ∧ (p.writeResult n kind tag takeNumber c).rej = p.rej ∧
    (p.writeResult n kind tag takeNumber c).spm = p.spm ∧ (p.writeResult n kind tag takeNumber c).sac = p.sac ∧
    (p.writeResult n kind tag takeNumber c).odk = p.odk ∧ (p.writeResult n kind tag takeNumber c).rpu = p.rpu ∧
    (p.writeResult n kind tag takeNumber c).syncLine = p.syncLine ∧
    (p.writeResult n kind tag takeNumber c).lrst = p.lrst ∧
    (p.writeResult n kind tag takeNumber c).freeCount = p.freeCount := by
  unfold Part.writeResult; (repeat' split) <;> simp

@[simp] theorem Part.complete_frame (p : Part) (ref : OrderRef) (result : Result) (detail : Byte) :
    (p.complete ref result detail).mtu = p.mtu ∧ (p.complete ref result detail).cvt = p.cvt ∧
    (p.complete ref result detail).trl = p.trl ∧ (p.complete ref result detail).rbp = p.rbp ∧
    (p.complete ref result detail).ctu = p.ctu ∧ (p.complete ref result detail).rej = p.rej ∧
    (p.complete ref result detail).spm = p.spm ∧ (p.complete ref result detail).sac = p.sac ∧
    (p.complete ref result detail).syncLine = p.syncLine ∧ (p.complete ref result detail).lrst = p.lrst ∧
    (p.complete ref result detail).freeCount = p.freeCount ∧ (p.complete ref result detail).odk.queue = p.odk.queue ∧
    (p.complete ref result detail).odk.takeIdentity = p.odk.takeIdentity ∧
    (p.complete ref result detail).rpu.phase = p.rpu.phase ∧
    (p.complete ref result detail).rpu.lineResetBusy = p.rpu.lineResetBusy ∧
    (p.complete ref result detail).rpu.threshold = p.rpu.threshold ∧
    (p.complete ref result detail).rpu.busData = p.rpu.busData ∧
    (p.complete ref result detail).rpu.fault = p.rpu.fault := by
  unfold Part.complete; dsimp only; (repeat' split) <;> simp

@[simp] theorem Part.completeIf_frame (p : Part) (ref : Option OrderRef) (result : Result) (detail : Byte) :
    (p.completeIf ref result detail).mtu = p.mtu ∧ (p.completeIf ref result detail).cvt = p.cvt ∧
    (p.completeIf ref result detail).trl = p.trl ∧ (p.completeIf ref result detail).rbp = p.rbp ∧
    (p.completeIf ref result detail).ctu = p.ctu ∧ (p.completeIf ref result detail).rej = p.rej ∧
    (p.completeIf ref result detail).spm = p.spm ∧ (p.completeIf ref result detail).sac = p.sac ∧
    (p.completeIf ref result detail).syncLine = p.syncLine ∧ (p.completeIf ref result detail).lrst = p.lrst ∧
    (p.completeIf ref result detail).freeCount = p.freeCount ∧
    (p.completeIf ref result detail).odk.queue = p.odk.queue ∧
    (p.completeIf ref result detail).odk.takeIdentity = p.odk.takeIdentity ∧
    (p.completeIf ref result detail).rpu.phase = p.rpu.phase ∧
    (p.completeIf ref result detail).rpu.lineResetBusy = p.rpu.lineResetBusy ∧
    (p.completeIf ref result detail).rpu.threshold = p.rpu.threshold ∧
    (p.completeIf ref result detail).rpu.busData = p.rpu.busData ∧
    (p.completeIf ref result detail).rpu.fault = p.rpu.fault := by
  unfold Part.completeIf; (repeat' split) <;> simp

@[simp] theorem Part.evidence_frame (p : Part) (seq : Word) (f : Record → Record) :
    (p.evidence seq f).mtu = p.mtu ∧ (p.evidence seq f).cvt = p.cvt ∧ (p.evidence seq f).rbp = p.rbp ∧
    (p.evidence seq f).ctu = p.ctu ∧ (p.evidence seq f).rej = p.rej ∧ (p.evidence seq f).spm = p.spm ∧
    (p.evidence seq f).sac = p.sac ∧ (p.evidence seq f).odk = p.odk ∧ (p.evidence seq f).rpu = p.rpu ∧
    (p.evidence seq f).syncLine = p.syncLine ∧ (p.evidence seq f).lrst = p.lrst ∧ (p.evidence seq f).mem = p.mem ∧
    (p.evidence seq f).freeCount = p.freeCount ∧ (p.evidence seq f).trl.nextSeq = p.trl.nextSeq := by
  unfold Part.evidence; simp

@[simp] theorem Part.setFill_frame (p : Part) (seq : Word) (v : FillResult) :
    (p.setFill seq v).mtu = p.mtu ∧ (p.setFill seq v).cvt = p.cvt ∧ (p.setFill seq v).rbp = p.rbp ∧
    (p.setFill seq v).ctu = p.ctu ∧ (p.setFill seq v).rej = p.rej ∧ (p.setFill seq v).spm = p.spm ∧
    (p.setFill seq v).sac = p.sac ∧ (p.setFill seq v).odk = p.odk ∧ (p.setFill seq v).rpu = p.rpu ∧
    (p.setFill seq v).syncLine = p.syncLine ∧ (p.setFill seq v).lrst = p.lrst ∧ (p.setFill seq v).mem = p.mem ∧
    (p.setFill seq v).freeCount = p.freeCount ∧ (p.setFill seq v).trl.nextSeq = p.trl.nextSeq := by
  unfold Part.setFill; simp

@[simp] theorem Part.setVerdict_frame (p : Part) (seq : Word) (c : Fin 6) (v : Verdict) :
    (p.setVerdict seq c v).mtu = p.mtu ∧ (p.setVerdict seq c v).cvt = p.cvt ∧ (p.setVerdict seq c v).rbp = p.rbp ∧
    (p.setVerdict seq c v).ctu = p.ctu ∧ (p.setVerdict seq c v).rej = p.rej ∧ (p.setVerdict seq c v).spm = p.spm ∧
    (p.setVerdict seq c v).sac = p.sac ∧ (p.setVerdict seq c v).odk = p.odk ∧ (p.setVerdict seq c v).rpu = p.rpu ∧
    (p.setVerdict seq c v).syncLine = p.syncLine ∧ (p.setVerdict seq c v).lrst = p.lrst ∧
    (p.setVerdict seq c v).mem = p.mem ∧ (p.setVerdict seq c v).freeCount = p.freeCount ∧
    (p.setVerdict seq c v).trl.nextSeq = p.trl.nextSeq := by
  unfold Part.setVerdict; simp

@[simp] theorem Part.setTrigger_frame (p : Part) (seq : Word) (c : Fin 6) (t : Time) :
    (p.setTrigger seq c t).mtu = p.mtu ∧ (p.setTrigger seq c t).cvt = p.cvt ∧ (p.setTrigger seq c t).rbp = p.rbp ∧
    (p.setTrigger seq c t).ctu = p.ctu ∧ (p.setTrigger seq c t).rej = p.rej ∧ (p.setTrigger seq c t).spm = p.spm ∧
    (p.setTrigger seq c t).sac = p.sac ∧ (p.setTrigger seq c t).odk = p.odk ∧ (p.setTrigger seq c t).rpu = p.rpu ∧
    (p.setTrigger seq c t).syncLine = p.syncLine ∧ (p.setTrigger seq c t).lrst = p.lrst ∧
    (p.setTrigger seq c t).mem = p.mem ∧ (p.setTrigger seq c t).freeCount = p.freeCount ∧
    (p.setTrigger seq c t).trl.nextSeq = p.trl.nextSeq := by
  unfold Part.setTrigger; simp

@[simp] theorem Part.setEject_frame (p : Part) (seq : Word) (e : EjectState) :
    (p.setEject seq e).mtu = p.mtu ∧ (p.setEject seq e).cvt = p.cvt ∧ (p.setEject seq e).rbp = p.rbp ∧
    (p.setEject seq e).ctu = p.ctu ∧ (p.setEject seq e).rej = p.rej ∧ (p.setEject seq e).spm = p.spm ∧
    (p.setEject seq e).sac = p.sac ∧ (p.setEject seq e).odk = p.odk ∧ (p.setEject seq e).rpu = p.rpu ∧
    (p.setEject seq e).syncLine = p.syncLine ∧ (p.setEject seq e).lrst = p.lrst ∧ (p.setEject seq e).mem = p.mem ∧
    (p.setEject seq e).freeCount = p.freeCount ∧ (p.setEject seq e).trl.nextSeq = p.trl.nextSeq := by
  unfold Part.setEject; simp

end Sys2Proof.Machine
end

