-- ==== Sys2Proof/Laws/FrameCameras.lean ====
section
/-! SUPPORT. What each operation of the Camera Trigger Unit leaves unchanged: one theorem per operation. -/

namespace Sys2Proof.Machine

@[simp] theorem Part.countCamera_frame (p : Part) (c : Fin 6) (f : CameraCounters → CameraCounters) :
    (p.countCamera c f).mtu = p.mtu ∧ (p.countCamera c f).cvt = p.cvt ∧ (p.countCamera c f).trl = p.trl ∧
    (p.countCamera c f).rbp = p.rbp ∧ (p.countCamera c f).rej = p.rej ∧ (p.countCamera c f).spm = p.spm ∧
    (p.countCamera c f).sac = p.sac ∧ (p.countCamera c f).odk = p.odk ∧ (p.countCamera c f).rpu = p.rpu ∧
    (p.countCamera c f).syncLine = p.syncLine ∧ (p.countCamera c f).lrst = p.lrst ∧ (p.countCamera c f).mem = p.mem ∧
    (p.countCamera c f).freeCount = p.freeCount := by
  unfold Part.countCamera; simp

@[simp] theorem Part.noVerdict_frame (p : Part) (seq : Word) (c : Fin 6) :
    (p.noVerdict seq c).mtu = p.mtu ∧ (p.noVerdict seq c).cvt = p.cvt ∧ (p.noVerdict seq c).rbp = p.rbp ∧
    (p.noVerdict seq c).rej = p.rej ∧ (p.noVerdict seq c).spm = p.spm ∧ (p.noVerdict seq c).sac = p.sac ∧
    (p.noVerdict seq c).odk = p.odk ∧ (p.noVerdict seq c).syncLine = p.syncLine ∧ (p.noVerdict seq c).lrst = p.lrst ∧
    (p.noVerdict seq c).freeCount = p.freeCount ∧ (p.noVerdict seq c).rpu.phase = p.rpu.phase ∧
    (p.noVerdict seq c).rpu.lineResetBusy = p.rpu.lineResetBusy ∧
    (p.noVerdict seq c).rpu.threshold = p.rpu.threshold ∧ (p.noVerdict seq c).rpu.busData = p.rpu.busData ∧
    (p.noVerdict seq c).rpu.fault = p.rpu.fault ∧ (p.noVerdict seq c).trl.nextSeq = p.trl.nextSeq := by
  unfold Part.noVerdict; simp

@[simp] theorem Part.emptyAwaiting_frame (p : Part) (c : Fin 6) :
    (p.emptyAwaiting c).mtu = p.mtu ∧ (p.emptyAwaiting c).cvt = p.cvt ∧ (p.emptyAwaiting c).rbp = p.rbp ∧
    (p.emptyAwaiting c).rej = p.rej ∧ (p.emptyAwaiting c).spm = p.spm ∧ (p.emptyAwaiting c).sac = p.sac ∧
    (p.emptyAwaiting c).odk = p.odk ∧ (p.emptyAwaiting c).syncLine = p.syncLine ∧ (p.emptyAwaiting c).lrst = p.lrst ∧
    (p.emptyAwaiting c).freeCount = p.freeCount ∧ (p.emptyAwaiting c).rpu.phase = p.rpu.phase ∧
    (p.emptyAwaiting c).rpu.lineResetBusy = p.rpu.lineResetBusy ∧
    (p.emptyAwaiting c).rpu.threshold = p.rpu.threshold ∧ (p.emptyAwaiting c).rpu.busData = p.rpu.busData ∧
    (p.emptyAwaiting c).rpu.fault = p.rpu.fault ∧ (p.emptyAwaiting c).trl.nextSeq = p.trl.nextSeq := by
    unfold Part.emptyAwaiting; dsimp only; simp [fold_mtu, fold_cvt, fold_rbp, fold_rej, fold_spm, fold_sac,
    fold_odk, fold_syncLine, fold_lrst, fold_freeCount, fold_rpu_phase, fold_rpu_lineResetBusy, fold_rpu_threshold,
    fold_rpu_busData, fold_rpu_fault, fold_trl_nextSeq]

@[simp] theorem Part.degrade_frame (p : Part) (c : Fin 6) (cause : DegradeCause) :
    (p.degrade c cause).mtu = p.mtu ∧ (p.degrade c cause).cvt = p.cvt ∧ (p.degrade c cause).rbp = p.rbp ∧
    (p.degrade c cause).rej = p.rej ∧ (p.degrade c cause).spm = p.spm ∧ (p.degrade c cause).sac = p.sac ∧
    (p.degrade c cause).odk = p.odk ∧ (p.degrade c cause).syncLine = p.syncLine ∧ (p.degrade c cause).lrst = p.lrst ∧
    (p.degrade c cause).freeCount = p.freeCount ∧ (p.degrade c cause).rpu.phase = p.rpu.phase ∧
    (p.degrade c cause).rpu.lineResetBusy = p.rpu.lineResetBusy ∧
    (p.degrade c cause).rpu.threshold = p.rpu.threshold ∧ (p.degrade c cause).rpu.busData = p.rpu.busData ∧
    (p.degrade c cause).rpu.fault = p.rpu.fault ∧ (p.degrade c cause).trl.nextSeq = p.trl.nextSeq := by
  unfold Part.degrade; dsimp only; (repeat' split) <;> simp

@[simp] theorem Part.gainMissed_frame (p : Part) (c : Fin 6) :
    (p.gainMissed c).mtu = p.mtu ∧ (p.gainMissed c).cvt = p.cvt ∧ (p.gainMissed c).rbp = p.rbp ∧
    (p.gainMissed c).rej = p.rej ∧ (p.gainMissed c).spm = p.spm ∧ (p.gainMissed c).sac = p.sac ∧
    (p.gainMissed c).odk = p.odk ∧ (p.gainMissed c).syncLine = p.syncLine ∧ (p.gainMissed c).lrst = p.lrst ∧
    (p.gainMissed c).freeCount = p.freeCount ∧ (p.gainMissed c).rpu.phase = p.rpu.phase ∧
    (p.gainMissed c).rpu.lineResetBusy = p.rpu.lineResetBusy ∧ (p.gainMissed c).rpu.threshold = p.rpu.threshold ∧
    (p.gainMissed c).rpu.busData = p.rpu.busData ∧ (p.gainMissed c).rpu.fault = p.rpu.fault ∧
    (p.gainMissed c).trl.nextSeq = p.trl.nextSeq := by
  unfold Part.gainMissed; dsimp only; (repeat' split) <;> simp

@[simp] theorem Part.makeRoom_frame (n : Nat) (first : Bool) (p : Part) (c : Fin 6) (seq : Word) :
    (Part.makeRoom n first p c seq).mtu = p.mtu ∧ (Part.makeRoom n first p c seq).cvt = p.cvt ∧
    (Part.makeRoom n first p c seq).rbp = p.rbp ∧ (Part.makeRoom n first p c seq).rej = p.rej ∧
    (Part.makeRoom n first p c seq).spm = p.spm ∧ (Part.makeRoom n first p c seq).sac = p.sac ∧
    (Part.makeRoom n first p c seq).odk = p.odk ∧ (Part.makeRoom n first p c seq).syncLine = p.syncLine ∧
    (Part.makeRoom n first p c seq).lrst = p.lrst ∧ (Part.makeRoom n first p c seq).freeCount = p.freeCount ∧
    (Part.makeRoom n first p c seq).rpu.phase = p.rpu.phase ∧
    (Part.makeRoom n first p c seq).rpu.lineResetBusy = p.rpu.lineResetBusy ∧
    (Part.makeRoom n first p c seq).rpu.threshold = p.rpu.threshold ∧
    (Part.makeRoom n first p c seq).rpu.busData = p.rpu.busData ∧
    (Part.makeRoom n first p c seq).rpu.fault = p.rpu.fault ∧
    (Part.makeRoom n first p c seq).trl.nextSeq = p.trl.nextSeq := by
  induction n generalizing first p with
  | zero => simp [Part.makeRoom]
  | succ n ih => unfold Part.makeRoom; dsimp only; (repeat' split) <;> simp [ih]

@[simp] theorem Part.joinAwaiting_frame (p : Part) (c : Fin 6) (seq : Word) :
    (p.joinAwaiting c seq).mtu = p.mtu ∧ (p.joinAwaiting c seq).cvt = p.cvt ∧ (p.joinAwaiting c seq).rbp = p.rbp ∧
    (p.joinAwaiting c seq).rej = p.rej ∧ (p.joinAwaiting c seq).spm = p.spm ∧ (p.joinAwaiting c seq).sac = p.sac ∧
    (p.joinAwaiting c seq).odk = p.odk ∧ (p.joinAwaiting c seq).syncLine = p.syncLine ∧
    (p.joinAwaiting c seq).lrst = p.lrst ∧ (p.joinAwaiting c seq).freeCount = p.freeCount ∧
    (p.joinAwaiting c seq).rpu.phase = p.rpu.phase ∧ (p.joinAwaiting c seq).rpu.lineResetBusy = p.rpu.lineResetBusy ∧
    (p.joinAwaiting c seq).rpu.threshold = p.rpu.threshold ∧ (p.joinAwaiting c seq).rpu.busData = p.rpu.busData ∧
    (p.joinAwaiting c seq).rpu.fault = p.rpu.fault ∧ (p.joinAwaiting c seq).trl.nextSeq = p.trl.nextSeq := by
  unfold Part.joinAwaiting; dsimp only; (repeat' split) <;> simp

@[simp] theorem Part.happen_frame (p : Part) (c : Fin 6) :
    (p.happen c).mtu = p.mtu ∧ (p.happen c).cvt = p.cvt ∧ (p.happen c).rbp = p.rbp ∧ (p.happen c).rej = p.rej ∧
    (p.happen c).spm = p.spm ∧ (p.happen c).sac = p.sac ∧ (p.happen c).odk = p.odk ∧
    (p.happen c).syncLine = p.syncLine ∧ (p.happen c).lrst = p.lrst ∧ (p.happen c).freeCount = p.freeCount ∧
    (p.happen c).rpu.phase = p.rpu.phase ∧ (p.happen c).rpu.lineResetBusy = p.rpu.lineResetBusy ∧
    (p.happen c).rpu.threshold = p.rpu.threshold ∧ (p.happen c).rpu.busData = p.rpu.busData ∧
    (p.happen c).rpu.fault = p.rpu.fault ∧ (p.happen c).trl.nextSeq = p.trl.nextSeq := by
  unfold Part.happen; dsimp only; (repeat' split) <;> simp

@[simp] theorem Part.fallDue_frame (p : Part) (c : Fin 6) (seq : Word) :
    (p.fallDue c seq).mtu = p.mtu ∧ (p.fallDue c seq).cvt = p.cvt ∧ (p.fallDue c seq).rbp = p.rbp ∧
    (p.fallDue c seq).rej = p.rej ∧ (p.fallDue c seq).spm = p.spm ∧ (p.fallDue c seq).sac = p.sac ∧
    (p.fallDue c seq).odk = p.odk ∧ (p.fallDue c seq).syncLine = p.syncLine ∧ (p.fallDue c seq).lrst = p.lrst ∧
    (p.fallDue c seq).freeCount = p.freeCount ∧ (p.fallDue c seq).rpu.phase = p.rpu.phase ∧
    (p.fallDue c seq).rpu.lineResetBusy = p.rpu.lineResetBusy ∧ (p.fallDue c seq).rpu.threshold = p.rpu.threshold ∧
    (p.fallDue c seq).rpu.busData = p.rpu.busData ∧ (p.fallDue c seq).rpu.fault = p.rpu.fault ∧
    (p.fallDue c seq).trl.nextSeq = p.trl.nextSeq := by
  unfold Part.fallDue; dsimp only; (repeat' split) <;> simp

@[simp] theorem Part.setFireTime_frame (p : Part) (c : Fin 6) (seq : Word) (t : Option Time) :
    (p.setFireTime c seq t).mtu = p.mtu ∧ (p.setFireTime c seq t).cvt = p.cvt ∧ (p.setFireTime c seq t).trl = p.trl ∧
    (p.setFireTime c seq t).rbp = p.rbp ∧ (p.setFireTime c seq t).rej = p.rej ∧ (p.setFireTime c seq t).spm = p.spm ∧
    (p.setFireTime c seq t).sac = p.sac ∧ (p.setFireTime c seq t).odk = p.odk ∧ (p.setFireTime c seq t).rpu = p.rpu ∧
    (p.setFireTime c seq t).syncLine = p.syncLine ∧ (p.setFireTime c seq t).lrst = p.lrst ∧
    (p.setFireTime c seq t).mem = p.mem ∧ (p.setFireTime c seq t).freeCount = p.freeCount := by
  unfold Part.setFireTime; simp

@[simp] theorem Part.takeFire_frame (p : Part) (c : Fin 6) (seq : Word) :
    (p.takeFire c seq).mtu = p.mtu ∧ (p.takeFire c seq).cvt = p.cvt ∧ (p.takeFire c seq).rbp = p.rbp ∧
    (p.takeFire c seq).rej = p.rej ∧ (p.takeFire c seq).spm = p.spm ∧ (p.takeFire c seq).sac = p.sac ∧
    (p.takeFire c seq).odk = p.odk ∧ (p.takeFire c seq).syncLine = p.syncLine ∧ (p.takeFire c seq).lrst = p.lrst ∧
    (p.takeFire c seq).freeCount = p.freeCount ∧ (p.takeFire c seq).rpu.phase = p.rpu.phase ∧
    (p.takeFire c seq).rpu.lineResetBusy = p.rpu.lineResetBusy ∧ (p.takeFire c seq).rpu.threshold = p.rpu.threshold ∧
    (p.takeFire c seq).rpu.busData = p.rpu.busData ∧ (p.takeFire c seq).rpu.fault = p.rpu.fault ∧
    (p.takeFire c seq).trl.nextSeq = p.trl.nextSeq := by
  unfold Part.takeFire; dsimp only; (repeat' split) <;> simp

@[simp] theorem Part.addFire_frame (p : Part) (seq : Word) (c : Fin 6) :
    (p.addFire seq c).mtu = p.mtu ∧ (p.addFire seq c).cvt = p.cvt ∧ (p.addFire seq c).rbp = p.rbp ∧
    (p.addFire seq c).rej = p.rej ∧ (p.addFire seq c).spm = p.spm ∧ (p.addFire seq c).sac = p.sac ∧
    (p.addFire seq c).odk = p.odk ∧ (p.addFire seq c).syncLine = p.syncLine ∧ (p.addFire seq c).lrst = p.lrst ∧
    (p.addFire seq c).freeCount = p.freeCount ∧ (p.addFire seq c).rpu.phase = p.rpu.phase ∧
    (p.addFire seq c).rpu.lineResetBusy = p.rpu.lineResetBusy ∧ (p.addFire seq c).rpu.threshold = p.rpu.threshold ∧
    (p.addFire seq c).rpu.busData = p.rpu.busData ∧ (p.addFire seq c).rpu.fault = p.rpu.fault ∧
    (p.addFire seq c).trl.nextSeq = p.trl.nextSeq := by
  unfold Part.addFire; dsimp only; (repeat' split) <;> simp

@[simp] theorem Part.addFires_frame (p : Part) (seq : Word) :
    (p.addFires seq).mtu = p.mtu ∧ (p.addFires seq).cvt = p.cvt ∧ (p.addFires seq).rbp = p.rbp ∧
    (p.addFires seq).rej = p.rej ∧ (p.addFires seq).spm = p.spm ∧ (p.addFires seq).sac = p.sac ∧
    (p.addFires seq).odk = p.odk ∧ (p.addFires seq).syncLine = p.syncLine ∧ (p.addFires seq).lrst = p.lrst ∧
    (p.addFires seq).freeCount = p.freeCount ∧ (p.addFires seq).rpu.phase = p.rpu.phase ∧
    (p.addFires seq).rpu.lineResetBusy = p.rpu.lineResetBusy ∧ (p.addFires seq).rpu.threshold = p.rpu.threshold ∧
    (p.addFires seq).rpu.busData = p.rpu.busData ∧ (p.addFires seq).rpu.fault = p.rpu.fault ∧
    (p.addFires seq).trl.nextSeq = p.trl.nextSeq := by
    unfold Part.addFires; simp [fold_mtu, fold_cvt, fold_rbp, fold_rej, fold_spm, fold_sac, fold_odk, fold_syncLine,
    fold_lrst, fold_freeCount, fold_rpu_phase, fold_rpu_lineResetBusy, fold_rpu_threshold, fold_rpu_busData,
    fold_rpu_fault, fold_trl_nextSeq]

@[simp] theorem Part.repaceFire_frame (p : Part) (c : Fin 6) (seq : Word) :
    (p.repaceFire c seq).mtu = p.mtu ∧ (p.repaceFire c seq).cvt = p.cvt ∧ (p.repaceFire c seq).rbp = p.rbp ∧
    (p.repaceFire c seq).rej = p.rej ∧ (p.repaceFire c seq).spm = p.spm ∧ (p.repaceFire c seq).sac = p.sac ∧
    (p.repaceFire c seq).odk = p.odk ∧ (p.repaceFire c seq).syncLine = p.syncLine ∧
    (p.repaceFire c seq).lrst = p.lrst ∧ (p.repaceFire c seq).freeCount = p.freeCount ∧
    (p.repaceFire c seq).rpu.phase = p.rpu.phase ∧ (p.repaceFire c seq).rpu.lineResetBusy = p.rpu.lineResetBusy ∧
    (p.repaceFire c seq).rpu.threshold = p.rpu.threshold ∧ (p.repaceFire c seq).rpu.busData = p.rpu.busData ∧
    (p.repaceFire c seq).rpu.fault = p.rpu.fault ∧ (p.repaceFire c seq).trl.nextSeq = p.trl.nextSeq := by
  unfold Part.repaceFire; dsimp only; (repeat' split) <;> simp

@[simp] theorem Part.repaceCamera_frame (p : Part) (c : Fin 6) :
    (p.repaceCamera c).mtu = p.mtu ∧ (p.repaceCamera c).cvt = p.cvt ∧ (p.repaceCamera c).rbp = p.rbp ∧
    (p.repaceCamera c).rej = p.rej ∧ (p.repaceCamera c).spm = p.spm ∧ (p.repaceCamera c).sac = p.sac ∧
    (p.repaceCamera c).odk = p.odk ∧ (p.repaceCamera c).syncLine = p.syncLine ∧ (p.repaceCamera c).lrst = p.lrst ∧
    (p.repaceCamera c).freeCount = p.freeCount ∧ (p.repaceCamera c).rpu.phase = p.rpu.phase ∧
    (p.repaceCamera c).rpu.lineResetBusy = p.rpu.lineResetBusy ∧ (p.repaceCamera c).rpu.threshold = p.rpu.threshold ∧
    (p.repaceCamera c).rpu.busData = p.rpu.busData ∧ (p.repaceCamera c).rpu.fault = p.rpu.fault ∧
    (p.repaceCamera c).trl.nextSeq = p.trl.nextSeq := by
    unfold Part.repaceCamera; (repeat' split) <;> simp [fold_mtu, fold_cvt, fold_rbp, fold_rej, fold_spm, fold_sac,
    fold_odk, fold_syncLine, fold_lrst, fold_freeCount, fold_rpu_phase, fold_rpu_lineResetBusy, fold_rpu_threshold,
    fold_rpu_busData, fold_rpu_fault, fold_trl_nextSeq]

@[simp] theorem Part.camerasNewPace_frame (p : Part) :
    p.camerasNewPace.mtu = p.mtu ∧ p.camerasNewPace.cvt = p.cvt ∧ p.camerasNewPace.rbp = p.rbp ∧
    p.camerasNewPace.rej = p.rej ∧ p.camerasNewPace.spm = p.spm ∧ p.camerasNewPace.sac = p.sac ∧
    p.camerasNewPace.odk = p.odk ∧ p.camerasNewPace.syncLine = p.syncLine ∧ p.camerasNewPace.lrst = p.lrst ∧
    p.camerasNewPace.freeCount = p.freeCount ∧ p.camerasNewPace.rpu.phase = p.rpu.phase ∧
    p.camerasNewPace.rpu.lineResetBusy = p.rpu.lineResetBusy ∧ p.camerasNewPace.rpu.threshold = p.rpu.threshold ∧
    p.camerasNewPace.rpu.busData = p.rpu.busData ∧ p.camerasNewPace.rpu.fault = p.rpu.fault ∧
    p.camerasNewPace.trl.nextSeq = p.trl.nextSeq := by
    unfold Part.camerasNewPace; simp [fold_mtu, fold_cvt, fold_rbp, fold_rej, fold_spm, fold_sac, fold_odk,
    fold_syncLine, fold_lrst, fold_freeCount, fold_rpu_phase, fold_rpu_lineResetBusy, fold_rpu_threshold,
    fold_rpu_busData, fold_rpu_fault, fold_trl_nextSeq]

@[simp] theorem Part.camerasPaceLost_frame (p : Part) :
    p.camerasPaceLost.mtu = p.mtu ∧ p.camerasPaceLost.cvt = p.cvt ∧ p.camerasPaceLost.trl = p.trl ∧
    p.camerasPaceLost.rbp = p.rbp ∧ p.camerasPaceLost.rej = p.rej ∧ p.camerasPaceLost.spm = p.spm ∧
    p.camerasPaceLost.sac = p.sac ∧ p.camerasPaceLost.odk = p.odk ∧ p.camerasPaceLost.rpu = p.rpu ∧
    p.camerasPaceLost.syncLine = p.syncLine ∧ p.camerasPaceLost.lrst = p.lrst ∧ p.camerasPaceLost.mem = p.mem ∧
    p.camerasPaceLost.freeCount = p.freeCount := by
    unfold Part.camerasPaceLost; simp [fold_mtu, fold_cvt, fold_trl, fold_rbp, fold_rej, fold_spm, fold_sac,
    fold_odk, fold_rpu, fold_syncLine, fold_lrst, fold_mem, fold_freeCount]

@[simp] theorem Part.cameraFireTime_frame (p : Part) (c : Fin 6) :
    (p.cameraFireTime c).mtu = p.mtu ∧ (p.cameraFireTime c).cvt = p.cvt ∧ (p.cameraFireTime c).rbp = p.rbp ∧
    (p.cameraFireTime c).rej = p.rej ∧ (p.cameraFireTime c).spm = p.spm ∧ (p.cameraFireTime c).sac = p.sac ∧
    (p.cameraFireTime c).odk = p.odk ∧ (p.cameraFireTime c).syncLine = p.syncLine ∧
    (p.cameraFireTime c).lrst = p.lrst ∧ (p.cameraFireTime c).freeCount = p.freeCount ∧
    (p.cameraFireTime c).rpu.phase = p.rpu.phase ∧ (p.cameraFireTime c).rpu.lineResetBusy = p.rpu.lineResetBusy ∧
    (p.cameraFireTime c).rpu.threshold = p.rpu.threshold ∧ (p.cameraFireTime c).rpu.busData = p.rpu.busData ∧
    (p.cameraFireTime c).rpu.fault = p.rpu.fault ∧ (p.cameraFireTime c).trl.nextSeq = p.trl.nextSeq := by
  unfold Part.cameraFireTime; (repeat' split) <;> simp

@[simp] theorem Part.triggerPulseEnd_frame (p : Part) (c : Fin 6) :
    (p.triggerPulseEnd c).mtu = p.mtu ∧ (p.triggerPulseEnd c).cvt = p.cvt ∧ (p.triggerPulseEnd c).rbp = p.rbp ∧
    (p.triggerPulseEnd c).rej = p.rej ∧ (p.triggerPulseEnd c).spm = p.spm ∧ (p.triggerPulseEnd c).sac = p.sac ∧
    (p.triggerPulseEnd c).odk = p.odk ∧ (p.triggerPulseEnd c).syncLine = p.syncLine ∧
    (p.triggerPulseEnd c).lrst = p.lrst ∧ (p.triggerPulseEnd c).freeCount = p.freeCount ∧
    (p.triggerPulseEnd c).rpu.phase = p.rpu.phase ∧ (p.triggerPulseEnd c).rpu.lineResetBusy = p.rpu.lineResetBusy ∧
    (p.triggerPulseEnd c).rpu.threshold = p.rpu.threshold ∧ (p.triggerPulseEnd c).rpu.busData = p.rpu.busData ∧
    (p.triggerPulseEnd c).rpu.fault = p.rpu.fault ∧ (p.triggerPulseEnd c).trl.nextSeq = p.trl.nextSeq := by
  unfold Part.triggerPulseEnd; dsimp only; (repeat' split) <;> simp

@[simp] theorem Part.cameraStation_frame (p : Part) (c : Fin 6) (seq : Word) :
    (p.cameraStation c seq).mtu = p.mtu ∧ (p.cameraStation c seq).cvt = p.cvt ∧ (p.cameraStation c seq).rbp = p.rbp ∧
    (p.cameraStation c seq).rej = p.rej ∧ (p.cameraStation c seq).spm = p.spm ∧ (p.cameraStation c seq).sac = p.sac ∧
    (p.cameraStation c seq).odk = p.odk ∧ (p.cameraStation c seq).syncLine = p.syncLine ∧
    (p.cameraStation c seq).lrst = p.lrst ∧ (p.cameraStation c seq).freeCount = p.freeCount ∧
    (p.cameraStation c seq).rpu.phase = p.rpu.phase ∧
    (p.cameraStation c seq).rpu.lineResetBusy = p.rpu.lineResetBusy ∧
    (p.cameraStation c seq).rpu.threshold = p.rpu.threshold ∧ (p.cameraStation c seq).rpu.busData = p.rpu.busData ∧
    (p.cameraStation c seq).rpu.fault = p.rpu.fault ∧ (p.cameraStation c seq).trl.nextSeq = p.trl.nextSeq := by
  unfold Part.cameraStation; dsimp only; (repeat' split) <;> simp

@[simp] theorem Part.cameraChanged_frame (p : Part) (c : Fin 6) (before : CameraState) :
    (p.cameraChanged c before).mtu = p.mtu ∧ (p.cameraChanged c before).cvt = p.cvt ∧
    (p.cameraChanged c before).rbp = p.rbp ∧ (p.cameraChanged c before).rej = p.rej ∧
    (p.cameraChanged c before).spm = p.spm ∧ (p.cameraChanged c before).sac = p.sac ∧
    (p.cameraChanged c before).odk = p.odk ∧ (p.cameraChanged c before).syncLine = p.syncLine ∧
    (p.cameraChanged c before).lrst = p.lrst ∧ (p.cameraChanged c before).freeCount = p.freeCount ∧
    (p.cameraChanged c before).rpu.phase = p.rpu.phase ∧
    (p.cameraChanged c before).rpu.lineResetBusy = p.rpu.lineResetBusy ∧
    (p.cameraChanged c before).rpu.threshold = p.rpu.threshold ∧
    (p.cameraChanged c before).rpu.busData = p.rpu.busData ∧ (p.cameraChanged c before).rpu.fault = p.rpu.fault ∧
    (p.cameraChanged c before).trl.nextSeq = p.trl.nextSeq := by
    unfold Part.cameraChanged; dsimp only; (repeat' split) <;> simp [fold_mtu, fold_cvt, fold_rbp, fold_rej,
    fold_spm, fold_sac, fold_odk, fold_syncLine, fold_lrst, fold_freeCount, fold_rpu_phase, fold_rpu_lineResetBusy,
    fold_rpu_threshold, fold_rpu_busData, fold_rpu_fault, fold_trl_nextSeq]

@[simp] theorem Part.setCameraFlags_frame (p : Part) (c : Fin 6) (f : Camera → Camera) :
    (p.setCameraFlags c f).mtu = p.mtu ∧ (p.setCameraFlags c f).cvt = p.cvt ∧ (p.setCameraFlags c f).rbp = p.rbp ∧
    (p.setCameraFlags c f).rej = p.rej ∧ (p.setCameraFlags c f).spm = p.spm ∧ (p.setCameraFlags c f).sac = p.sac ∧
    (p.setCameraFlags c f).odk = p.odk ∧ (p.setCameraFlags c f).syncLine = p.syncLine ∧
    (p.setCameraFlags c f).lrst = p.lrst ∧ (p.setCameraFlags c f).freeCount = p.freeCount ∧
    (p.setCameraFlags c f).rpu.phase = p.rpu.phase ∧ (p.setCameraFlags c f).rpu.lineResetBusy = p.rpu.lineResetBusy ∧
    (p.setCameraFlags c f).rpu.threshold = p.rpu.threshold ∧ (p.setCameraFlags c f).rpu.busData = p.rpu.busData ∧
    (p.setCameraFlags c f).rpu.fault = p.rpu.fault ∧ (p.setCameraFlags c f).trl.nextSeq = p.trl.nextSeq := by
  unfold Part.setCameraFlags; dsimp only; simp

@[simp] theorem Part.zoneService_frame (p : Part) (c : Fin 6) (on : Bool) :
    (p.zoneService c on).mtu = p.mtu ∧ (p.zoneService c on).cvt = p.cvt ∧ (p.zoneService c on).rbp = p.rbp ∧
    (p.zoneService c on).rej = p.rej ∧ (p.zoneService c on).spm = p.spm ∧ (p.zoneService c on).sac = p.sac ∧
    (p.zoneService c on).odk = p.odk ∧ (p.zoneService c on).syncLine = p.syncLine ∧
    (p.zoneService c on).lrst = p.lrst ∧ (p.zoneService c on).freeCount = p.freeCount ∧
    (p.zoneService c on).rpu.phase = p.rpu.phase ∧ (p.zoneService c on).rpu.lineResetBusy = p.rpu.lineResetBusy ∧
    (p.zoneService c on).rpu.threshold = p.rpu.threshold ∧ (p.zoneService c on).rpu.busData = p.rpu.busData ∧
    (p.zoneService c on).rpu.fault = p.rpu.fault ∧ (p.zoneService c on).trl.nextSeq = p.trl.nextSeq := by
  unfold Part.zoneService; (repeat' split) <;> simp

@[simp] theorem Part.zoneServiceMember_frame (p : Part) (z : Fin 8) (on : Bool) (c : Fin 6) :
    (p.zoneServiceMember z on c).mtu = p.mtu ∧ (p.zoneServiceMember z on c).cvt = p.cvt ∧
    (p.zoneServiceMember z on c).rbp = p.rbp ∧ (p.zoneServiceMember z on c).rej = p.rej ∧
    (p.zoneServiceMember z on c).spm = p.spm ∧ (p.zoneServiceMember z on c).sac = p.sac ∧
    (p.zoneServiceMember z on c).odk = p.odk ∧ (p.zoneServiceMember z on c).syncLine = p.syncLine ∧
    (p.zoneServiceMember z on c).lrst = p.lrst ∧ (p.zoneServiceMember z on c).freeCount = p.freeCount ∧
    (p.zoneServiceMember z on c).rpu.phase = p.rpu.phase ∧
    (p.zoneServiceMember z on c).rpu.lineResetBusy = p.rpu.lineResetBusy ∧
    (p.zoneServiceMember z on c).rpu.threshold = p.rpu.threshold ∧
    (p.zoneServiceMember z on c).rpu.busData = p.rpu.busData ∧ (p.zoneServiceMember z on c).rpu.fault = p.rpu.fault ∧
    (p.zoneServiceMember z on c).trl.nextSeq = p.trl.nextSeq := by
  unfold Part.zoneServiceMember; (repeat' split) <;> simp

@[simp] theorem Part.zoneServiceAll_frame (p : Part) (z : Fin 8) (on : Bool) :
    (p.zoneServiceAll z on).mtu = p.mtu ∧ (p.zoneServiceAll z on).cvt = p.cvt ∧ (p.zoneServiceAll z on).rbp = p.rbp ∧
    (p.zoneServiceAll z on).rej = p.rej ∧ (p.zoneServiceAll z on).spm = p.spm ∧ (p.zoneServiceAll z on).sac = p.sac ∧
    (p.zoneServiceAll z on).odk = p.odk ∧ (p.zoneServiceAll z on).syncLine = p.syncLine ∧
    (p.zoneServiceAll z on).lrst = p.lrst ∧ (p.zoneServiceAll z on).freeCount = p.freeCount ∧
    (p.zoneServiceAll z on).rpu.phase = p.rpu.phase ∧
    (p.zoneServiceAll z on).rpu.lineResetBusy = p.rpu.lineResetBusy ∧
    (p.zoneServiceAll z on).rpu.threshold = p.rpu.threshold ∧ (p.zoneServiceAll z on).rpu.busData = p.rpu.busData ∧
    (p.zoneServiceAll z on).rpu.fault = p.rpu.fault ∧ (p.zoneServiceAll z on).trl.nextSeq = p.trl.nextSeq := by
    unfold Part.zoneServiceAll; simp [fold_mtu, fold_cvt, fold_rbp, fold_rej, fold_spm, fold_sac, fold_odk,
    fold_syncLine, fold_lrst, fold_freeCount, fold_rpu_phase, fold_rpu_lineResetBusy, fold_rpu_threshold,
    fold_rpu_busData, fold_rpu_fault, fold_trl_nextSeq]

@[simp] theorem Part.cameraServiceOrder_frame (p : Part) (ref : OrderRef) (camera : Byte) (out : Byte) :
    (p.cameraServiceOrder ref camera out).mtu = p.mtu ∧ (p.cameraServiceOrder ref camera out).cvt = p.cvt ∧
    (p.cameraServiceOrder ref camera out).rbp = p.rbp ∧ (p.cameraServiceOrder ref camera out).rej = p.rej ∧
    (p.cameraServiceOrder ref camera out).spm = p.spm ∧ (p.cameraServiceOrder ref camera out).sac = p.sac ∧
    (p.cameraServiceOrder ref camera out).syncLine = p.syncLine ∧
    (p.cameraServiceOrder ref camera out).lrst = p.lrst ∧
    (p.cameraServiceOrder ref camera out).freeCount = p.freeCount ∧
    (p.cameraServiceOrder ref camera out).odk.queue = p.odk.queue ∧
    (p.cameraServiceOrder ref camera out).odk.takeIdentity = p.odk.takeIdentity ∧
    (p.cameraServiceOrder ref camera out).rpu.phase = p.rpu.phase ∧
    (p.cameraServiceOrder ref camera out).rpu.lineResetBusy = p.rpu.lineResetBusy ∧
    (p.cameraServiceOrder ref camera out).rpu.threshold = p.rpu.threshold ∧
    (p.cameraServiceOrder ref camera out).rpu.busData = p.rpu.busData ∧
    (p.cameraServiceOrder ref camera out).rpu.fault = p.rpu.fault ∧
    (p.cameraServiceOrder ref camera out).trl.nextSeq = p.trl.nextSeq := by
  unfold Part.cameraServiceOrder; dsimp only; (repeat' split) <;> simp

@[simp] theorem Part.cameraRestoreOrder_frame (p : Part) (ref : OrderRef) (camera : Byte) :
    (p.cameraRestoreOrder ref camera).mtu = p.mtu ∧ (p.cameraRestoreOrder ref camera).cvt = p.cvt ∧
    (p.cameraRestoreOrder ref camera).rbp = p.rbp ∧ (p.cameraRestoreOrder ref camera).rej = p.rej ∧
    (p.cameraRestoreOrder ref camera).spm = p.spm ∧ (p.cameraRestoreOrder ref camera).sac = p.sac ∧
    (p.cameraRestoreOrder ref camera).syncLine = p.syncLine ∧ (p.cameraRestoreOrder ref camera).lrst = p.lrst ∧
    (p.cameraRestoreOrder ref camera).freeCount = p.freeCount ∧
    (p.cameraRestoreOrder ref camera).odk.queue = p.odk.queue ∧
    (p.cameraRestoreOrder ref camera).odk.takeIdentity = p.odk.takeIdentity ∧
    (p.cameraRestoreOrder ref camera).rpu.phase = p.rpu.phase ∧
    (p.cameraRestoreOrder ref camera).rpu.lineResetBusy = p.rpu.lineResetBusy ∧
    (p.cameraRestoreOrder ref camera).rpu.threshold = p.rpu.threshold ∧
    (p.cameraRestoreOrder ref camera).rpu.busData = p.rpu.busData ∧
    (p.cameraRestoreOrder ref camera).rpu.fault = p.rpu.fault ∧
    (p.cameraRestoreOrder ref camera).trl.nextSeq = p.trl.nextSeq := by
  unfold Part.cameraRestoreOrder; (repeat' split) <;> simp

@[simp] theorem Part.cameraSilence_frame (p : Part) (c : Fin 6) (action : SilenceAction) :
    (p.cameraSilence c action).mtu = p.mtu ∧ (p.cameraSilence c action).cvt = p.cvt ∧
    (p.cameraSilence c action).rbp = p.rbp ∧ (p.cameraSilence c action).rej = p.rej ∧
    (p.cameraSilence c action).spm = p.spm ∧ (p.cameraSilence c action).sac = p.sac ∧
    (p.cameraSilence c action).odk = p.odk ∧ (p.cameraSilence c action).syncLine = p.syncLine ∧
    (p.cameraSilence c action).lrst = p.lrst ∧ (p.cameraSilence c action).freeCount = p.freeCount ∧
    (p.cameraSilence c action).rpu.phase = p.rpu.phase ∧
    (p.cameraSilence c action).rpu.lineResetBusy = p.rpu.lineResetBusy ∧
    (p.cameraSilence c action).rpu.threshold = p.rpu.threshold ∧
    (p.cameraSilence c action).rpu.busData = p.rpu.busData ∧ (p.cameraSilence c action).rpu.fault = p.rpu.fault ∧
    (p.cameraSilence c action).trl.nextSeq = p.trl.nextSeq := by
  unfold Part.cameraSilence; dsimp only; (repeat' split) <;> simp

@[simp] theorem Part.cameraResumed_frame (p : Part) (c : Fin 6) :
    (p.cameraResumed c).mtu = p.mtu ∧ (p.cameraResumed c).cvt = p.cvt ∧ (p.cameraResumed c).trl = p.trl ∧
    (p.cameraResumed c).rbp = p.rbp ∧ (p.cameraResumed c).rej = p.rej ∧ (p.cameraResumed c).spm = p.spm ∧
    (p.cameraResumed c).sac = p.sac ∧ (p.cameraResumed c).odk = p.odk ∧ (p.cameraResumed c).syncLine = p.syncLine ∧
    (p.cameraResumed c).lrst = p.lrst ∧ (p.cameraResumed c).freeCount = p.freeCount ∧
    (p.cameraResumed c).rpu.phase = p.rpu.phase ∧ (p.cameraResumed c).rpu.lineResetBusy = p.rpu.lineResetBusy ∧
    (p.cameraResumed c).rpu.threshold = p.rpu.threshold ∧ (p.cameraResumed c).rpu.busData = p.rpu.busData ∧
    (p.cameraResumed c).rpu.fault = p.rpu.fault := by
  unfold Part.cameraResumed; simp

@[simp] theorem Part.matchVerdict_frame (p : Part) (c : Fin 6) (seq : Word) (pass : Bool) :
    (p.matchVerdict c seq pass).mtu = p.mtu ∧ (p.matchVerdict c seq pass).cvt = p.cvt ∧
    (p.matchVerdict c seq pass).rbp = p.rbp ∧ (p.matchVerdict c seq pass).rej = p.rej ∧
    (p.matchVerdict c seq pass).spm = p.spm ∧ (p.matchVerdict c seq pass).sac = p.sac ∧
    (p.matchVerdict c seq pass).odk = p.odk ∧ (p.matchVerdict c seq pass).syncLine = p.syncLine ∧
    (p.matchVerdict c seq pass).lrst = p.lrst ∧ (p.matchVerdict c seq pass).freeCount = p.freeCount ∧
    (p.matchVerdict c seq pass).rpu.phase = p.rpu.phase ∧
    (p.matchVerdict c seq pass).rpu.lineResetBusy = p.rpu.lineResetBusy ∧
    (p.matchVerdict c seq pass).rpu.threshold = p.rpu.threshold ∧
    (p.matchVerdict c seq pass).rpu.busData = p.rpu.busData ∧ (p.matchVerdict c seq pass).rpu.fault = p.rpu.fault ∧
    (p.matchVerdict c seq pass).trl.nextSeq = p.trl.nextSeq := by
  unfold Part.matchVerdict; dsimp only; (repeat' split) <;> simp

@[simp] theorem Part.verdictStrobe_frame (p : Part) (c : Fin 6) (pass : Bool) (tag : BitVec 5) :
    (p.verdictStrobe c pass tag).mtu = p.mtu ∧ (p.verdictStrobe c pass tag).cvt = p.cvt ∧
    (p.verdictStrobe c pass tag).rbp = p.rbp ∧ (p.verdictStrobe c pass tag).rej = p.rej ∧
    (p.verdictStrobe c pass tag).spm = p.spm ∧ (p.verdictStrobe c pass tag).sac = p.sac ∧
    (p.verdictStrobe c pass tag).odk = p.odk ∧ (p.verdictStrobe c pass tag).syncLine = p.syncLine ∧
    (p.verdictStrobe c pass tag).lrst = p.lrst ∧ (p.verdictStrobe c pass tag).freeCount = p.freeCount ∧
    (p.verdictStrobe c pass tag).rpu.phase = p.rpu.phase ∧
    (p.verdictStrobe c pass tag).rpu.lineResetBusy = p.rpu.lineResetBusy ∧
    (p.verdictStrobe c pass tag).rpu.threshold = p.rpu.threshold ∧
    (p.verdictStrobe c pass tag).rpu.busData = p.rpu.busData ∧ (p.verdictStrobe c pass tag).rpu.fault = p.rpu.fault ∧
    (p.verdictStrobe c pass tag).trl.nextSeq = p.trl.nextSeq := by
  unfold Part.verdictStrobe; (repeat' split) <;> simp

@[simp] theorem Part.verdictLines_frame (p : Part) (c : Fin 6) (pass : Bool) (fail : Bool) (tag : BitVec 5) :
    (p.verdictLines c pass fail tag).mtu = p.mtu ∧ (p.verdictLines c pass fail tag).cvt = p.cvt ∧
    (p.verdictLines c pass fail tag).rbp = p.rbp ∧ (p.verdictLines c pass fail tag).rej = p.rej ∧
    (p.verdictLines c pass fail tag).spm = p.spm ∧ (p.verdictLines c pass fail tag).sac = p.sac ∧
    (p.verdictLines c pass fail tag).odk = p.odk ∧ (p.verdictLines c pass fail tag).syncLine = p.syncLine ∧
    (p.verdictLines c pass fail tag).lrst = p.lrst ∧ (p.verdictLines c pass fail tag).freeCount = p.freeCount ∧
    (p.verdictLines c pass fail tag).rpu.phase = p.rpu.phase ∧
    (p.verdictLines c pass fail tag).rpu.lineResetBusy = p.rpu.lineResetBusy ∧
    (p.verdictLines c pass fail tag).rpu.threshold = p.rpu.threshold ∧
    (p.verdictLines c pass fail tag).rpu.busData = p.rpu.busData ∧
    (p.verdictLines c pass fail tag).rpu.fault = p.rpu.fault ∧
    (p.verdictLines c pass fail tag).trl.nextSeq = p.trl.nextSeq := by
  unfold Part.verdictLines; dsimp only; (repeat' split) <;> simp

@[simp] theorem Part.verdictOrder_frame (p : Part) (ref : OrderRef) (camera : Byte) (verdict : Byte) (seq : Word) :
    (p.verdictOrder ref camera verdict seq).mtu = p.mtu ∧ (p.verdictOrder ref camera verdict seq).cvt = p.cvt ∧
    (p.verdictOrder ref camera verdict seq).rbp = p.rbp ∧ (p.verdictOrder ref camera verdict seq).rej = p.rej ∧
    (p.verdictOrder ref camera verdict seq).spm = p.spm ∧ (p.verdictOrder ref camera verdict seq).sac = p.sac ∧
    (p.verdictOrder ref camera verdict seq).syncLine = p.syncLine ∧
    (p.verdictOrder ref camera verdict seq).lrst = p.lrst ∧
    (p.verdictOrder ref camera verdict seq).freeCount = p.freeCount ∧
    (p.verdictOrder ref camera verdict seq).odk.queue = p.odk.queue ∧
    (p.verdictOrder ref camera verdict seq).odk.takeIdentity = p.odk.takeIdentity ∧
    (p.verdictOrder ref camera verdict seq).rpu.phase = p.rpu.phase ∧
    (p.verdictOrder ref camera verdict seq).rpu.lineResetBusy = p.rpu.lineResetBusy ∧
    (p.verdictOrder ref camera verdict seq).rpu.threshold = p.rpu.threshold ∧
    (p.verdictOrder ref camera verdict seq).rpu.busData = p.rpu.busData ∧
    (p.verdictOrder ref camera verdict seq).rpu.fault = p.rpu.fault ∧
    (p.verdictOrder ref camera verdict seq).trl.nextSeq = p.trl.nextSeq := by
  unfold Part.verdictOrder; dsimp only; (repeat' split) <;> simp

@[simp] theorem Part.closeCamera_frame (p : Part) (c : Fin 6) (seq : Word) :
    (p.closeCamera c seq).mtu = p.mtu ∧ (p.closeCamera c seq).cvt = p.cvt ∧ (p.closeCamera c seq).rbp = p.rbp ∧
    (p.closeCamera c seq).rej = p.rej ∧ (p.closeCamera c seq).spm = p.spm ∧ (p.closeCamera c seq).sac = p.sac ∧
    (p.closeCamera c seq).odk = p.odk ∧ (p.closeCamera c seq).syncLine = p.syncLine ∧
    (p.closeCamera c seq).lrst = p.lrst ∧ (p.closeCamera c seq).freeCount = p.freeCount ∧
    (p.closeCamera c seq).rpu.phase = p.rpu.phase ∧ (p.closeCamera c seq).rpu.lineResetBusy = p.rpu.lineResetBusy ∧
    (p.closeCamera c seq).rpu.threshold = p.rpu.threshold ∧ (p.closeCamera c seq).rpu.busData = p.rpu.busData ∧
    (p.closeCamera c seq).rpu.fault = p.rpu.fault ∧ (p.closeCamera c seq).trl.nextSeq = p.trl.nextSeq := by
  unfold Part.closeCamera; (repeat' split) <;> simp

@[simp] theorem Part.closePresent_frame (p : Part) (seq : Word) (c : Fin 6) :
    (p.closePresent seq c).mtu = p.mtu ∧ (p.closePresent seq c).cvt = p.cvt ∧ (p.closePresent seq c).rbp = p.rbp ∧
    (p.closePresent seq c).rej = p.rej ∧ (p.closePresent seq c).spm = p.spm ∧ (p.closePresent seq c).sac = p.sac ∧
    (p.closePresent seq c).odk = p.odk ∧ (p.closePresent seq c).syncLine = p.syncLine ∧
    (p.closePresent seq c).lrst = p.lrst ∧ (p.closePresent seq c).freeCount = p.freeCount ∧
    (p.closePresent seq c).rpu.phase = p.rpu.phase ∧ (p.closePresent seq c).rpu.lineResetBusy = p.rpu.lineResetBusy ∧
    (p.closePresent seq c).rpu.threshold = p.rpu.threshold ∧ (p.closePresent seq c).rpu.busData = p.rpu.busData ∧
    (p.closePresent seq c).rpu.fault = p.rpu.fault ∧ (p.closePresent seq c).trl.nextSeq = p.trl.nextSeq := by
  unfold Part.closePresent; (repeat' split) <;> simp

@[simp] theorem Part.closeCameras_frame (p : Part) (seq : Word) :
    (p.closeCameras seq).mtu = p.mtu ∧ (p.closeCameras seq).cvt = p.cvt ∧ (p.closeCameras seq).rbp = p.rbp ∧
    (p.closeCameras seq).rej = p.rej ∧ (p.closeCameras seq).spm = p.spm ∧ (p.closeCameras seq).sac = p.sac ∧
    (p.closeCameras seq).odk = p.odk ∧ (p.closeCameras seq).syncLine = p.syncLine ∧
    (p.closeCameras seq).lrst = p.lrst ∧ (p.closeCameras seq).freeCount = p.freeCount ∧
    (p.closeCameras seq).rpu.phase = p.rpu.phase ∧ (p.closeCameras seq).rpu.lineResetBusy = p.rpu.lineResetBusy ∧
    (p.closeCameras seq).rpu.threshold = p.rpu.threshold ∧ (p.closeCameras seq).rpu.busData = p.rpu.busData ∧
    (p.closeCameras seq).rpu.fault = p.rpu.fault ∧ (p.closeCameras seq).trl.nextSeq = p.trl.nextSeq := by
    unfold Part.closeCameras; simp [fold_mtu, fold_cvt, fold_rbp, fold_rej, fold_spm, fold_sac, fold_odk,
    fold_syncLine, fold_lrst, fold_freeCount, fold_rpu_phase, fold_rpu_lineResetBusy, fold_rpu_threshold,
    fold_rpu_busData, fold_rpu_fault, fold_trl_nextSeq]

@[simp] theorem Part.camerasAdopt_frame (p : Part) :
    p.camerasAdopt.mtu = p.mtu ∧ p.camerasAdopt.cvt = p.cvt ∧ p.camerasAdopt.trl = p.trl ∧
    p.camerasAdopt.rbp = p.rbp ∧ p.camerasAdopt.rej = p.rej ∧ p.camerasAdopt.spm = p.spm ∧
    p.camerasAdopt.sac = p.sac ∧ p.camerasAdopt.odk = p.odk ∧ p.camerasAdopt.syncLine = p.syncLine ∧
    p.camerasAdopt.lrst = p.lrst ∧ p.camerasAdopt.freeCount = p.freeCount ∧ p.camerasAdopt.rpu.phase = p.rpu.phase ∧
    p.camerasAdopt.rpu.lineResetBusy = p.rpu.lineResetBusy ∧ p.camerasAdopt.rpu.threshold = p.rpu.threshold ∧
    p.camerasAdopt.rpu.busData = p.rpu.busData ∧ p.camerasAdopt.rpu.fault = p.rpu.fault := by
    unfold Part.camerasAdopt; dsimp only; simp [fold_mtu, fold_cvt, fold_trl, fold_rbp,
    fold_rej, fold_spm, fold_sac, fold_odk, fold_syncLine, fold_lrst, fold_freeCount, fold_rpu_phase,
    fold_rpu_lineResetBusy, fold_rpu_threshold, fold_rpu_busData, fold_rpu_fault]

@[simp] theorem Part.camerasLineReset_frame (p : Part) :
    p.camerasLineReset.mtu = p.mtu ∧ p.camerasLineReset.cvt = p.cvt ∧ p.camerasLineReset.trl = p.trl ∧
    p.camerasLineReset.rbp = p.rbp ∧ p.camerasLineReset.rej = p.rej ∧ p.camerasLineReset.spm = p.spm ∧
    p.camerasLineReset.sac = p.sac ∧ p.camerasLineReset.odk = p.odk ∧ p.camerasLineReset.syncLine = p.syncLine ∧
    p.camerasLineReset.lrst = p.lrst ∧ p.camerasLineReset.freeCount = p.freeCount ∧
    p.camerasLineReset.rpu.phase = p.rpu.phase ∧ p.camerasLineReset.rpu.lineResetBusy = p.rpu.lineResetBusy ∧
    p.camerasLineReset.rpu.threshold = p.rpu.threshold ∧ p.camerasLineReset.rpu.busData = p.rpu.busData ∧
    p.camerasLineReset.rpu.fault = p.rpu.fault := by
    unfold Part.camerasLineReset; simp [fold_mtu, fold_cvt, fold_trl, fold_rbp, fold_rej, fold_spm, fold_sac,
    fold_odk, fold_syncLine, fold_lrst, fold_freeCount, fold_rpu_phase, fold_rpu_lineResetBusy, fold_rpu_threshold,
    fold_rpu_busData, fold_rpu_fault]

end Sys2Proof.Machine
end

