-- ==== Sys2Proof/Laws/FramePorts.lean ====
section
/-! SUPPORT. What each operation of the Switch Port Monitor leaves unchanged: one theorem per operation. -/

namespace Sys2Proof.Machine

@[simp] theorem Port.supervise_frame (before after : Port) (now : Time) :
    (before.supervise after now).role = after.role ∧ (before.supervise after now).admission = after.admission ∧
    (before.supervise after now).link = after.link ∧ (before.supervise after now).act = after.act := by
  unfold Port.supervise; (repeat' split) <;> simp

@[simp] theorem Part.portOutcome_frame (p : Part) (i : Fin 16) (event : PortEvent) (action : Nat) :
    (p.portOutcome i event action).mtu = p.mtu ∧ (p.portOutcome i event action).cvt = p.cvt ∧
    (p.portOutcome i event action).trl = p.trl ∧ (p.portOutcome i event action).rbp = p.rbp ∧
    (p.portOutcome i event action).ctu = p.ctu ∧ (p.portOutcome i event action).rej = p.rej ∧
    (p.portOutcome i event action).spm = p.spm ∧ (p.portOutcome i event action).sac = p.sac ∧
    (p.portOutcome i event action).odk = p.odk ∧ (p.portOutcome i event action).syncLine = p.syncLine ∧
    (p.portOutcome i event action).lrst = p.lrst ∧ (p.portOutcome i event action).freeCount = p.freeCount ∧
    (p.portOutcome i event action).rpu.phase = p.rpu.phase ∧
    (p.portOutcome i event action).rpu.lineResetBusy = p.rpu.lineResetBusy ∧
    (p.portOutcome i event action).rpu.threshold = p.rpu.threshold ∧
    (p.portOutcome i event action).rpu.busData = p.rpu.busData ∧
    (p.portOutcome i event action).rpu.fault = p.rpu.fault := by
  unfold Part.portOutcome; simp

@[simp] theorem Part.setAdmission_frame (p : Part) (i : Fin 16) (a : Admission) :
    (p.setAdmission i a).mtu = p.mtu ∧ (p.setAdmission i a).cvt = p.cvt ∧ (p.setAdmission i a).trl = p.trl ∧ (p.setAdmission i a).rbp = p.rbp ∧
    (p.setAdmission i a).ctu = p.ctu ∧ (p.setAdmission i a).rej = p.rej ∧ (p.setAdmission i a).sac = p.sac ∧ (p.setAdmission i a).odk = p.odk ∧
    (p.setAdmission i a).syncLine = p.syncLine ∧ (p.setAdmission i a).lrst = p.lrst ∧ (p.setAdmission i a).freeCount = p.freeCount ∧
    (p.setAdmission i a).rpu.phase = p.rpu.phase ∧ (p.setAdmission i a).rpu.lineResetBusy = p.rpu.lineResetBusy ∧
    (p.setAdmission i a).rpu.threshold = p.rpu.threshold ∧ (p.setAdmission i a).rpu.busData = p.rpu.busData ∧
    (p.setAdmission i a).rpu.fault = p.rpu.fault ∧ (p.setAdmission i a).spm.hallHold = p.spm.hallHold ∧
    (∀ k : Fin 16, (p.setAdmission i a).spm.ports[k.val].role = p.spm.ports[k.val].role) ∧
    (∀ k : Fin 16, (p.setAdmission i a).spm.ports[k.val].link = p.spm.ports[k.val].link) := by
  unfold Part.setAdmission; (repeat' split) <;> simp

@[simp] theorem Part.endQuarantine_frame (p : Part) (i : Fin 16) (a : Admission) :
    (p.endQuarantine i a).mtu = p.mtu ∧ (p.endQuarantine i a).cvt = p.cvt ∧ (p.endQuarantine i a).trl = p.trl ∧
    (p.endQuarantine i a).rbp = p.rbp ∧ (p.endQuarantine i a).ctu = p.ctu ∧ (p.endQuarantine i a).rej = p.rej ∧
    (p.endQuarantine i a).sac = p.sac ∧ (p.endQuarantine i a).odk = p.odk ∧
    (p.endQuarantine i a).syncLine = p.syncLine ∧ (p.endQuarantine i a).lrst = p.lrst ∧
    (p.endQuarantine i a).freeCount = p.freeCount ∧ (p.endQuarantine i a).rpu.phase = p.rpu.phase ∧
    (p.endQuarantine i a).rpu.lineResetBusy = p.rpu.lineResetBusy ∧
    (p.endQuarantine i a).rpu.threshold = p.rpu.threshold ∧ (p.endQuarantine i a).rpu.busData = p.rpu.busData ∧
    (p.endQuarantine i a).rpu.fault = p.rpu.fault ∧ (p.endQuarantine i a).spm.hallHold = p.spm.hallHold ∧
    (∀ k : Fin 16, (p.endQuarantine i a).spm.ports[k.val].role = p.spm.ports[k.val].role) ∧
    (∀ k : Fin 16, (p.endQuarantine i a).spm.ports[k.val].link = p.spm.ports[k.val].link) := by
  unfold Part.endQuarantine; simp

@[simp] theorem Part.openByOrder_frame (p : Part) (i : Fin 16) :
    (p.openByOrder i).mtu = p.mtu ∧ (p.openByOrder i).cvt = p.cvt ∧ (p.openByOrder i).trl = p.trl ∧
    (p.openByOrder i).rbp = p.rbp ∧ (p.openByOrder i).ctu = p.ctu ∧ (p.openByOrder i).rej = p.rej ∧
    (p.openByOrder i).sac = p.sac ∧ (p.openByOrder i).odk = p.odk ∧ (p.openByOrder i).syncLine = p.syncLine ∧
    (p.openByOrder i).lrst = p.lrst ∧ (p.openByOrder i).freeCount = p.freeCount ∧
    (p.openByOrder i).rpu.phase = p.rpu.phase ∧ (p.openByOrder i).rpu.lineResetBusy = p.rpu.lineResetBusy ∧
    (p.openByOrder i).rpu.threshold = p.rpu.threshold ∧ (p.openByOrder i).rpu.busData = p.rpu.busData ∧
    (p.openByOrder i).rpu.fault = p.rpu.fault ∧ (p.openByOrder i).spm.hallHold = p.spm.hallHold ∧
    (∀ k : Fin 16, (p.openByOrder i).spm.ports[k.val].role = p.spm.ports[k.val].role) ∧
    (∀ k : Fin 16, (p.openByOrder i).spm.ports[k.val].link = p.spm.ports[k.val].link) := by
  unfold Part.openByOrder; (repeat' split) <;> simp

@[simp] theorem Part.closeByOrder_frame (p : Part) (i : Fin 16) :
    (p.closeByOrder i).mtu = p.mtu ∧ (p.closeByOrder i).cvt = p.cvt ∧ (p.closeByOrder i).trl = p.trl ∧
    (p.closeByOrder i).rbp = p.rbp ∧ (p.closeByOrder i).ctu = p.ctu ∧ (p.closeByOrder i).rej = p.rej ∧
    (p.closeByOrder i).sac = p.sac ∧ (p.closeByOrder i).odk = p.odk ∧ (p.closeByOrder i).syncLine = p.syncLine ∧
    (p.closeByOrder i).lrst = p.lrst ∧ (p.closeByOrder i).freeCount = p.freeCount ∧
    (p.closeByOrder i).rpu.phase = p.rpu.phase ∧ (p.closeByOrder i).rpu.lineResetBusy = p.rpu.lineResetBusy ∧
    (p.closeByOrder i).rpu.threshold = p.rpu.threshold ∧ (p.closeByOrder i).rpu.busData = p.rpu.busData ∧
    (p.closeByOrder i).rpu.fault = p.rpu.fault ∧ (p.closeByOrder i).spm.hallHold = p.spm.hallHold ∧
    (∀ k : Fin 16, (p.closeByOrder i).spm.ports[k.val].role = p.spm.ports[k.val].role) ∧
    (∀ k : Fin 16, (p.closeByOrder i).spm.ports[k.val].link = p.spm.ports[k.val].link) := by
  unfold Part.closeByOrder; (repeat' split) <;> simp

@[simp] theorem Part.portAdmitOrder_frame (p : Part) (ref : OrderRef) (port : Byte) (opening : Byte) :
    (p.portAdmitOrder ref port opening).mtu = p.mtu ∧ (p.portAdmitOrder ref port opening).cvt = p.cvt ∧
    (p.portAdmitOrder ref port opening).trl = p.trl ∧ (p.portAdmitOrder ref port opening).rbp = p.rbp ∧
    (p.portAdmitOrder ref port opening).ctu = p.ctu ∧ (p.portAdmitOrder ref port opening).rej = p.rej ∧
    (p.portAdmitOrder ref port opening).sac = p.sac ∧ (p.portAdmitOrder ref port opening).syncLine = p.syncLine ∧
    (p.portAdmitOrder ref port opening).lrst = p.lrst ∧ (p.portAdmitOrder ref port opening).freeCount = p.freeCount ∧
    (p.portAdmitOrder ref port opening).odk.queue = p.odk.queue ∧
    (p.portAdmitOrder ref port opening).odk.takeIdentity = p.odk.takeIdentity ∧
    (p.portAdmitOrder ref port opening).rpu.phase = p.rpu.phase ∧
    (p.portAdmitOrder ref port opening).rpu.lineResetBusy = p.rpu.lineResetBusy ∧
    (p.portAdmitOrder ref port opening).rpu.threshold = p.rpu.threshold ∧
    (p.portAdmitOrder ref port opening).rpu.busData = p.rpu.busData ∧
    (p.portAdmitOrder ref port opening).rpu.fault = p.rpu.fault ∧
    (p.portAdmitOrder ref port opening).spm.hallHold = p.spm.hallHold ∧
    (∀ k : Fin 16, (p.portAdmitOrder ref port opening).spm.ports[k.val].role = p.spm.ports[k.val].role) ∧
    (∀ k : Fin 16, (p.portAdmitOrder ref port opening).spm.ports[k.val].link = p.spm.ports[k.val].link) := by
  unfold Part.portAdmitOrder; (repeat' split) <;> simp

@[simp] theorem Part.holdPort_frame (p : Part) (i : Fin 16) :
    (p.holdPort i).mtu = p.mtu ∧ (p.holdPort i).cvt = p.cvt ∧ (p.holdPort i).trl = p.trl ∧
    (p.holdPort i).rbp = p.rbp ∧ (p.holdPort i).ctu = p.ctu ∧ (p.holdPort i).rej = p.rej ∧
    (p.holdPort i).sac = p.sac ∧ (p.holdPort i).odk = p.odk ∧ (p.holdPort i).syncLine = p.syncLine ∧
    (p.holdPort i).lrst = p.lrst ∧ (p.holdPort i).freeCount = p.freeCount ∧ (p.holdPort i).rpu.phase = p.rpu.phase ∧
    (p.holdPort i).rpu.lineResetBusy = p.rpu.lineResetBusy ∧ (p.holdPort i).rpu.threshold = p.rpu.threshold ∧
    (p.holdPort i).rpu.busData = p.rpu.busData ∧ (p.holdPort i).rpu.fault = p.rpu.fault ∧
    (p.holdPort i).spm.hallHold = p.spm.hallHold ∧
    (∀ k : Fin 16, (p.holdPort i).spm.ports[k.val].role = p.spm.ports[k.val].role) ∧
    (∀ k : Fin 16, (p.holdPort i).spm.ports[k.val].link = p.spm.ports[k.val].link) := by
  unfold Part.holdPort; (repeat' split) <;> simp

@[simp] theorem Part.releasePort_frame (p : Part) (i : Fin 16) :
    (p.releasePort i).mtu = p.mtu ∧ (p.releasePort i).cvt = p.cvt ∧ (p.releasePort i).trl = p.trl ∧
    (p.releasePort i).rbp = p.rbp ∧ (p.releasePort i).ctu = p.ctu ∧ (p.releasePort i).rej = p.rej ∧
    (p.releasePort i).sac = p.sac ∧ (p.releasePort i).odk = p.odk ∧ (p.releasePort i).syncLine = p.syncLine ∧
    (p.releasePort i).lrst = p.lrst ∧ (p.releasePort i).freeCount = p.freeCount ∧
    (p.releasePort i).rpu.phase = p.rpu.phase ∧ (p.releasePort i).rpu.lineResetBusy = p.rpu.lineResetBusy ∧
    (p.releasePort i).rpu.threshold = p.rpu.threshold ∧ (p.releasePort i).rpu.busData = p.rpu.busData ∧
    (p.releasePort i).rpu.fault = p.rpu.fault ∧ (p.releasePort i).spm.hallHold = p.spm.hallHold ∧
    (∀ k : Fin 16, (p.releasePort i).spm.ports[k.val].role = p.spm.ports[k.val].role) ∧
    (∀ k : Fin 16, (p.releasePort i).spm.ports[k.val].link = p.spm.ports[k.val].link) := by
  unfold Part.releasePort; (repeat' split) <;> simp

@[simp] theorem Part.hallHoldOrder_frame (p : Part) (ref : OrderRef) :
    (p.hallHoldOrder ref).mtu = p.mtu ∧ (p.hallHoldOrder ref).cvt = p.cvt ∧ (p.hallHoldOrder ref).trl = p.trl ∧
    (p.hallHoldOrder ref).rbp = p.rbp ∧ (p.hallHoldOrder ref).ctu = p.ctu ∧ (p.hallHoldOrder ref).rej = p.rej ∧
    (p.hallHoldOrder ref).sac = p.sac ∧ (p.hallHoldOrder ref).syncLine = p.syncLine ∧
    (p.hallHoldOrder ref).lrst = p.lrst ∧ (p.hallHoldOrder ref).freeCount = p.freeCount ∧
    (p.hallHoldOrder ref).odk.queue = p.odk.queue ∧ (p.hallHoldOrder ref).odk.takeIdentity = p.odk.takeIdentity ∧
    (p.hallHoldOrder ref).rpu.phase = p.rpu.phase ∧ (p.hallHoldOrder ref).rpu.lineResetBusy = p.rpu.lineResetBusy ∧
    (p.hallHoldOrder ref).rpu.threshold = p.rpu.threshold ∧ (p.hallHoldOrder ref).rpu.busData = p.rpu.busData ∧
    (p.hallHoldOrder ref).rpu.fault = p.rpu.fault := by
    unfold Part.hallHoldOrder; dsimp only; (repeat' split) <;> simp [fold_mtu, fold_cvt, fold_trl, fold_rbp,
    fold_ctu, fold_rej, fold_sac, fold_syncLine, fold_lrst, fold_freeCount, fold_odk_queue, fold_odk_takeIdentity,
    fold_rpu_phase, fold_rpu_lineResetBusy, fold_rpu_threshold, fold_rpu_busData, fold_rpu_fault]

@[simp] theorem Part.hallHoldOrder_role (p : Part) (ref : OrderRef) (k : Fin 16) :
    (p.hallHoldOrder ref).spm.ports[k.val].role = p.spm.ports[k.val].role := by
  unfold Part.hallHoldOrder; dsimp only; split
  · simp
  · simp only [Part.complete_frame, Part.rewrite_frame, Part.raise_frame]
    rw [fold_spm_role _ _ _ _ (by simp)]
    simp

@[simp] theorem Part.hallHoldOrder_link (p : Part) (ref : OrderRef) (k : Fin 16) :
    (p.hallHoldOrder ref).spm.ports[k.val].link = p.spm.ports[k.val].link := by
  unfold Part.hallHoldOrder; dsimp only; split
  · simp
  · simp only [Part.complete_frame, Part.rewrite_frame, Part.raise_frame]
    rw [fold_spm_link _ _ _ _ (by simp)]
    simp

@[simp] theorem Part.hallReleaseOrder_frame (p : Part) (ref : OrderRef) :
    (p.hallReleaseOrder ref).mtu = p.mtu ∧ (p.hallReleaseOrder ref).cvt = p.cvt ∧
    (p.hallReleaseOrder ref).trl = p.trl ∧ (p.hallReleaseOrder ref).rbp = p.rbp ∧
    (p.hallReleaseOrder ref).ctu = p.ctu ∧ (p.hallReleaseOrder ref).rej = p.rej ∧
    (p.hallReleaseOrder ref).sac = p.sac ∧ (p.hallReleaseOrder ref).syncLine = p.syncLine ∧
    (p.hallReleaseOrder ref).lrst = p.lrst ∧ (p.hallReleaseOrder ref).freeCount = p.freeCount ∧
    (p.hallReleaseOrder ref).odk.queue = p.odk.queue ∧
    (p.hallReleaseOrder ref).odk.takeIdentity = p.odk.takeIdentity ∧
    (p.hallReleaseOrder ref).rpu.phase = p.rpu.phase ∧
    (p.hallReleaseOrder ref).rpu.lineResetBusy = p.rpu.lineResetBusy ∧
    (p.hallReleaseOrder ref).rpu.threshold = p.rpu.threshold ∧ (p.hallReleaseOrder ref).rpu.busData = p.rpu.busData ∧
    (p.hallReleaseOrder ref).rpu.fault = p.rpu.fault := by
    unfold Part.hallReleaseOrder; dsimp only; (repeat' split) <;> simp [fold_mtu, fold_cvt, fold_trl, fold_rbp,
    fold_ctu, fold_rej, fold_sac, fold_syncLine, fold_lrst, fold_freeCount, fold_odk_queue, fold_odk_takeIdentity,
    fold_rpu_phase, fold_rpu_lineResetBusy, fold_rpu_threshold, fold_rpu_busData, fold_rpu_fault]

@[simp] theorem Part.hallReleaseOrder_role (p : Part) (ref : OrderRef) (k : Fin 16) :
    (p.hallReleaseOrder ref).spm.ports[k.val].role = p.spm.ports[k.val].role := by
  unfold Part.hallReleaseOrder; dsimp only; split
  · simp only [Part.complete_frame, Part.rewrite_frame, Part.raise_frame]
    rw [fold_spm_role _ _ _ _ (by simp)]
    simp
  · simp

@[simp] theorem Part.hallReleaseOrder_link (p : Part) (ref : OrderRef) (k : Fin 16) :
    (p.hallReleaseOrder ref).spm.ports[k.val].link = p.spm.ports[k.val].link := by
  unfold Part.hallReleaseOrder; dsimp only; split
  · simp only [Part.complete_frame, Part.rewrite_frame, Part.raise_frame]
    rw [fold_spm_link _ _ _ _ (by simp)]
    simp
  · simp

@[simp] theorem Part.openZonePort_frame (p : Part) (z : Fin 8) (i : Fin 16) :
    (p.openZonePort z i).mtu = p.mtu ∧ (p.openZonePort z i).cvt = p.cvt ∧ (p.openZonePort z i).trl = p.trl ∧
    (p.openZonePort z i).rbp = p.rbp ∧ (p.openZonePort z i).ctu = p.ctu ∧ (p.openZonePort z i).rej = p.rej ∧
    (p.openZonePort z i).sac = p.sac ∧ (p.openZonePort z i).odk = p.odk ∧
    (p.openZonePort z i).syncLine = p.syncLine ∧ (p.openZonePort z i).lrst = p.lrst ∧
    (p.openZonePort z i).freeCount = p.freeCount ∧ (p.openZonePort z i).rpu.phase = p.rpu.phase ∧
    (p.openZonePort z i).rpu.lineResetBusy = p.rpu.lineResetBusy ∧
    (p.openZonePort z i).rpu.threshold = p.rpu.threshold ∧ (p.openZonePort z i).rpu.busData = p.rpu.busData ∧
    (p.openZonePort z i).rpu.fault = p.rpu.fault ∧ (p.openZonePort z i).spm.hallHold = p.spm.hallHold ∧
    (∀ k : Fin 16, (p.openZonePort z i).spm.ports[k.val].role = p.spm.ports[k.val].role) ∧
    (∀ k : Fin 16, (p.openZonePort z i).spm.ports[k.val].link = p.spm.ports[k.val].link) := by
  unfold Part.openZonePort; (repeat' split) <;> simp

@[simp] theorem Part.openZonePorts_frame (p : Part) (z : Fin 8) :
    (p.openZonePorts z).mtu = p.mtu ∧ (p.openZonePorts z).cvt = p.cvt ∧ (p.openZonePorts z).trl = p.trl ∧
    (p.openZonePorts z).rbp = p.rbp ∧ (p.openZonePorts z).ctu = p.ctu ∧ (p.openZonePorts z).rej = p.rej ∧
    (p.openZonePorts z).sac = p.sac ∧ (p.openZonePorts z).odk = p.odk ∧ (p.openZonePorts z).syncLine = p.syncLine ∧
    (p.openZonePorts z).lrst = p.lrst ∧ (p.openZonePorts z).freeCount = p.freeCount ∧
    (p.openZonePorts z).rpu.phase = p.rpu.phase ∧ (p.openZonePorts z).rpu.lineResetBusy = p.rpu.lineResetBusy ∧
    (p.openZonePorts z).rpu.threshold = p.rpu.threshold ∧ (p.openZonePorts z).rpu.busData = p.rpu.busData ∧
    (p.openZonePorts z).rpu.fault = p.rpu.fault ∧ (p.openZonePorts z).spm.hallHold = p.spm.hallHold ∧
    (∀ k : Fin 16, (p.openZonePorts z).spm.ports[k.val].role = p.spm.ports[k.val].role) ∧
    (∀ k : Fin 16, (p.openZonePorts z).spm.ports[k.val].link = p.spm.ports[k.val].link) := by
    unfold Part.openZonePorts; simp [fold_mtu, fold_cvt, fold_trl, fold_rbp, fold_ctu, fold_rej, fold_sac, fold_odk,
    fold_syncLine, fold_lrst, fold_freeCount, fold_rpu_phase, fold_rpu_lineResetBusy, fold_rpu_threshold,
    fold_rpu_busData, fold_rpu_fault, fold_spm_hallHold, fold_spm_role, fold_spm_link]

@[simp] theorem Part.closeZonePort_frame (p : Part) (z : Fin 8) (i : Fin 16) :
    (p.closeZonePort z i).mtu = p.mtu ∧ (p.closeZonePort z i).cvt = p.cvt ∧ (p.closeZonePort z i).trl = p.trl ∧
    (p.closeZonePort z i).rbp = p.rbp ∧ (p.closeZonePort z i).ctu = p.ctu ∧ (p.closeZonePort z i).rej = p.rej ∧
    (p.closeZonePort z i).sac = p.sac ∧ (p.closeZonePort z i).odk = p.odk ∧
    (p.closeZonePort z i).syncLine = p.syncLine ∧ (p.closeZonePort z i).lrst = p.lrst ∧
    (p.closeZonePort z i).freeCount = p.freeCount ∧ (p.closeZonePort z i).rpu.phase = p.rpu.phase ∧
    (p.closeZonePort z i).rpu.lineResetBusy = p.rpu.lineResetBusy ∧
    (p.closeZonePort z i).rpu.threshold = p.rpu.threshold ∧ (p.closeZonePort z i).rpu.busData = p.rpu.busData ∧
    (p.closeZonePort z i).rpu.fault = p.rpu.fault ∧ (p.closeZonePort z i).spm.hallHold = p.spm.hallHold ∧
    (∀ k : Fin 16, (p.closeZonePort z i).spm.ports[k.val].role = p.spm.ports[k.val].role) ∧
    (∀ k : Fin 16, (p.closeZonePort z i).spm.ports[k.val].link = p.spm.ports[k.val].link) := by
  unfold Part.closeZonePort; (repeat' split) <;> simp

@[simp] theorem Part.closeZonePorts_frame (p : Part) (z : Fin 8) :
    (p.closeZonePorts z).mtu = p.mtu ∧ (p.closeZonePorts z).cvt = p.cvt ∧ (p.closeZonePorts z).trl = p.trl ∧
    (p.closeZonePorts z).rbp = p.rbp ∧ (p.closeZonePorts z).ctu = p.ctu ∧ (p.closeZonePorts z).rej = p.rej ∧
    (p.closeZonePorts z).sac = p.sac ∧ (p.closeZonePorts z).odk = p.odk ∧
    (p.closeZonePorts z).syncLine = p.syncLine ∧ (p.closeZonePorts z).lrst = p.lrst ∧
    (p.closeZonePorts z).freeCount = p.freeCount ∧ (p.closeZonePorts z).rpu.phase = p.rpu.phase ∧
    (p.closeZonePorts z).rpu.lineResetBusy = p.rpu.lineResetBusy ∧
    (p.closeZonePorts z).rpu.threshold = p.rpu.threshold ∧ (p.closeZonePorts z).rpu.busData = p.rpu.busData ∧
    (p.closeZonePorts z).rpu.fault = p.rpu.fault ∧ (p.closeZonePorts z).spm.hallHold = p.spm.hallHold ∧
    (∀ k : Fin 16, (p.closeZonePorts z).spm.ports[k.val].role = p.spm.ports[k.val].role) ∧
    (∀ k : Fin 16, (p.closeZonePorts z).spm.ports[k.val].link = p.spm.ports[k.val].link) := by
    unfold Part.closeZonePorts; simp [fold_mtu, fold_cvt, fold_trl, fold_rbp, fold_ctu, fold_rej, fold_sac,
    fold_odk, fold_syncLine, fold_lrst, fold_freeCount, fold_rpu_phase, fold_rpu_lineResetBusy, fold_rpu_threshold,
    fold_rpu_busData, fold_rpu_fault, fold_spm_hallHold, fold_spm_role, fold_spm_link]

@[simp] theorem Part.quarantine_frame (p : Part) (i : Fin 16) :
    (p.quarantine i).mtu = p.mtu ∧ (p.quarantine i).cvt = p.cvt ∧ (p.quarantine i).trl = p.trl ∧
    (p.quarantine i).rbp = p.rbp ∧ (p.quarantine i).ctu = p.ctu ∧ (p.quarantine i).rej = p.rej ∧
    (p.quarantine i).sac = p.sac ∧ (p.quarantine i).odk = p.odk ∧ (p.quarantine i).syncLine = p.syncLine ∧
    (p.quarantine i).lrst = p.lrst ∧ (p.quarantine i).freeCount = p.freeCount ∧
    (p.quarantine i).rpu.phase = p.rpu.phase ∧ (p.quarantine i).rpu.lineResetBusy = p.rpu.lineResetBusy ∧
    (p.quarantine i).rpu.threshold = p.rpu.threshold ∧ (p.quarantine i).rpu.busData = p.rpu.busData ∧
    (p.quarantine i).spm.hallHold = p.spm.hallHold ∧
    (∀ k : Fin 16, (p.quarantine i).spm.ports[k.val].role = p.spm.ports[k.val].role) ∧
    (∀ k : Fin 16, (p.quarantine i).spm.ports[k.val].link = p.spm.ports[k.val].link) := by
  unfold Part.quarantine; dsimp only; simp

@[simp] theorem Part.linkUp_frame (p : Part) (i : Fin 16) :
    (p.linkUp i).mtu = p.mtu ∧ (p.linkUp i).cvt = p.cvt ∧ (p.linkUp i).trl = p.trl ∧ (p.linkUp i).rbp = p.rbp ∧
    (p.linkUp i).ctu = p.ctu ∧ (p.linkUp i).rej = p.rej ∧ (p.linkUp i).sac = p.sac ∧ (p.linkUp i).odk = p.odk ∧
    (p.linkUp i).syncLine = p.syncLine ∧ (p.linkUp i).lrst = p.lrst ∧ (p.linkUp i).freeCount = p.freeCount ∧
    (p.linkUp i).rpu.phase = p.rpu.phase ∧ (p.linkUp i).rpu.lineResetBusy = p.rpu.lineResetBusy ∧
    (p.linkUp i).rpu.threshold = p.rpu.threshold ∧ (p.linkUp i).rpu.busData = p.rpu.busData ∧
    (p.linkUp i).spm.hallHold = p.spm.hallHold ∧
    (∀ k : Fin 16, (p.linkUp i).spm.ports[k.val].role = p.spm.ports[k.val].role) := by
  unfold Part.linkUp; dsimp only; (repeat' split) <;> simp

@[simp] theorem Part.linkDown_frame (p : Part) (i : Fin 16) :
    (p.linkDown i).mtu = p.mtu ∧ (p.linkDown i).cvt = p.cvt ∧ (p.linkDown i).trl = p.trl ∧
    (p.linkDown i).rbp = p.rbp ∧ (p.linkDown i).ctu = p.ctu ∧ (p.linkDown i).rej = p.rej ∧
    (p.linkDown i).sac = p.sac ∧ (p.linkDown i).odk = p.odk ∧ (p.linkDown i).syncLine = p.syncLine ∧
    (p.linkDown i).lrst = p.lrst ∧ (p.linkDown i).freeCount = p.freeCount ∧ (p.linkDown i).rpu.phase = p.rpu.phase ∧
    (p.linkDown i).rpu.lineResetBusy = p.rpu.lineResetBusy ∧ (p.linkDown i).rpu.threshold = p.rpu.threshold ∧
    (p.linkDown i).rpu.busData = p.rpu.busData ∧ (p.linkDown i).rpu.fault = p.rpu.fault ∧
    (p.linkDown i).spm.hallHold = p.spm.hallHold ∧
    (∀ k : Fin 16, (p.linkDown i).spm.ports[k.val].role = p.spm.ports[k.val].role) := by
  unfold Part.linkDown; dsimp only; (repeat' split) <;> simp

@[simp] theorem Part.linkEvent_frame (p : Part) (i : Fin 16) (level : Bool) :
    (p.linkEvent i level).mtu = p.mtu ∧ (p.linkEvent i level).cvt = p.cvt ∧ (p.linkEvent i level).trl = p.trl ∧
    (p.linkEvent i level).rbp = p.rbp ∧ (p.linkEvent i level).ctu = p.ctu ∧ (p.linkEvent i level).rej = p.rej ∧
    (p.linkEvent i level).sac = p.sac ∧ (p.linkEvent i level).odk = p.odk ∧
    (p.linkEvent i level).syncLine = p.syncLine ∧ (p.linkEvent i level).lrst = p.lrst ∧
    (p.linkEvent i level).freeCount = p.freeCount ∧ (p.linkEvent i level).rpu.phase = p.rpu.phase ∧
    (p.linkEvent i level).rpu.lineResetBusy = p.rpu.lineResetBusy ∧
    (p.linkEvent i level).rpu.threshold = p.rpu.threshold ∧ (p.linkEvent i level).rpu.busData = p.rpu.busData ∧
    (p.linkEvent i level).spm.hallHold = p.spm.hallHold ∧
    (∀ k : Fin 16, (p.linkEvent i level).spm.ports[k.val].role = p.spm.ports[k.val].role) := by
  unfold Part.linkEvent; (repeat' split) <;> simp

@[simp] theorem Part.resumePort_frame (p : Part) (i : Fin 16) :
    (p.resumePort i).mtu = p.mtu ∧ (p.resumePort i).cvt = p.cvt ∧ (p.resumePort i).trl = p.trl ∧
    (p.resumePort i).rbp = p.rbp ∧ (p.resumePort i).rej = p.rej ∧ (p.resumePort i).sac = p.sac ∧
    (p.resumePort i).odk = p.odk ∧ (p.resumePort i).syncLine = p.syncLine ∧ (p.resumePort i).lrst = p.lrst ∧
    (p.resumePort i).freeCount = p.freeCount ∧ (p.resumePort i).rpu.phase = p.rpu.phase ∧
    (p.resumePort i).rpu.lineResetBusy = p.rpu.lineResetBusy ∧ (p.resumePort i).rpu.threshold = p.rpu.threshold ∧
    (p.resumePort i).rpu.busData = p.rpu.busData ∧ (p.resumePort i).rpu.fault = p.rpu.fault ∧
    (p.resumePort i).spm.hallHold = p.spm.hallHold ∧
    (∀ k : Fin 16, (p.resumePort i).spm.ports[k.val].role = p.spm.ports[k.val].role) ∧
    (∀ k : Fin 16, (p.resumePort i).spm.ports[k.val].admission = p.spm.ports[k.val].admission) ∧
    (∀ k : Fin 16, (p.resumePort i).spm.ports[k.val].link = p.spm.ports[k.val].link) := by
  unfold Part.resumePort; dsimp only; (repeat' split) <;> simp

@[simp] theorem Part.actPulse_frame (p : Part) (i : Fin 16) (level : Bool) :
    (p.actPulse i level).mtu = p.mtu ∧ (p.actPulse i level).cvt = p.cvt ∧ (p.actPulse i level).trl = p.trl ∧
    (p.actPulse i level).rbp = p.rbp ∧ (p.actPulse i level).rej = p.rej ∧ (p.actPulse i level).sac = p.sac ∧
    (p.actPulse i level).odk = p.odk ∧ (p.actPulse i level).syncLine = p.syncLine ∧
    (p.actPulse i level).lrst = p.lrst ∧ (p.actPulse i level).freeCount = p.freeCount ∧
    (p.actPulse i level).rpu.phase = p.rpu.phase ∧ (p.actPulse i level).rpu.lineResetBusy = p.rpu.lineResetBusy ∧
    (p.actPulse i level).rpu.threshold = p.rpu.threshold ∧ (p.actPulse i level).rpu.busData = p.rpu.busData ∧
    (p.actPulse i level).rpu.fault = p.rpu.fault ∧ (p.actPulse i level).spm.hallHold = p.spm.hallHold ∧
    (∀ k : Fin 16, (p.actPulse i level).spm.ports[k.val].role = p.spm.ports[k.val].role) ∧
    (∀ k : Fin 16, (p.actPulse i level).spm.ports[k.val].admission = p.spm.ports[k.val].admission) ∧
    (∀ k : Fin 16, (p.actPulse i level).spm.ports[k.val].link = p.spm.ports[k.val].link) := by
  unfold Part.actPulse; dsimp only; (repeat' split) <;> simp

@[simp] theorem Part.portAdopt_frame (p : Part) (i : Fin 16) (s : PortSettings) :
    (p.portAdopt i s).mtu = p.mtu ∧ (p.portAdopt i s).cvt = p.cvt ∧ (p.portAdopt i s).trl = p.trl ∧
    (p.portAdopt i s).rbp = p.rbp ∧ (p.portAdopt i s).rej = p.rej ∧ (p.portAdopt i s).sac = p.sac ∧
    (p.portAdopt i s).odk = p.odk ∧ (p.portAdopt i s).syncLine = p.syncLine ∧ (p.portAdopt i s).lrst = p.lrst ∧
    (p.portAdopt i s).freeCount = p.freeCount ∧ (p.portAdopt i s).rpu.phase = p.rpu.phase ∧
    (p.portAdopt i s).rpu.lineResetBusy = p.rpu.lineResetBusy ∧ (p.portAdopt i s).rpu.threshold = p.rpu.threshold ∧
    (p.portAdopt i s).rpu.busData = p.rpu.busData ∧ (p.portAdopt i s).rpu.fault = p.rpu.fault ∧
    (p.portAdopt i s).spm.hallHold = p.spm.hallHold ∧
    (∀ k : Fin 16, (p.portAdopt i s).spm.ports[k.val].link = p.spm.ports[k.val].link) := by
  unfold Part.portAdopt; dsimp only; (repeat' split) <;> simp

@[simp] theorem Part.portsAdopt_frame (p : Part) (f : Profile) :
    (p.portsAdopt f).mtu = p.mtu ∧ (p.portsAdopt f).cvt = p.cvt ∧ (p.portsAdopt f).trl = p.trl ∧
    (p.portsAdopt f).rbp = p.rbp ∧ (p.portsAdopt f).rej = p.rej ∧ (p.portsAdopt f).sac = p.sac ∧
    (p.portsAdopt f).odk = p.odk ∧ (p.portsAdopt f).syncLine = p.syncLine ∧ (p.portsAdopt f).lrst = p.lrst ∧
    (p.portsAdopt f).freeCount = p.freeCount ∧ (p.portsAdopt f).rpu.phase = p.rpu.phase ∧
    (p.portsAdopt f).rpu.lineResetBusy = p.rpu.lineResetBusy ∧ (p.portsAdopt f).rpu.threshold = p.rpu.threshold ∧
    (p.portsAdopt f).rpu.busData = p.rpu.busData ∧ (p.portsAdopt f).rpu.fault = p.rpu.fault ∧
    (p.portsAdopt f).spm.hallHold = p.spm.hallHold := by
    unfold Part.portsAdopt; simp [fold_mtu, fold_cvt, fold_trl, fold_rbp, fold_rej, fold_sac, fold_odk,
    fold_syncLine, fold_lrst, fold_freeCount, fold_rpu_phase, fold_rpu_lineResetBusy, fold_rpu_threshold,
    fold_rpu_busData, fold_rpu_fault, fold_spm_hallHold]

end Sys2Proof.Machine
end

