-- ==== Sys2Proof/Laws/FrameAccess.lean ====
section
/-! SUPPORT. What each operation of the Service Access Controller (Machine/Access.lean) leaves unchanged: one
theorem per operation. -/

namespace Sys2Proof.Machine

@[simp] theorem Part.accessOutcome_frame (p : Part) (z : Fin 8) (event : AccessEvent) :
    (p.accessOutcome z event).mtu = p.mtu ∧ (p.accessOutcome z event).cvt = p.cvt ∧
    (p.accessOutcome z event).trl = p.trl ∧ (p.accessOutcome z event).rbp = p.rbp ∧
    (p.accessOutcome z event).ctu = p.ctu ∧ (p.accessOutcome z event).rej = p.rej ∧
    (p.accessOutcome z event).spm = p.spm ∧ (p.accessOutcome z event).sac = p.sac ∧
    (p.accessOutcome z event).odk = p.odk ∧ (p.accessOutcome z event).syncLine = p.syncLine ∧
    (p.accessOutcome z event).lrst = p.lrst ∧ (p.accessOutcome z event).freeCount = p.freeCount ∧
    (p.accessOutcome z event).rpu.phase = p.rpu.phase ∧
    (p.accessOutcome z event).rpu.lineResetBusy = p.rpu.lineResetBusy ∧
    (p.accessOutcome z event).rpu.threshold = p.rpu.threshold ∧
    (p.accessOutcome z event).rpu.busData = p.rpu.busData ∧ (p.accessOutcome z event).rpu.fault = p.rpu.fault := by
  unfold Part.accessOutcome; simp

@[simp] theorem Part.evalDoorRel_frame (p : Part) (z : Fin 8) :
    (p.evalDoorRel z).mtu = p.mtu ∧ (p.evalDoorRel z).cvt = p.cvt ∧ (p.evalDoorRel z).trl = p.trl ∧
    (p.evalDoorRel z).rbp = p.rbp ∧ (p.evalDoorRel z).ctu = p.ctu ∧ (p.evalDoorRel z).rej = p.rej ∧
    (p.evalDoorRel z).spm = p.spm ∧ (p.evalDoorRel z).odk = p.odk ∧ (p.evalDoorRel z).syncLine = p.syncLine ∧
    (p.evalDoorRel z).lrst = p.lrst ∧ (p.evalDoorRel z).freeCount = p.freeCount ∧
    (p.evalDoorRel z).rpu.phase = p.rpu.phase ∧ (p.evalDoorRel z).rpu.lineResetBusy = p.rpu.lineResetBusy ∧
    (p.evalDoorRel z).rpu.threshold = p.rpu.threshold ∧ (p.evalDoorRel z).rpu.busData = p.rpu.busData ∧
    (p.evalDoorRel z).rpu.fault = p.rpu.fault ∧
    (∀ k : Fin 8, (p.evalDoorRel z).sac.zones[k.val].state = p.sac.zones[k.val].state) ∧
    (∀ k : Fin 8, (p.evalDoorRel z).sac.zones[k.val].level = p.sac.zones[k.val].level) ∧
    (∀ k : Fin 8, (p.evalDoorRel z).sac.zones[k.val].origin = p.sac.zones[k.val].origin) ∧
    (∀ k : Fin 8, (p.evalDoorRel z).sac.zones[k.val].door = p.sac.zones[k.val].door) := by
  unfold Part.evalDoorRel; (repeat' split) <;> simp

@[simp] theorem Part.grantApply_frame (p : Part) (z : Fin 8) (level : AccessLevel) (origin : ZoneOrigin)
    (length : Nat) (badge : Half) :
    (p.grantApply z level origin length badge).mtu = p.mtu ∧ (p.grantApply z level origin length badge).cvt = p.cvt ∧
    (p.grantApply z level origin length badge).rbp = p.rbp ∧ (p.grantApply z level origin length badge).rej = p.rej ∧
    (p.grantApply z level origin length badge).odk = p.odk ∧
    (p.grantApply z level origin length badge).syncLine = p.syncLine ∧
    (p.grantApply z level origin length badge).lrst = p.lrst ∧
    (p.grantApply z level origin length badge).freeCount = p.freeCount ∧
    (p.grantApply z level origin length badge).rpu.phase = p.rpu.phase ∧
    (p.grantApply z level origin length badge).rpu.lineResetBusy = p.rpu.lineResetBusy ∧
    (p.grantApply z level origin length badge).rpu.threshold = p.rpu.threshold ∧
    (p.grantApply z level origin length badge).rpu.busData = p.rpu.busData ∧
    (p.grantApply z level origin length badge).rpu.fault = p.rpu.fault ∧
    (p.grantApply z level origin length badge).spm.hallHold = p.spm.hallHold ∧
    (p.grantApply z level origin length badge).trl.nextSeq = p.trl.nextSeq ∧
    (∀ k : Fin 16, (p.grantApply z level origin length badge).spm.ports[k.val].role = p.spm.ports[k.val].role) ∧
    (∀ k : Fin 16, (p.grantApply z level origin length badge).spm.ports[k.val].link = p.spm.ports[k.val].link) ∧
    (∀ k : Fin 8, (p.grantApply z level origin length badge).sac.zones[k.val].door = p.sac.zones[k.val].door) := by
  unfold Part.grantApply; dsimp only; (repeat' split) <;> simp

@[simp] theorem Part.endRequest_frame (p : Part) (z : Fin 8) (result : Result) (detail : Byte) :
    (p.endRequest z result detail).mtu = p.mtu ∧ (p.endRequest z result detail).cvt = p.cvt ∧
    (p.endRequest z result detail).trl = p.trl ∧ (p.endRequest z result detail).rbp = p.rbp ∧
    (p.endRequest z result detail).ctu = p.ctu ∧ (p.endRequest z result detail).rej = p.rej ∧
    (p.endRequest z result detail).spm = p.spm ∧ (p.endRequest z result detail).syncLine = p.syncLine ∧
    (p.endRequest z result detail).lrst = p.lrst ∧ (p.endRequest z result detail).freeCount = p.freeCount ∧
    (p.endRequest z result detail).odk.queue = p.odk.queue ∧
    (p.endRequest z result detail).odk.takeIdentity = p.odk.takeIdentity ∧
    (p.endRequest z result detail).rpu.phase = p.rpu.phase ∧
    (p.endRequest z result detail).rpu.lineResetBusy = p.rpu.lineResetBusy ∧
    (p.endRequest z result detail).rpu.threshold = p.rpu.threshold ∧
    (p.endRequest z result detail).rpu.busData = p.rpu.busData ∧
    (p.endRequest z result detail).rpu.fault = p.rpu.fault ∧
    (∀ k : Fin 8, (p.endRequest z result detail).sac.zones[k.val].state = p.sac.zones[k.val].state) ∧
    (∀ k : Fin 8, (p.endRequest z result detail).sac.zones[k.val].level = p.sac.zones[k.val].level) ∧
    (∀ k : Fin 8, (p.endRequest z result detail).sac.zones[k.val].origin = p.sac.zones[k.val].origin) ∧
    (∀ k : Fin 8, (p.endRequest z result detail).sac.zones[k.val].door = p.sac.zones[k.val].door) := by
  unfold Part.endRequest; simp

@[simp] theorem Part.grantClose_frame (p : Part) (z : Fin 8) (result : Result) :
    (p.grantClose z result).mtu = p.mtu ∧ (p.grantClose z result).cvt = p.cvt ∧ (p.grantClose z result).trl = p.trl ∧
    (p.grantClose z result).rbp = p.rbp ∧ (p.grantClose z result).ctu = p.ctu ∧ (p.grantClose z result).rej = p.rej ∧
    (p.grantClose z result).spm = p.spm ∧ (p.grantClose z result).syncLine = p.syncLine ∧
    (p.grantClose z result).lrst = p.lrst ∧ (p.grantClose z result).freeCount = p.freeCount ∧
    (p.grantClose z result).odk.queue = p.odk.queue ∧ (p.grantClose z result).odk.takeIdentity = p.odk.takeIdentity ∧
    (p.grantClose z result).rpu.phase = p.rpu.phase ∧
    (p.grantClose z result).rpu.lineResetBusy = p.rpu.lineResetBusy ∧
    (p.grantClose z result).rpu.threshold = p.rpu.threshold ∧ (p.grantClose z result).rpu.busData = p.rpu.busData ∧
    (p.grantClose z result).rpu.fault = p.rpu.fault ∧
    (∀ k : Fin 8, (p.grantClose z result).sac.zones[k.val].state = p.sac.zones[k.val].state) ∧
    (∀ k : Fin 8, (p.grantClose z result).sac.zones[k.val].level = p.sac.zones[k.val].level) ∧
    (∀ k : Fin 8, (p.grantClose z result).sac.zones[k.val].origin = p.sac.zones[k.val].origin) ∧
    (∀ k : Fin 8, (p.grantClose z result).sac.zones[k.val].door = p.sac.zones[k.val].door) := by
  unfold Part.grantClose; simp

@[simp] theorem Part.sealZone_frame (p : Part) (z : Fin 8) (event : AccessEvent) (c : Completion) (failing : Byte) :
    (p.sealZone z event c failing).mtu = p.mtu ∧ (p.sealZone z event c failing).cvt = p.cvt ∧
    (p.sealZone z event c failing).rbp = p.rbp ∧ (p.sealZone z event c failing).rej = p.rej ∧
    (p.sealZone z event c failing).odk = p.odk ∧ (p.sealZone z event c failing).syncLine = p.syncLine ∧
    (p.sealZone z event c failing).lrst = p.lrst ∧ (p.sealZone z event c failing).freeCount = p.freeCount ∧
    (p.sealZone z event c failing).rpu.phase = p.rpu.phase ∧
    (p.sealZone z event c failing).rpu.lineResetBusy = p.rpu.lineResetBusy ∧
    (p.sealZone z event c failing).rpu.threshold = p.rpu.threshold ∧
    (p.sealZone z event c failing).rpu.busData = p.rpu.busData ∧
    (p.sealZone z event c failing).rpu.fault = p.rpu.fault ∧
    (p.sealZone z event c failing).spm.hallHold = p.spm.hallHold ∧
    (p.sealZone z event c failing).trl.nextSeq = p.trl.nextSeq ∧
    (∀ k : Fin 16, (p.sealZone z event c failing).spm.ports[k.val].role = p.spm.ports[k.val].role) ∧
    (∀ k : Fin 16, (p.sealZone z event c failing).spm.ports[k.val].link = p.spm.ports[k.val].link) ∧
    (∀ k : Fin 8, (p.sealZone z event c failing).sac.zones[k.val].door = p.sac.zones[k.val].door) := by
  unfold Part.sealZone; dsimp only; simp

@[simp] theorem Part.failRequest_frame (p : Part) (z : Fin 8) (r : Fin 6) :
    (p.failRequest z r).mtu = p.mtu ∧ (p.failRequest z r).cvt = p.cvt ∧ (p.failRequest z r).rbp = p.rbp ∧
    (p.failRequest z r).rej = p.rej ∧ (p.failRequest z r).syncLine = p.syncLine ∧ (p.failRequest z r).lrst = p.lrst ∧
    (p.failRequest z r).freeCount = p.freeCount ∧ (p.failRequest z r).odk.queue = p.odk.queue ∧
    (p.failRequest z r).odk.takeIdentity = p.odk.takeIdentity ∧ (p.failRequest z r).rpu.phase = p.rpu.phase ∧
    (p.failRequest z r).rpu.lineResetBusy = p.rpu.lineResetBusy ∧
    (p.failRequest z r).rpu.threshold = p.rpu.threshold ∧ (p.failRequest z r).rpu.busData = p.rpu.busData ∧
    (p.failRequest z r).rpu.fault = p.rpu.fault ∧ (p.failRequest z r).spm.hallHold = p.spm.hallHold ∧
    (p.failRequest z r).trl.nextSeq = p.trl.nextSeq ∧
    (∀ k : Fin 16, (p.failRequest z r).spm.ports[k.val].role = p.spm.ports[k.val].role) ∧
    (∀ k : Fin 16, (p.failRequest z r).spm.ports[k.val].link = p.spm.ports[k.val].link) ∧
    (∀ k : Fin 8, (p.failRequest z r).sac.zones[k.val].door = p.sac.zones[k.val].door) := by
  unfold Part.failRequest; dsimp only; (repeat' split) <;> simp

@[simp] theorem Part.judgeHalting_frame (p : Part) (z : Fin 8) :
    (p.judgeHalting z).mtu = p.mtu ∧ (p.judgeHalting z).cvt = p.cvt ∧ (p.judgeHalting z).rbp = p.rbp ∧
    (p.judgeHalting z).rej = p.rej ∧ (p.judgeHalting z).syncLine = p.syncLine ∧ (p.judgeHalting z).lrst = p.lrst ∧
    (p.judgeHalting z).freeCount = p.freeCount ∧ (p.judgeHalting z).odk.queue = p.odk.queue ∧
    (p.judgeHalting z).odk.takeIdentity = p.odk.takeIdentity ∧ (p.judgeHalting z).rpu.phase = p.rpu.phase ∧
    (p.judgeHalting z).rpu.lineResetBusy = p.rpu.lineResetBusy ∧ (p.judgeHalting z).rpu.threshold = p.rpu.threshold ∧
    (p.judgeHalting z).rpu.busData = p.rpu.busData ∧ (p.judgeHalting z).rpu.fault = p.rpu.fault ∧
    (p.judgeHalting z).spm.hallHold = p.spm.hallHold ∧ (p.judgeHalting z).trl.nextSeq = p.trl.nextSeq ∧
    (∀ k : Fin 16, (p.judgeHalting z).spm.ports[k.val].role = p.spm.ports[k.val].role) ∧
    (∀ k : Fin 16, (p.judgeHalting z).spm.ports[k.val].link = p.spm.ports[k.val].link) ∧
    (∀ k : Fin 8, (p.judgeHalting z).sac.zones[k.val].door = p.sac.zones[k.val].door) := by
  unfold Part.judgeHalting; (repeat' split) <;> simp

@[simp] theorem Part.markResume_frame (p : Part) (z : Fin 8) (r : Fin 6) (m : ResumeMark)
    (failure : Option Completion) :
    (p.markResume z r m failure).mtu = p.mtu ∧ (p.markResume z r m failure).cvt = p.cvt ∧
    (p.markResume z r m failure).trl = p.trl ∧ (p.markResume z r m failure).rbp = p.rbp ∧
    (p.markResume z r m failure).ctu = p.ctu ∧ (p.markResume z r m failure).rej = p.rej ∧
    (p.markResume z r m failure).spm = p.spm ∧ (p.markResume z r m failure).odk = p.odk ∧
    (p.markResume z r m failure).syncLine = p.syncLine ∧ (p.markResume z r m failure).lrst = p.lrst ∧
    (p.markResume z r m failure).freeCount = p.freeCount ∧ (p.markResume z r m failure).rpu.phase = p.rpu.phase ∧
    (p.markResume z r m failure).rpu.lineResetBusy = p.rpu.lineResetBusy ∧
    (p.markResume z r m failure).rpu.threshold = p.rpu.threshold ∧
    (p.markResume z r m failure).rpu.busData = p.rpu.busData ∧ (p.markResume z r m failure).rpu.fault = p.rpu.fault ∧
    (∀ k : Fin 8, (p.markResume z r m failure).sac.zones[k.val].state = p.sac.zones[k.val].state) ∧
    (∀ k : Fin 8, (p.markResume z r m failure).sac.zones[k.val].level = p.sac.zones[k.val].level) ∧
    (∀ k : Fin 8, (p.markResume z r m failure).sac.zones[k.val].origin = p.sac.zones[k.val].origin) ∧
    (∀ k : Fin 8, (p.markResume z r m failure).sac.zones[k.val].door = p.sac.zones[k.val].door) := by
  unfold Part.markResume; simp

@[simp] theorem Part.finishResume_frame (p : Part) (z : Fin 8) (ref : OrderRef) :
    (p.finishResume z ref).mtu = p.mtu ∧ (p.finishResume z ref).cvt = p.cvt ∧ (p.finishResume z ref).trl = p.trl ∧
    (p.finishResume z ref).rbp = p.rbp ∧ (p.finishResume z ref).ctu = p.ctu ∧ (p.finishResume z ref).rej = p.rej ∧
    (p.finishResume z ref).spm = p.spm ∧ (p.finishResume z ref).syncLine = p.syncLine ∧
    (p.finishResume z ref).lrst = p.lrst ∧ (p.finishResume z ref).freeCount = p.freeCount ∧
    (p.finishResume z ref).odk.queue = p.odk.queue ∧ (p.finishResume z ref).odk.takeIdentity = p.odk.takeIdentity ∧
    (p.finishResume z ref).rpu.phase = p.rpu.phase ∧ (p.finishResume z ref).rpu.lineResetBusy = p.rpu.lineResetBusy ∧
    (p.finishResume z ref).rpu.threshold = p.rpu.threshold ∧ (p.finishResume z ref).rpu.busData = p.rpu.busData ∧
    (p.finishResume z ref).rpu.fault = p.rpu.fault ∧
    (∀ k : Fin 8, (p.finishResume z ref).sac.zones[k.val].state = p.sac.zones[k.val].state) ∧
    (∀ k : Fin 8, (p.finishResume z ref).sac.zones[k.val].level = p.sac.zones[k.val].level) ∧
    (∀ k : Fin 8, (p.finishResume z ref).sac.zones[k.val].origin = p.sac.zones[k.val].origin) ∧
    (∀ k : Fin 8, (p.finishResume z ref).sac.zones[k.val].door = p.sac.zones[k.val].door) := by
  unfold Part.finishResume; dsimp only; (repeat' split) <;> simp

@[simp] theorem Part.settleResume_frame (p : Part) (z : Fin 8) (r : Fin 6) :
    (p.settleResume z r).mtu = p.mtu ∧ (p.settleResume z r).cvt = p.cvt ∧ (p.settleResume z r).trl = p.trl ∧
    (p.settleResume z r).rbp = p.rbp ∧ (p.settleResume z r).ctu = p.ctu ∧ (p.settleResume z r).rej = p.rej ∧
    (p.settleResume z r).spm = p.spm ∧ (p.settleResume z r).syncLine = p.syncLine ∧
    (p.settleResume z r).lrst = p.lrst ∧ (p.settleResume z r).freeCount = p.freeCount ∧
    (p.settleResume z r).odk.queue = p.odk.queue ∧ (p.settleResume z r).odk.takeIdentity = p.odk.takeIdentity ∧
    (p.settleResume z r).rpu.phase = p.rpu.phase ∧ (p.settleResume z r).rpu.lineResetBusy = p.rpu.lineResetBusy ∧
    (p.settleResume z r).rpu.threshold = p.rpu.threshold ∧ (p.settleResume z r).rpu.busData = p.rpu.busData ∧
    (p.settleResume z r).rpu.fault = p.rpu.fault ∧
    (∀ k : Fin 8, (p.settleResume z r).sac.zones[k.val].state = p.sac.zones[k.val].state) ∧
    (∀ k : Fin 8, (p.settleResume z r).sac.zones[k.val].level = p.sac.zones[k.val].level) ∧
    (∀ k : Fin 8, (p.settleResume z r).sac.zones[k.val].origin = p.sac.zones[k.val].origin) ∧
    (∀ k : Fin 8, (p.settleResume z r).sac.zones[k.val].door = p.sac.zones[k.val].door) := by
  unfold Part.settleResume; dsimp only; (repeat' split) <;> simp

@[simp] theorem Part.hearRobot_frame (p : Part) (r : Fin 6) (z : Fin 8) :
    (p.hearRobot r z).mtu = p.mtu ∧ (p.hearRobot r z).cvt = p.cvt ∧ (p.hearRobot r z).rbp = p.rbp ∧
    (p.hearRobot r z).rej = p.rej ∧ (p.hearRobot r z).syncLine = p.syncLine ∧ (p.hearRobot r z).lrst = p.lrst ∧
    (p.hearRobot r z).freeCount = p.freeCount ∧ (p.hearRobot r z).odk.queue = p.odk.queue ∧
    (p.hearRobot r z).odk.takeIdentity = p.odk.takeIdentity ∧ (p.hearRobot r z).rpu.phase = p.rpu.phase ∧
    (p.hearRobot r z).rpu.lineResetBusy = p.rpu.lineResetBusy ∧ (p.hearRobot r z).rpu.threshold = p.rpu.threshold ∧
    (p.hearRobot r z).rpu.busData = p.rpu.busData ∧ (p.hearRobot r z).rpu.fault = p.rpu.fault ∧
    (p.hearRobot r z).spm.hallHold = p.spm.hallHold ∧ (p.hearRobot r z).trl.nextSeq = p.trl.nextSeq ∧
    (∀ k : Fin 16, (p.hearRobot r z).spm.ports[k.val].role = p.spm.ports[k.val].role) ∧
    (∀ k : Fin 16, (p.hearRobot r z).spm.ports[k.val].link = p.spm.ports[k.val].link) ∧
    (∀ k : Fin 8, (p.hearRobot r z).sac.zones[k.val].door = p.sac.zones[k.val].door) := by
  unfold Part.hearRobot; (repeat' split) <;> simp

@[simp] theorem Part.reportRobot_frame (p : Part) (r : Fin 6) :
    (p.reportRobot r).mtu = p.mtu ∧ (p.reportRobot r).cvt = p.cvt ∧ (p.reportRobot r).rbp = p.rbp ∧
    (p.reportRobot r).rej = p.rej ∧ (p.reportRobot r).syncLine = p.syncLine ∧ (p.reportRobot r).lrst = p.lrst ∧
    (p.reportRobot r).freeCount = p.freeCount ∧ (p.reportRobot r).odk.queue = p.odk.queue ∧
    (p.reportRobot r).odk.takeIdentity = p.odk.takeIdentity ∧ (p.reportRobot r).rpu.phase = p.rpu.phase ∧
    (p.reportRobot r).rpu.lineResetBusy = p.rpu.lineResetBusy ∧ (p.reportRobot r).rpu.threshold = p.rpu.threshold ∧
    (p.reportRobot r).rpu.busData = p.rpu.busData ∧ (p.reportRobot r).rpu.fault = p.rpu.fault ∧
    (p.reportRobot r).spm.hallHold = p.spm.hallHold ∧ (p.reportRobot r).trl.nextSeq = p.trl.nextSeq ∧
    (∀ k : Fin 16, (p.reportRobot r).spm.ports[k.val].role = p.spm.ports[k.val].role) ∧
    (∀ k : Fin 16, (p.reportRobot r).spm.ports[k.val].link = p.spm.ports[k.val].link) ∧
    (∀ k : Fin 8, (p.reportRobot r).sac.zones[k.val].door = p.sac.zones[k.val].door) := by
    unfold Part.reportRobot; simp [fold_mtu, fold_cvt, fold_rbp, fold_rej, fold_syncLine, fold_lrst, fold_freeCount,
    fold_odk_queue, fold_odk_takeIdentity, fold_rpu_phase, fold_rpu_lineResetBusy, fold_rpu_threshold,
    fold_rpu_busData, fold_rpu_fault, fold_spm_hallHold, fold_trl_nextSeq, fold_spm_role, fold_spm_link,
    fold_sac_door]

end Sys2Proof.Machine
end

