-- ==== Sys2Proof/Laws/FrameRobots.lean ====
section
/-! SUPPORT. What each operation of the Robot Pacer leaves unchanged: one theorem per operation. -/

namespace Sys2Proof.Machine

@[simp] theorem Part.makeLive_frame (p : Part) (r : Fin 6) (w : Window) :
    (p.makeLive r w).mtu = p.mtu ∧ (p.makeLive r w).cvt = p.cvt ∧ (p.makeLive r w).trl = p.trl ∧
    (p.makeLive r w).ctu = p.ctu ∧ (p.makeLive r w).rej = p.rej ∧ (p.makeLive r w).spm = p.spm ∧
    (p.makeLive r w).sac = p.sac ∧ (p.makeLive r w).odk = p.odk ∧ (p.makeLive r w).syncLine = p.syncLine ∧
    (p.makeLive r w).lrst = p.lrst ∧ (p.makeLive r w).rpu.phase = p.rpu.phase ∧
    (p.makeLive r w).rpu.lineResetBusy = p.rpu.lineResetBusy ∧ (p.makeLive r w).rpu.threshold = p.rpu.threshold ∧
    (p.makeLive r w).rpu.busData = p.rpu.busData ∧ (p.makeLive r w).rpu.fault = p.rpu.fault ∧
    (∀ k : Fin 6, (p.makeLive r w).rbp.robots[k.val].state = p.rbp.robots[k.val].state) ∧
    (∀ k : Fin 6, (p.makeLive r w).rbp.robots[k.val].pins = p.rbp.robots[k.val].pins) := by
  unfold Part.makeLive; dsimp only; (repeat' split) <;> simp

@[simp] theorem Part.adoptWindow_frame (p : Part) (r : Fin 6) :
    (p.adoptWindow r).mtu = p.mtu ∧ (p.adoptWindow r).cvt = p.cvt ∧ (p.adoptWindow r).trl = p.trl ∧
    (p.adoptWindow r).ctu = p.ctu ∧ (p.adoptWindow r).rej = p.rej ∧ (p.adoptWindow r).spm = p.spm ∧
    (p.adoptWindow r).sac = p.sac ∧ (p.adoptWindow r).syncLine = p.syncLine ∧ (p.adoptWindow r).lrst = p.lrst ∧
    (p.adoptWindow r).odk.queue = p.odk.queue ∧ (p.adoptWindow r).odk.takeIdentity = p.odk.takeIdentity ∧
    (p.adoptWindow r).rpu.phase = p.rpu.phase ∧ (p.adoptWindow r).rpu.lineResetBusy = p.rpu.lineResetBusy ∧
    (p.adoptWindow r).rpu.threshold = p.rpu.threshold ∧ (p.adoptWindow r).rpu.busData = p.rpu.busData ∧
    (p.adoptWindow r).rpu.fault = p.rpu.fault ∧
    (∀ k : Fin 6, (p.adoptWindow r).rbp.robots[k.val].state = p.rbp.robots[k.val].state) ∧
    (∀ k : Fin 6, (p.adoptWindow r).rbp.robots[k.val].pins = p.rbp.robots[k.val].pins) := by
  unfold Part.adoptWindow; dsimp only; (repeat' split) <;> simp

@[simp] theorem Part.robotChanged_frame (p : Part) (r : Fin 6) (before : RobotState) :
    (p.robotChanged r before).mtu = p.mtu ∧ (p.robotChanged r before).cvt = p.cvt ∧
    (p.robotChanged r before).rej = p.rej ∧ (p.robotChanged r before).syncLine = p.syncLine ∧
    (p.robotChanged r before).lrst = p.lrst ∧ (p.robotChanged r before).odk.queue = p.odk.queue ∧
    (p.robotChanged r before).odk.takeIdentity = p.odk.takeIdentity ∧
    (p.robotChanged r before).rpu.phase = p.rpu.phase ∧
    (p.robotChanged r before).rpu.lineResetBusy = p.rpu.lineResetBusy ∧
    (p.robotChanged r before).rpu.threshold = p.rpu.threshold ∧
    (p.robotChanged r before).rpu.busData = p.rpu.busData ∧ (p.robotChanged r before).rpu.fault = p.rpu.fault ∧
    (p.robotChanged r before).spm.hallHold = p.spm.hallHold ∧ (p.robotChanged r before).trl.nextSeq = p.trl.nextSeq ∧
    (∀ k : Fin 6, (p.robotChanged r before).rbp.robots[k.val].state = p.rbp.robots[k.val].state) ∧
    (∀ k : Fin 6, (p.robotChanged r before).rbp.robots[k.val].pins = p.rbp.robots[k.val].pins) ∧
    (∀ k : Fin 16, (p.robotChanged r before).spm.ports[k.val].role = p.spm.ports[k.val].role) ∧
    (∀ k : Fin 16, (p.robotChanged r before).spm.ports[k.val].link = p.spm.ports[k.val].link) ∧
    (∀ k : Fin 8, (p.robotChanged r before).sac.zones[k.val].door = p.sac.zones[k.val].door) := by
  unfold Part.robotChanged; dsimp only; (repeat' split) <;> simp

@[simp] theorem Part.finishRun_frame (p : Part) (r : Fin 6) :
    (p.finishRun r).mtu = p.mtu ∧ (p.finishRun r).cvt = p.cvt ∧ (p.finishRun r).rej = p.rej ∧
    (p.finishRun r).syncLine = p.syncLine ∧ (p.finishRun r).lrst = p.lrst ∧ (p.finishRun r).odk.queue = p.odk.queue ∧
    (p.finishRun r).odk.takeIdentity = p.odk.takeIdentity ∧ (p.finishRun r).rpu.phase = p.rpu.phase ∧
    (p.finishRun r).rpu.lineResetBusy = p.rpu.lineResetBusy ∧ (p.finishRun r).rpu.threshold = p.rpu.threshold ∧
    (p.finishRun r).rpu.busData = p.rpu.busData ∧ (p.finishRun r).rpu.fault = p.rpu.fault ∧
    (p.finishRun r).spm.hallHold = p.spm.hallHold ∧ (p.finishRun r).trl.nextSeq = p.trl.nextSeq ∧
    (∀ k : Fin 6, (p.finishRun r).rbp.robots[k.val].pins = p.rbp.robots[k.val].pins) ∧
    (∀ k : Fin 16, (p.finishRun r).spm.ports[k.val].role = p.spm.ports[k.val].role) ∧
    (∀ k : Fin 16, (p.finishRun r).spm.ports[k.val].link = p.spm.ports[k.val].link) ∧
    (∀ k : Fin 8, (p.finishRun r).sac.zones[k.val].door = p.sac.zones[k.val].door) := by
  unfold Part.finishRun; dsimp only; simp

@[simp] theorem Part.beginRun_frame (p : Part) (r : Fin 6) (ref : Option OrderRef) :
    (p.beginRun r ref).mtu = p.mtu ∧ (p.beginRun r ref).cvt = p.cvt ∧ (p.beginRun r ref).rej = p.rej ∧
    (p.beginRun r ref).syncLine = p.syncLine ∧ (p.beginRun r ref).lrst = p.lrst ∧
    (p.beginRun r ref).odk.queue = p.odk.queue ∧ (p.beginRun r ref).odk.takeIdentity = p.odk.takeIdentity ∧
    (p.beginRun r ref).rpu.phase = p.rpu.phase ∧ (p.beginRun r ref).rpu.lineResetBusy = p.rpu.lineResetBusy ∧
    (p.beginRun r ref).rpu.threshold = p.rpu.threshold ∧ (p.beginRun r ref).rpu.busData = p.rpu.busData ∧
    (p.beginRun r ref).rpu.fault = p.rpu.fault ∧ (p.beginRun r ref).spm.hallHold = p.spm.hallHold ∧
    (p.beginRun r ref).trl.nextSeq = p.trl.nextSeq ∧
    (∀ k : Fin 6, (p.beginRun r ref).rbp.robots[k.val].pins = p.rbp.robots[k.val].pins) ∧
    (∀ k : Fin 16, (p.beginRun r ref).spm.ports[k.val].role = p.spm.ports[k.val].role) ∧
    (∀ k : Fin 16, (p.beginRun r ref).spm.ports[k.val].link = p.spm.ports[k.val].link) ∧
    (∀ k : Fin 8, (p.beginRun r ref).sac.zones[k.val].door = p.sac.zones[k.val].door) := by
  unfold Part.beginRun; dsimp only; (repeat' split) <;> simp

@[simp] theorem Part.finishHalt_frame (p : Part) (r : Fin 6) :
    (p.finishHalt r).mtu = p.mtu ∧ (p.finishHalt r).cvt = p.cvt ∧ (p.finishHalt r).rej = p.rej ∧
    (p.finishHalt r).syncLine = p.syncLine ∧ (p.finishHalt r).lrst = p.lrst ∧
    (p.finishHalt r).odk.queue = p.odk.queue ∧ (p.finishHalt r).odk.takeIdentity = p.odk.takeIdentity ∧
    (p.finishHalt r).rpu.phase = p.rpu.phase ∧ (p.finishHalt r).rpu.lineResetBusy = p.rpu.lineResetBusy ∧
    (p.finishHalt r).rpu.threshold = p.rpu.threshold ∧ (p.finishHalt r).rpu.busData = p.rpu.busData ∧
    (p.finishHalt r).rpu.fault = p.rpu.fault ∧ (p.finishHalt r).spm.hallHold = p.spm.hallHold ∧
    (p.finishHalt r).trl.nextSeq = p.trl.nextSeq ∧
    (∀ k : Fin 6, (p.finishHalt r).rbp.robots[k.val].pins = p.rbp.robots[k.val].pins) ∧
    (∀ k : Fin 16, (p.finishHalt r).spm.ports[k.val].role = p.spm.ports[k.val].role) ∧
    (∀ k : Fin 16, (p.finishHalt r).spm.ports[k.val].link = p.spm.ports[k.val].link) ∧
    (∀ k : Fin 8, (p.finishHalt r).sac.zones[k.val].door = p.sac.zones[k.val].door) := by
  unfold Part.finishHalt; dsimp only; simp

@[simp] theorem Part.beginHalt_frame (p : Part) (r : Fin 6) (origin : HaltOrigin) (ref : Option OrderRef) :
    (p.beginHalt r origin ref).mtu = p.mtu ∧ (p.beginHalt r origin ref).cvt = p.cvt ∧
    (p.beginHalt r origin ref).rej = p.rej ∧ (p.beginHalt r origin ref).syncLine = p.syncLine ∧
    (p.beginHalt r origin ref).lrst = p.lrst ∧ (p.beginHalt r origin ref).odk.queue = p.odk.queue ∧
    (p.beginHalt r origin ref).odk.takeIdentity = p.odk.takeIdentity ∧
    (p.beginHalt r origin ref).rpu.phase = p.rpu.phase ∧
    (p.beginHalt r origin ref).rpu.lineResetBusy = p.rpu.lineResetBusy ∧
    (p.beginHalt r origin ref).rpu.threshold = p.rpu.threshold ∧
    (p.beginHalt r origin ref).rpu.busData = p.rpu.busData ∧ (p.beginHalt r origin ref).rpu.fault = p.rpu.fault ∧
    (p.beginHalt r origin ref).spm.hallHold = p.spm.hallHold ∧
    (p.beginHalt r origin ref).trl.nextSeq = p.trl.nextSeq ∧
    (∀ k : Fin 6, (p.beginHalt r origin ref).rbp.robots[k.val].pins = p.rbp.robots[k.val].pins) ∧
    (∀ k : Fin 16, (p.beginHalt r origin ref).spm.ports[k.val].role = p.spm.ports[k.val].role) ∧
    (∀ k : Fin 16, (p.beginHalt r origin ref).spm.ports[k.val].link = p.spm.ports[k.val].link) ∧
    (∀ k : Fin 8, (p.beginHalt r origin ref).sac.zones[k.val].door = p.sac.zones[k.val].door) := by
  unfold Part.beginHalt; dsimp only; (repeat' split) <;> simp

@[simp] theorem Part.requestHalt_frame (p : Part) (r : Fin 6) (origin : HaltOrigin) :
    (p.requestHalt r origin).mtu = p.mtu ∧ (p.requestHalt r origin).cvt = p.cvt ∧
    (p.requestHalt r origin).rej = p.rej ∧ (p.requestHalt r origin).syncLine = p.syncLine ∧
    (p.requestHalt r origin).lrst = p.lrst ∧ (p.requestHalt r origin).odk.queue = p.odk.queue ∧
    (p.requestHalt r origin).odk.takeIdentity = p.odk.takeIdentity ∧
    (p.requestHalt r origin).rpu.phase = p.rpu.phase ∧
    (p.requestHalt r origin).rpu.lineResetBusy = p.rpu.lineResetBusy ∧
    (p.requestHalt r origin).rpu.threshold = p.rpu.threshold ∧ (p.requestHalt r origin).rpu.busData = p.rpu.busData ∧
    (p.requestHalt r origin).rpu.fault = p.rpu.fault ∧ (p.requestHalt r origin).spm.hallHold = p.spm.hallHold ∧
    (p.requestHalt r origin).trl.nextSeq = p.trl.nextSeq ∧
    (∀ k : Fin 6, (p.requestHalt r origin).rbp.robots[k.val].pins = p.rbp.robots[k.val].pins) ∧
    (∀ k : Fin 16, (p.requestHalt r origin).spm.ports[k.val].role = p.spm.ports[k.val].role) ∧
    (∀ k : Fin 16, (p.requestHalt r origin).spm.ports[k.val].link = p.spm.ports[k.val].link) ∧
    (∀ k : Fin 8, (p.requestHalt r origin).sac.zones[k.val].door = p.sac.zones[k.val].door) := by
  unfold Part.requestHalt; dsimp only; (repeat' split) <;> simp

@[simp] theorem Part.enterFaulted_frame (p : Part) (r : Fin 6) (cause : RobotFault) :
    (p.enterFaulted r cause).mtu = p.mtu ∧ (p.enterFaulted r cause).cvt = p.cvt ∧
    (p.enterFaulted r cause).rej = p.rej ∧ (p.enterFaulted r cause).syncLine = p.syncLine ∧
    (p.enterFaulted r cause).lrst = p.lrst ∧ (p.enterFaulted r cause).odk.queue = p.odk.queue ∧
    (p.enterFaulted r cause).odk.takeIdentity = p.odk.takeIdentity ∧
    (p.enterFaulted r cause).rpu.phase = p.rpu.phase ∧
    (p.enterFaulted r cause).rpu.lineResetBusy = p.rpu.lineResetBusy ∧
    (p.enterFaulted r cause).rpu.threshold = p.rpu.threshold ∧ (p.enterFaulted r cause).rpu.busData = p.rpu.busData ∧
    (p.enterFaulted r cause).spm.hallHold = p.spm.hallHold ∧ (p.enterFaulted r cause).trl.nextSeq = p.trl.nextSeq ∧
    (∀ k : Fin 6, (p.enterFaulted r cause).rbp.robots[k.val].pins = p.rbp.robots[k.val].pins) ∧
    (∀ k : Fin 16, (p.enterFaulted r cause).spm.ports[k.val].role = p.spm.ports[k.val].role) ∧
    (∀ k : Fin 16, (p.enterFaulted r cause).spm.ports[k.val].link = p.spm.ports[k.val].link) ∧
    (∀ k : Fin 8, (p.enterFaulted r cause).sac.zones[k.val].door = p.sac.zones[k.val].door) := by
  unfold Part.enterFaulted; dsimp only; simp

@[simp] theorem Part.countRobot_frame (p : Part) (r : Fin 6) (f : RobotCounters → RobotCounters) :
    (p.countRobot r f).mtu = p.mtu ∧ (p.countRobot r f).cvt = p.cvt ∧ (p.countRobot r f).trl = p.trl ∧
    (p.countRobot r f).ctu = p.ctu ∧ (p.countRobot r f).rej = p.rej ∧ (p.countRobot r f).spm = p.spm ∧
    (p.countRobot r f).sac = p.sac ∧ (p.countRobot r f).odk = p.odk ∧ (p.countRobot r f).rpu = p.rpu ∧
    (p.countRobot r f).syncLine = p.syncLine ∧ (p.countRobot r f).lrst = p.lrst ∧ (p.countRobot r f).mem = p.mem ∧
    (p.countRobot r f).freeCount = p.freeCount ∧
    (∀ k : Fin 6, (p.countRobot r f).rbp.robots[k.val].state = p.rbp.robots[k.val].state) ∧
    (∀ k : Fin 6, (p.countRobot r f).rbp.robots[k.val].pins = p.rbp.robots[k.val].pins) := by
  unfold Part.countRobot; simp

@[simp] theorem Part.badFill_frame (p : Part) (r : Fin 6) :
    (p.badFill r).mtu = p.mtu ∧ (p.badFill r).cvt = p.cvt ∧ (p.badFill r).rej = p.rej ∧
    (p.badFill r).syncLine = p.syncLine ∧ (p.badFill r).lrst = p.lrst ∧ (p.badFill r).odk.queue = p.odk.queue ∧
    (p.badFill r).odk.takeIdentity = p.odk.takeIdentity ∧ (p.badFill r).rpu.phase = p.rpu.phase ∧
    (p.badFill r).rpu.lineResetBusy = p.rpu.lineResetBusy ∧ (p.badFill r).rpu.threshold = p.rpu.threshold ∧
    (p.badFill r).rpu.busData = p.rpu.busData ∧ (p.badFill r).rpu.fault = p.rpu.fault ∧
    (p.badFill r).spm.hallHold = p.spm.hallHold ∧ (p.badFill r).trl.nextSeq = p.trl.nextSeq ∧
    (∀ k : Fin 6, (p.badFill r).rbp.robots[k.val].pins = p.rbp.robots[k.val].pins) ∧
    (∀ k : Fin 16, (p.badFill r).spm.ports[k.val].role = p.spm.ports[k.val].role) ∧
    (∀ k : Fin 16, (p.badFill r).spm.ports[k.val].link = p.spm.ports[k.val].link) ∧
    (∀ k : Fin 8, (p.badFill r).sac.zones[k.val].door = p.sac.zones[k.val].door) := by
  unfold Part.badFill; dsimp only; (repeat' split) <;> simp

@[simp] theorem Part.noReport_frame (p : Part) (r : Fin 6) (seq : Word) :
    (p.noReport r seq).mtu = p.mtu ∧ (p.noReport r seq).cvt = p.cvt ∧ (p.noReport r seq).rej = p.rej ∧
    (p.noReport r seq).syncLine = p.syncLine ∧ (p.noReport r seq).lrst = p.lrst ∧
    (p.noReport r seq).odk.queue = p.odk.queue ∧ (p.noReport r seq).odk.takeIdentity = p.odk.takeIdentity ∧
    (p.noReport r seq).rpu.phase = p.rpu.phase ∧ (p.noReport r seq).rpu.lineResetBusy = p.rpu.lineResetBusy ∧
    (p.noReport r seq).rpu.threshold = p.rpu.threshold ∧ (p.noReport r seq).rpu.busData = p.rpu.busData ∧
    (p.noReport r seq).rpu.fault = p.rpu.fault ∧ (p.noReport r seq).spm.hallHold = p.spm.hallHold ∧
    (p.noReport r seq).trl.nextSeq = p.trl.nextSeq ∧
    (∀ k : Fin 6, (p.noReport r seq).rbp.robots[k.val].pins = p.rbp.robots[k.val].pins) ∧
    (∀ k : Fin 16, (p.noReport r seq).spm.ports[k.val].role = p.spm.ports[k.val].role) ∧
    (∀ k : Fin 16, (p.noReport r seq).spm.ports[k.val].link = p.spm.ports[k.val].link) ∧
    (∀ k : Fin 8, (p.noReport r seq).sac.zones[k.val].door = p.sac.zones[k.val].door) := by
  unfold Part.noReport; dsimp only; simp

@[simp] theorem Part.takeReport_frame (p : Part) (r : Fin 6) (seq : Word) (short : Bool) :
    (p.takeReport r seq short).mtu = p.mtu ∧ (p.takeReport r seq short).cvt = p.cvt ∧
    (p.takeReport r seq short).rej = p.rej ∧ (p.takeReport r seq short).syncLine = p.syncLine ∧
    (p.takeReport r seq short).lrst = p.lrst ∧ (p.takeReport r seq short).odk.queue = p.odk.queue ∧
    (p.takeReport r seq short).odk.takeIdentity = p.odk.takeIdentity ∧
    (p.takeReport r seq short).rpu.phase = p.rpu.phase ∧
    (p.takeReport r seq short).rpu.lineResetBusy = p.rpu.lineResetBusy ∧
    (p.takeReport r seq short).rpu.threshold = p.rpu.threshold ∧
    (p.takeReport r seq short).rpu.busData = p.rpu.busData ∧ (p.takeReport r seq short).rpu.fault = p.rpu.fault ∧
    (p.takeReport r seq short).spm.hallHold = p.spm.hallHold ∧
    (p.takeReport r seq short).trl.nextSeq = p.trl.nextSeq ∧
    (∀ k : Fin 6, (p.takeReport r seq short).rbp.robots[k.val].pins = p.rbp.robots[k.val].pins) ∧
    (∀ k : Fin 16, (p.takeReport r seq short).spm.ports[k.val].role = p.spm.ports[k.val].role) ∧
    (∀ k : Fin 16, (p.takeReport r seq short).spm.ports[k.val].link = p.spm.ports[k.val].link) ∧
    (∀ k : Fin 8, (p.takeReport r seq short).sac.zones[k.val].door = p.sac.zones[k.val].door) := by
  unfold Part.takeReport; dsimp only; (repeat' split) <;> simp

@[simp] theorem Part.fillStrobe_frame (p : Part) (r : Fin 6) (short : Bool) :
    (p.fillStrobe r short).mtu = p.mtu ∧ (p.fillStrobe r short).cvt = p.cvt ∧ (p.fillStrobe r short).rej = p.rej ∧
    (p.fillStrobe r short).syncLine = p.syncLine ∧ (p.fillStrobe r short).lrst = p.lrst ∧
    (p.fillStrobe r short).odk.queue = p.odk.queue ∧ (p.fillStrobe r short).odk.takeIdentity = p.odk.takeIdentity ∧
    (p.fillStrobe r short).rpu.phase = p.rpu.phase ∧ (p.fillStrobe r short).rpu.lineResetBusy = p.rpu.lineResetBusy ∧
    (p.fillStrobe r short).rpu.threshold = p.rpu.threshold ∧ (p.fillStrobe r short).rpu.busData = p.rpu.busData ∧
    (p.fillStrobe r short).rpu.fault = p.rpu.fault ∧ (p.fillStrobe r short).spm.hallHold = p.spm.hallHold ∧
    (p.fillStrobe r short).trl.nextSeq = p.trl.nextSeq ∧
    (∀ k : Fin 6, (p.fillStrobe r short).rbp.robots[k.val].pins = p.rbp.robots[k.val].pins) ∧
    (∀ k : Fin 16, (p.fillStrobe r short).spm.ports[k.val].role = p.spm.ports[k.val].role) ∧
    (∀ k : Fin 16, (p.fillStrobe r short).spm.ports[k.val].link = p.spm.ports[k.val].link) ∧
    (∀ k : Fin 8, (p.fillStrobe r short).sac.zones[k.val].door = p.sac.zones[k.val].door) := by
  unfold Part.fillStrobe; (repeat' split) <;> simp

@[simp] theorem Part.runAckChanged_frame (p : Part) (r : Fin 6) (level : Bool) :
    (p.runAckChanged r level).mtu = p.mtu ∧ (p.runAckChanged r level).cvt = p.cvt ∧
    (p.runAckChanged r level).rej = p.rej ∧ (p.runAckChanged r level).syncLine = p.syncLine ∧
    (p.runAckChanged r level).lrst = p.lrst ∧ (p.runAckChanged r level).odk.queue = p.odk.queue ∧
    (p.runAckChanged r level).odk.takeIdentity = p.odk.takeIdentity ∧
    (p.runAckChanged r level).rpu.phase = p.rpu.phase ∧
    (p.runAckChanged r level).rpu.lineResetBusy = p.rpu.lineResetBusy ∧
    (p.runAckChanged r level).rpu.threshold = p.rpu.threshold ∧
    (p.runAckChanged r level).rpu.busData = p.rpu.busData ∧ (p.runAckChanged r level).spm.hallHold = p.spm.hallHold ∧
    (p.runAckChanged r level).trl.nextSeq = p.trl.nextSeq ∧
    (∀ k : Fin 6, (p.runAckChanged r level).rbp.robots[k.val].pins = p.rbp.robots[k.val].pins) ∧
    (∀ k : Fin 16, (p.runAckChanged r level).spm.ports[k.val].role = p.spm.ports[k.val].role) ∧
    (∀ k : Fin 16, (p.runAckChanged r level).spm.ports[k.val].link = p.spm.ports[k.val].link) ∧
    (∀ k : Fin 8, (p.runAckChanged r level).sac.zones[k.val].door = p.sac.zones[k.val].door) := by
  unfold Part.runAckChanged; (repeat' split) <;> simp

@[simp] theorem Part.haltAckChanged_frame (p : Part) (r : Fin 6) (level : Bool) :
    (p.haltAckChanged r level).mtu = p.mtu ∧ (p.haltAckChanged r level).cvt = p.cvt ∧
    (p.haltAckChanged r level).rej = p.rej ∧ (p.haltAckChanged r level).syncLine = p.syncLine ∧
    (p.haltAckChanged r level).lrst = p.lrst ∧ (p.haltAckChanged r level).odk.queue = p.odk.queue ∧
    (p.haltAckChanged r level).odk.takeIdentity = p.odk.takeIdentity ∧
    (p.haltAckChanged r level).rpu.phase = p.rpu.phase ∧
    (p.haltAckChanged r level).rpu.lineResetBusy = p.rpu.lineResetBusy ∧
    (p.haltAckChanged r level).rpu.threshold = p.rpu.threshold ∧
    (p.haltAckChanged r level).rpu.busData = p.rpu.busData ∧
    (p.haltAckChanged r level).spm.hallHold = p.spm.hallHold ∧
    (p.haltAckChanged r level).trl.nextSeq = p.trl.nextSeq ∧
    (∀ k : Fin 6, (p.haltAckChanged r level).rbp.robots[k.val].pins = p.rbp.robots[k.val].pins) ∧
    (∀ k : Fin 16, (p.haltAckChanged r level).spm.ports[k.val].role = p.spm.ports[k.val].role) ∧
    (∀ k : Fin 16, (p.haltAckChanged r level).spm.ports[k.val].link = p.spm.ports[k.val].link) ∧
    (∀ k : Fin 8, (p.haltAckChanged r level).sac.zones[k.val].door = p.sac.zones[k.val].door) := by
  unfold Part.haltAckChanged; (repeat' split) <;> simp

@[simp] theorem Part.faultActive_frame (p : Part) (r : Fin 6) :
    (p.faultActive r).mtu = p.mtu ∧ (p.faultActive r).cvt = p.cvt ∧ (p.faultActive r).rej = p.rej ∧
    (p.faultActive r).syncLine = p.syncLine ∧ (p.faultActive r).lrst = p.lrst ∧
    (p.faultActive r).odk.queue = p.odk.queue ∧ (p.faultActive r).odk.takeIdentity = p.odk.takeIdentity ∧
    (p.faultActive r).rpu.phase = p.rpu.phase ∧ (p.faultActive r).rpu.lineResetBusy = p.rpu.lineResetBusy ∧
    (p.faultActive r).rpu.threshold = p.rpu.threshold ∧ (p.faultActive r).rpu.busData = p.rpu.busData ∧
    (p.faultActive r).spm.hallHold = p.spm.hallHold ∧ (p.faultActive r).trl.nextSeq = p.trl.nextSeq ∧
    (∀ k : Fin 6, (p.faultActive r).rbp.robots[k.val].pins = p.rbp.robots[k.val].pins) ∧
    (∀ k : Fin 16, (p.faultActive r).spm.ports[k.val].role = p.spm.ports[k.val].role) ∧
    (∀ k : Fin 16, (p.faultActive r).spm.ports[k.val].link = p.spm.ports[k.val].link) ∧
    (∀ k : Fin 8, (p.faultActive r).sac.zones[k.val].door = p.sac.zones[k.val].door) := by
  unfold Part.faultActive; (repeat' split) <;> simp

@[simp] theorem Part.robotInputs_frame (p : Part) (r : Fin 6) (new : RobotPins) :
    (p.robotInputs r new).mtu = p.mtu ∧ (p.robotInputs r new).cvt = p.cvt ∧ (p.robotInputs r new).rej = p.rej ∧
    (p.robotInputs r new).syncLine = p.syncLine ∧ (p.robotInputs r new).lrst = p.lrst ∧
    (p.robotInputs r new).odk.queue = p.odk.queue ∧ (p.robotInputs r new).odk.takeIdentity = p.odk.takeIdentity ∧
    (p.robotInputs r new).rpu.phase = p.rpu.phase ∧ (p.robotInputs r new).rpu.lineResetBusy = p.rpu.lineResetBusy ∧
    (p.robotInputs r new).rpu.threshold = p.rpu.threshold ∧ (p.robotInputs r new).rpu.busData = p.rpu.busData ∧
    (p.robotInputs r new).spm.hallHold = p.spm.hallHold ∧ (p.robotInputs r new).trl.nextSeq = p.trl.nextSeq ∧
    (∀ k : Fin 16, (p.robotInputs r new).spm.ports[k.val].role = p.spm.ports[k.val].role) ∧
    (∀ k : Fin 16, (p.robotInputs r new).spm.ports[k.val].link = p.spm.ports[k.val].link) ∧
    (∀ k : Fin 8, (p.robotInputs r new).sac.zones[k.val].door = p.sac.zones[k.val].door) := by
  unfold Part.robotInputs; dsimp only; (repeat' split) <;> simp

@[simp] theorem Part.robotLine_frame (p : Part) (r : Fin 6) (line : RobotLine) (level : Bool) :
    (p.robotLine r line level).mtu = p.mtu ∧ (p.robotLine r line level).cvt = p.cvt ∧
    (p.robotLine r line level).rej = p.rej ∧ (p.robotLine r line level).syncLine = p.syncLine ∧
    (p.robotLine r line level).lrst = p.lrst ∧ (p.robotLine r line level).odk.queue = p.odk.queue ∧
    (p.robotLine r line level).odk.takeIdentity = p.odk.takeIdentity ∧
    (p.robotLine r line level).rpu.phase = p.rpu.phase ∧
    (p.robotLine r line level).rpu.lineResetBusy = p.rpu.lineResetBusy ∧
    (p.robotLine r line level).rpu.threshold = p.rpu.threshold ∧
    (p.robotLine r line level).rpu.busData = p.rpu.busData ∧
    (p.robotLine r line level).spm.hallHold = p.spm.hallHold ∧
    (p.robotLine r line level).trl.nextSeq = p.trl.nextSeq ∧
    (∀ k : Fin 16, (p.robotLine r line level).spm.ports[k.val].role = p.spm.ports[k.val].role) ∧
    (∀ k : Fin 16, (p.robotLine r line level).spm.ports[k.val].link = p.spm.ports[k.val].link) ∧
    (∀ k : Fin 8, (p.robotLine r line level).sac.zones[k.val].door = p.sac.zones[k.val].door) := by
  unfold Part.robotLine; simp

@[simp] theorem Part.fillLines_frame (p : Part) (r : Fin 6) (ok : Bool) (short : Bool) :
    (p.fillLines r ok short).mtu = p.mtu ∧ (p.fillLines r ok short).cvt = p.cvt ∧
    (p.fillLines r ok short).rej = p.rej ∧ (p.fillLines r ok short).syncLine = p.syncLine ∧
    (p.fillLines r ok short).lrst = p.lrst ∧ (p.fillLines r ok short).odk.queue = p.odk.queue ∧
    (p.fillLines r ok short).odk.takeIdentity = p.odk.takeIdentity ∧
    (p.fillLines r ok short).rpu.phase = p.rpu.phase ∧
    (p.fillLines r ok short).rpu.lineResetBusy = p.rpu.lineResetBusy ∧
    (p.fillLines r ok short).rpu.threshold = p.rpu.threshold ∧ (p.fillLines r ok short).rpu.busData = p.rpu.busData ∧
    (p.fillLines r ok short).spm.hallHold = p.spm.hallHold ∧ (p.fillLines r ok short).trl.nextSeq = p.trl.nextSeq ∧
    (∀ k : Fin 16, (p.fillLines r ok short).spm.ports[k.val].role = p.spm.ports[k.val].role) ∧
    (∀ k : Fin 16, (p.fillLines r ok short).spm.ports[k.val].link = p.spm.ports[k.val].link) ∧
    (∀ k : Fin 8, (p.fillLines r ok short).sac.zones[k.val].door = p.sac.zones[k.val].door) := by
  unfold Part.fillLines; simp

@[simp] theorem Part.runTimedOut_frame (p : Part) (r : Fin 6) :
    (p.runTimedOut r).mtu = p.mtu ∧ (p.runTimedOut r).cvt = p.cvt ∧ (p.runTimedOut r).rej = p.rej ∧
    (p.runTimedOut r).syncLine = p.syncLine ∧ (p.runTimedOut r).lrst = p.lrst ∧
    (p.runTimedOut r).odk.queue = p.odk.queue ∧ (p.runTimedOut r).odk.takeIdentity = p.odk.takeIdentity ∧
    (p.runTimedOut r).rpu.phase = p.rpu.phase ∧ (p.runTimedOut r).rpu.lineResetBusy = p.rpu.lineResetBusy ∧
    (p.runTimedOut r).rpu.threshold = p.rpu.threshold ∧ (p.runTimedOut r).rpu.busData = p.rpu.busData ∧
    (p.runTimedOut r).spm.hallHold = p.spm.hallHold ∧ (p.runTimedOut r).trl.nextSeq = p.trl.nextSeq ∧
    (∀ k : Fin 6, (p.runTimedOut r).rbp.robots[k.val].pins = p.rbp.robots[k.val].pins) ∧
    (∀ k : Fin 16, (p.runTimedOut r).spm.ports[k.val].role = p.spm.ports[k.val].role) ∧
    (∀ k : Fin 16, (p.runTimedOut r).spm.ports[k.val].link = p.spm.ports[k.val].link) ∧
    (∀ k : Fin 8, (p.runTimedOut r).sac.zones[k.val].door = p.sac.zones[k.val].door) := by
  unfold Part.runTimedOut; (repeat' split) <;> simp

@[simp] theorem Part.haltTimedOut_frame (p : Part) (r : Fin 6) :
    (p.haltTimedOut r).mtu = p.mtu ∧ (p.haltTimedOut r).cvt = p.cvt ∧ (p.haltTimedOut r).rej = p.rej ∧
    (p.haltTimedOut r).syncLine = p.syncLine ∧ (p.haltTimedOut r).lrst = p.lrst ∧
    (p.haltTimedOut r).odk.queue = p.odk.queue ∧ (p.haltTimedOut r).odk.takeIdentity = p.odk.takeIdentity ∧
    (p.haltTimedOut r).rpu.phase = p.rpu.phase ∧ (p.haltTimedOut r).rpu.lineResetBusy = p.rpu.lineResetBusy ∧
    (p.haltTimedOut r).rpu.threshold = p.rpu.threshold ∧ (p.haltTimedOut r).rpu.busData = p.rpu.busData ∧
    (p.haltTimedOut r).spm.hallHold = p.spm.hallHold ∧ (p.haltTimedOut r).trl.nextSeq = p.trl.nextSeq ∧
    (∀ k : Fin 6, (p.haltTimedOut r).rbp.robots[k.val].pins = p.rbp.robots[k.val].pins) ∧
    (∀ k : Fin 16, (p.haltTimedOut r).spm.ports[k.val].role = p.spm.ports[k.val].role) ∧
    (∀ k : Fin 16, (p.haltTimedOut r).spm.ports[k.val].link = p.spm.ports[k.val].link) ∧
    (∀ k : Fin 8, (p.haltTimedOut r).sac.zones[k.val].door = p.sac.zones[k.val].door) := by
  unfold Part.haltTimedOut; (repeat' split) <;> simp

@[simp] theorem Part.windowOpens_frame (p : Part) (r : Fin 6) (seq : Word) :
    (p.windowOpens r seq).mtu = p.mtu ∧ (p.windowOpens r seq).cvt = p.cvt ∧ (p.windowOpens r seq).trl = p.trl ∧
    (p.windowOpens r seq).ctu = p.ctu ∧ (p.windowOpens r seq).rej = p.rej ∧ (p.windowOpens r seq).spm = p.spm ∧
    (p.windowOpens r seq).sac = p.sac ∧ (p.windowOpens r seq).odk = p.odk ∧ (p.windowOpens r seq).rpu = p.rpu ∧
    (p.windowOpens r seq).syncLine = p.syncLine ∧ (p.windowOpens r seq).lrst = p.lrst ∧
    (p.windowOpens r seq).mem = p.mem ∧ (p.windowOpens r seq).freeCount = p.freeCount ∧
    (∀ k : Fin 6, (p.windowOpens r seq).rbp.robots[k.val].state = p.rbp.robots[k.val].state) ∧
    (∀ k : Fin 6, (p.windowOpens r seq).rbp.robots[k.val].pins = p.rbp.robots[k.val].pins) := by
  unfold Part.windowOpens; simp

@[simp] theorem Part.windowCloses_frame (p : Part) (r : Fin 6) (seq : Word) :
    (p.windowCloses r seq).mtu = p.mtu ∧ (p.windowCloses r seq).cvt = p.cvt ∧ (p.windowCloses r seq).trl = p.trl ∧
    (p.windowCloses r seq).ctu = p.ctu ∧ (p.windowCloses r seq).rej = p.rej ∧ (p.windowCloses r seq).spm = p.spm ∧
    (p.windowCloses r seq).sac = p.sac ∧ (p.windowCloses r seq).odk = p.odk ∧ (p.windowCloses r seq).rpu = p.rpu ∧
    (p.windowCloses r seq).syncLine = p.syncLine ∧ (p.windowCloses r seq).lrst = p.lrst ∧
    (p.windowCloses r seq).mem = p.mem ∧ (p.windowCloses r seq).freeCount = p.freeCount ∧
    (∀ k : Fin 6, (p.windowCloses r seq).rbp.robots[k.val].state = p.rbp.robots[k.val].state) ∧
    (∀ k : Fin 6, (p.windowCloses r seq).rbp.robots[k.val].pins = p.rbp.robots[k.val].pins) := by
  unfold Part.windowCloses; simp

@[simp] theorem Part.graceEnds_frame (p : Part) (r : Fin 6) (seq : Word) :
    (p.graceEnds r seq).mtu = p.mtu ∧ (p.graceEnds r seq).cvt = p.cvt ∧ (p.graceEnds r seq).rej = p.rej ∧
    (p.graceEnds r seq).syncLine = p.syncLine ∧ (p.graceEnds r seq).lrst = p.lrst ∧
    (p.graceEnds r seq).odk.queue = p.odk.queue ∧ (p.graceEnds r seq).odk.takeIdentity = p.odk.takeIdentity ∧
    (p.graceEnds r seq).rpu.phase = p.rpu.phase ∧ (p.graceEnds r seq).rpu.lineResetBusy = p.rpu.lineResetBusy ∧
    (p.graceEnds r seq).rpu.threshold = p.rpu.threshold ∧ (p.graceEnds r seq).rpu.busData = p.rpu.busData ∧
    (p.graceEnds r seq).rpu.fault = p.rpu.fault ∧ (p.graceEnds r seq).spm.hallHold = p.spm.hallHold ∧
    (p.graceEnds r seq).trl.nextSeq = p.trl.nextSeq ∧
    (∀ k : Fin 6, (p.graceEnds r seq).rbp.robots[k.val].pins = p.rbp.robots[k.val].pins) ∧
    (∀ k : Fin 16, (p.graceEnds r seq).spm.ports[k.val].role = p.spm.ports[k.val].role) ∧
    (∀ k : Fin 16, (p.graceEnds r seq).spm.ports[k.val].link = p.spm.ports[k.val].link) ∧
    (∀ k : Fin 8, (p.graceEnds r seq).sac.zones[k.val].door = p.sac.zones[k.val].door) := by
  unfold Part.graceEnds; (repeat' split) <;> simp

@[simp] theorem Part.raiseWatch_frame (p : Part) (w : Watch) :
    (p.raiseWatch w).mtu = p.mtu ∧ (p.raiseWatch w).cvt = p.cvt ∧ (p.raiseWatch w).rej = p.rej ∧
    (p.raiseWatch w).syncLine = p.syncLine ∧ (p.raiseWatch w).lrst = p.lrst ∧
    (p.raiseWatch w).odk.queue = p.odk.queue ∧ (p.raiseWatch w).odk.takeIdentity = p.odk.takeIdentity ∧
    (p.raiseWatch w).rpu.phase = p.rpu.phase ∧ (p.raiseWatch w).rpu.lineResetBusy = p.rpu.lineResetBusy ∧
    (p.raiseWatch w).rpu.threshold = p.rpu.threshold ∧ (p.raiseWatch w).rpu.busData = p.rpu.busData ∧
    (p.raiseWatch w).rpu.fault = p.rpu.fault ∧ (p.raiseWatch w).spm.hallHold = p.spm.hallHold ∧
    (p.raiseWatch w).trl.nextSeq = p.trl.nextSeq ∧
    (∀ k : Fin 6, (p.raiseWatch w).rbp.robots[k.val].pins = p.rbp.robots[k.val].pins) ∧
    (∀ k : Fin 16, (p.raiseWatch w).spm.ports[k.val].role = p.spm.ports[k.val].role) ∧
    (∀ k : Fin 16, (p.raiseWatch w).spm.ports[k.val].link = p.spm.ports[k.val].link) ∧
    (∀ k : Fin 8, (p.raiseWatch w).sac.zones[k.val].door = p.sac.zones[k.val].door) := by
  unfold Part.raiseWatch; (repeat' split) <;> simp

@[simp] theorem Part.registerWatch_frame (p : Part) (w : Watch) :
    (p.registerWatch w).mtu = p.mtu ∧ (p.registerWatch w).rej = p.rej ∧ (p.registerWatch w).syncLine = p.syncLine ∧
    (p.registerWatch w).lrst = p.lrst ∧ (p.registerWatch w).cvt.position = p.cvt.position ∧
    (p.registerWatch w).cvt.highWater = p.cvt.highWater ∧ (p.registerWatch w).cvt.depth = p.cvt.depth ∧
    (p.registerWatch w).cvt.phase = p.cvt.phase ∧ (p.registerWatch w).cvt.profile = p.cvt.profile ∧
    (p.registerWatch w).cvt.tracker = p.cvt.tracker ∧ (p.registerWatch w).cvt.adoption = p.cvt.adoption ∧
    (p.registerWatch w).odk.queue = p.odk.queue ∧ (p.registerWatch w).odk.takeIdentity = p.odk.takeIdentity ∧
    (p.registerWatch w).rpu.phase = p.rpu.phase ∧ (p.registerWatch w).rpu.lineResetBusy = p.rpu.lineResetBusy ∧
    (p.registerWatch w).rpu.threshold = p.rpu.threshold ∧ (p.registerWatch w).rpu.busData = p.rpu.busData ∧
    (p.registerWatch w).rpu.fault = p.rpu.fault ∧ (p.registerWatch w).spm.hallHold = p.spm.hallHold ∧
    (p.registerWatch w).trl.nextSeq = p.trl.nextSeq ∧
    (∀ k : Fin 6, (p.registerWatch w).rbp.robots[k.val].pins = p.rbp.robots[k.val].pins) ∧
    (∀ k : Fin 16, (p.registerWatch w).spm.ports[k.val].role = p.spm.ports[k.val].role) ∧
    (∀ k : Fin 16, (p.registerWatch w).spm.ports[k.val].link = p.spm.ports[k.val].link) ∧
    (∀ k : Fin 8, (p.registerWatch w).sac.zones[k.val].door = p.sac.zones[k.val].door) := by
  unfold Part.registerWatch; (repeat' split) <;> simp

@[simp] theorem Part.servicePitch_frame (p : Part) (seq : Word) :
    (p.servicePitch seq).mtu = p.mtu ∧ (p.servicePitch seq).rej = p.rej ∧
    (p.servicePitch seq).syncLine = p.syncLine ∧ (p.servicePitch seq).lrst = p.lrst ∧
    (p.servicePitch seq).cvt.position = p.cvt.position ∧ (p.servicePitch seq).cvt.highWater = p.cvt.highWater ∧
    (p.servicePitch seq).cvt.depth = p.cvt.depth ∧ (p.servicePitch seq).cvt.phase = p.cvt.phase ∧
    (p.servicePitch seq).cvt.profile = p.cvt.profile ∧ (p.servicePitch seq).cvt.tracker = p.cvt.tracker ∧
    (p.servicePitch seq).cvt.adoption = p.cvt.adoption ∧ (p.servicePitch seq).odk.queue = p.odk.queue ∧
    (p.servicePitch seq).odk.takeIdentity = p.odk.takeIdentity ∧ (p.servicePitch seq).rpu.phase = p.rpu.phase ∧
    (p.servicePitch seq).rpu.lineResetBusy = p.rpu.lineResetBusy ∧
    (p.servicePitch seq).rpu.threshold = p.rpu.threshold ∧ (p.servicePitch seq).rpu.busData = p.rpu.busData ∧
    (p.servicePitch seq).rpu.fault = p.rpu.fault ∧ (p.servicePitch seq).spm.hallHold = p.spm.hallHold ∧
    (p.servicePitch seq).trl.nextSeq = p.trl.nextSeq ∧
    (∀ k : Fin 6, (p.servicePitch seq).rbp.robots[k.val].pins = p.rbp.robots[k.val].pins) ∧
    (∀ k : Fin 16, (p.servicePitch seq).spm.ports[k.val].role = p.spm.ports[k.val].role) ∧
    (∀ k : Fin 16, (p.servicePitch seq).spm.ports[k.val].link = p.spm.ports[k.val].link) ∧
    (∀ k : Fin 8, (p.servicePitch seq).sac.zones[k.val].door = p.sac.zones[k.val].door) := by
  unfold Part.servicePitch; dsimp only; (repeat' split) <;> simp

@[simp] theorem Part.closeReport_frame (p : Part) (r : Fin 6) (seq : Word) :
    (p.closeReport r seq).mtu = p.mtu ∧ (p.closeReport r seq).rej = p.rej ∧
    (p.closeReport r seq).syncLine = p.syncLine ∧ (p.closeReport r seq).lrst = p.lrst ∧
    (p.closeReport r seq).cvt.position = p.cvt.position ∧ (p.closeReport r seq).cvt.highWater = p.cvt.highWater ∧
    (p.closeReport r seq).cvt.depth = p.cvt.depth ∧ (p.closeReport r seq).cvt.phase = p.cvt.phase ∧
    (p.closeReport r seq).cvt.profile = p.cvt.profile ∧ (p.closeReport r seq).cvt.tracker = p.cvt.tracker ∧
    (p.closeReport r seq).cvt.adoption = p.cvt.adoption ∧ (p.closeReport r seq).odk.queue = p.odk.queue ∧
    (p.closeReport r seq).odk.takeIdentity = p.odk.takeIdentity ∧ (p.closeReport r seq).rpu.phase = p.rpu.phase ∧
    (p.closeReport r seq).rpu.lineResetBusy = p.rpu.lineResetBusy ∧
    (p.closeReport r seq).rpu.threshold = p.rpu.threshold ∧ (p.closeReport r seq).rpu.busData = p.rpu.busData ∧
    (p.closeReport r seq).rpu.fault = p.rpu.fault ∧ (p.closeReport r seq).spm.hallHold = p.spm.hallHold ∧
    (p.closeReport r seq).trl.nextSeq = p.trl.nextSeq ∧
    (∀ k : Fin 6, (p.closeReport r seq).rbp.robots[k.val].pins = p.rbp.robots[k.val].pins) ∧
    (∀ k : Fin 16, (p.closeReport r seq).spm.ports[k.val].role = p.spm.ports[k.val].role) ∧
    (∀ k : Fin 16, (p.closeReport r seq).spm.ports[k.val].link = p.spm.ports[k.val].link) ∧
    (∀ k : Fin 8, (p.closeReport r seq).sac.zones[k.val].door = p.sac.zones[k.val].door) := by
  unfold Part.closeReport; simp

@[simp] theorem Part.adoptRotation_frame (p : Part) (q : PendingRotation) :
    (p.adoptRotation q).mtu = p.mtu ∧ (p.adoptRotation q).cvt = p.cvt ∧ (p.adoptRotation q).trl = p.trl ∧
    (p.adoptRotation q).ctu = p.ctu ∧ (p.adoptRotation q).rej = p.rej ∧ (p.adoptRotation q).spm = p.spm ∧
    (p.adoptRotation q).sac = p.sac ∧ (p.adoptRotation q).syncLine = p.syncLine ∧ (p.adoptRotation q).lrst = p.lrst ∧
    (p.adoptRotation q).freeCount = p.freeCount ∧ (p.adoptRotation q).odk.queue = p.odk.queue ∧
    (p.adoptRotation q).odk.takeIdentity = p.odk.takeIdentity ∧ (p.adoptRotation q).rpu.phase = p.rpu.phase ∧
    (p.adoptRotation q).rpu.lineResetBusy = p.rpu.lineResetBusy ∧
    (p.adoptRotation q).rpu.threshold = p.rpu.threshold ∧ (p.adoptRotation q).rpu.busData = p.rpu.busData ∧
    (p.adoptRotation q).rpu.fault = p.rpu.fault ∧
    (∀ k : Fin 6, (p.adoptRotation q).rbp.robots[k.val].state = p.rbp.robots[k.val].state) ∧
    (∀ k : Fin 6, (p.adoptRotation q).rbp.robots[k.val].pins = p.rbp.robots[k.val].pins) := by
  unfold Part.adoptRotation; dsimp only; simp

@[simp] theorem Part.wrap_frame (p : Part) :
    p.wrap.mtu = p.mtu ∧ p.wrap.cvt = p.cvt ∧ p.wrap.trl = p.trl ∧ p.wrap.ctu = p.ctu ∧ p.wrap.rej = p.rej ∧
    p.wrap.spm = p.spm ∧ p.wrap.sac = p.sac ∧ p.wrap.syncLine = p.syncLine ∧ p.wrap.lrst = p.lrst ∧
    p.wrap.freeCount = p.freeCount ∧ p.wrap.odk.queue = p.odk.queue ∧ p.wrap.odk.takeIdentity = p.odk.takeIdentity ∧
    p.wrap.rpu.phase = p.rpu.phase ∧ p.wrap.rpu.lineResetBusy = p.rpu.lineResetBusy ∧
    p.wrap.rpu.threshold = p.rpu.threshold ∧ p.wrap.rpu.busData = p.rpu.busData ∧ p.wrap.rpu.fault = p.rpu.fault ∧
    (∀ k : Fin 6, p.wrap.rbp.robots[k.val].state = p.rbp.robots[k.val].state) ∧
    (∀ k : Fin 6, p.wrap.rbp.robots[k.val].pins = p.rbp.robots[k.val].pins) := by
  unfold Part.wrap; (repeat' split) <;> simp

@[simp] theorem Part.advanceCursor_frame (p : Part) (slot : Nat) :
    (p.advanceCursor slot).mtu = p.mtu ∧ (p.advanceCursor slot).cvt = p.cvt ∧ (p.advanceCursor slot).trl = p.trl ∧
    (p.advanceCursor slot).ctu = p.ctu ∧ (p.advanceCursor slot).rej = p.rej ∧ (p.advanceCursor slot).spm = p.spm ∧
    (p.advanceCursor slot).sac = p.sac ∧ (p.advanceCursor slot).syncLine = p.syncLine ∧
    (p.advanceCursor slot).lrst = p.lrst ∧ (p.advanceCursor slot).freeCount = p.freeCount ∧
    (p.advanceCursor slot).odk.queue = p.odk.queue ∧ (p.advanceCursor slot).odk.takeIdentity = p.odk.takeIdentity ∧
    (p.advanceCursor slot).rpu.phase = p.rpu.phase ∧ (p.advanceCursor slot).rpu.lineResetBusy = p.rpu.lineResetBusy ∧
    (p.advanceCursor slot).rpu.threshold = p.rpu.threshold ∧ (p.advanceCursor slot).rpu.busData = p.rpu.busData ∧
    (p.advanceCursor slot).rpu.fault = p.rpu.fault ∧
    (∀ k : Fin 6, (p.advanceCursor slot).rbp.robots[k.val].state = p.rbp.robots[k.val].state) ∧
    (∀ k : Fin 6, (p.advanceCursor slot).rbp.robots[k.val].pins = p.rbp.robots[k.val].pins) := by
  unfold Part.advanceCursor; (repeat' split) <;> simp

@[simp] theorem Part.searchSlot_frame (n : Nat) (p : Part) (start pos turn : Nat) :
    (Part.searchSlot n p start pos turn).2.2.mtu = p.mtu ∧ (Part.searchSlot n p start pos turn).2.2.cvt = p.cvt ∧
    (Part.searchSlot n p start pos turn).2.2.trl = p.trl ∧ (Part.searchSlot n p start pos turn).2.2.ctu = p.ctu ∧
    (Part.searchSlot n p start pos turn).2.2.rej = p.rej ∧ (Part.searchSlot n p start pos turn).2.2.spm = p.spm ∧
    (Part.searchSlot n p start pos turn).2.2.sac = p.sac ∧
    (Part.searchSlot n p start pos turn).2.2.syncLine = p.syncLine ∧
    (Part.searchSlot n p start pos turn).2.2.lrst = p.lrst ∧
    (Part.searchSlot n p start pos turn).2.2.freeCount = p.freeCount ∧
    (Part.searchSlot n p start pos turn).2.2.odk.queue = p.odk.queue ∧
    (Part.searchSlot n p start pos turn).2.2.odk.takeIdentity = p.odk.takeIdentity ∧
    (Part.searchSlot n p start pos turn).2.2.rpu.phase = p.rpu.phase ∧
    (Part.searchSlot n p start pos turn).2.2.rpu.lineResetBusy = p.rpu.lineResetBusy ∧
    (Part.searchSlot n p start pos turn).2.2.rpu.threshold = p.rpu.threshold ∧
    (Part.searchSlot n p start pos turn).2.2.rpu.busData = p.rpu.busData ∧
    (Part.searchSlot n p start pos turn).2.2.rpu.fault = p.rpu.fault := by
  induction n generalizing p start pos turn with
  | zero => simp [Part.searchSlot]
  | succ n ih => unfold Part.searchSlot; dsimp only; (repeat' split) <;> simp [ih]

@[simp] theorem Part.assign_frame (p : Part) :
    p.assign.2.2.mtu = p.mtu ∧ p.assign.2.2.cvt = p.cvt ∧ p.assign.2.2.trl = p.trl ∧ p.assign.2.2.ctu = p.ctu ∧
    p.assign.2.2.rej = p.rej ∧ p.assign.2.2.spm = p.spm ∧ p.assign.2.2.sac = p.sac ∧
    p.assign.2.2.syncLine = p.syncLine ∧ p.assign.2.2.lrst = p.lrst ∧ p.assign.2.2.freeCount = p.freeCount ∧
    p.assign.2.2.odk.queue = p.odk.queue ∧ p.assign.2.2.odk.takeIdentity = p.odk.takeIdentity ∧
    p.assign.2.2.rpu.phase = p.rpu.phase ∧ p.assign.2.2.rpu.lineResetBusy = p.rpu.lineResetBusy ∧
    p.assign.2.2.rpu.threshold = p.rpu.threshold ∧ p.assign.2.2.rpu.busData = p.rpu.busData ∧
    p.assign.2.2.rpu.fault = p.rpu.fault := by
  unfold Part.assign; dsimp only; (repeat' split) <;> simp

@[simp] theorem Part.robotsReady_frame (p : Part) :
    p.robotsReady.mtu = p.mtu ∧ p.robotsReady.cvt = p.cvt ∧ p.robotsReady.trl = p.trl ∧ p.robotsReady.ctu = p.ctu ∧
    p.robotsReady.rej = p.rej ∧ p.robotsReady.spm = p.spm ∧ p.robotsReady.sac = p.sac ∧
    p.robotsReady.syncLine = p.syncLine ∧ p.robotsReady.lrst = p.lrst ∧ p.robotsReady.odk.queue = p.odk.queue ∧
    p.robotsReady.odk.takeIdentity = p.odk.takeIdentity ∧ p.robotsReady.rpu.phase = p.rpu.phase ∧
    p.robotsReady.rpu.lineResetBusy = p.rpu.lineResetBusy ∧ p.robotsReady.rpu.threshold = p.rpu.threshold ∧
    p.robotsReady.rpu.busData = p.rpu.busData ∧ p.robotsReady.rpu.fault = p.rpu.fault ∧
    (∀ k : Fin 6, p.robotsReady.rbp.robots[k.val].state = p.rbp.robots[k.val].state) ∧
    (∀ k : Fin 6, p.robotsReady.rbp.robots[k.val].pins = p.rbp.robots[k.val].pins) := by
    unfold Part.robotsReady; dsimp only; (repeat' split) <;> simp [fold_mtu, fold_cvt, fold_trl, fold_ctu, fold_rej,
    fold_spm, fold_sac, fold_syncLine, fold_lrst, fold_odk_queue, fold_odk_takeIdentity, fold_rpu_phase,
    fold_rpu_lineResetBusy, fold_rpu_threshold, fold_rpu_busData, fold_rpu_fault, fold_rbp_state, fold_rbp_pins]

@[simp] theorem Part.robotRunOrder_frame (p : Part) (ref : OrderRef) (robot : Byte) :
    (p.robotRunOrder ref robot).mtu = p.mtu ∧ (p.robotRunOrder ref robot).cvt = p.cvt ∧
    (p.robotRunOrder ref robot).rej = p.rej ∧ (p.robotRunOrder ref robot).syncLine = p.syncLine ∧
    (p.robotRunOrder ref robot).lrst = p.lrst ∧ (p.robotRunOrder ref robot).odk.queue = p.odk.queue ∧
    (p.robotRunOrder ref robot).odk.takeIdentity = p.odk.takeIdentity ∧
    (p.robotRunOrder ref robot).rpu.phase = p.rpu.phase ∧
    (p.robotRunOrder ref robot).rpu.lineResetBusy = p.rpu.lineResetBusy ∧
    (p.robotRunOrder ref robot).rpu.threshold = p.rpu.threshold ∧
    (p.robotRunOrder ref robot).rpu.busData = p.rpu.busData ∧ (p.robotRunOrder ref robot).rpu.fault = p.rpu.fault ∧
    (p.robotRunOrder ref robot).spm.hallHold = p.spm.hallHold ∧
    (p.robotRunOrder ref robot).trl.nextSeq = p.trl.nextSeq ∧
    (∀ k : Fin 6, (p.robotRunOrder ref robot).rbp.robots[k.val].pins = p.rbp.robots[k.val].pins) ∧
    (∀ k : Fin 16, (p.robotRunOrder ref robot).spm.ports[k.val].role = p.spm.ports[k.val].role) ∧
    (∀ k : Fin 16, (p.robotRunOrder ref robot).spm.ports[k.val].link = p.spm.ports[k.val].link) ∧
    (∀ k : Fin 8, (p.robotRunOrder ref robot).sac.zones[k.val].door = p.sac.zones[k.val].door) := by
  unfold Part.robotRunOrder; (repeat' split) <;> simp

@[simp] theorem Part.robotHaltOrder_frame (p : Part) (ref : OrderRef) (robot : Byte) :
    (p.robotHaltOrder ref robot).mtu = p.mtu ∧ (p.robotHaltOrder ref robot).cvt = p.cvt ∧
    (p.robotHaltOrder ref robot).rej = p.rej ∧ (p.robotHaltOrder ref robot).syncLine = p.syncLine ∧
    (p.robotHaltOrder ref robot).lrst = p.lrst ∧ (p.robotHaltOrder ref robot).odk.queue = p.odk.queue ∧
    (p.robotHaltOrder ref robot).odk.takeIdentity = p.odk.takeIdentity ∧
    (p.robotHaltOrder ref robot).rpu.phase = p.rpu.phase ∧
    (p.robotHaltOrder ref robot).rpu.lineResetBusy = p.rpu.lineResetBusy ∧
    (p.robotHaltOrder ref robot).rpu.threshold = p.rpu.threshold ∧
    (p.robotHaltOrder ref robot).rpu.busData = p.rpu.busData ∧ (p.robotHaltOrder ref robot).rpu.fault = p.rpu.fault ∧
    (p.robotHaltOrder ref robot).spm.hallHold = p.spm.hallHold ∧
    (p.robotHaltOrder ref robot).trl.nextSeq = p.trl.nextSeq ∧
    (∀ k : Fin 6, (p.robotHaltOrder ref robot).rbp.robots[k.val].pins = p.rbp.robots[k.val].pins) ∧
    (∀ k : Fin 16, (p.robotHaltOrder ref robot).spm.ports[k.val].role = p.spm.ports[k.val].role) ∧
    (∀ k : Fin 16, (p.robotHaltOrder ref robot).spm.ports[k.val].link = p.spm.ports[k.val].link) ∧
    (∀ k : Fin 8, (p.robotHaltOrder ref robot).sac.zones[k.val].door = p.sac.zones[k.val].door) := by
  unfold Part.robotHaltOrder; (repeat' split) <;> simp

@[simp] theorem Part.robotClearOrder_frame (p : Part) (ref : OrderRef) (robot : Byte) :
    (p.robotClearOrder ref robot).mtu = p.mtu ∧ (p.robotClearOrder ref robot).cvt = p.cvt ∧
    (p.robotClearOrder ref robot).rej = p.rej ∧ (p.robotClearOrder ref robot).syncLine = p.syncLine ∧
    (p.robotClearOrder ref robot).lrst = p.lrst ∧ (p.robotClearOrder ref robot).odk.queue = p.odk.queue ∧
    (p.robotClearOrder ref robot).odk.takeIdentity = p.odk.takeIdentity ∧
    (p.robotClearOrder ref robot).rpu.phase = p.rpu.phase ∧
    (p.robotClearOrder ref robot).rpu.lineResetBusy = p.rpu.lineResetBusy ∧
    (p.robotClearOrder ref robot).rpu.threshold = p.rpu.threshold ∧
    (p.robotClearOrder ref robot).rpu.busData = p.rpu.busData ∧
    (p.robotClearOrder ref robot).rpu.fault = p.rpu.fault ∧
    (p.robotClearOrder ref robot).spm.hallHold = p.spm.hallHold ∧
    (p.robotClearOrder ref robot).trl.nextSeq = p.trl.nextSeq ∧
    (∀ k : Fin 6, (p.robotClearOrder ref robot).rbp.robots[k.val].pins = p.rbp.robots[k.val].pins) ∧
    (∀ k : Fin 16, (p.robotClearOrder ref robot).spm.ports[k.val].role = p.spm.ports[k.val].role) ∧
    (∀ k : Fin 16, (p.robotClearOrder ref robot).spm.ports[k.val].link = p.spm.ports[k.val].link) ∧
    (∀ k : Fin 8, (p.robotClearOrder ref robot).sac.zones[k.val].door = p.sac.zones[k.val].door) := by
  unfold Part.robotClearOrder; dsimp only; (repeat' split) <;> simp

@[simp] theorem Part.rotationSetOrder_frame (p : Part) (ref : OrderRef) (count : Byte) (skip : Byte)
    (entries : List Byte) :
    (p.rotationSetOrder ref count skip entries).mtu = p.mtu ∧
    (p.rotationSetOrder ref count skip entries).cvt = p.cvt ∧
    (p.rotationSetOrder ref count skip entries).trl = p.trl ∧
    (p.rotationSetOrder ref count skip entries).ctu = p.ctu ∧
    (p.rotationSetOrder ref count skip entries).rej = p.rej ∧
    (p.rotationSetOrder ref count skip entries).spm = p.spm ∧
    (p.rotationSetOrder ref count skip entries).sac = p.sac ∧
    (p.rotationSetOrder ref count skip entries).syncLine = p.syncLine ∧
    (p.rotationSetOrder ref count skip entries).lrst = p.lrst ∧
    (p.rotationSetOrder ref count skip entries).freeCount = p.freeCount ∧
    (p.rotationSetOrder ref count skip entries).odk.queue = p.odk.queue ∧
    (p.rotationSetOrder ref count skip entries).odk.takeIdentity = p.odk.takeIdentity ∧
    (p.rotationSetOrder ref count skip entries).rpu.phase = p.rpu.phase ∧
    (p.rotationSetOrder ref count skip entries).rpu.lineResetBusy = p.rpu.lineResetBusy ∧
    (p.rotationSetOrder ref count skip entries).rpu.threshold = p.rpu.threshold ∧
    (p.rotationSetOrder ref count skip entries).rpu.busData = p.rpu.busData ∧
    (p.rotationSetOrder ref count skip entries).rpu.fault = p.rpu.fault ∧
    (∀ k : Fin 6, (p.rotationSetOrder ref count skip entries).rbp.robots[k.val].state = p.rbp.robots[k.val].state) ∧
    (∀ k : Fin 6, (p.rotationSetOrder ref count skip entries).rbp.robots[k.val].pins = p.rbp.robots[k.val].pins) := by
  unfold Part.rotationSetOrder; dsimp only; (repeat' split) <;> simp

@[simp] theorem Part.windowSetOrder_frame (p : Part) (ref : OrderRef) (robot : Byte) (opening : Half)
    (closing : Half) :
    (p.windowSetOrder ref robot opening closing).mtu = p.mtu ∧
    (p.windowSetOrder ref robot opening closing).cvt = p.cvt ∧
    (p.windowSetOrder ref robot opening closing).trl = p.trl ∧
    (p.windowSetOrder ref robot opening closing).ctu = p.ctu ∧
    (p.windowSetOrder ref robot opening closing).rej = p.rej ∧
    (p.windowSetOrder ref robot opening closing).spm = p.spm ∧
    (p.windowSetOrder ref robot opening closing).sac = p.sac ∧
    (p.windowSetOrder ref robot opening closing).syncLine = p.syncLine ∧
    (p.windowSetOrder ref robot opening closing).lrst = p.lrst ∧
    (p.windowSetOrder ref robot opening closing).odk.queue = p.odk.queue ∧
    (p.windowSetOrder ref robot opening closing).odk.takeIdentity = p.odk.takeIdentity ∧
    (p.windowSetOrder ref robot opening closing).rpu.phase = p.rpu.phase ∧
    (p.windowSetOrder ref robot opening closing).rpu.lineResetBusy = p.rpu.lineResetBusy ∧
    (p.windowSetOrder ref robot opening closing).rpu.threshold = p.rpu.threshold ∧
    (p.windowSetOrder ref robot opening closing).rpu.busData = p.rpu.busData ∧
    (p.windowSetOrder ref robot opening closing).rpu.fault = p.rpu.fault ∧
    (∀ k : Fin 6, (p.windowSetOrder ref robot opening closing).rbp.robots[k.val].state = p.rbp.robots[k.val].state) ∧
    (∀ k : Fin 6, (p.windowSetOrder ref robot opening closing).rbp.robots[k.val].pins = p.rbp.robots[k.val].pins) := by
  unfold Part.windowSetOrder; dsimp only; (repeat' split) <;> simp

@[simp] theorem Part.robotsAdopt_frame (p : Part) (f : Profile) :
    (p.robotsAdopt f).mtu = p.mtu ∧ (p.robotsAdopt f).cvt = p.cvt ∧ (p.robotsAdopt f).trl = p.trl ∧
    (p.robotsAdopt f).ctu = p.ctu ∧ (p.robotsAdopt f).rej = p.rej ∧ (p.robotsAdopt f).spm = p.spm ∧
    (p.robotsAdopt f).sac = p.sac ∧ (p.robotsAdopt f).odk = p.odk ∧ (p.robotsAdopt f).syncLine = p.syncLine ∧
    (p.robotsAdopt f).lrst = p.lrst ∧ (p.robotsAdopt f).rpu.phase = p.rpu.phase ∧
    (p.robotsAdopt f).rpu.lineResetBusy = p.rpu.lineResetBusy ∧ (p.robotsAdopt f).rpu.threshold = p.rpu.threshold ∧
    (p.robotsAdopt f).rpu.busData = p.rpu.busData ∧ (p.robotsAdopt f).rpu.fault = p.rpu.fault ∧
    (∀ k : Fin 6, (p.robotsAdopt f).rbp.robots[k.val].state = p.rbp.robots[k.val].state) ∧
    (∀ k : Fin 6, (p.robotsAdopt f).rbp.robots[k.val].pins = p.rbp.robots[k.val].pins) := by
    unfold Part.robotsAdopt; dsimp only; simp [fold_mtu, fold_cvt, fold_trl, fold_ctu, fold_rej, fold_spm, fold_sac,
    fold_odk, fold_syncLine, fold_lrst, fold_rpu_phase, fold_rpu_lineResetBusy, fold_rpu_threshold,
    fold_rpu_busData, fold_rpu_fault, fold_rbp_state, fold_rbp_pins]

@[simp] theorem Part.robotsLineReset_frame (p : Part) :
    p.robotsLineReset.mtu = p.mtu ∧ p.robotsLineReset.rej = p.rej ∧ p.robotsLineReset.syncLine = p.syncLine ∧
    p.robotsLineReset.lrst = p.lrst ∧ p.robotsLineReset.freeCount = p.freeCount ∧
    p.robotsLineReset.cvt.position = p.cvt.position ∧ p.robotsLineReset.cvt.highWater = p.cvt.highWater ∧
    p.robotsLineReset.cvt.depth = p.cvt.depth ∧ p.robotsLineReset.cvt.phase = p.cvt.phase ∧
    p.robotsLineReset.cvt.profile = p.cvt.profile ∧ p.robotsLineReset.cvt.tracker = p.cvt.tracker ∧
    p.robotsLineReset.cvt.adoption = p.cvt.adoption ∧ p.robotsLineReset.odk.queue = p.odk.queue ∧
    p.robotsLineReset.odk.takeIdentity = p.odk.takeIdentity ∧ p.robotsLineReset.rpu.phase = p.rpu.phase ∧
    p.robotsLineReset.rpu.lineResetBusy = p.rpu.lineResetBusy ∧ p.robotsLineReset.rpu.threshold = p.rpu.threshold ∧
    p.robotsLineReset.rpu.busData = p.rpu.busData ∧ p.robotsLineReset.rpu.fault = p.rpu.fault ∧
    p.robotsLineReset.spm.hallHold = p.spm.hallHold ∧ p.robotsLineReset.trl.nextSeq = p.trl.nextSeq ∧
    (∀ k : Fin 16, p.robotsLineReset.spm.ports[k.val].role = p.spm.ports[k.val].role) ∧
    (∀ k : Fin 16, p.robotsLineReset.spm.ports[k.val].link = p.spm.ports[k.val].link) ∧
    (∀ k : Fin 8, p.robotsLineReset.sac.zones[k.val].door = p.sac.zones[k.val].door) := by
    unfold Part.robotsLineReset; dsimp only; simp [fold_mtu, fold_rej, fold_syncLine, fold_lrst, fold_freeCount,
    fold_cvt_position, fold_cvt_highWater, fold_cvt_depth, fold_cvt_phase, fold_cvt_profile, fold_cvt_tracker,
    fold_cvt_adoption, fold_odk_queue, fold_odk_takeIdentity, fold_rpu_phase, fold_rpu_lineResetBusy,
    fold_rpu_threshold, fold_rpu_busData, fold_rpu_fault, fold_spm_hallHold, fold_trl_nextSeq, fold_spm_role,
    fold_spm_link, fold_sac_door]

end Sys2Proof.Machine
end

