-- ==== Sys2Proof/Laws/FrameZones.lean ====
section
/-! SUPPORT. What each operation of the Service Access Controller (Machine/Zones.lean) leaves unchanged: one
theorem per operation. -/

namespace Sys2Proof.Machine

@[simp] theorem Part.haltMembers_frame (p : Part) (z : Fin 8) :
    (p.haltMembers z).mtu = p.mtu ∧ (p.haltMembers z).cvt = p.cvt ∧ (p.haltMembers z).rej = p.rej ∧
    (p.haltMembers z).syncLine = p.syncLine ∧ (p.haltMembers z).lrst = p.lrst ∧
    (p.haltMembers z).odk.queue = p.odk.queue ∧ (p.haltMembers z).odk.takeIdentity = p.odk.takeIdentity ∧
    (p.haltMembers z).rpu.phase = p.rpu.phase ∧ (p.haltMembers z).rpu.lineResetBusy = p.rpu.lineResetBusy ∧
    (p.haltMembers z).rpu.threshold = p.rpu.threshold ∧ (p.haltMembers z).rpu.busData = p.rpu.busData ∧
    (p.haltMembers z).rpu.fault = p.rpu.fault ∧ (p.haltMembers z).spm.hallHold = p.spm.hallHold ∧
    (p.haltMembers z).trl.nextSeq = p.trl.nextSeq ∧
    (∀ k : Fin 6, (p.haltMembers z).rbp.robots[k.val].pins = p.rbp.robots[k.val].pins) ∧
    (∀ k : Fin 16, (p.haltMembers z).spm.ports[k.val].role = p.spm.ports[k.val].role) ∧
    (∀ k : Fin 16, (p.haltMembers z).spm.ports[k.val].link = p.spm.ports[k.val].link) ∧
    (∀ k : Fin 8, (p.haltMembers z).sac.zones[k.val].door = p.sac.zones[k.val].door) := by
    unfold Part.haltMembers; dsimp only; simp [fold_mtu, fold_cvt, fold_rej, fold_syncLine, fold_lrst,
    fold_odk_queue, fold_odk_takeIdentity, fold_rpu_phase, fold_rpu_lineResetBusy, fold_rpu_threshold,
    fold_rpu_busData, fold_rpu_fault, fold_spm_hallHold, fold_trl_nextSeq, fold_rbp_pins, fold_spm_role,
    fold_spm_link, fold_sac_door]

@[simp] theorem Part.grantHold_frame (p : Part) (z : Fin 8) (level : AccessLevel) (origin : ZoneOrigin) (length : Nat)
    (badge : Half) :
    (p.grantHold z level origin length badge).mtu = p.mtu ∧ (p.grantHold z level origin length badge).cvt = p.cvt ∧
    (p.grantHold z level origin length badge).rej = p.rej ∧
    (p.grantHold z level origin length badge).syncLine = p.syncLine ∧
    (p.grantHold z level origin length badge).lrst = p.lrst ∧
    (p.grantHold z level origin length badge).odk.queue = p.odk.queue ∧
    (p.grantHold z level origin length badge).odk.takeIdentity = p.odk.takeIdentity ∧
    (p.grantHold z level origin length badge).rpu.phase = p.rpu.phase ∧
    (p.grantHold z level origin length badge).rpu.lineResetBusy = p.rpu.lineResetBusy ∧
    (p.grantHold z level origin length badge).rpu.threshold = p.rpu.threshold ∧
    (p.grantHold z level origin length badge).rpu.busData = p.rpu.busData ∧
    (p.grantHold z level origin length badge).rpu.fault = p.rpu.fault ∧
    (p.grantHold z level origin length badge).spm.hallHold = p.spm.hallHold ∧
    (p.grantHold z level origin length badge).trl.nextSeq = p.trl.nextSeq ∧
    (∀ k : Fin 6, (p.grantHold z level origin length badge).rbp.robots[k.val].pins = p.rbp.robots[k.val].pins) ∧
    (∀ k : Fin 16, (p.grantHold z level origin length badge).spm.ports[k.val].role = p.spm.ports[k.val].role) ∧
    (∀ k : Fin 16, (p.grantHold z level origin length badge).spm.ports[k.val].link = p.spm.ports[k.val].link) ∧
    (∀ k : Fin 8, (p.grantHold z level origin length badge).sac.zones[k.val].door = p.sac.zones[k.val].door) := by
  unfold Part.grantHold; dsimp only; (repeat' split) <;> simp

@[simp] theorem Part.grant_frame (p : Part) (z : Fin 8) (level : AccessLevel) (origin : ZoneOrigin) (length : Nat)
    (badge : Half) (result : Result) :
    (p.grant z level origin length badge result).mtu = p.mtu ∧
    (p.grant z level origin length badge result).cvt = p.cvt ∧
    (p.grant z level origin length badge result).rej = p.rej ∧
    (p.grant z level origin length badge result).syncLine = p.syncLine ∧
    (p.grant z level origin length badge result).lrst = p.lrst ∧
    (p.grant z level origin length badge result).odk.queue = p.odk.queue ∧
    (p.grant z level origin length badge result).odk.takeIdentity = p.odk.takeIdentity ∧
    (p.grant z level origin length badge result).rpu.phase = p.rpu.phase ∧
    (p.grant z level origin length badge result).rpu.lineResetBusy = p.rpu.lineResetBusy ∧
    (p.grant z level origin length badge result).rpu.threshold = p.rpu.threshold ∧
    (p.grant z level origin length badge result).rpu.busData = p.rpu.busData ∧
    (p.grant z level origin length badge result).rpu.fault = p.rpu.fault ∧
    (p.grant z level origin length badge result).spm.hallHold = p.spm.hallHold ∧
    (p.grant z level origin length badge result).trl.nextSeq = p.trl.nextSeq ∧
    (∀ k : Fin 6, (p.grant z level origin length badge result).rbp.robots[k.val].pins = p.rbp.robots[k.val].pins) ∧
    (∀ k : Fin 16, (p.grant z level origin length badge result).spm.ports[k.val].role = p.spm.ports[k.val].role) ∧
    (∀ k : Fin 16, (p.grant z level origin length badge result).spm.ports[k.val].link = p.spm.ports[k.val].link) ∧
    (∀ k : Fin 8, (p.grant z level origin length badge result).sac.zones[k.val].door = p.sac.zones[k.val].door) := by
  unfold Part.grant; simp

@[simp] theorem Part.enterHalting_frame (p : Part) (z : Fin 8) (q : ZoneRequest) (ref : Option OrderRef) :
    (p.enterHalting z q ref).mtu = p.mtu ∧ (p.enterHalting z q ref).cvt = p.cvt ∧
    (p.enterHalting z q ref).rej = p.rej ∧ (p.enterHalting z q ref).syncLine = p.syncLine ∧
    (p.enterHalting z q ref).lrst = p.lrst ∧ (p.enterHalting z q ref).odk.queue = p.odk.queue ∧
    (p.enterHalting z q ref).odk.takeIdentity = p.odk.takeIdentity ∧
    (p.enterHalting z q ref).rpu.phase = p.rpu.phase ∧
    (p.enterHalting z q ref).rpu.lineResetBusy = p.rpu.lineResetBusy ∧
    (p.enterHalting z q ref).rpu.threshold = p.rpu.threshold ∧ (p.enterHalting z q ref).rpu.busData = p.rpu.busData ∧
    (p.enterHalting z q ref).rpu.fault = p.rpu.fault ∧ (p.enterHalting z q ref).spm.hallHold = p.spm.hallHold ∧
    (p.enterHalting z q ref).trl.nextSeq = p.trl.nextSeq ∧
    (∀ k : Fin 6, (p.enterHalting z q ref).rbp.robots[k.val].pins = p.rbp.robots[k.val].pins) ∧
    (∀ k : Fin 16, (p.enterHalting z q ref).spm.ports[k.val].role = p.spm.ports[k.val].role) ∧
    (∀ k : Fin 16, (p.enterHalting z q ref).spm.ports[k.val].link = p.spm.ports[k.val].link) ∧
    (∀ k : Fin 8, (p.enterHalting z q ref).sac.zones[k.val].door = p.sac.zones[k.val].door) := by
  unfold Part.enterHalting; dsimp only; (repeat' split) <;> simp

@[simp] theorem Part.refuseAccess_frame (p : Part) (ref : OrderRef) (z : Fin 8) (badge : Half) (result : Result) :
    (p.refuseAccess ref z badge result).mtu = p.mtu ∧ (p.refuseAccess ref z badge result).cvt = p.cvt ∧
    (p.refuseAccess ref z badge result).trl = p.trl ∧ (p.refuseAccess ref z badge result).rbp = p.rbp ∧
    (p.refuseAccess ref z badge result).ctu = p.ctu ∧ (p.refuseAccess ref z badge result).rej = p.rej ∧
    (p.refuseAccess ref z badge result).spm = p.spm ∧ (p.refuseAccess ref z badge result).sac = p.sac ∧
    (p.refuseAccess ref z badge result).syncLine = p.syncLine ∧ (p.refuseAccess ref z badge result).lrst = p.lrst ∧
    (p.refuseAccess ref z badge result).freeCount = p.freeCount ∧
    (p.refuseAccess ref z badge result).odk.queue = p.odk.queue ∧
    (p.refuseAccess ref z badge result).odk.takeIdentity = p.odk.takeIdentity ∧
    (p.refuseAccess ref z badge result).rpu.phase = p.rpu.phase ∧
    (p.refuseAccess ref z badge result).rpu.lineResetBusy = p.rpu.lineResetBusy ∧
    (p.refuseAccess ref z badge result).rpu.threshold = p.rpu.threshold ∧
    (p.refuseAccess ref z badge result).rpu.busData = p.rpu.busData ∧
    (p.refuseAccess ref z badge result).rpu.fault = p.rpu.fault := by
  unfold Part.refuseAccess; simp

@[simp] theorem Part.refuseAbsentZone_frame (p : Part) (ref : OrderRef) (zone : Byte) (badge : Half) :
    (p.refuseAbsentZone ref zone badge).mtu = p.mtu ∧ (p.refuseAbsentZone ref zone badge).cvt = p.cvt ∧
    (p.refuseAbsentZone ref zone badge).trl = p.trl ∧ (p.refuseAbsentZone ref zone badge).rbp = p.rbp ∧
    (p.refuseAbsentZone ref zone badge).ctu = p.ctu ∧ (p.refuseAbsentZone ref zone badge).rej = p.rej ∧
    (p.refuseAbsentZone ref zone badge).spm = p.spm ∧ (p.refuseAbsentZone ref zone badge).sac = p.sac ∧
    (p.refuseAbsentZone ref zone badge).syncLine = p.syncLine ∧ (p.refuseAbsentZone ref zone badge).lrst = p.lrst ∧
    (p.refuseAbsentZone ref zone badge).odk.queue = p.odk.queue ∧
    (p.refuseAbsentZone ref zone badge).odk.takeIdentity = p.odk.takeIdentity ∧
    (p.refuseAbsentZone ref zone badge).rpu.phase = p.rpu.phase ∧
    (p.refuseAbsentZone ref zone badge).rpu.lineResetBusy = p.rpu.lineResetBusy ∧
    (p.refuseAbsentZone ref zone badge).rpu.threshold = p.rpu.threshold ∧
    (p.refuseAbsentZone ref zone badge).rpu.busData = p.rpu.busData ∧
    (p.refuseAbsentZone ref zone badge).rpu.fault = p.rpu.fault := by
  unfold Part.refuseAbsentZone; simp

@[simp] theorem Part.accessRequestOrder_frame (p : Part) (ref : OrderRef) (zone : Byte) (level : Byte) (length : Half)
    (badge : Half) :
    (p.accessRequestOrder ref zone level length badge).mtu = p.mtu ∧
    (p.accessRequestOrder ref zone level length badge).cvt = p.cvt ∧
    (p.accessRequestOrder ref zone level length badge).rej = p.rej ∧
    (p.accessRequestOrder ref zone level length badge).syncLine = p.syncLine ∧
    (p.accessRequestOrder ref zone level length badge).lrst = p.lrst ∧
    (p.accessRequestOrder ref zone level length badge).odk.queue = p.odk.queue ∧
    (p.accessRequestOrder ref zone level length badge).odk.takeIdentity = p.odk.takeIdentity ∧
    (p.accessRequestOrder ref zone level length badge).rpu.phase = p.rpu.phase ∧
    (p.accessRequestOrder ref zone level length badge).rpu.lineResetBusy = p.rpu.lineResetBusy ∧
    (p.accessRequestOrder ref zone level length badge).rpu.threshold = p.rpu.threshold ∧
    (p.accessRequestOrder ref zone level length badge).rpu.busData = p.rpu.busData ∧
    (p.accessRequestOrder ref zone level length badge).rpu.fault = p.rpu.fault ∧
    (p.accessRequestOrder ref zone level length badge).spm.hallHold = p.spm.hallHold ∧
    (p.accessRequestOrder ref zone level length badge).trl.nextSeq = p.trl.nextSeq ∧
    (∀ k : Fin 6, (p.accessRequestOrder ref zone level length badge).rbp.robots[k.val].pins = p.rbp.robots[k.val].pins) ∧
    (∀ k : Fin 16, (p.accessRequestOrder ref zone level length badge).spm.ports[k.val].role = p.spm.ports[k.val].role) ∧
    (∀ k : Fin 16, (p.accessRequestOrder ref zone level length badge).spm.ports[k.val].link = p.spm.ports[k.val].link) ∧
    (∀ k : Fin 8, (p.accessRequestOrder ref zone level length badge).sac.zones[k.val].door = p.sac.zones[k.val].door) := by
  unfold Part.accessRequestOrder; dsimp only; (repeat' split) <;> simp

@[simp] theorem Part.endAccess_frame (p : Part) (z : Fin 8) :
    (p.endAccess z).mtu = p.mtu ∧ (p.endAccess z).cvt = p.cvt ∧ (p.endAccess z).rbp = p.rbp ∧
    (p.endAccess z).rej = p.rej ∧ (p.endAccess z).odk = p.odk ∧ (p.endAccess z).syncLine = p.syncLine ∧
    (p.endAccess z).lrst = p.lrst ∧ (p.endAccess z).freeCount = p.freeCount ∧
    (p.endAccess z).rpu.phase = p.rpu.phase ∧ (p.endAccess z).rpu.lineResetBusy = p.rpu.lineResetBusy ∧
    (p.endAccess z).rpu.threshold = p.rpu.threshold ∧ (p.endAccess z).rpu.busData = p.rpu.busData ∧
    (p.endAccess z).rpu.fault = p.rpu.fault ∧ (p.endAccess z).spm.hallHold = p.spm.hallHold ∧
    (p.endAccess z).trl.nextSeq = p.trl.nextSeq ∧
    (∀ k : Fin 16, (p.endAccess z).spm.ports[k.val].role = p.spm.ports[k.val].role) ∧
    (∀ k : Fin 16, (p.endAccess z).spm.ports[k.val].link = p.spm.ports[k.val].link) ∧
    (∀ k : Fin 8, (p.endAccess z).sac.zones[k.val].door = p.sac.zones[k.val].door) := by
  unfold Part.endAccess; dsimp only; (repeat' split) <;> simp

@[simp] theorem Part.accessEndOrder_frame (p : Part) (ref : OrderRef) (zone : Byte) :
    (p.accessEndOrder ref zone).mtu = p.mtu ∧ (p.accessEndOrder ref zone).cvt = p.cvt ∧
    (p.accessEndOrder ref zone).rbp = p.rbp ∧ (p.accessEndOrder ref zone).rej = p.rej ∧
    (p.accessEndOrder ref zone).syncLine = p.syncLine ∧ (p.accessEndOrder ref zone).lrst = p.lrst ∧
    (p.accessEndOrder ref zone).freeCount = p.freeCount ∧ (p.accessEndOrder ref zone).odk.queue = p.odk.queue ∧
    (p.accessEndOrder ref zone).odk.takeIdentity = p.odk.takeIdentity ∧
    (p.accessEndOrder ref zone).rpu.phase = p.rpu.phase ∧
    (p.accessEndOrder ref zone).rpu.lineResetBusy = p.rpu.lineResetBusy ∧
    (p.accessEndOrder ref zone).rpu.threshold = p.rpu.threshold ∧
    (p.accessEndOrder ref zone).rpu.busData = p.rpu.busData ∧ (p.accessEndOrder ref zone).rpu.fault = p.rpu.fault ∧
    (p.accessEndOrder ref zone).spm.hallHold = p.spm.hallHold ∧
    (p.accessEndOrder ref zone).trl.nextSeq = p.trl.nextSeq ∧
    (∀ k : Fin 16, (p.accessEndOrder ref zone).spm.ports[k.val].role = p.spm.ports[k.val].role) ∧
    (∀ k : Fin 16, (p.accessEndOrder ref zone).spm.ports[k.val].link = p.spm.ports[k.val].link) ∧
    (∀ k : Fin 8, (p.accessEndOrder ref zone).sac.zones[k.val].door = p.sac.zones[k.val].door) := by
  unfold Part.accessEndOrder; (repeat' split) <;> simp

@[simp] theorem Part.extended_frame (p : Part) (ref : OrderRef) (z : Fin 8) (clamped : Bool) :
    (p.extended ref z clamped).mtu = p.mtu ∧ (p.extended ref z clamped).cvt = p.cvt ∧
    (p.extended ref z clamped).trl = p.trl ∧ (p.extended ref z clamped).rbp = p.rbp ∧
    (p.extended ref z clamped).ctu = p.ctu ∧ (p.extended ref z clamped).rej = p.rej ∧
    (p.extended ref z clamped).spm = p.spm ∧ (p.extended ref z clamped).syncLine = p.syncLine ∧
    (p.extended ref z clamped).lrst = p.lrst ∧ (p.extended ref z clamped).freeCount = p.freeCount ∧
    (p.extended ref z clamped).odk.queue = p.odk.queue ∧
    (p.extended ref z clamped).odk.takeIdentity = p.odk.takeIdentity ∧
    (p.extended ref z clamped).rpu.phase = p.rpu.phase ∧
    (p.extended ref z clamped).rpu.lineResetBusy = p.rpu.lineResetBusy ∧
    (p.extended ref z clamped).rpu.threshold = p.rpu.threshold ∧
    (p.extended ref z clamped).rpu.busData = p.rpu.busData ∧ (p.extended ref z clamped).rpu.fault = p.rpu.fault ∧
    (∀ k : Fin 8, (p.extended ref z clamped).sac.zones[k.val].state = p.sac.zones[k.val].state) ∧
    (∀ k : Fin 8, (p.extended ref z clamped).sac.zones[k.val].level = p.sac.zones[k.val].level) ∧
    (∀ k : Fin 8, (p.extended ref z clamped).sac.zones[k.val].origin = p.sac.zones[k.val].origin) ∧
    (∀ k : Fin 8, (p.extended ref z clamped).sac.zones[k.val].door = p.sac.zones[k.val].door) := by
  unfold Part.extended; simp

@[simp] theorem Part.accessExtendOrder_frame (p : Part) (ref : OrderRef) (zone : Byte) (length : Half) :
    (p.accessExtendOrder ref zone length).mtu = p.mtu ∧ (p.accessExtendOrder ref zone length).cvt = p.cvt ∧
    (p.accessExtendOrder ref zone length).trl = p.trl ∧ (p.accessExtendOrder ref zone length).rbp = p.rbp ∧
    (p.accessExtendOrder ref zone length).ctu = p.ctu ∧ (p.accessExtendOrder ref zone length).rej = p.rej ∧
    (p.accessExtendOrder ref zone length).spm = p.spm ∧ (p.accessExtendOrder ref zone length).syncLine = p.syncLine ∧
    (p.accessExtendOrder ref zone length).lrst = p.lrst ∧
    (p.accessExtendOrder ref zone length).freeCount = p.freeCount ∧
    (p.accessExtendOrder ref zone length).odk.queue = p.odk.queue ∧
    (p.accessExtendOrder ref zone length).odk.takeIdentity = p.odk.takeIdentity ∧
    (p.accessExtendOrder ref zone length).rpu.phase = p.rpu.phase ∧
    (p.accessExtendOrder ref zone length).rpu.lineResetBusy = p.rpu.lineResetBusy ∧
    (p.accessExtendOrder ref zone length).rpu.threshold = p.rpu.threshold ∧
    (p.accessExtendOrder ref zone length).rpu.busData = p.rpu.busData ∧
    (p.accessExtendOrder ref zone length).rpu.fault = p.rpu.fault ∧
    (∀ k : Fin 8, (p.accessExtendOrder ref zone length).sac.zones[k.val].level = p.sac.zones[k.val].level) ∧
    (∀ k : Fin 8, (p.accessExtendOrder ref zone length).sac.zones[k.val].origin = p.sac.zones[k.val].origin) ∧
    (∀ k : Fin 8, (p.accessExtendOrder ref zone length).sac.zones[k.val].door = p.sac.zones[k.val].door) := by
  unfold Part.accessExtendOrder; dsimp only; (repeat' split) <;> simp

@[simp] theorem Part.zoneExpired_frame (p : Part) (z : Fin 8) :
    (p.zoneExpired z).mtu = p.mtu ∧ (p.zoneExpired z).cvt = p.cvt ∧ (p.zoneExpired z).rbp = p.rbp ∧
    (p.zoneExpired z).rej = p.rej ∧ (p.zoneExpired z).syncLine = p.syncLine ∧ (p.zoneExpired z).lrst = p.lrst ∧
    (p.zoneExpired z).freeCount = p.freeCount ∧ (p.zoneExpired z).odk.queue = p.odk.queue ∧
    (p.zoneExpired z).odk.takeIdentity = p.odk.takeIdentity ∧ (p.zoneExpired z).rpu.phase = p.rpu.phase ∧
    (p.zoneExpired z).rpu.lineResetBusy = p.rpu.lineResetBusy ∧ (p.zoneExpired z).rpu.threshold = p.rpu.threshold ∧
    (p.zoneExpired z).rpu.busData = p.rpu.busData ∧ (p.zoneExpired z).spm.hallHold = p.spm.hallHold ∧
    (p.zoneExpired z).trl.nextSeq = p.trl.nextSeq ∧
    (∀ k : Fin 16, (p.zoneExpired z).spm.ports[k.val].role = p.spm.ports[k.val].role) ∧
    (∀ k : Fin 16, (p.zoneExpired z).spm.ports[k.val].link = p.spm.ports[k.val].link) ∧
    (∀ k : Fin 8, (p.zoneExpired z).sac.zones[k.val].door = p.sac.zones[k.val].door) := by
  unfold Part.zoneExpired; dsimp only; (repeat' split) <;> simp

@[simp] theorem Part.accessExpiry_frame (p : Part) (z : Fin 8) :
    (p.accessExpiry z).mtu = p.mtu ∧ (p.accessExpiry z).cvt = p.cvt ∧ (p.accessExpiry z).rbp = p.rbp ∧
    (p.accessExpiry z).rej = p.rej ∧ (p.accessExpiry z).syncLine = p.syncLine ∧ (p.accessExpiry z).lrst = p.lrst ∧
    (p.accessExpiry z).freeCount = p.freeCount ∧ (p.accessExpiry z).odk.queue = p.odk.queue ∧
    (p.accessExpiry z).odk.takeIdentity = p.odk.takeIdentity ∧ (p.accessExpiry z).rpu.phase = p.rpu.phase ∧
    (p.accessExpiry z).rpu.lineResetBusy = p.rpu.lineResetBusy ∧ (p.accessExpiry z).rpu.threshold = p.rpu.threshold ∧
    (p.accessExpiry z).rpu.busData = p.rpu.busData ∧ (p.accessExpiry z).spm.hallHold = p.spm.hallHold ∧
    (p.accessExpiry z).trl.nextSeq = p.trl.nextSeq ∧
    (∀ k : Fin 16, (p.accessExpiry z).spm.ports[k.val].role = p.spm.ports[k.val].role) ∧
    (∀ k : Fin 16, (p.accessExpiry z).spm.ports[k.val].link = p.spm.ports[k.val].link) ∧
    (∀ k : Fin 8, (p.accessExpiry z).sac.zones[k.val].door = p.sac.zones[k.val].door) := by
  unfold Part.accessExpiry; (repeat' split) <;> simp

@[simp] theorem Part.intrusion_frame (p : Part) (z : Fin 8) :
    (p.intrusion z).mtu = p.mtu ∧ (p.intrusion z).cvt = p.cvt ∧ (p.intrusion z).rej = p.rej ∧
    (p.intrusion z).syncLine = p.syncLine ∧ (p.intrusion z).lrst = p.lrst ∧ (p.intrusion z).odk.queue = p.odk.queue ∧
    (p.intrusion z).odk.takeIdentity = p.odk.takeIdentity ∧ (p.intrusion z).rpu.phase = p.rpu.phase ∧
    (p.intrusion z).rpu.lineResetBusy = p.rpu.lineResetBusy ∧ (p.intrusion z).rpu.threshold = p.rpu.threshold ∧
    (p.intrusion z).rpu.busData = p.rpu.busData ∧ (p.intrusion z).spm.hallHold = p.spm.hallHold ∧
    (p.intrusion z).trl.nextSeq = p.trl.nextSeq ∧
    (∀ k : Fin 6, (p.intrusion z).rbp.robots[k.val].pins = p.rbp.robots[k.val].pins) ∧
    (∀ k : Fin 16, (p.intrusion z).spm.ports[k.val].role = p.spm.ports[k.val].role) ∧
    (∀ k : Fin 16, (p.intrusion z).spm.ports[k.val].link = p.spm.ports[k.val].link) ∧
    (∀ k : Fin 8, (p.intrusion z).sac.zones[k.val].door = p.sac.zones[k.val].door) := by
  unfold Part.intrusion; dsimp only; (repeat' split) <;> simp

@[simp] theorem Part.doorOpening_frame (p : Part) (z : Fin 8) :
    (p.doorOpening z).mtu = p.mtu ∧ (p.doorOpening z).cvt = p.cvt ∧ (p.doorOpening z).rej = p.rej ∧
    (p.doorOpening z).syncLine = p.syncLine ∧ (p.doorOpening z).lrst = p.lrst ∧
    (p.doorOpening z).odk.queue = p.odk.queue ∧ (p.doorOpening z).odk.takeIdentity = p.odk.takeIdentity ∧
    (p.doorOpening z).rpu.phase = p.rpu.phase ∧ (p.doorOpening z).rpu.lineResetBusy = p.rpu.lineResetBusy ∧
    (p.doorOpening z).rpu.threshold = p.rpu.threshold ∧ (p.doorOpening z).rpu.busData = p.rpu.busData ∧
    (p.doorOpening z).spm.hallHold = p.spm.hallHold ∧ (p.doorOpening z).trl.nextSeq = p.trl.nextSeq ∧
    (∀ k : Fin 6, (p.doorOpening z).rbp.robots[k.val].pins = p.rbp.robots[k.val].pins) ∧
    (∀ k : Fin 16, (p.doorOpening z).spm.ports[k.val].role = p.spm.ports[k.val].role) ∧
    (∀ k : Fin 16, (p.doorOpening z).spm.ports[k.val].link = p.spm.ports[k.val].link) ∧
    (∀ k : Fin 8, (p.doorOpening z).sac.zones[k.val].door = p.sac.zones[k.val].door) := by
  unfold Part.doorOpening; (repeat' split) <;> simp

@[simp] theorem Part.doorClosing_frame (p : Part) (z : Fin 8) :
    (p.doorClosing z).mtu = p.mtu ∧ (p.doorClosing z).cvt = p.cvt ∧ (p.doorClosing z).rbp = p.rbp ∧
    (p.doorClosing z).rej = p.rej ∧ (p.doorClosing z).odk = p.odk ∧ (p.doorClosing z).syncLine = p.syncLine ∧
    (p.doorClosing z).lrst = p.lrst ∧ (p.doorClosing z).freeCount = p.freeCount ∧
    (p.doorClosing z).rpu.phase = p.rpu.phase ∧ (p.doorClosing z).rpu.lineResetBusy = p.rpu.lineResetBusy ∧
    (p.doorClosing z).rpu.threshold = p.rpu.threshold ∧ (p.doorClosing z).rpu.busData = p.rpu.busData ∧
    (p.doorClosing z).rpu.fault = p.rpu.fault ∧ (p.doorClosing z).spm.hallHold = p.spm.hallHold ∧
    (p.doorClosing z).trl.nextSeq = p.trl.nextSeq ∧
    (∀ k : Fin 16, (p.doorClosing z).spm.ports[k.val].role = p.spm.ports[k.val].role) ∧
    (∀ k : Fin 16, (p.doorClosing z).spm.ports[k.val].link = p.spm.ports[k.val].link) ∧
    (∀ k : Fin 8, (p.doorClosing z).sac.zones[k.val].door = p.sac.zones[k.val].door) := by
  unfold Part.doorClosing; (repeat' split) <;> simp

@[simp] theorem Part.doorChange_frame (p : Part) (z : Fin 8) (level : Bool) :
    (p.doorChange z level).mtu = p.mtu ∧ (p.doorChange z level).cvt = p.cvt ∧ (p.doorChange z level).trl = p.trl ∧
    (p.doorChange z level).rbp = p.rbp ∧ (p.doorChange z level).ctu = p.ctu ∧ (p.doorChange z level).rej = p.rej ∧
    (p.doorChange z level).spm = p.spm ∧ (p.doorChange z level).odk = p.odk ∧ (p.doorChange z level).rpu = p.rpu ∧
    (p.doorChange z level).syncLine = p.syncLine ∧ (p.doorChange z level).lrst = p.lrst ∧
    (p.doorChange z level).mem = p.mem ∧ (p.doorChange z level).freeCount = p.freeCount ∧
    (∀ k : Fin 8, (p.doorChange z level).sac.zones[k.val].state = p.sac.zones[k.val].state) ∧
    (∀ k : Fin 8, (p.doorChange z level).sac.zones[k.val].level = p.sac.zones[k.val].level) ∧
    (∀ k : Fin 8, (p.doorChange z level).sac.zones[k.val].origin = p.sac.zones[k.val].origin) ∧
    (∀ k : Fin 8, (p.doorChange z level).sac.zones[k.val].door = p.sac.zones[k.val].door) := by
  unfold Part.doorChange; (repeat' split) <;> simp

@[simp] theorem Part.reqChange_frame (p : Part) (z : Fin 8) (level : Bool) :
    (p.reqChange z level).mtu = p.mtu ∧ (p.reqChange z level).cvt = p.cvt ∧ (p.reqChange z level).trl = p.trl ∧
    (p.reqChange z level).rbp = p.rbp ∧ (p.reqChange z level).ctu = p.ctu ∧ (p.reqChange z level).rej = p.rej ∧
    (p.reqChange z level).spm = p.spm ∧ (p.reqChange z level).odk = p.odk ∧ (p.reqChange z level).rpu = p.rpu ∧
    (p.reqChange z level).syncLine = p.syncLine ∧ (p.reqChange z level).lrst = p.lrst ∧
    (p.reqChange z level).mem = p.mem ∧ (p.reqChange z level).freeCount = p.freeCount ∧
    (∀ k : Fin 8, (p.reqChange z level).sac.zones[k.val].state = p.sac.zones[k.val].state) ∧
    (∀ k : Fin 8, (p.reqChange z level).sac.zones[k.val].level = p.sac.zones[k.val].level) ∧
    (∀ k : Fin 8, (p.reqChange z level).sac.zones[k.val].origin = p.sac.zones[k.val].origin) ∧
    (∀ k : Fin 8, (p.reqChange z level).sac.zones[k.val].door = p.sac.zones[k.val].door) := by
  unfold Part.reqChange; (repeat' split) <;> simp

@[simp] theorem Part.doorDebounce_frame (p : Part) (z : Fin 8) :
    (p.doorDebounce z).mtu = p.mtu ∧ (p.doorDebounce z).cvt = p.cvt ∧ (p.doorDebounce z).rej = p.rej ∧
    (p.doorDebounce z).syncLine = p.syncLine ∧ (p.doorDebounce z).lrst = p.lrst ∧
    (p.doorDebounce z).odk.queue = p.odk.queue ∧ (p.doorDebounce z).odk.takeIdentity = p.odk.takeIdentity ∧
    (p.doorDebounce z).rpu.phase = p.rpu.phase ∧ (p.doorDebounce z).rpu.lineResetBusy = p.rpu.lineResetBusy ∧
    (p.doorDebounce z).rpu.threshold = p.rpu.threshold ∧ (p.doorDebounce z).rpu.busData = p.rpu.busData ∧
    (p.doorDebounce z).spm.hallHold = p.spm.hallHold ∧ (p.doorDebounce z).trl.nextSeq = p.trl.nextSeq ∧
    (∀ k : Fin 6, (p.doorDebounce z).rbp.robots[k.val].pins = p.rbp.robots[k.val].pins) ∧
    (∀ k : Fin 16, (p.doorDebounce z).spm.ports[k.val].role = p.spm.ports[k.val].role) ∧
    (∀ k : Fin 16, (p.doorDebounce z).spm.ports[k.val].link = p.spm.ports[k.val].link) := by
  unfold Part.doorDebounce; dsimp only; (repeat' split) <;> simp

@[simp] theorem Part.press_frame (p : Part) (z : Fin 8) :
    (p.press z).mtu = p.mtu ∧ (p.press z).cvt = p.cvt ∧ (p.press z).rej = p.rej ∧ (p.press z).syncLine = p.syncLine ∧
    (p.press z).lrst = p.lrst ∧ (p.press z).odk.queue = p.odk.queue ∧
    (p.press z).odk.takeIdentity = p.odk.takeIdentity ∧ (p.press z).rpu.phase = p.rpu.phase ∧
    (p.press z).rpu.lineResetBusy = p.rpu.lineResetBusy ∧ (p.press z).rpu.threshold = p.rpu.threshold ∧
    (p.press z).rpu.busData = p.rpu.busData ∧ (p.press z).rpu.fault = p.rpu.fault ∧
    (p.press z).spm.hallHold = p.spm.hallHold ∧ (p.press z).trl.nextSeq = p.trl.nextSeq ∧
    (∀ k : Fin 6, (p.press z).rbp.robots[k.val].pins = p.rbp.robots[k.val].pins) ∧
    (∀ k : Fin 16, (p.press z).spm.ports[k.val].role = p.spm.ports[k.val].role) ∧
    (∀ k : Fin 16, (p.press z).spm.ports[k.val].link = p.spm.ports[k.val].link) ∧
    (∀ k : Fin 8, (p.press z).sac.zones[k.val].door = p.sac.zones[k.val].door) := by
  unfold Part.press; dsimp only; (repeat' split) <;> simp

@[simp] theorem Part.buttonDebounce_frame (p : Part) (z : Fin 8) :
    (p.buttonDebounce z).mtu = p.mtu ∧ (p.buttonDebounce z).cvt = p.cvt ∧ (p.buttonDebounce z).rej = p.rej ∧
    (p.buttonDebounce z).syncLine = p.syncLine ∧ (p.buttonDebounce z).lrst = p.lrst ∧
    (p.buttonDebounce z).odk.queue = p.odk.queue ∧ (p.buttonDebounce z).odk.takeIdentity = p.odk.takeIdentity ∧
    (p.buttonDebounce z).rpu.phase = p.rpu.phase ∧ (p.buttonDebounce z).rpu.lineResetBusy = p.rpu.lineResetBusy ∧
    (p.buttonDebounce z).rpu.threshold = p.rpu.threshold ∧ (p.buttonDebounce z).rpu.busData = p.rpu.busData ∧
    (p.buttonDebounce z).rpu.fault = p.rpu.fault ∧ (p.buttonDebounce z).spm.hallHold = p.spm.hallHold ∧
    (p.buttonDebounce z).trl.nextSeq = p.trl.nextSeq ∧
    (∀ k : Fin 6, (p.buttonDebounce z).rbp.robots[k.val].pins = p.rbp.robots[k.val].pins) ∧
    (∀ k : Fin 16, (p.buttonDebounce z).spm.ports[k.val].role = p.spm.ports[k.val].role) ∧
    (∀ k : Fin 16, (p.buttonDebounce z).spm.ports[k.val].link = p.spm.ports[k.val].link) ∧
    (∀ k : Fin 8, (p.buttonDebounce z).sac.zones[k.val].door = p.sac.zones[k.val].door) := by
  unfold Part.buttonDebounce; dsimp only; (repeat' split) <;> simp

@[simp] theorem Part.resumeRobot_frame (p : Part) (z : Fin 8) (r : Fin 6) :
    (p.resumeRobot z r).mtu = p.mtu ∧ (p.resumeRobot z r).cvt = p.cvt ∧ (p.resumeRobot z r).rej = p.rej ∧
    (p.resumeRobot z r).syncLine = p.syncLine ∧ (p.resumeRobot z r).lrst = p.lrst ∧
    (p.resumeRobot z r).odk.queue = p.odk.queue ∧ (p.resumeRobot z r).odk.takeIdentity = p.odk.takeIdentity ∧
    (p.resumeRobot z r).rpu.phase = p.rpu.phase ∧ (p.resumeRobot z r).rpu.lineResetBusy = p.rpu.lineResetBusy ∧
    (p.resumeRobot z r).rpu.threshold = p.rpu.threshold ∧ (p.resumeRobot z r).rpu.busData = p.rpu.busData ∧
    (p.resumeRobot z r).rpu.fault = p.rpu.fault ∧ (p.resumeRobot z r).spm.hallHold = p.spm.hallHold ∧
    (p.resumeRobot z r).trl.nextSeq = p.trl.nextSeq ∧
    (∀ k : Fin 6, (p.resumeRobot z r).rbp.robots[k.val].pins = p.rbp.robots[k.val].pins) ∧
    (∀ k : Fin 16, (p.resumeRobot z r).spm.ports[k.val].role = p.spm.ports[k.val].role) ∧
    (∀ k : Fin 16, (p.resumeRobot z r).spm.ports[k.val].link = p.spm.ports[k.val].link) ∧
    (∀ k : Fin 8, (p.resumeRobot z r).sac.zones[k.val].door = p.sac.zones[k.val].door) := by
  unfold Part.resumeRobot; (repeat' split) <;> simp

@[simp] theorem Part.resumeMember_frame (p : Part) (z : Fin 8) (set : BitVec 6) (r : Fin 6) :
    (p.resumeMember z set r).mtu = p.mtu ∧ (p.resumeMember z set r).cvt = p.cvt ∧
    (p.resumeMember z set r).rej = p.rej ∧ (p.resumeMember z set r).syncLine = p.syncLine ∧
    (p.resumeMember z set r).lrst = p.lrst ∧ (p.resumeMember z set r).odk.queue = p.odk.queue ∧
    (p.resumeMember z set r).odk.takeIdentity = p.odk.takeIdentity ∧
    (p.resumeMember z set r).rpu.phase = p.rpu.phase ∧
    (p.resumeMember z set r).rpu.lineResetBusy = p.rpu.lineResetBusy ∧
    (p.resumeMember z set r).rpu.threshold = p.rpu.threshold ∧ (p.resumeMember z set r).rpu.busData = p.rpu.busData ∧
    (p.resumeMember z set r).rpu.fault = p.rpu.fault ∧ (p.resumeMember z set r).spm.hallHold = p.spm.hallHold ∧
    (p.resumeMember z set r).trl.nextSeq = p.trl.nextSeq ∧
    (∀ k : Fin 6, (p.resumeMember z set r).rbp.robots[k.val].pins = p.rbp.robots[k.val].pins) ∧
    (∀ k : Fin 16, (p.resumeMember z set r).spm.ports[k.val].role = p.spm.ports[k.val].role) ∧
    (∀ k : Fin 16, (p.resumeMember z set r).spm.ports[k.val].link = p.spm.ports[k.val].link) ∧
    (∀ k : Fin 8, (p.resumeMember z set r).sac.zones[k.val].door = p.sac.zones[k.val].door) := by
  unfold Part.resumeMember; (repeat' split) <;> simp

@[simp] theorem Part.resume_frame (p : Part) (ref : OrderRef) (z : Fin 8) :
    (p.resume ref z).mtu = p.mtu ∧ (p.resume ref z).cvt = p.cvt ∧ (p.resume ref z).rej = p.rej ∧
    (p.resume ref z).syncLine = p.syncLine ∧ (p.resume ref z).lrst = p.lrst ∧
    (p.resume ref z).odk.queue = p.odk.queue ∧ (p.resume ref z).odk.takeIdentity = p.odk.takeIdentity ∧
    (p.resume ref z).rpu.phase = p.rpu.phase ∧ (p.resume ref z).rpu.lineResetBusy = p.rpu.lineResetBusy ∧
    (p.resume ref z).rpu.threshold = p.rpu.threshold ∧ (p.resume ref z).rpu.busData = p.rpu.busData ∧
    (p.resume ref z).rpu.fault = p.rpu.fault ∧ (p.resume ref z).spm.hallHold = p.spm.hallHold ∧
    (p.resume ref z).trl.nextSeq = p.trl.nextSeq ∧
    (∀ k : Fin 6, (p.resume ref z).rbp.robots[k.val].pins = p.rbp.robots[k.val].pins) ∧
    (∀ k : Fin 16, (p.resume ref z).spm.ports[k.val].role = p.spm.ports[k.val].role) ∧
    (∀ k : Fin 16, (p.resume ref z).spm.ports[k.val].link = p.spm.ports[k.val].link) ∧
    (∀ k : Fin 8, (p.resume ref z).sac.zones[k.val].door = p.sac.zones[k.val].door) := by
    unfold Part.resume; dsimp only; simp [fold_mtu, fold_cvt, fold_rej, fold_syncLine, fold_lrst, fold_odk_queue,
    fold_odk_takeIdentity, fold_rpu_phase, fold_rpu_lineResetBusy, fold_rpu_threshold, fold_rpu_busData,
    fold_rpu_fault, fold_spm_hallHold, fold_trl_nextSeq, fold_rbp_pins, fold_spm_role, fold_spm_link, fold_sac_door]

@[simp] theorem Part.resumeZoneOrder_frame (p : Part) (ref : OrderRef) (zone : Byte) :
    (p.resumeZoneOrder ref zone).mtu = p.mtu ∧ (p.resumeZoneOrder ref zone).cvt = p.cvt ∧
    (p.resumeZoneOrder ref zone).rej = p.rej ∧ (p.resumeZoneOrder ref zone).syncLine = p.syncLine ∧
    (p.resumeZoneOrder ref zone).lrst = p.lrst ∧ (p.resumeZoneOrder ref zone).odk.queue = p.odk.queue ∧
    (p.resumeZoneOrder ref zone).odk.takeIdentity = p.odk.takeIdentity ∧
    (p.resumeZoneOrder ref zone).rpu.phase = p.rpu.phase ∧
    (p.resumeZoneOrder ref zone).rpu.lineResetBusy = p.rpu.lineResetBusy ∧
    (p.resumeZoneOrder ref zone).rpu.threshold = p.rpu.threshold ∧
    (p.resumeZoneOrder ref zone).rpu.busData = p.rpu.busData ∧ (p.resumeZoneOrder ref zone).rpu.fault = p.rpu.fault ∧
    (p.resumeZoneOrder ref zone).spm.hallHold = p.spm.hallHold ∧
    (p.resumeZoneOrder ref zone).trl.nextSeq = p.trl.nextSeq ∧
    (∀ k : Fin 6, (p.resumeZoneOrder ref zone).rbp.robots[k.val].pins = p.rbp.robots[k.val].pins) ∧
    (∀ k : Fin 16, (p.resumeZoneOrder ref zone).spm.ports[k.val].role = p.spm.ports[k.val].role) ∧
    (∀ k : Fin 16, (p.resumeZoneOrder ref zone).spm.ports[k.val].link = p.spm.ports[k.val].link) ∧
    (∀ k : Fin 8, (p.resumeZoneOrder ref zone).sac.zones[k.val].door = p.sac.zones[k.val].door) := by
  unfold Part.resumeZoneOrder; (repeat' split) <;> simp

@[simp] theorem Part.zoneAdopt_frame (p : Part) (z : Fin 8) :
    (p.zoneAdopt z).mtu = p.mtu ∧ (p.zoneAdopt z).cvt = p.cvt ∧ (p.zoneAdopt z).rej = p.rej ∧
    (p.zoneAdopt z).syncLine = p.syncLine ∧ (p.zoneAdopt z).lrst = p.lrst ∧ (p.zoneAdopt z).odk.queue = p.odk.queue ∧
    (p.zoneAdopt z).odk.takeIdentity = p.odk.takeIdentity ∧ (p.zoneAdopt z).rpu.phase = p.rpu.phase ∧
    (p.zoneAdopt z).rpu.lineResetBusy = p.rpu.lineResetBusy ∧ (p.zoneAdopt z).rpu.threshold = p.rpu.threshold ∧
    (p.zoneAdopt z).rpu.busData = p.rpu.busData ∧ (p.zoneAdopt z).rpu.fault = p.rpu.fault ∧
    (p.zoneAdopt z).spm.hallHold = p.spm.hallHold ∧ (p.zoneAdopt z).trl.nextSeq = p.trl.nextSeq ∧
    (∀ k : Fin 6, (p.zoneAdopt z).rbp.robots[k.val].pins = p.rbp.robots[k.val].pins) ∧
    (∀ k : Fin 16, (p.zoneAdopt z).spm.ports[k.val].role = p.spm.ports[k.val].role) ∧
    (∀ k : Fin 16, (p.zoneAdopt z).spm.ports[k.val].link = p.spm.ports[k.val].link) ∧
    (∀ k : Fin 8, (p.zoneAdopt z).sac.zones[k.val].door = p.sac.zones[k.val].door) := by
  unfold Part.zoneAdopt; (repeat' split) <;> simp

@[simp] theorem Part.zonesAdopt_frame (p : Part) (f : Profile) :
    (p.zonesAdopt f).mtu = p.mtu ∧ (p.zonesAdopt f).cvt = p.cvt ∧ (p.zonesAdopt f).rej = p.rej ∧
    (p.zonesAdopt f).syncLine = p.syncLine ∧ (p.zonesAdopt f).lrst = p.lrst ∧
    (p.zonesAdopt f).odk.queue = p.odk.queue ∧ (p.zonesAdopt f).odk.takeIdentity = p.odk.takeIdentity ∧
    (p.zonesAdopt f).rpu.phase = p.rpu.phase ∧ (p.zonesAdopt f).rpu.lineResetBusy = p.rpu.lineResetBusy ∧
    (p.zonesAdopt f).rpu.threshold = p.rpu.threshold ∧ (p.zonesAdopt f).rpu.busData = p.rpu.busData ∧
    (p.zonesAdopt f).rpu.fault = p.rpu.fault ∧ (p.zonesAdopt f).spm.hallHold = p.spm.hallHold ∧
    (p.zonesAdopt f).trl.nextSeq = p.trl.nextSeq ∧
    (∀ k : Fin 6, (p.zonesAdopt f).rbp.robots[k.val].pins = p.rbp.robots[k.val].pins) ∧
    (∀ k : Fin 16, (p.zonesAdopt f).spm.ports[k.val].role = p.spm.ports[k.val].role) ∧
    (∀ k : Fin 16, (p.zonesAdopt f).spm.ports[k.val].link = p.spm.ports[k.val].link) ∧
    (∀ k : Fin 8, (p.zonesAdopt f).sac.zones[k.val].door = p.sac.zones[k.val].door) := by
    unfold Part.zonesAdopt; dsimp only; simp [fold_mtu, fold_cvt, fold_rej, fold_syncLine, fold_lrst,
    fold_odk_queue, fold_odk_takeIdentity, fold_rpu_phase, fold_rpu_lineResetBusy, fold_rpu_threshold,
    fold_rpu_busData, fold_rpu_fault, fold_spm_hallHold, fold_trl_nextSeq, fold_rbp_pins, fold_spm_role,
    fold_spm_link, fold_sac_door]

@[simp] theorem Part.zonesDropOrders_frame (p : Part) :
    p.zonesDropOrders.mtu = p.mtu ∧ p.zonesDropOrders.cvt = p.cvt ∧ p.zonesDropOrders.trl = p.trl ∧
    p.zonesDropOrders.rbp = p.rbp ∧ p.zonesDropOrders.ctu = p.ctu ∧ p.zonesDropOrders.rej = p.rej ∧
    p.zonesDropOrders.spm = p.spm ∧ p.zonesDropOrders.odk = p.odk ∧ p.zonesDropOrders.syncLine = p.syncLine ∧
    p.zonesDropOrders.lrst = p.lrst ∧ p.zonesDropOrders.freeCount = p.freeCount ∧
    p.zonesDropOrders.rpu.phase = p.rpu.phase ∧ p.zonesDropOrders.rpu.lineResetBusy = p.rpu.lineResetBusy ∧
    p.zonesDropOrders.rpu.threshold = p.rpu.threshold ∧ p.zonesDropOrders.rpu.busData = p.rpu.busData ∧
    p.zonesDropOrders.rpu.fault = p.rpu.fault := by
    unfold Part.zonesDropOrders; simp [fold_mtu, fold_cvt, fold_trl, fold_rbp, fold_ctu, fold_rej, fold_spm,
    fold_odk, fold_syncLine, fold_lrst, fold_freeCount, fold_rpu_phase, fold_rpu_lineResetBusy, fold_rpu_threshold,
    fold_rpu_busData, fold_rpu_fault]

end Sys2Proof.Machine
end

