-- ==== Sys2Proof/Laws/FrameEjector.lean ====
section
/-! SUPPORT. What each operation of removal and the Reject Ejector leaves unchanged: one theorem per operation. -/

namespace Sys2Proof.Machine

@[simp] theorem Part.listEmptied_frame (p : Part) :
    p.listEmptied.mtu = p.mtu ∧ p.listEmptied.trl = p.trl ∧ p.listEmptied.ctu = p.ctu ∧ p.listEmptied.rej = p.rej ∧
    p.listEmptied.spm = p.spm ∧ p.listEmptied.sac = p.sac ∧ p.listEmptied.syncLine = p.syncLine ∧
    p.listEmptied.lrst = p.lrst ∧ p.listEmptied.cvt.position = p.cvt.position ∧
    p.listEmptied.cvt.highWater = p.cvt.highWater ∧ p.listEmptied.cvt.depth = p.cvt.depth ∧
    p.listEmptied.cvt.phase = p.cvt.phase ∧ p.listEmptied.cvt.profile = p.cvt.profile ∧
    p.listEmptied.cvt.adoption = p.cvt.adoption ∧ p.listEmptied.odk.queue = p.odk.queue ∧
    p.listEmptied.odk.takeIdentity = p.odk.takeIdentity ∧ p.listEmptied.rpu.phase = p.rpu.phase ∧
    p.listEmptied.rpu.lineResetBusy = p.rpu.lineResetBusy ∧ p.listEmptied.rpu.threshold = p.rpu.threshold ∧
    p.listEmptied.rpu.busData = p.rpu.busData ∧ p.listEmptied.rpu.fault = p.rpu.fault ∧
    (∀ k : Fin 6, p.listEmptied.rbp.robots[k.val].state = p.rbp.robots[k.val].state) ∧
    (∀ k : Fin 6, p.listEmptied.rbp.robots[k.val].pins = p.rbp.robots[k.val].pins) := by
  unfold Part.listEmptied; dsimp only; (repeat' split) <;> simp

@[simp] theorem Part.remove_frame (p : Part) (seq : Word) :
    (p.remove seq).mtu = p.mtu ∧ (p.remove seq).ctu = p.ctu ∧ (p.remove seq).rej = p.rej ∧
    (p.remove seq).spm = p.spm ∧ (p.remove seq).sac = p.sac ∧ (p.remove seq).syncLine = p.syncLine ∧
    (p.remove seq).lrst = p.lrst ∧ (p.remove seq).cvt.position = p.cvt.position ∧
    (p.remove seq).cvt.highWater = p.cvt.highWater ∧ (p.remove seq).cvt.depth = p.cvt.depth ∧
    (p.remove seq).cvt.phase = p.cvt.phase ∧ (p.remove seq).cvt.profile = p.cvt.profile ∧
    (p.remove seq).cvt.adoption = p.cvt.adoption ∧ (p.remove seq).odk.queue = p.odk.queue ∧
    (p.remove seq).odk.takeIdentity = p.odk.takeIdentity ∧ (p.remove seq).rpu.phase = p.rpu.phase ∧
    (p.remove seq).rpu.lineResetBusy = p.rpu.lineResetBusy ∧ (p.remove seq).rpu.threshold = p.rpu.threshold ∧
    (p.remove seq).rpu.busData = p.rpu.busData ∧ (p.remove seq).rpu.fault = p.rpu.fault ∧
    (∀ k : Fin 6, (p.remove seq).rbp.robots[k.val].state = p.rbp.robots[k.val].state) ∧
    (∀ k : Fin 6, (p.remove seq).rbp.robots[k.val].pins = p.rbp.robots[k.val].pins) := by
  unfold Part.remove; dsimp only; (repeat' split) <;> simp

@[simp] theorem Part.countEject_frame (p : Part) (f : EjectorCounters → EjectorCounters) :
    (p.countEject f).mtu = p.mtu ∧ (p.countEject f).cvt = p.cvt ∧ (p.countEject f).trl = p.trl ∧
    (p.countEject f).rbp = p.rbp ∧ (p.countEject f).ctu = p.ctu ∧ (p.countEject f).spm = p.spm ∧
    (p.countEject f).sac = p.sac ∧ (p.countEject f).odk = p.odk ∧ (p.countEject f).rpu = p.rpu ∧
    (p.countEject f).syncLine = p.syncLine ∧ (p.countEject f).lrst = p.lrst ∧ (p.countEject f).mem = p.mem ∧
    (p.countEject f).freeCount = p.freeCount := by
  unfold Part.countEject; simp

@[simp] theorem Part.unconfirm_frame (p : Part) (seq : Word) (news : News) :
    (p.unconfirm seq news).mtu = p.mtu ∧ (p.unconfirm seq news).ctu = p.ctu ∧ (p.unconfirm seq news).spm = p.spm ∧
    (p.unconfirm seq news).sac = p.sac ∧ (p.unconfirm seq news).syncLine = p.syncLine ∧
    (p.unconfirm seq news).lrst = p.lrst ∧ (p.unconfirm seq news).cvt.position = p.cvt.position ∧
    (p.unconfirm seq news).cvt.highWater = p.cvt.highWater ∧ (p.unconfirm seq news).cvt.depth = p.cvt.depth ∧
    (p.unconfirm seq news).cvt.phase = p.cvt.phase ∧ (p.unconfirm seq news).cvt.profile = p.cvt.profile ∧
    (p.unconfirm seq news).cvt.adoption = p.cvt.adoption ∧ (p.unconfirm seq news).odk.queue = p.odk.queue ∧
    (p.unconfirm seq news).odk.takeIdentity = p.odk.takeIdentity ∧ (p.unconfirm seq news).rpu.phase = p.rpu.phase ∧
    (p.unconfirm seq news).rpu.lineResetBusy = p.rpu.lineResetBusy ∧
    (p.unconfirm seq news).rpu.threshold = p.rpu.threshold ∧ (p.unconfirm seq news).rpu.busData = p.rpu.busData ∧
    (∀ k : Fin 6, (p.unconfirm seq news).rbp.robots[k.val].state = p.rbp.robots[k.val].state) ∧
    (∀ k : Fin 6, (p.unconfirm seq news).rbp.robots[k.val].pins = p.rbp.robots[k.val].pins) := by
  unfold Part.unconfirm; dsimp only; simp

@[simp] theorem Part.pushOut_frame (p : Part) :
    p.pushOut.mtu = p.mtu ∧ p.pushOut.ctu = p.ctu ∧ p.pushOut.spm = p.spm ∧ p.pushOut.sac = p.sac ∧
    p.pushOut.syncLine = p.syncLine ∧ p.pushOut.lrst = p.lrst ∧ p.pushOut.cvt.position = p.cvt.position ∧
    p.pushOut.cvt.highWater = p.cvt.highWater ∧ p.pushOut.cvt.depth = p.cvt.depth ∧
    p.pushOut.cvt.phase = p.cvt.phase ∧ p.pushOut.cvt.profile = p.cvt.profile ∧
    p.pushOut.cvt.adoption = p.cvt.adoption ∧ p.pushOut.odk.queue = p.odk.queue ∧
    p.pushOut.odk.takeIdentity = p.odk.takeIdentity ∧ p.pushOut.rpu.phase = p.rpu.phase ∧
    p.pushOut.rpu.lineResetBusy = p.rpu.lineResetBusy ∧ p.pushOut.rpu.threshold = p.rpu.threshold ∧
    p.pushOut.rpu.busData = p.rpu.busData ∧
    (∀ k : Fin 6, p.pushOut.rbp.robots[k.val].state = p.rbp.robots[k.val].state) ∧
    (∀ k : Fin 6, p.pushOut.rbp.robots[k.val].pins = p.rbp.robots[k.val].pins) := by
  unfold Part.pushOut; (repeat' split) <;> simp

@[simp] theorem Part.fireMember_frame (p : Part) (seq : Word) :
    (p.fireMember seq).mtu = p.mtu ∧ (p.fireMember seq).ctu = p.ctu ∧ (p.fireMember seq).spm = p.spm ∧
    (p.fireMember seq).sac = p.sac ∧ (p.fireMember seq).syncLine = p.syncLine ∧ (p.fireMember seq).lrst = p.lrst ∧
    (p.fireMember seq).cvt.position = p.cvt.position ∧ (p.fireMember seq).cvt.highWater = p.cvt.highWater ∧
    (p.fireMember seq).cvt.depth = p.cvt.depth ∧ (p.fireMember seq).cvt.phase = p.cvt.phase ∧
    (p.fireMember seq).cvt.profile = p.cvt.profile ∧ (p.fireMember seq).cvt.adoption = p.cvt.adoption ∧
    (p.fireMember seq).odk.queue = p.odk.queue ∧ (p.fireMember seq).odk.takeIdentity = p.odk.takeIdentity ∧
    (p.fireMember seq).rpu.phase = p.rpu.phase ∧ (p.fireMember seq).rpu.lineResetBusy = p.rpu.lineResetBusy ∧
    (p.fireMember seq).rpu.threshold = p.rpu.threshold ∧ (p.fireMember seq).rpu.busData = p.rpu.busData ∧
    (∀ k : Fin 6, (p.fireMember seq).rbp.robots[k.val].state = p.rbp.robots[k.val].state) ∧
    (∀ k : Fin 6, (p.fireMember seq).rbp.robots[k.val].pins = p.rbp.robots[k.val].pins) := by
  unfold Part.fireMember; dsimp only; (repeat' split) <;> simp

@[simp] theorem Part.fireMembers_frame (p : Part) (seqs : List Word) :
    (p.fireMembers seqs).mtu = p.mtu ∧ (p.fireMembers seqs).ctu = p.ctu ∧ (p.fireMembers seqs).spm = p.spm ∧
    (p.fireMembers seqs).sac = p.sac ∧ (p.fireMembers seqs).syncLine = p.syncLine ∧
    (p.fireMembers seqs).lrst = p.lrst ∧ (p.fireMembers seqs).cvt.position = p.cvt.position ∧
    (p.fireMembers seqs).cvt.highWater = p.cvt.highWater ∧ (p.fireMembers seqs).cvt.depth = p.cvt.depth ∧
    (p.fireMembers seqs).cvt.phase = p.cvt.phase ∧ (p.fireMembers seqs).cvt.profile = p.cvt.profile ∧
    (p.fireMembers seqs).cvt.adoption = p.cvt.adoption ∧ (p.fireMembers seqs).odk.queue = p.odk.queue ∧
    (p.fireMembers seqs).odk.takeIdentity = p.odk.takeIdentity ∧ (p.fireMembers seqs).rpu.phase = p.rpu.phase ∧
    (p.fireMembers seqs).rpu.lineResetBusy = p.rpu.lineResetBusy ∧
    (p.fireMembers seqs).rpu.threshold = p.rpu.threshold ∧ (p.fireMembers seqs).rpu.busData = p.rpu.busData ∧
    (∀ k : Fin 6, (p.fireMembers seqs).rbp.robots[k.val].state = p.rbp.robots[k.val].state) ∧
    (∀ k : Fin 6, (p.fireMembers seqs).rbp.robots[k.val].pins = p.rbp.robots[k.val].pins) := by
    unfold Part.fireMembers; simp [fold_mtu, fold_ctu, fold_spm, fold_sac, fold_syncLine, fold_lrst,
    fold_cvt_position, fold_cvt_highWater, fold_cvt_depth, fold_cvt_phase, fold_cvt_profile, fold_cvt_adoption,
    fold_odk_queue, fold_odk_takeIdentity, fold_rpu_phase, fold_rpu_lineResetBusy, fold_rpu_threshold,
    fold_rpu_busData, fold_rbp_state, fold_rbp_pins]

@[simp] theorem Part.drive_frame (p : Part) (ending : Time) :
    (p.drive ending).mtu = p.mtu ∧ (p.drive ending).cvt = p.cvt ∧ (p.drive ending).trl = p.trl ∧
    (p.drive ending).rbp = p.rbp ∧ (p.drive ending).ctu = p.ctu ∧ (p.drive ending).spm = p.spm ∧
    (p.drive ending).sac = p.sac ∧ (p.drive ending).odk = p.odk ∧ (p.drive ending).rpu = p.rpu ∧
    (p.drive ending).syncLine = p.syncLine ∧ (p.drive ending).lrst = p.lrst ∧ (p.drive ending).mem = p.mem ∧
    (p.drive ending).freeCount = p.freeCount := by
  unfold Part.drive; dsimp only; (repeat' split) <;> simp

@[simp] theorem Part.startPulse_frame (p : Part) (q : Pulse) (ending : Time) :
    (p.startPulse q ending).mtu = p.mtu ∧ (p.startPulse q ending).ctu = p.ctu ∧ (p.startPulse q ending).spm = p.spm ∧
    (p.startPulse q ending).sac = p.sac ∧ (p.startPulse q ending).syncLine = p.syncLine ∧
    (p.startPulse q ending).lrst = p.lrst ∧ (p.startPulse q ending).cvt.position = p.cvt.position ∧
    (p.startPulse q ending).cvt.highWater = p.cvt.highWater ∧ (p.startPulse q ending).cvt.depth = p.cvt.depth ∧
    (p.startPulse q ending).cvt.phase = p.cvt.phase ∧ (p.startPulse q ending).cvt.profile = p.cvt.profile ∧
    (p.startPulse q ending).cvt.adoption = p.cvt.adoption ∧ (p.startPulse q ending).odk.queue = p.odk.queue ∧
    (p.startPulse q ending).odk.takeIdentity = p.odk.takeIdentity ∧ (p.startPulse q ending).rpu.phase = p.rpu.phase ∧
    (p.startPulse q ending).rpu.lineResetBusy = p.rpu.lineResetBusy ∧
    (p.startPulse q ending).rpu.threshold = p.rpu.threshold ∧ (p.startPulse q ending).rpu.busData = p.rpu.busData ∧
    (∀ k : Fin 6, (p.startPulse q ending).rbp.robots[k.val].state = p.rbp.robots[k.val].state) ∧
    (∀ k : Fin 6, (p.startPulse q ending).rbp.robots[k.val].pins = p.rbp.robots[k.val].pins) := by
  unfold Part.startPulse; dsimp only; simp

@[simp] theorem Part.scheduleTimed_frame (p : Part) (seq : Word) (s : Time) :
    (p.scheduleTimed seq s).mtu = p.mtu ∧ (p.scheduleTimed seq s).ctu = p.ctu ∧ (p.scheduleTimed seq s).spm = p.spm ∧
    (p.scheduleTimed seq s).sac = p.sac ∧ (p.scheduleTimed seq s).syncLine = p.syncLine ∧
    (p.scheduleTimed seq s).lrst = p.lrst ∧ (p.scheduleTimed seq s).cvt.position = p.cvt.position ∧
    (p.scheduleTimed seq s).cvt.highWater = p.cvt.highWater ∧ (p.scheduleTimed seq s).cvt.depth = p.cvt.depth ∧
    (p.scheduleTimed seq s).cvt.phase = p.cvt.phase ∧ (p.scheduleTimed seq s).cvt.profile = p.cvt.profile ∧
    (p.scheduleTimed seq s).cvt.adoption = p.cvt.adoption ∧ (p.scheduleTimed seq s).odk.queue = p.odk.queue ∧
    (p.scheduleTimed seq s).odk.takeIdentity = p.odk.takeIdentity ∧ (p.scheduleTimed seq s).rpu.phase = p.rpu.phase ∧
    (p.scheduleTimed seq s).rpu.lineResetBusy = p.rpu.lineResetBusy ∧
    (p.scheduleTimed seq s).rpu.threshold = p.rpu.threshold ∧ (p.scheduleTimed seq s).rpu.busData = p.rpu.busData ∧
    (∀ k : Fin 6, (p.scheduleTimed seq s).rbp.robots[k.val].state = p.rbp.robots[k.val].state) ∧
    (∀ k : Fin 6, (p.scheduleTimed seq s).rbp.robots[k.val].pins = p.rbp.robots[k.val].pins) := by
  unfold Part.scheduleTimed; dsimp only; (repeat' split) <;> simp

@[simp] theorem Part.takeReject_frame (p : Part) (seq : Word) :
    (p.takeReject seq).mtu = p.mtu ∧ (p.takeReject seq).ctu = p.ctu ∧ (p.takeReject seq).spm = p.spm ∧
    (p.takeReject seq).sac = p.sac ∧ (p.takeReject seq).syncLine = p.syncLine ∧ (p.takeReject seq).lrst = p.lrst ∧
    (p.takeReject seq).cvt.position = p.cvt.position ∧ (p.takeReject seq).cvt.highWater = p.cvt.highWater ∧
    (p.takeReject seq).cvt.depth = p.cvt.depth ∧ (p.takeReject seq).cvt.phase = p.cvt.phase ∧
    (p.takeReject seq).cvt.profile = p.cvt.profile ∧ (p.takeReject seq).cvt.adoption = p.cvt.adoption ∧
    (p.takeReject seq).odk.queue = p.odk.queue ∧ (p.takeReject seq).odk.takeIdentity = p.odk.takeIdentity ∧
    (p.takeReject seq).rpu.phase = p.rpu.phase ∧ (p.takeReject seq).rpu.lineResetBusy = p.rpu.lineResetBusy ∧
    (p.takeReject seq).rpu.threshold = p.rpu.threshold ∧ (p.takeReject seq).rpu.busData = p.rpu.busData ∧
    (∀ k : Fin 6, (p.takeReject seq).rbp.robots[k.val].state = p.rbp.robots[k.val].state) ∧
    (∀ k : Fin 6, (p.takeReject seq).rbp.robots[k.val].pins = p.rbp.robots[k.val].pins) := by
  unfold Part.takeReject; dsimp only; (repeat' split) <;> simp

@[simp] theorem Part.startByTime_frame (p : Part) (q : Pulse) :
    (p.startByTime q).mtu = p.mtu ∧ (p.startByTime q).ctu = p.ctu ∧ (p.startByTime q).spm = p.spm ∧
    (p.startByTime q).sac = p.sac ∧ (p.startByTime q).syncLine = p.syncLine ∧ (p.startByTime q).lrst = p.lrst ∧
    (p.startByTime q).cvt.position = p.cvt.position ∧ (p.startByTime q).cvt.highWater = p.cvt.highWater ∧
    (p.startByTime q).cvt.depth = p.cvt.depth ∧ (p.startByTime q).cvt.phase = p.cvt.phase ∧
    (p.startByTime q).cvt.profile = p.cvt.profile ∧ (p.startByTime q).cvt.adoption = p.cvt.adoption ∧
    (p.startByTime q).odk.queue = p.odk.queue ∧ (p.startByTime q).odk.takeIdentity = p.odk.takeIdentity ∧
    (p.startByTime q).rpu.phase = p.rpu.phase ∧ (p.startByTime q).rpu.lineResetBusy = p.rpu.lineResetBusy ∧
    (p.startByTime q).rpu.threshold = p.rpu.threshold ∧ (p.startByTime q).rpu.busData = p.rpu.busData ∧
    (∀ k : Fin 6, (p.startByTime q).rbp.robots[k.val].state = p.rbp.robots[k.val].state) ∧
    (∀ k : Fin 6, (p.startByTime q).rbp.robots[k.val].pins = p.rbp.robots[k.val].pins) := by
  unfold Part.startByTime; (repeat' split) <;> simp

@[simp] theorem Part.ejectorNewPace_frame (p : Part) :
    p.ejectorNewPace.mtu = p.mtu ∧ p.ejectorNewPace.ctu = p.ctu ∧ p.ejectorNewPace.spm = p.spm ∧
    p.ejectorNewPace.sac = p.sac ∧ p.ejectorNewPace.syncLine = p.syncLine ∧ p.ejectorNewPace.lrst = p.lrst ∧
    p.ejectorNewPace.cvt.position = p.cvt.position ∧ p.ejectorNewPace.cvt.highWater = p.cvt.highWater ∧
    p.ejectorNewPace.cvt.depth = p.cvt.depth ∧ p.ejectorNewPace.cvt.phase = p.cvt.phase ∧
    p.ejectorNewPace.cvt.profile = p.cvt.profile ∧ p.ejectorNewPace.cvt.adoption = p.cvt.adoption ∧
    p.ejectorNewPace.odk.queue = p.odk.queue ∧ p.ejectorNewPace.odk.takeIdentity = p.odk.takeIdentity ∧
    p.ejectorNewPace.rpu.phase = p.rpu.phase ∧ p.ejectorNewPace.rpu.lineResetBusy = p.rpu.lineResetBusy ∧
    p.ejectorNewPace.rpu.threshold = p.rpu.threshold ∧ p.ejectorNewPace.rpu.busData = p.rpu.busData ∧
    (∀ k : Fin 6, p.ejectorNewPace.rbp.robots[k.val].state = p.rbp.robots[k.val].state) ∧
    (∀ k : Fin 6, p.ejectorNewPace.rbp.robots[k.val].pins = p.rbp.robots[k.val].pins) := by
    unfold Part.ejectorNewPace; dsimp only; simp [fold_mtu, fold_ctu, fold_spm, fold_sac,
    fold_syncLine, fold_lrst, fold_cvt_position, fold_cvt_highWater, fold_cvt_depth, fold_cvt_phase,
    fold_cvt_profile, fold_cvt_adoption, fold_odk_queue, fold_odk_takeIdentity, fold_rpu_phase,
    fold_rpu_lineResetBusy, fold_rpu_threshold, fold_rpu_busData, fold_rbp_state, fold_rbp_pins]

@[simp] theorem Part.ejectorPaceLost_frame (p : Part) :
    p.ejectorPaceLost.mtu = p.mtu ∧ p.ejectorPaceLost.cvt = p.cvt ∧ p.ejectorPaceLost.trl = p.trl ∧
    p.ejectorPaceLost.rbp = p.rbp ∧ p.ejectorPaceLost.ctu = p.ctu ∧ p.ejectorPaceLost.spm = p.spm ∧
    p.ejectorPaceLost.sac = p.sac ∧ p.ejectorPaceLost.odk = p.odk ∧ p.ejectorPaceLost.syncLine = p.syncLine ∧
    p.ejectorPaceLost.lrst = p.lrst ∧ p.ejectorPaceLost.freeCount = p.freeCount ∧
    p.ejectorPaceLost.rpu.phase = p.rpu.phase ∧ p.ejectorPaceLost.rpu.lineResetBusy = p.rpu.lineResetBusy ∧
    p.ejectorPaceLost.rpu.threshold = p.rpu.threshold ∧ p.ejectorPaceLost.rpu.busData = p.rpu.busData ∧
    p.ejectorPaceLost.rpu.fault = p.rpu.fault := by
  unfold Part.ejectorPaceLost; simp

@[simp] theorem Part.ejectPulseStart_frame (p : Part) :
    p.ejectPulseStart.mtu = p.mtu ∧ p.ejectPulseStart.ctu = p.ctu ∧ p.ejectPulseStart.spm = p.spm ∧
    p.ejectPulseStart.sac = p.sac ∧ p.ejectPulseStart.syncLine = p.syncLine ∧ p.ejectPulseStart.lrst = p.lrst ∧
    p.ejectPulseStart.cvt.position = p.cvt.position ∧ p.ejectPulseStart.cvt.highWater = p.cvt.highWater ∧
    p.ejectPulseStart.cvt.depth = p.cvt.depth ∧ p.ejectPulseStart.cvt.phase = p.cvt.phase ∧
    p.ejectPulseStart.cvt.profile = p.cvt.profile ∧ p.ejectPulseStart.cvt.adoption = p.cvt.adoption ∧
    p.ejectPulseStart.odk.queue = p.odk.queue ∧ p.ejectPulseStart.odk.takeIdentity = p.odk.takeIdentity ∧
    p.ejectPulseStart.rpu.phase = p.rpu.phase ∧ p.ejectPulseStart.rpu.lineResetBusy = p.rpu.lineResetBusy ∧
    p.ejectPulseStart.rpu.threshold = p.rpu.threshold ∧ p.ejectPulseStart.rpu.busData = p.rpu.busData ∧
    (∀ k : Fin 6, p.ejectPulseStart.rbp.robots[k.val].state = p.rbp.robots[k.val].state) ∧
    (∀ k : Fin 6, p.ejectPulseStart.rbp.robots[k.val].pins = p.rbp.robots[k.val].pins) := by
  unfold Part.ejectPulseStart; (repeat' split) <;> simp

@[simp] theorem Part.ejectorArrival_frame (p : Part) (seq : Word) :
    (p.ejectorArrival seq).mtu = p.mtu ∧ (p.ejectorArrival seq).ctu = p.ctu ∧ (p.ejectorArrival seq).spm = p.spm ∧
    (p.ejectorArrival seq).sac = p.sac ∧ (p.ejectorArrival seq).syncLine = p.syncLine ∧
    (p.ejectorArrival seq).lrst = p.lrst ∧ (p.ejectorArrival seq).cvt.position = p.cvt.position ∧
    (p.ejectorArrival seq).cvt.highWater = p.cvt.highWater ∧ (p.ejectorArrival seq).cvt.depth = p.cvt.depth ∧
    (p.ejectorArrival seq).cvt.phase = p.cvt.phase ∧ (p.ejectorArrival seq).cvt.profile = p.cvt.profile ∧
    (p.ejectorArrival seq).cvt.adoption = p.cvt.adoption ∧ (p.ejectorArrival seq).odk.queue = p.odk.queue ∧
    (p.ejectorArrival seq).odk.takeIdentity = p.odk.takeIdentity ∧ (p.ejectorArrival seq).rpu.phase = p.rpu.phase ∧
    (p.ejectorArrival seq).rpu.lineResetBusy = p.rpu.lineResetBusy ∧
    (p.ejectorArrival seq).rpu.threshold = p.rpu.threshold ∧ (p.ejectorArrival seq).rpu.busData = p.rpu.busData ∧
    (∀ k : Fin 6, (p.ejectorArrival seq).rbp.robots[k.val].state = p.rbp.robots[k.val].state) ∧
    (∀ k : Fin 6, (p.ejectorArrival seq).rbp.robots[k.val].pins = p.rbp.robots[k.val].pins) := by
  unfold Part.ejectorArrival; dsimp only; (repeat' split) <;> simp

@[simp] theorem Part.ejectOutputEnd_frame (p : Part) :
    p.ejectOutputEnd.mtu = p.mtu ∧ p.ejectOutputEnd.cvt = p.cvt ∧ p.ejectOutputEnd.trl = p.trl ∧
    p.ejectOutputEnd.rbp = p.rbp ∧ p.ejectOutputEnd.ctu = p.ctu ∧ p.ejectOutputEnd.spm = p.spm ∧
    p.ejectOutputEnd.sac = p.sac ∧ p.ejectOutputEnd.odk = p.odk ∧ p.ejectOutputEnd.syncLine = p.syncLine ∧
    p.ejectOutputEnd.lrst = p.lrst ∧ p.ejectOutputEnd.freeCount = p.freeCount ∧
    p.ejectOutputEnd.rpu.phase = p.rpu.phase ∧ p.ejectOutputEnd.rpu.lineResetBusy = p.rpu.lineResetBusy ∧
    p.ejectOutputEnd.rpu.threshold = p.rpu.threshold ∧ p.ejectOutputEnd.rpu.busData = p.rpu.busData ∧
    p.ejectOutputEnd.rpu.fault = p.rpu.fault := by
  unfold Part.ejectOutputEnd; (repeat' split) <;> simp

@[simp] theorem Part.confirmation_frame (p : Part) :
    p.confirmation.mtu = p.mtu ∧ p.confirmation.ctu = p.ctu ∧ p.confirmation.spm = p.spm ∧
    p.confirmation.sac = p.sac ∧ p.confirmation.syncLine = p.syncLine ∧ p.confirmation.lrst = p.lrst ∧
    p.confirmation.cvt.position = p.cvt.position ∧ p.confirmation.cvt.highWater = p.cvt.highWater ∧
    p.confirmation.cvt.depth = p.cvt.depth ∧ p.confirmation.cvt.phase = p.cvt.phase ∧
    p.confirmation.cvt.profile = p.cvt.profile ∧ p.confirmation.cvt.adoption = p.cvt.adoption ∧
    p.confirmation.odk.queue = p.odk.queue ∧ p.confirmation.odk.takeIdentity = p.odk.takeIdentity ∧
    p.confirmation.rpu.phase = p.rpu.phase ∧ p.confirmation.rpu.lineResetBusy = p.rpu.lineResetBusy ∧
    p.confirmation.rpu.threshold = p.rpu.threshold ∧ p.confirmation.rpu.busData = p.rpu.busData ∧
    p.confirmation.rpu.fault = p.rpu.fault ∧
    (∀ k : Fin 6, p.confirmation.rbp.robots[k.val].state = p.rbp.robots[k.val].state) ∧
    (∀ k : Fin 6, p.confirmation.rbp.robots[k.val].pins = p.rbp.robots[k.val].pins) := by
  unfold Part.confirmation; dsimp only; (repeat' split) <;> simp

@[simp] theorem Part.confirmLine_frame (p : Part) (level : Bool) :
    (p.confirmLine level).mtu = p.mtu ∧ (p.confirmLine level).ctu = p.ctu ∧ (p.confirmLine level).spm = p.spm ∧
    (p.confirmLine level).sac = p.sac ∧ (p.confirmLine level).syncLine = p.syncLine ∧
    (p.confirmLine level).lrst = p.lrst ∧ (p.confirmLine level).cvt.position = p.cvt.position ∧
    (p.confirmLine level).cvt.highWater = p.cvt.highWater ∧ (p.confirmLine level).cvt.depth = p.cvt.depth ∧
    (p.confirmLine level).cvt.phase = p.cvt.phase ∧ (p.confirmLine level).cvt.profile = p.cvt.profile ∧
    (p.confirmLine level).cvt.adoption = p.cvt.adoption ∧ (p.confirmLine level).odk.queue = p.odk.queue ∧
    (p.confirmLine level).odk.takeIdentity = p.odk.takeIdentity ∧ (p.confirmLine level).rpu.phase = p.rpu.phase ∧
    (p.confirmLine level).rpu.lineResetBusy = p.rpu.lineResetBusy ∧
    (p.confirmLine level).rpu.threshold = p.rpu.threshold ∧ (p.confirmLine level).rpu.busData = p.rpu.busData ∧
    (p.confirmLine level).rpu.fault = p.rpu.fault ∧
    (∀ k : Fin 6, (p.confirmLine level).rbp.robots[k.val].state = p.rbp.robots[k.val].state) ∧
    (∀ k : Fin 6, (p.confirmLine level).rbp.robots[k.val].pins = p.rbp.robots[k.val].pins) := by
  unfold Part.confirmLine; dsimp only; (repeat' split) <;> simp

@[simp] theorem Part.confirmEnd_frame (p : Part) (seq : Word) :
    (p.confirmEnd seq).mtu = p.mtu ∧ (p.confirmEnd seq).ctu = p.ctu ∧ (p.confirmEnd seq).spm = p.spm ∧
    (p.confirmEnd seq).sac = p.sac ∧ (p.confirmEnd seq).syncLine = p.syncLine ∧ (p.confirmEnd seq).lrst = p.lrst ∧
    (p.confirmEnd seq).cvt.position = p.cvt.position ∧ (p.confirmEnd seq).cvt.highWater = p.cvt.highWater ∧
    (p.confirmEnd seq).cvt.depth = p.cvt.depth ∧ (p.confirmEnd seq).cvt.phase = p.cvt.phase ∧
    (p.confirmEnd seq).cvt.profile = p.cvt.profile ∧ (p.confirmEnd seq).cvt.adoption = p.cvt.adoption ∧
    (p.confirmEnd seq).odk.queue = p.odk.queue ∧ (p.confirmEnd seq).odk.takeIdentity = p.odk.takeIdentity ∧
    (p.confirmEnd seq).rpu.phase = p.rpu.phase ∧ (p.confirmEnd seq).rpu.lineResetBusy = p.rpu.lineResetBusy ∧
    (p.confirmEnd seq).rpu.threshold = p.rpu.threshold ∧ (p.confirmEnd seq).rpu.busData = p.rpu.busData ∧
    (∀ k : Fin 6, (p.confirmEnd seq).rbp.robots[k.val].state = p.rbp.robots[k.val].state) ∧
    (∀ k : Fin 6, (p.confirmEnd seq).rbp.robots[k.val].pins = p.rbp.robots[k.val].pins) := by
  unfold Part.confirmEnd; (repeat' split) <;> simp

@[simp] theorem Part.ejectTestOrder_frame (p : Part) (ref : OrderRef) :
    (p.ejectTestOrder ref).mtu = p.mtu ∧ (p.ejectTestOrder ref).cvt = p.cvt ∧ (p.ejectTestOrder ref).trl = p.trl ∧
    (p.ejectTestOrder ref).rbp = p.rbp ∧ (p.ejectTestOrder ref).ctu = p.ctu ∧ (p.ejectTestOrder ref).spm = p.spm ∧
    (p.ejectTestOrder ref).sac = p.sac ∧ (p.ejectTestOrder ref).syncLine = p.syncLine ∧
    (p.ejectTestOrder ref).lrst = p.lrst ∧ (p.ejectTestOrder ref).freeCount = p.freeCount ∧
    (p.ejectTestOrder ref).odk.queue = p.odk.queue ∧ (p.ejectTestOrder ref).odk.takeIdentity = p.odk.takeIdentity ∧
    (p.ejectTestOrder ref).rpu.phase = p.rpu.phase ∧ (p.ejectTestOrder ref).rpu.lineResetBusy = p.rpu.lineResetBusy ∧
    (p.ejectTestOrder ref).rpu.threshold = p.rpu.threshold ∧ (p.ejectTestOrder ref).rpu.busData = p.rpu.busData ∧
    (p.ejectTestOrder ref).rpu.fault = p.rpu.fault := by
  unfold Part.ejectTestOrder; dsimp only; (repeat' split) <;> simp

@[simp] theorem Part.ejectorLineReset_frame (p : Part) :
    p.ejectorLineReset.mtu = p.mtu ∧ p.ejectorLineReset.cvt = p.cvt ∧ p.ejectorLineReset.trl = p.trl ∧
    p.ejectorLineReset.rbp = p.rbp ∧ p.ejectorLineReset.ctu = p.ctu ∧ p.ejectorLineReset.spm = p.spm ∧
    p.ejectorLineReset.sac = p.sac ∧ p.ejectorLineReset.odk = p.odk ∧ p.ejectorLineReset.syncLine = p.syncLine ∧
    p.ejectorLineReset.lrst = p.lrst ∧ p.ejectorLineReset.freeCount = p.freeCount ∧
    p.ejectorLineReset.rpu.phase = p.rpu.phase ∧ p.ejectorLineReset.rpu.lineResetBusy = p.rpu.lineResetBusy ∧
    p.ejectorLineReset.rpu.threshold = p.rpu.threshold ∧ p.ejectorLineReset.rpu.busData = p.rpu.busData ∧
    p.ejectorLineReset.rpu.fault = p.rpu.fault := by
  unfold Part.ejectorLineReset; simp

end Sys2Proof.Machine
end

