-- ==== Sys2Proof/Laws/FrameTransit.lean ====
section
/-! SUPPORT. What each operation of the Transit List and a port’s silence leaves unchanged: one theorem per
operation. -/

namespace Sys2Proof.Machine

@[simp] theorem Part.countUntracked_frame (p : Part) :
    p.countUntracked.mtu = p.mtu ∧ p.countUntracked.cvt = p.cvt ∧ p.countUntracked.rbp = p.rbp ∧
    p.countUntracked.ctu = p.ctu ∧ p.countUntracked.rej = p.rej ∧ p.countUntracked.spm = p.spm ∧
    p.countUntracked.sac = p.sac ∧ p.countUntracked.odk = p.odk ∧ p.countUntracked.syncLine = p.syncLine ∧
    p.countUntracked.lrst = p.lrst ∧ p.countUntracked.freeCount = p.freeCount ∧
    p.countUntracked.rpu.phase = p.rpu.phase ∧ p.countUntracked.rpu.lineResetBusy = p.rpu.lineResetBusy ∧
    p.countUntracked.rpu.threshold = p.rpu.threshold ∧ p.countUntracked.rpu.busData = p.rpu.busData ∧
    p.countUntracked.rpu.fault = p.rpu.fault ∧ p.countUntracked.trl.nextSeq = p.trl.nextSeq := by
  unfold Part.countUntracked; simp

@[simp] theorem Part.turnAway_frame (p : Part) :
    p.turnAway.mtu = p.mtu ∧ p.turnAway.cvt = p.cvt ∧ p.turnAway.rbp = p.rbp ∧ p.turnAway.ctu = p.ctu ∧
    p.turnAway.rej = p.rej ∧ p.turnAway.spm = p.spm ∧ p.turnAway.sac = p.sac ∧ p.turnAway.odk = p.odk ∧
    p.turnAway.syncLine = p.syncLine ∧ p.turnAway.lrst = p.lrst ∧ p.turnAway.freeCount = p.freeCount ∧
    p.turnAway.rpu.phase = p.rpu.phase ∧ p.turnAway.rpu.lineResetBusy = p.rpu.lineResetBusy ∧
    p.turnAway.rpu.threshold = p.rpu.threshold ∧ p.turnAway.rpu.busData = p.rpu.busData ∧
    p.turnAway.rpu.fault = p.rpu.fault ∧ p.turnAway.trl.nextSeq = p.trl.nextSeq := by
  unfold Part.turnAway; simp

@[simp] theorem Part.append_frame (p : Part) (r : Record) :
    (p.append r).mtu = p.mtu ∧ (p.append r).cvt = p.cvt ∧ (p.append r).rbp = p.rbp ∧ (p.append r).ctu = p.ctu ∧
    (p.append r).rej = p.rej ∧ (p.append r).spm = p.spm ∧ (p.append r).sac = p.sac ∧ (p.append r).odk = p.odk ∧
    (p.append r).syncLine = p.syncLine ∧ (p.append r).lrst = p.lrst ∧ (p.append r).freeCount = p.freeCount ∧
    (p.append r).rpu.phase = p.rpu.phase ∧ (p.append r).rpu.lineResetBusy = p.rpu.lineResetBusy ∧
    (p.append r).rpu.threshold = p.rpu.threshold ∧ (p.append r).rpu.busData = p.rpu.busData ∧
    (p.append r).rpu.fault = p.rpu.fault ∧ (p.append r).trl.nextSeq = p.trl.nextSeq := by
  unfold Part.append; simp

@[simp] theorem Part.admitContainer_frame (p : Part) :
    p.admitContainer.mtu = p.mtu ∧ p.admitContainer.rej = p.rej ∧ p.admitContainer.syncLine = p.syncLine ∧
    p.admitContainer.lrst = p.lrst ∧ p.admitContainer.cvt.position = p.cvt.position ∧
    p.admitContainer.cvt.highWater = p.cvt.highWater ∧ p.admitContainer.cvt.depth = p.cvt.depth ∧
    p.admitContainer.cvt.phase = p.cvt.phase ∧ p.admitContainer.cvt.profile = p.cvt.profile ∧
    p.admitContainer.cvt.tracker = p.cvt.tracker ∧ p.admitContainer.cvt.adoption = p.cvt.adoption ∧
    p.admitContainer.odk.queue = p.odk.queue ∧ p.admitContainer.odk.takeIdentity = p.odk.takeIdentity ∧
    p.admitContainer.rpu.phase = p.rpu.phase ∧ p.admitContainer.rpu.lineResetBusy = p.rpu.lineResetBusy ∧
    p.admitContainer.rpu.threshold = p.rpu.threshold ∧ p.admitContainer.rpu.busData = p.rpu.busData ∧
    p.admitContainer.rpu.fault = p.rpu.fault ∧ p.admitContainer.spm.hallHold = p.spm.hallHold ∧
    (∀ k : Fin 16, p.admitContainer.spm.ports[k.val].role = p.spm.ports[k.val].role) ∧
    (∀ k : Fin 16, p.admitContainer.spm.ports[k.val].link = p.spm.ports[k.val].link) ∧
    (∀ k : Fin 8, p.admitContainer.sac.zones[k.val].door = p.sac.zones[k.val].door) := by
  unfold Part.admitContainer; dsimp only; (repeat' split) <;> simp

@[simp] theorem Part.closeVerdicts_frame (p : Part) (seq : Word) :
    (p.closeVerdicts seq).mtu = p.mtu ∧ (p.closeVerdicts seq).cvt = p.cvt ∧ (p.closeVerdicts seq).rbp = p.rbp ∧
    (p.closeVerdicts seq).ctu = p.ctu ∧ (p.closeVerdicts seq).rej = p.rej ∧ (p.closeVerdicts seq).spm = p.spm ∧
    (p.closeVerdicts seq).sac = p.sac ∧ (p.closeVerdicts seq).odk = p.odk ∧ (p.closeVerdicts seq).rpu = p.rpu ∧
    (p.closeVerdicts seq).syncLine = p.syncLine ∧ (p.closeVerdicts seq).lrst = p.lrst ∧
    (p.closeVerdicts seq).mem = p.mem ∧ (p.closeVerdicts seq).freeCount = p.freeCount ∧
    (p.closeVerdicts seq).trl.nextSeq = p.trl.nextSeq := by
  unfold Part.closeVerdicts; simp

@[simp] theorem Part.closeFill_frame (p : Part) (seq : Word) :
    (p.closeFill seq).mtu = p.mtu ∧ (p.closeFill seq).rej = p.rej ∧ (p.closeFill seq).syncLine = p.syncLine ∧
    (p.closeFill seq).lrst = p.lrst ∧ (p.closeFill seq).cvt.position = p.cvt.position ∧
    (p.closeFill seq).cvt.highWater = p.cvt.highWater ∧ (p.closeFill seq).cvt.depth = p.cvt.depth ∧
    (p.closeFill seq).cvt.phase = p.cvt.phase ∧ (p.closeFill seq).cvt.profile = p.cvt.profile ∧
    (p.closeFill seq).cvt.tracker = p.cvt.tracker ∧ (p.closeFill seq).cvt.adoption = p.cvt.adoption ∧
    (p.closeFill seq).odk.queue = p.odk.queue ∧ (p.closeFill seq).odk.takeIdentity = p.odk.takeIdentity ∧
    (p.closeFill seq).rpu.phase = p.rpu.phase ∧ (p.closeFill seq).rpu.lineResetBusy = p.rpu.lineResetBusy ∧
    (p.closeFill seq).rpu.threshold = p.rpu.threshold ∧ (p.closeFill seq).rpu.busData = p.rpu.busData ∧
    (p.closeFill seq).rpu.fault = p.rpu.fault ∧ (p.closeFill seq).spm.hallHold = p.spm.hallHold ∧
    (p.closeFill seq).trl.nextSeq = p.trl.nextSeq ∧
    (∀ k : Fin 6, (p.closeFill seq).rbp.robots[k.val].pins = p.rbp.robots[k.val].pins) ∧
    (∀ k : Fin 16, (p.closeFill seq).spm.ports[k.val].role = p.spm.ports[k.val].role) ∧
    (∀ k : Fin 16, (p.closeFill seq).spm.ports[k.val].link = p.spm.ports[k.val].link) ∧
    (∀ k : Fin 8, (p.closeFill seq).sac.zones[k.val].door = p.sac.zones[k.val].door) := by
  unfold Part.closeFill; (repeat' split) <;> simp

@[simp] theorem Part.settle_frame (p : Part) (seq : Word) :
    (p.settle seq).mtu = p.mtu ∧ (p.settle seq).syncLine = p.syncLine ∧ (p.settle seq).lrst = p.lrst ∧
    (p.settle seq).cvt.position = p.cvt.position ∧ (p.settle seq).cvt.highWater = p.cvt.highWater ∧
    (p.settle seq).cvt.depth = p.cvt.depth ∧ (p.settle seq).cvt.phase = p.cvt.phase ∧
    (p.settle seq).cvt.profile = p.cvt.profile ∧ (p.settle seq).cvt.adoption = p.cvt.adoption ∧
    (p.settle seq).odk.queue = p.odk.queue ∧ (p.settle seq).odk.takeIdentity = p.odk.takeIdentity ∧
    (p.settle seq).rpu.phase = p.rpu.phase ∧ (p.settle seq).rpu.lineResetBusy = p.rpu.lineResetBusy ∧
    (p.settle seq).rpu.threshold = p.rpu.threshold ∧ (p.settle seq).rpu.busData = p.rpu.busData ∧
    (p.settle seq).spm.hallHold = p.spm.hallHold ∧
    (∀ k : Fin 6, (p.settle seq).rbp.robots[k.val].pins = p.rbp.robots[k.val].pins) ∧
    (∀ k : Fin 16, (p.settle seq).spm.ports[k.val].role = p.spm.ports[k.val].role) ∧
    (∀ k : Fin 16, (p.settle seq).spm.ports[k.val].link = p.spm.ports[k.val].link) ∧
    (∀ k : Fin 8, (p.settle seq).sac.zones[k.val].door = p.sac.zones[k.val].door) := by
  unfold Part.settle; dsimp only; (repeat' split) <;> simp

@[simp] theorem Part.ejectorStation_frame (p : Part) (seq : Word) :
    (p.ejectorStation seq).mtu = p.mtu ∧ (p.ejectorStation seq).ctu = p.ctu ∧ (p.ejectorStation seq).spm = p.spm ∧
    (p.ejectorStation seq).sac = p.sac ∧ (p.ejectorStation seq).syncLine = p.syncLine ∧
    (p.ejectorStation seq).lrst = p.lrst ∧ (p.ejectorStation seq).cvt.position = p.cvt.position ∧
    (p.ejectorStation seq).cvt.highWater = p.cvt.highWater ∧ (p.ejectorStation seq).cvt.depth = p.cvt.depth ∧
    (p.ejectorStation seq).cvt.phase = p.cvt.phase ∧ (p.ejectorStation seq).cvt.profile = p.cvt.profile ∧
    (p.ejectorStation seq).cvt.adoption = p.cvt.adoption ∧ (p.ejectorStation seq).odk.queue = p.odk.queue ∧
    (p.ejectorStation seq).odk.takeIdentity = p.odk.takeIdentity ∧ (p.ejectorStation seq).rpu.phase = p.rpu.phase ∧
    (p.ejectorStation seq).rpu.lineResetBusy = p.rpu.lineResetBusy ∧
    (p.ejectorStation seq).rpu.threshold = p.rpu.threshold ∧ (p.ejectorStation seq).rpu.busData = p.rpu.busData ∧
    (∀ k : Fin 6, (p.ejectorStation seq).rbp.robots[k.val].state = p.rbp.robots[k.val].state) ∧
    (∀ k : Fin 6, (p.ejectorStation seq).rbp.robots[k.val].pins = p.rbp.robots[k.val].pins) := by
  unfold Part.ejectorStation; (repeat' split) <;> simp

@[simp] theorem Part.markRejectOrder_frame (p : Part) (ref : OrderRef) (seq : Word) :
    (p.markRejectOrder ref seq).mtu = p.mtu ∧ (p.markRejectOrder ref seq).cvt = p.cvt ∧
    (p.markRejectOrder ref seq).rbp = p.rbp ∧ (p.markRejectOrder ref seq).ctu = p.ctu ∧
    (p.markRejectOrder ref seq).rej = p.rej ∧ (p.markRejectOrder ref seq).spm = p.spm ∧
    (p.markRejectOrder ref seq).sac = p.sac ∧ (p.markRejectOrder ref seq).syncLine = p.syncLine ∧
    (p.markRejectOrder ref seq).lrst = p.lrst ∧ (p.markRejectOrder ref seq).freeCount = p.freeCount ∧
    (p.markRejectOrder ref seq).odk.queue = p.odk.queue ∧
    (p.markRejectOrder ref seq).odk.takeIdentity = p.odk.takeIdentity ∧
    (p.markRejectOrder ref seq).rpu.phase = p.rpu.phase ∧
    (p.markRejectOrder ref seq).rpu.lineResetBusy = p.rpu.lineResetBusy ∧
    (p.markRejectOrder ref seq).rpu.threshold = p.rpu.threshold ∧
    (p.markRejectOrder ref seq).rpu.busData = p.rpu.busData ∧ (p.markRejectOrder ref seq).rpu.fault = p.rpu.fault ∧
    (p.markRejectOrder ref seq).trl.nextSeq = p.trl.nextSeq := by
  unfold Part.markRejectOrder; dsimp only; (repeat' split) <;> simp

@[simp] theorem Part.clearCounts_frame (p : Part) :
    p.clearCounts.mtu = p.mtu ∧ p.clearCounts.spm = p.spm ∧ p.clearCounts.sac = p.sac ∧ p.clearCounts.odk = p.odk ∧
    p.clearCounts.rpu = p.rpu ∧ p.clearCounts.syncLine = p.syncLine ∧ p.clearCounts.lrst = p.lrst ∧
    p.clearCounts.mem = p.mem ∧ p.clearCounts.freeCount = p.freeCount ∧ p.clearCounts.cvt.position = p.cvt.position ∧
    p.clearCounts.cvt.highWater = p.cvt.highWater ∧ p.clearCounts.cvt.depth = p.cvt.depth ∧
    p.clearCounts.cvt.phase = p.cvt.phase ∧ p.clearCounts.cvt.profile = p.cvt.profile ∧
    p.clearCounts.cvt.tracker = p.cvt.tracker ∧ p.clearCounts.cvt.adoption = p.cvt.adoption ∧
    (∀ k : Fin 6, p.clearCounts.rbp.robots[k.val].state = p.rbp.robots[k.val].state) ∧
    (∀ k : Fin 6, p.clearCounts.rbp.robots[k.val].pins = p.rbp.robots[k.val].pins) := by
  unfold Part.clearCounts; dsimp only; simp

@[simp] theorem Part.countersClearOrder_frame (p : Part) (ref : OrderRef) :
    (p.countersClearOrder ref).mtu = p.mtu ∧ (p.countersClearOrder ref).spm = p.spm ∧
    (p.countersClearOrder ref).sac = p.sac ∧ (p.countersClearOrder ref).syncLine = p.syncLine ∧
    (p.countersClearOrder ref).lrst = p.lrst ∧ (p.countersClearOrder ref).freeCount = p.freeCount ∧
    (p.countersClearOrder ref).cvt.position = p.cvt.position ∧
    (p.countersClearOrder ref).cvt.highWater = p.cvt.highWater ∧ (p.countersClearOrder ref).cvt.depth = p.cvt.depth ∧
    (p.countersClearOrder ref).cvt.phase = p.cvt.phase ∧ (p.countersClearOrder ref).cvt.profile = p.cvt.profile ∧
    (p.countersClearOrder ref).cvt.tracker = p.cvt.tracker ∧
    (p.countersClearOrder ref).cvt.adoption = p.cvt.adoption ∧ (p.countersClearOrder ref).odk.queue = p.odk.queue ∧
    (p.countersClearOrder ref).odk.takeIdentity = p.odk.takeIdentity ∧
    (p.countersClearOrder ref).rpu.phase = p.rpu.phase ∧
    (p.countersClearOrder ref).rpu.lineResetBusy = p.rpu.lineResetBusy ∧
    (p.countersClearOrder ref).rpu.threshold = p.rpu.threshold ∧
    (p.countersClearOrder ref).rpu.busData = p.rpu.busData ∧ (p.countersClearOrder ref).rpu.fault = p.rpu.fault ∧
    (∀ k : Fin 6, (p.countersClearOrder ref).rbp.robots[k.val].state = p.rbp.robots[k.val].state) ∧
    (∀ k : Fin 6, (p.countersClearOrder ref).rbp.robots[k.val].pins = p.rbp.robots[k.val].pins) := by
  unfold Part.countersClearOrder; dsimp only; (repeat' split) <;> simp

@[simp] theorem Part.transitLineReset_frame (p : Part) :
    p.transitLineReset.mtu = p.mtu ∧ p.transitLineReset.cvt = p.cvt ∧ p.transitLineReset.rbp = p.rbp ∧
    p.transitLineReset.ctu = p.ctu ∧ p.transitLineReset.rej = p.rej ∧ p.transitLineReset.spm = p.spm ∧
    p.transitLineReset.sac = p.sac ∧ p.transitLineReset.odk = p.odk ∧ p.transitLineReset.syncLine = p.syncLine ∧
    p.transitLineReset.lrst = p.lrst ∧ p.transitLineReset.freeCount = p.freeCount ∧
    p.transitLineReset.rpu.phase = p.rpu.phase ∧ p.transitLineReset.rpu.lineResetBusy = p.rpu.lineResetBusy ∧
    p.transitLineReset.rpu.threshold = p.rpu.threshold ∧ p.transitLineReset.rpu.busData = p.rpu.busData ∧
    p.transitLineReset.rpu.fault = p.rpu.fault := by
  unfold Part.transitLineReset; dsimp only; (repeat' split) <;> simp

@[simp] theorem Part.fallSilent_frame (p : Part) (i : Fin 16) :
    (p.fallSilent i).mtu = p.mtu ∧ (p.fallSilent i).cvt = p.cvt ∧ (p.fallSilent i).rej = p.rej ∧
    (p.fallSilent i).syncLine = p.syncLine ∧ (p.fallSilent i).lrst = p.lrst ∧
    (p.fallSilent i).odk.queue = p.odk.queue ∧ (p.fallSilent i).odk.takeIdentity = p.odk.takeIdentity ∧
    (p.fallSilent i).rpu.phase = p.rpu.phase ∧ (p.fallSilent i).rpu.lineResetBusy = p.rpu.lineResetBusy ∧
    (p.fallSilent i).rpu.threshold = p.rpu.threshold ∧ (p.fallSilent i).rpu.busData = p.rpu.busData ∧
    (p.fallSilent i).rpu.fault = p.rpu.fault ∧ (p.fallSilent i).spm.hallHold = p.spm.hallHold ∧
    (p.fallSilent i).trl.nextSeq = p.trl.nextSeq ∧
    (∀ k : Fin 6, (p.fallSilent i).rbp.robots[k.val].pins = p.rbp.robots[k.val].pins) ∧
    (∀ k : Fin 16, (p.fallSilent i).spm.ports[k.val].role = p.spm.ports[k.val].role) ∧
    (∀ k : Fin 16, (p.fallSilent i).spm.ports[k.val].link = p.spm.ports[k.val].link) ∧
    (∀ k : Fin 8, (p.fallSilent i).sac.zones[k.val].door = p.sac.zones[k.val].door) := by
  unfold Part.fallSilent; dsimp only; (repeat' split) <;> simp

@[simp] theorem Part.portSilence_frame (p : Part) (i : Fin 16) :
    (p.portSilence i).mtu = p.mtu ∧ (p.portSilence i).cvt = p.cvt ∧ (p.portSilence i).rej = p.rej ∧
    (p.portSilence i).syncLine = p.syncLine ∧ (p.portSilence i).lrst = p.lrst ∧
    (p.portSilence i).odk.queue = p.odk.queue ∧ (p.portSilence i).odk.takeIdentity = p.odk.takeIdentity ∧
    (p.portSilence i).rpu.phase = p.rpu.phase ∧ (p.portSilence i).rpu.lineResetBusy = p.rpu.lineResetBusy ∧
    (p.portSilence i).rpu.threshold = p.rpu.threshold ∧ (p.portSilence i).rpu.busData = p.rpu.busData ∧
    (p.portSilence i).rpu.fault = p.rpu.fault ∧ (p.portSilence i).spm.hallHold = p.spm.hallHold ∧
    (p.portSilence i).trl.nextSeq = p.trl.nextSeq ∧
    (∀ k : Fin 6, (p.portSilence i).rbp.robots[k.val].pins = p.rbp.robots[k.val].pins) ∧
    (∀ k : Fin 16, (p.portSilence i).spm.ports[k.val].role = p.spm.ports[k.val].role) ∧
    (∀ k : Fin 16, (p.portSilence i).spm.ports[k.val].link = p.spm.ports[k.val].link) ∧
    (∀ k : Fin 8, (p.portSilence i).sac.zones[k.val].door = p.sac.zones[k.val].door) := by
  unfold Part.portSilence; dsimp only; (repeat' split) <;> simp

end Sys2Proof.Machine
end

