-- ==== Sys2Proof/Laws/FrameTracker.lean ====
section
/-! SUPPORT. What each operation of the Conveyor Tracker leaves unchanged: one theorem per operation. -/

namespace Sys2Proof.Machine

@[simp] theorem Part.enterCrawl_frame (p : Part) :
    p.enterCrawl.mtu = p.mtu ∧ p.enterCrawl.trl = p.trl ∧ p.enterCrawl.rbp = p.rbp ∧ p.enterCrawl.spm = p.spm ∧
    p.enterCrawl.sac = p.sac ∧ p.enterCrawl.odk = p.odk ∧ p.enterCrawl.syncLine = p.syncLine ∧
    p.enterCrawl.lrst = p.lrst ∧ p.enterCrawl.freeCount = p.freeCount ∧ p.enterCrawl.cvt.position = p.cvt.position ∧
    p.enterCrawl.cvt.highWater = p.cvt.highWater ∧ p.enterCrawl.cvt.depth = p.cvt.depth ∧
    p.enterCrawl.cvt.phase = p.cvt.phase ∧ p.enterCrawl.cvt.profile = p.cvt.profile ∧
    p.enterCrawl.cvt.tracker = p.cvt.tracker ∧ p.enterCrawl.cvt.adoption = p.cvt.adoption ∧
    p.enterCrawl.rpu.phase = p.rpu.phase ∧ p.enterCrawl.rpu.lineResetBusy = p.rpu.lineResetBusy ∧
    p.enterCrawl.rpu.threshold = p.rpu.threshold ∧ p.enterCrawl.rpu.busData = p.rpu.busData ∧
    p.enterCrawl.rpu.fault = p.rpu.fault := by
  unfold Part.enterCrawl; dsimp only; (repeat' split) <;> simp

@[simp] theorem Part.handPace_frame (p : Part) :
    p.handPace.mtu = p.mtu ∧ p.handPace.spm = p.spm ∧ p.handPace.sac = p.sac ∧ p.handPace.syncLine = p.syncLine ∧
    p.handPace.lrst = p.lrst ∧ p.handPace.cvt.position = p.cvt.position ∧
    p.handPace.cvt.highWater = p.cvt.highWater ∧ p.handPace.cvt.depth = p.cvt.depth ∧
    p.handPace.cvt.phase = p.cvt.phase ∧ p.handPace.cvt.profile = p.cvt.profile ∧
    p.handPace.cvt.adoption = p.cvt.adoption ∧ p.handPace.odk.queue = p.odk.queue ∧
    p.handPace.odk.takeIdentity = p.odk.takeIdentity ∧ p.handPace.rpu.phase = p.rpu.phase ∧
    p.handPace.rpu.lineResetBusy = p.rpu.lineResetBusy ∧ p.handPace.rpu.threshold = p.rpu.threshold ∧
    p.handPace.rpu.busData = p.rpu.busData ∧
    (∀ k : Fin 6, p.handPace.rbp.robots[k.val].state = p.rbp.robots[k.val].state) ∧
    (∀ k : Fin 6, p.handPace.rbp.robots[k.val].pins = p.rbp.robots[k.val].pins) := by
  unfold Part.handPace; simp

@[simp] theorem Part.judgePace_frame (p : Part) (f : Profile) :
    (p.judgePace f).mtu = p.mtu ∧ (p.judgePace f).spm = p.spm ∧ (p.judgePace f).sac = p.sac ∧
    (p.judgePace f).syncLine = p.syncLine ∧ (p.judgePace f).lrst = p.lrst ∧
    (p.judgePace f).cvt.position = p.cvt.position ∧ (p.judgePace f).cvt.highWater = p.cvt.highWater ∧
    (p.judgePace f).cvt.depth = p.cvt.depth ∧ (p.judgePace f).cvt.phase = p.cvt.phase ∧
    (p.judgePace f).cvt.profile = p.cvt.profile ∧ (p.judgePace f).cvt.adoption = p.cvt.adoption ∧
    (p.judgePace f).odk.queue = p.odk.queue ∧ (p.judgePace f).odk.takeIdentity = p.odk.takeIdentity ∧
    (p.judgePace f).rpu.phase = p.rpu.phase ∧ (p.judgePace f).rpu.lineResetBusy = p.rpu.lineResetBusy ∧
    (p.judgePace f).rpu.threshold = p.rpu.threshold ∧ (p.judgePace f).rpu.busData = p.rpu.busData ∧
    (∀ k : Fin 6, (p.judgePace f).rbp.robots[k.val].state = p.rbp.robots[k.val].state) ∧
    (∀ k : Fin 6, (p.judgePace f).rbp.robots[k.val].pins = p.rbp.robots[k.val].pins) := by
  unfold Part.judgePace; dsimp only; (repeat' split) <;> simp

@[simp] theorem Part.mark_frame (p : Part) (f : Profile) :
    (p.mark f).mtu = p.mtu ∧ (p.mark f).spm = p.spm ∧ (p.mark f).sac = p.sac ∧ (p.mark f).syncLine = p.syncLine ∧
    (p.mark f).lrst = p.lrst ∧ (p.mark f).cvt.position = p.cvt.position ∧
    (p.mark f).cvt.highWater = p.cvt.highWater ∧ (p.mark f).cvt.depth = p.cvt.depth ∧
    (p.mark f).cvt.phase = p.cvt.phase ∧ (p.mark f).cvt.profile = p.cvt.profile ∧
    (p.mark f).cvt.adoption = p.cvt.adoption ∧ (p.mark f).odk.queue = p.odk.queue ∧
    (p.mark f).odk.takeIdentity = p.odk.takeIdentity ∧ (p.mark f).rpu.phase = p.rpu.phase ∧
    (p.mark f).rpu.lineResetBusy = p.rpu.lineResetBusy ∧ (p.mark f).rpu.threshold = p.rpu.threshold ∧
    (p.mark f).rpu.busData = p.rpu.busData ∧
    (∀ k : Fin 6, (p.mark f).rbp.robots[k.val].state = p.rbp.robots[k.val].state) ∧
    (∀ k : Fin 6, (p.mark f).rbp.robots[k.val].pins = p.rbp.robots[k.val].pins) := by
  unfold Part.mark; dsimp only; (repeat' split) <;> simp

@[simp] theorem Part.markTimedOut_frame (p : Part) :
    p.markTimedOut.mtu = p.mtu ∧ p.markTimedOut.trl = p.trl ∧ p.markTimedOut.rbp = p.rbp ∧
    p.markTimedOut.spm = p.spm ∧ p.markTimedOut.sac = p.sac ∧ p.markTimedOut.odk = p.odk ∧
    p.markTimedOut.syncLine = p.syncLine ∧ p.markTimedOut.lrst = p.lrst ∧ p.markTimedOut.freeCount = p.freeCount ∧
    p.markTimedOut.cvt.position = p.cvt.position ∧ p.markTimedOut.cvt.highWater = p.cvt.highWater ∧
    p.markTimedOut.cvt.depth = p.cvt.depth ∧ p.markTimedOut.cvt.phase = p.cvt.phase ∧
    p.markTimedOut.cvt.profile = p.cvt.profile ∧ p.markTimedOut.cvt.tracker = p.cvt.tracker ∧
    p.markTimedOut.cvt.adoption = p.cvt.adoption ∧ p.markTimedOut.rpu.phase = p.rpu.phase ∧
    p.markTimedOut.rpu.lineResetBusy = p.rpu.lineResetBusy ∧ p.markTimedOut.rpu.threshold = p.rpu.threshold ∧
    p.markTimedOut.rpu.busData = p.rpu.busData ∧ p.markTimedOut.rpu.fault = p.rpu.fault := by
  unfold Part.markTimedOut; (repeat' split) <;> simp

@[simp] theorem Part.sample_frame (p : Part) :
    p.sample.mtu = p.mtu ∧ p.sample.rej = p.rej ∧ p.sample.syncLine = p.syncLine ∧ p.sample.lrst = p.lrst ∧
    p.sample.cvt.position = p.cvt.position ∧ p.sample.cvt.highWater = p.cvt.highWater ∧
    p.sample.cvt.depth = p.cvt.depth ∧ p.sample.cvt.phase = p.cvt.phase ∧ p.sample.cvt.profile = p.cvt.profile ∧
    p.sample.cvt.tracker = p.cvt.tracker ∧ p.sample.cvt.adoption = p.cvt.adoption ∧
    p.sample.odk.queue = p.odk.queue ∧ p.sample.odk.takeIdentity = p.odk.takeIdentity ∧
    p.sample.rpu.phase = p.rpu.phase ∧ p.sample.rpu.lineResetBusy = p.rpu.lineResetBusy ∧
    p.sample.rpu.threshold = p.rpu.threshold ∧ p.sample.rpu.busData = p.rpu.busData ∧
    p.sample.rpu.fault = p.rpu.fault ∧ p.sample.spm.hallHold = p.spm.hallHold ∧
    (∀ k : Fin 16, p.sample.spm.ports[k.val].role = p.spm.ports[k.val].role) ∧
    (∀ k : Fin 16, p.sample.spm.ports[k.val].link = p.spm.ports[k.val].link) ∧
    (∀ k : Fin 8, p.sample.sac.zones[k.val].door = p.sac.zones[k.val].door) := by
  unfold Part.sample; dsimp only; (repeat' split) <;> simp

@[simp] theorem Part.arrive_frame (p : Part) (seq : Word) (st : Station) :
    (p.arrive seq st).mtu = p.mtu ∧ (p.arrive seq st).syncLine = p.syncLine ∧ (p.arrive seq st).lrst = p.lrst ∧
    (p.arrive seq st).cvt.position = p.cvt.position ∧ (p.arrive seq st).cvt.highWater = p.cvt.highWater ∧
    (p.arrive seq st).cvt.depth = p.cvt.depth ∧ (p.arrive seq st).cvt.phase = p.cvt.phase ∧
    (p.arrive seq st).cvt.profile = p.cvt.profile ∧ (p.arrive seq st).cvt.adoption = p.cvt.adoption ∧
    (p.arrive seq st).odk.queue = p.odk.queue ∧ (p.arrive seq st).odk.takeIdentity = p.odk.takeIdentity ∧
    (p.arrive seq st).rpu.phase = p.rpu.phase ∧ (p.arrive seq st).rpu.lineResetBusy = p.rpu.lineResetBusy ∧
    (p.arrive seq st).rpu.threshold = p.rpu.threshold ∧ (p.arrive seq st).rpu.busData = p.rpu.busData ∧
    (p.arrive seq st).spm.hallHold = p.spm.hallHold ∧
    (∀ k : Fin 6, (p.arrive seq st).rbp.robots[k.val].pins = p.rbp.robots[k.val].pins) ∧
    (∀ k : Fin 16, (p.arrive seq st).spm.ports[k.val].role = p.spm.ports[k.val].role) ∧
    (∀ k : Fin 16, (p.arrive seq st).spm.ports[k.val].link = p.spm.ports[k.val].link) ∧
    (∀ k : Fin 8, (p.arrive seq st).sac.zones[k.val].door = p.sac.zones[k.val].door) := by
  unfold Part.arrive; (repeat' split) <;> simp

@[simp] theorem Part.raisePending_frame (p : Part) (f : Profile) (e : Pending) :
    (p.raisePending f e).mtu = p.mtu ∧ (p.raisePending f e).syncLine = p.syncLine ∧
    (p.raisePending f e).lrst = p.lrst ∧ (p.raisePending f e).cvt.position = p.cvt.position ∧
    (p.raisePending f e).cvt.highWater = p.cvt.highWater ∧ (p.raisePending f e).cvt.depth = p.cvt.depth ∧
    (p.raisePending f e).cvt.phase = p.cvt.phase ∧ (p.raisePending f e).cvt.profile = p.cvt.profile ∧
    (p.raisePending f e).cvt.adoption = p.cvt.adoption ∧ (p.raisePending f e).odk.queue = p.odk.queue ∧
    (p.raisePending f e).odk.takeIdentity = p.odk.takeIdentity ∧ (p.raisePending f e).rpu.phase = p.rpu.phase ∧
    (p.raisePending f e).rpu.lineResetBusy = p.rpu.lineResetBusy ∧
    (p.raisePending f e).rpu.threshold = p.rpu.threshold ∧ (p.raisePending f e).rpu.busData = p.rpu.busData ∧
    (p.raisePending f e).spm.hallHold = p.spm.hallHold ∧
    (∀ k : Fin 16, (p.raisePending f e).spm.ports[k.val].role = p.spm.ports[k.val].role) ∧
    (∀ k : Fin 16, (p.raisePending f e).spm.ports[k.val].link = p.spm.ports[k.val].link) ∧
    (∀ k : Fin 8, (p.raisePending f e).sac.zones[k.val].door = p.sac.zones[k.val].door) := by
  unfold Part.raisePending; (repeat' split) <;> simp

@[simp] theorem Part.travel_frame (n : Nat) (choices : List Nat) (sample : Bool) (mark : Bool) (p : Part)
    (f : Profile) :
    (Part.travel n choices sample mark p f).mtu = p.mtu ∧
    (Part.travel n choices sample mark p f).syncLine = p.syncLine ∧
    (Part.travel n choices sample mark p f).lrst = p.lrst ∧
    (Part.travel n choices sample mark p f).cvt.position = p.cvt.position ∧
    (Part.travel n choices sample mark p f).cvt.highWater = p.cvt.highWater ∧
    (Part.travel n choices sample mark p f).cvt.depth = p.cvt.depth ∧
    (Part.travel n choices sample mark p f).cvt.phase = p.cvt.phase ∧
    (Part.travel n choices sample mark p f).cvt.profile = p.cvt.profile ∧
    (Part.travel n choices sample mark p f).cvt.adoption = p.cvt.adoption ∧
    (Part.travel n choices sample mark p f).odk.queue = p.odk.queue ∧
    (Part.travel n choices sample mark p f).odk.takeIdentity = p.odk.takeIdentity ∧
    (Part.travel n choices sample mark p f).rpu.phase = p.rpu.phase ∧
    (Part.travel n choices sample mark p f).rpu.lineResetBusy = p.rpu.lineResetBusy ∧
    (Part.travel n choices sample mark p f).rpu.threshold = p.rpu.threshold ∧
    (Part.travel n choices sample mark p f).rpu.busData = p.rpu.busData ∧
    (Part.travel n choices sample mark p f).spm.hallHold = p.spm.hallHold ∧
    (∀ k : Fin 16, (Part.travel n choices sample mark p f).spm.ports[k.val].role = p.spm.ports[k.val].role) ∧
    (∀ k : Fin 16, (Part.travel n choices sample mark p f).spm.ports[k.val].link = p.spm.ports[k.val].link) ∧
    (∀ k : Fin 8, (Part.travel n choices sample mark p f).sac.zones[k.val].door = p.sac.zones[k.val].door) := by
  induction n generalizing choices sample mark p with
  | zero => simp [Part.travel]
  | succ n ih => unfold Part.travel; dsimp only; split <;> simp [ih]

@[simp] theorem Part.advance_frame (p : Part) (choices : List Nat) :
    (p.advance choices).mtu = p.mtu ∧ (p.advance choices).syncLine = p.syncLine ∧ (p.advance choices).lrst = p.lrst ∧
    (p.advance choices).cvt.depth = p.cvt.depth ∧ (p.advance choices).cvt.profile = p.cvt.profile ∧
    (p.advance choices).cvt.adoption = p.cvt.adoption ∧ (p.advance choices).odk.queue = p.odk.queue ∧
    (p.advance choices).odk.takeIdentity = p.odk.takeIdentity ∧ (p.advance choices).rpu.phase = p.rpu.phase ∧
    (p.advance choices).rpu.lineResetBusy = p.rpu.lineResetBusy ∧
    (p.advance choices).rpu.threshold = p.rpu.threshold ∧ (p.advance choices).rpu.busData = p.rpu.busData ∧
    (p.advance choices).spm.hallHold = p.spm.hallHold ∧
    (∀ k : Fin 16, (p.advance choices).spm.ports[k.val].role = p.spm.ports[k.val].role) ∧
    (∀ k : Fin 16, (p.advance choices).spm.ports[k.val].link = p.spm.ports[k.val].link) ∧
    (∀ k : Fin 8, (p.advance choices).sac.zones[k.val].door = p.sac.zones[k.val].door) := by
  unfold Part.advance; dsimp only; (repeat' split) <;> simp

@[simp] theorem Part.beginExcursion_frame (p : Part) :
    p.beginExcursion.mtu = p.mtu ∧ p.beginExcursion.trl = p.trl ∧ p.beginExcursion.rbp = p.rbp ∧
    p.beginExcursion.spm = p.spm ∧ p.beginExcursion.sac = p.sac ∧ p.beginExcursion.odk = p.odk ∧
    p.beginExcursion.syncLine = p.syncLine ∧ p.beginExcursion.lrst = p.lrst ∧
    p.beginExcursion.freeCount = p.freeCount ∧ p.beginExcursion.cvt.position = p.cvt.position ∧
    p.beginExcursion.cvt.highWater = p.cvt.highWater ∧ p.beginExcursion.cvt.depth = p.cvt.depth ∧
    p.beginExcursion.cvt.phase = p.cvt.phase ∧ p.beginExcursion.cvt.profile = p.cvt.profile ∧
    p.beginExcursion.cvt.tracker = p.cvt.tracker ∧ p.beginExcursion.cvt.adoption = p.cvt.adoption ∧
    p.beginExcursion.rpu.phase = p.rpu.phase ∧ p.beginExcursion.rpu.lineResetBusy = p.rpu.lineResetBusy ∧
    p.beginExcursion.rpu.threshold = p.rpu.threshold ∧ p.beginExcursion.rpu.busData = p.rpu.busData := by
  unfold Part.beginExcursion; dsimp only; simp

@[simp] theorem Part.endExcursion_frame (p : Part) :
    p.endExcursion.mtu = p.mtu ∧ p.endExcursion.trl = p.trl ∧ p.endExcursion.rbp = p.rbp ∧
    p.endExcursion.ctu = p.ctu ∧ p.endExcursion.rej = p.rej ∧ p.endExcursion.spm = p.spm ∧
    p.endExcursion.sac = p.sac ∧ p.endExcursion.odk = p.odk ∧ p.endExcursion.syncLine = p.syncLine ∧
    p.endExcursion.lrst = p.lrst ∧ p.endExcursion.freeCount = p.freeCount ∧
    p.endExcursion.cvt.position = p.cvt.position ∧ p.endExcursion.cvt.highWater = p.cvt.highWater ∧
    p.endExcursion.cvt.depth = p.cvt.depth ∧ p.endExcursion.cvt.phase = p.cvt.phase ∧
    p.endExcursion.cvt.profile = p.cvt.profile ∧ p.endExcursion.cvt.tracker = p.cvt.tracker ∧
    p.endExcursion.cvt.adoption = p.cvt.adoption ∧ p.endExcursion.rpu.phase = p.rpu.phase ∧
    p.endExcursion.rpu.lineResetBusy = p.rpu.lineResetBusy ∧ p.endExcursion.rpu.threshold = p.rpu.threshold ∧
    p.endExcursion.rpu.busData = p.rpu.busData ∧ p.endExcursion.rpu.fault = p.rpu.fault := by
  unfold Part.endExcursion; simp

@[simp] theorem Part.forward_frame (p : Part) (choices : List Nat) :
    (p.forward choices).mtu = p.mtu ∧ (p.forward choices).syncLine = p.syncLine ∧ (p.forward choices).lrst = p.lrst ∧
    (p.forward choices).cvt.profile = p.cvt.profile ∧ (p.forward choices).cvt.adoption = p.cvt.adoption ∧
    (p.forward choices).odk.queue = p.odk.queue ∧ (p.forward choices).odk.takeIdentity = p.odk.takeIdentity ∧
    (p.forward choices).rpu.phase = p.rpu.phase ∧ (p.forward choices).rpu.lineResetBusy = p.rpu.lineResetBusy ∧
    (p.forward choices).rpu.threshold = p.rpu.threshold ∧ (p.forward choices).rpu.busData = p.rpu.busData ∧
    (p.forward choices).spm.hallHold = p.spm.hallHold ∧
    (∀ k : Fin 16, (p.forward choices).spm.ports[k.val].role = p.spm.ports[k.val].role) ∧
    (∀ k : Fin 16, (p.forward choices).spm.ports[k.val].link = p.spm.ports[k.val].link) ∧
    (∀ k : Fin 8, (p.forward choices).sac.zones[k.val].door = p.sac.zones[k.val].door) := by
  unfold Part.forward; dsimp only; (repeat' split) <;> simp

@[simp] theorem Part.backward_frame (p : Part) :
    p.backward.mtu = p.mtu ∧ p.backward.trl = p.trl ∧ p.backward.rbp = p.rbp ∧ p.backward.spm = p.spm ∧
    p.backward.sac = p.sac ∧ p.backward.odk = p.odk ∧ p.backward.syncLine = p.syncLine ∧ p.backward.lrst = p.lrst ∧
    p.backward.freeCount = p.freeCount ∧ p.backward.rpu.phase = p.rpu.phase ∧
    p.backward.rpu.lineResetBusy = p.rpu.lineResetBusy ∧ p.backward.rpu.threshold = p.rpu.threshold ∧
    p.backward.rpu.busData = p.rpu.busData := by
  unfold Part.backward; dsimp only; (repeat' split) <;> simp

@[simp] theorem Part.encoderError_frame (p : Part) :
    p.encoderError.mtu = p.mtu ∧ p.encoderError.trl = p.trl ∧ p.encoderError.rbp = p.rbp ∧
    p.encoderError.ctu = p.ctu ∧ p.encoderError.rej = p.rej ∧ p.encoderError.spm = p.spm ∧
    p.encoderError.sac = p.sac ∧ p.encoderError.odk = p.odk ∧ p.encoderError.syncLine = p.syncLine ∧
    p.encoderError.lrst = p.lrst ∧ p.encoderError.freeCount = p.freeCount ∧
    p.encoderError.cvt.position = p.cvt.position ∧ p.encoderError.cvt.highWater = p.cvt.highWater ∧
    p.encoderError.cvt.depth = p.cvt.depth ∧ p.encoderError.cvt.phase = p.cvt.phase ∧
    p.encoderError.cvt.profile = p.cvt.profile ∧ p.encoderError.cvt.tracker = p.cvt.tracker ∧
    p.encoderError.cvt.adoption = p.cvt.adoption ∧ p.encoderError.rpu.phase = p.rpu.phase ∧
    p.encoderError.rpu.lineResetBusy = p.rpu.lineResetBusy ∧ p.encoderError.rpu.threshold = p.rpu.threshold ∧
    p.encoderError.rpu.busData = p.rpu.busData ∧ p.encoderError.rpu.fault = p.rpu.fault := by
  unfold Part.encoderError; simp

@[simp] theorem Part.encoderPair_frame (p : Part) (pair : Bool × Bool) (infeed : Bool) (choices : List Nat) :
    (p.encoderPair pair infeed choices).mtu = p.mtu ∧ (p.encoderPair pair infeed choices).syncLine = p.syncLine ∧
    (p.encoderPair pair infeed choices).lrst = p.lrst ∧ (p.encoderPair pair infeed choices).odk.queue = p.odk.queue ∧
    (p.encoderPair pair infeed choices).odk.takeIdentity = p.odk.takeIdentity ∧
    (p.encoderPair pair infeed choices).rpu.phase = p.rpu.phase ∧
    (p.encoderPair pair infeed choices).rpu.lineResetBusy = p.rpu.lineResetBusy ∧
    (p.encoderPair pair infeed choices).rpu.threshold = p.rpu.threshold ∧
    (p.encoderPair pair infeed choices).rpu.busData = p.rpu.busData ∧
    (p.encoderPair pair infeed choices).spm.hallHold = p.spm.hallHold ∧
    (∀ k : Fin 16, (p.encoderPair pair infeed choices).spm.ports[k.val].role = p.spm.ports[k.val].role) ∧
    (∀ k : Fin 16, (p.encoderPair pair infeed choices).spm.ports[k.val].link = p.spm.ports[k.val].link) ∧
    (∀ k : Fin 8, (p.encoderPair pair infeed choices).sac.zones[k.val].door = p.sac.zones[k.val].door) := by
  unfold Part.encoderPair; dsimp only; (repeat' split) <;> simp

@[simp] theorem Part.lineStartOrder_frame (p : Part) (ref : OrderRef) :
    (p.lineStartOrder ref).mtu = p.mtu ∧ (p.lineStartOrder ref).trl = p.trl ∧ (p.lineStartOrder ref).rbp = p.rbp ∧
    (p.lineStartOrder ref).ctu = p.ctu ∧ (p.lineStartOrder ref).rej = p.rej ∧ (p.lineStartOrder ref).spm = p.spm ∧
    (p.lineStartOrder ref).sac = p.sac ∧ (p.lineStartOrder ref).syncLine = p.syncLine ∧
    (p.lineStartOrder ref).lrst = p.lrst ∧ (p.lineStartOrder ref).freeCount = p.freeCount ∧
    (p.lineStartOrder ref).cvt.position = p.cvt.position ∧ (p.lineStartOrder ref).cvt.highWater = p.cvt.highWater ∧
    (p.lineStartOrder ref).cvt.depth = p.cvt.depth ∧ (p.lineStartOrder ref).cvt.phase = p.cvt.phase ∧
    (p.lineStartOrder ref).cvt.profile = p.cvt.profile ∧ (p.lineStartOrder ref).cvt.adoption = p.cvt.adoption ∧
    (p.lineStartOrder ref).odk.queue = p.odk.queue ∧ (p.lineStartOrder ref).odk.takeIdentity = p.odk.takeIdentity ∧
    (p.lineStartOrder ref).rpu.phase = p.rpu.phase ∧ (p.lineStartOrder ref).rpu.lineResetBusy = p.rpu.lineResetBusy ∧
    (p.lineStartOrder ref).rpu.threshold = p.rpu.threshold ∧ (p.lineStartOrder ref).rpu.busData = p.rpu.busData ∧
    (p.lineStartOrder ref).rpu.fault = p.rpu.fault := by
  unfold Part.lineStartOrder; dsimp only; (repeat' split) <;> simp

@[simp] theorem Part.lineStopOrder_frame (p : Part) (ref : OrderRef) :
    (p.lineStopOrder ref).mtu = p.mtu ∧ (p.lineStopOrder ref).trl = p.trl ∧ (p.lineStopOrder ref).ctu = p.ctu ∧
    (p.lineStopOrder ref).rej = p.rej ∧ (p.lineStopOrder ref).spm = p.spm ∧ (p.lineStopOrder ref).sac = p.sac ∧
    (p.lineStopOrder ref).syncLine = p.syncLine ∧ (p.lineStopOrder ref).lrst = p.lrst ∧
    (p.lineStopOrder ref).cvt.position = p.cvt.position ∧ (p.lineStopOrder ref).cvt.highWater = p.cvt.highWater ∧
    (p.lineStopOrder ref).cvt.depth = p.cvt.depth ∧ (p.lineStopOrder ref).cvt.phase = p.cvt.phase ∧
    (p.lineStopOrder ref).cvt.profile = p.cvt.profile ∧ (p.lineStopOrder ref).cvt.adoption = p.cvt.adoption ∧
    (p.lineStopOrder ref).odk.queue = p.odk.queue ∧ (p.lineStopOrder ref).odk.takeIdentity = p.odk.takeIdentity ∧
    (p.lineStopOrder ref).rpu.phase = p.rpu.phase ∧ (p.lineStopOrder ref).rpu.lineResetBusy = p.rpu.lineResetBusy ∧
    (p.lineStopOrder ref).rpu.threshold = p.rpu.threshold ∧ (p.lineStopOrder ref).rpu.busData = p.rpu.busData ∧
    (p.lineStopOrder ref).rpu.fault = p.rpu.fault ∧
    (∀ k : Fin 6, (p.lineStopOrder ref).rbp.robots[k.val].state = p.rbp.robots[k.val].state) ∧
    (∀ k : Fin 6, (p.lineStopOrder ref).rbp.robots[k.val].pins = p.rbp.robots[k.val].pins) := by
  unfold Part.lineStopOrder; (repeat' split) <;> simp

@[simp] theorem Part.trackerLineReset_frame (p : Part) :
    p.trackerLineReset.mtu = p.mtu ∧ p.trackerLineReset.trl = p.trl ∧ p.trackerLineReset.rbp = p.rbp ∧
    p.trackerLineReset.spm = p.spm ∧ p.trackerLineReset.sac = p.sac ∧ p.trackerLineReset.odk = p.odk ∧
    p.trackerLineReset.syncLine = p.syncLine ∧ p.trackerLineReset.lrst = p.lrst ∧
    p.trackerLineReset.freeCount = p.freeCount ∧ p.trackerLineReset.cvt.position = p.cvt.position ∧
    p.trackerLineReset.cvt.profile = p.cvt.profile ∧ p.trackerLineReset.rpu.phase = p.rpu.phase ∧
    p.trackerLineReset.rpu.lineResetBusy = p.rpu.lineResetBusy ∧ p.trackerLineReset.rpu.threshold = p.rpu.threshold ∧
    p.trackerLineReset.rpu.busData = p.rpu.busData ∧ p.trackerLineReset.rpu.fault = p.rpu.fault := by
  unfold Part.trackerLineReset; dsimp only; (repeat' split) <;> simp

end Sys2Proof.Machine
end

