-- ==== Sys2Proof/Laws/FrameTime.lean ====
section
/-! SUPPORT. What each operation of the Machine Time Unit and the Report Unit leaves unchanged: one theorem per
operation. -/

namespace Sys2Proof.Machine

@[simp] theorem Part.tick_frame (p : Part) :
    p.tick.cvt = p.cvt ∧ p.tick.trl = p.trl ∧ p.tick.rbp = p.rbp ∧ p.tick.ctu = p.ctu ∧ p.tick.rej = p.rej ∧
    p.tick.spm = p.spm ∧ p.tick.sac = p.sac ∧ p.tick.odk = p.odk ∧ p.tick.rpu = p.rpu ∧
    p.tick.syncLine = p.syncLine ∧ p.tick.lrst = p.lrst ∧ p.tick.mem = p.mem ∧ p.tick.freeCount = p.freeCount := by
  unfold Part.tick; simp

@[simp] theorem Part.carry_frame (p : Part) :
    p.carry.cvt = p.cvt ∧ p.carry.trl = p.trl ∧ p.carry.rbp = p.rbp ∧ p.carry.ctu = p.ctu ∧ p.carry.rej = p.rej ∧
    p.carry.spm = p.spm ∧ p.carry.sac = p.sac ∧ p.carry.odk = p.odk ∧ p.carry.rpu = p.rpu ∧
    p.carry.syncLine = p.syncLine ∧ p.carry.lrst = p.lrst ∧ p.carry.mem = p.mem ∧
    p.carry.freeCount = p.freeCount := by
  unfold Part.carry; simp

@[simp] theorem Part.timeTrimOrder_frame (p : Part) (ref : OrderRef) (ppb : Word) :
    (p.timeTrimOrder ref ppb).cvt = p.cvt ∧ (p.timeTrimOrder ref ppb).trl = p.trl ∧
    (p.timeTrimOrder ref ppb).rbp = p.rbp ∧ (p.timeTrimOrder ref ppb).ctu = p.ctu ∧
    (p.timeTrimOrder ref ppb).rej = p.rej ∧ (p.timeTrimOrder ref ppb).spm = p.spm ∧
    (p.timeTrimOrder ref ppb).sac = p.sac ∧ (p.timeTrimOrder ref ppb).syncLine = p.syncLine ∧
    (p.timeTrimOrder ref ppb).lrst = p.lrst ∧ (p.timeTrimOrder ref ppb).freeCount = p.freeCount ∧
    (p.timeTrimOrder ref ppb).odk.queue = p.odk.queue ∧
    (p.timeTrimOrder ref ppb).odk.takeIdentity = p.odk.takeIdentity ∧
    (p.timeTrimOrder ref ppb).rpu.phase = p.rpu.phase ∧
    (p.timeTrimOrder ref ppb).rpu.lineResetBusy = p.rpu.lineResetBusy ∧
    (p.timeTrimOrder ref ppb).rpu.threshold = p.rpu.threshold ∧
    (p.timeTrimOrder ref ppb).rpu.busData = p.rpu.busData ∧ (p.timeTrimOrder ref ppb).rpu.fault = p.rpu.fault ∧
    (p.timeTrimOrder ref ppb).mtu.time = p.mtu.time := by
  unfold Part.timeTrimOrder; dsimp only; simp

@[simp] theorem Part.shift_frame (p : Part) (o : Time) :
    (p.shift o).trl = p.trl ∧ (p.shift o).odk = p.odk ∧ (p.shift o).syncLine = p.syncLine ∧
    (p.shift o).lrst = p.lrst ∧ (p.shift o).mem = p.mem ∧ (p.shift o).freeCount = p.freeCount ∧
    (p.shift o).cvt.position = p.cvt.position ∧ (p.shift o).cvt.highWater = p.cvt.highWater ∧
    (p.shift o).cvt.depth = p.cvt.depth ∧ (p.shift o).cvt.phase = p.cvt.phase ∧
    (p.shift o).cvt.profile = p.cvt.profile ∧ (p.shift o).cvt.tracker = p.cvt.tracker ∧
    (p.shift o).cvt.adoption = p.cvt.adoption ∧ (p.shift o).rpu.phase = p.rpu.phase ∧
    (p.shift o).rpu.lineResetBusy = p.rpu.lineResetBusy ∧ (p.shift o).rpu.threshold = p.rpu.threshold ∧
    (p.shift o).rpu.busData = p.rpu.busData ∧ (p.shift o).rpu.fault = p.rpu.fault ∧
    (p.shift o).spm.hallHold = p.spm.hallHold ∧
    (∀ k : Fin 6, (p.shift o).rbp.robots[k.val].state = p.rbp.robots[k.val].state) ∧
    (∀ k : Fin 6, (p.shift o).rbp.robots[k.val].pins = p.rbp.robots[k.val].pins) ∧
    (∀ k : Fin 16, (p.shift o).spm.ports[k.val].role = p.spm.ports[k.val].role) ∧
    (∀ k : Fin 16, (p.shift o).spm.ports[k.val].admission = p.spm.ports[k.val].admission) ∧
    (∀ k : Fin 16, (p.shift o).spm.ports[k.val].link = p.spm.ports[k.val].link) ∧
    (∀ k : Fin 8, (p.shift o).sac.zones[k.val].state = p.sac.zones[k.val].state) ∧
    (∀ k : Fin 8, (p.shift o).sac.zones[k.val].level = p.sac.zones[k.val].level) ∧
    (∀ k : Fin 8, (p.shift o).sac.zones[k.val].origin = p.sac.zones[k.val].origin) ∧
    (∀ k : Fin 8, (p.shift o).sac.zones[k.val].door = p.sac.zones[k.val].door) := by
  refine ⟨?_, ?_, ?_, ?_, ?_, ?_, ?_, ?_, ?_, ?_, ?_, ?_, ?_, ?_, ?_, ?_, ?_, ?_, ?_, ?_, ?_, ?_, ?_, ?_, ?_, ?_, ?_, ?_⟩ <;> first | rfl | (intro k; simp [Part.shift, Rbp.shift, Spm.shift, Sac.shift])

@[simp] theorem Part.markStepped_frame (p : Part) (offset : Int) :
    (p.markStepped offset).mtu = p.mtu ∧ (p.markStepped offset).cvt = p.cvt ∧ (p.markStepped offset).rbp = p.rbp ∧
    (p.markStepped offset).ctu = p.ctu ∧ (p.markStepped offset).rej = p.rej ∧ (p.markStepped offset).spm = p.spm ∧
    (p.markStepped offset).sac = p.sac ∧ (p.markStepped offset).odk = p.odk ∧ (p.markStepped offset).rpu = p.rpu ∧
    (p.markStepped offset).syncLine = p.syncLine ∧ (p.markStepped offset).lrst = p.lrst ∧
    (p.markStepped offset).mem = p.mem ∧ (p.markStepped offset).freeCount = p.freeCount ∧
    (p.markStepped offset).trl.nextSeq = p.trl.nextSeq := by
  unfold Part.markStepped; (repeat' split) <;> simp

@[simp] theorem Part.mirrorStep_frame (p : Part) (offset : Int) :
    (p.mirrorStep offset).mtu = p.mtu ∧ (p.mirrorStep offset).cvt = p.cvt ∧ (p.mirrorStep offset).trl = p.trl ∧
    (p.mirrorStep offset).rbp = p.rbp ∧ (p.mirrorStep offset).ctu = p.ctu ∧ (p.mirrorStep offset).rej = p.rej ∧
    (p.mirrorStep offset).spm = p.spm ∧ (p.mirrorStep offset).sac = p.sac ∧ (p.mirrorStep offset).odk = p.odk ∧
    (p.mirrorStep offset).syncLine = p.syncLine ∧ (p.mirrorStep offset).lrst = p.lrst ∧
    (p.mirrorStep offset).freeCount = p.freeCount ∧ (p.mirrorStep offset).rpu.phase = p.rpu.phase ∧
    (p.mirrorStep offset).rpu.lineResetBusy = p.rpu.lineResetBusy ∧
    (p.mirrorStep offset).rpu.threshold = p.rpu.threshold ∧ (p.mirrorStep offset).rpu.busData = p.rpu.busData ∧
    (p.mirrorStep offset).rpu.fault = p.rpu.fault := by
  unfold Part.mirrorStep; dsimp only; (repeat' split) <;> simp

@[simp] theorem Part.applyStep_frame (p : Part) (q : PendingStep) :
    (p.applyStep q).syncLine = p.syncLine ∧ (p.applyStep q).lrst = p.lrst ∧ (p.applyStep q).freeCount = p.freeCount ∧
    (p.applyStep q).cvt.position = p.cvt.position ∧ (p.applyStep q).cvt.highWater = p.cvt.highWater ∧
    (p.applyStep q).cvt.depth = p.cvt.depth ∧ (p.applyStep q).cvt.phase = p.cvt.phase ∧
    (p.applyStep q).cvt.profile = p.cvt.profile ∧ (p.applyStep q).cvt.tracker = p.cvt.tracker ∧
    (p.applyStep q).cvt.adoption = p.cvt.adoption ∧ (p.applyStep q).odk.queue = p.odk.queue ∧
    (p.applyStep q).odk.takeIdentity = p.odk.takeIdentity ∧ (p.applyStep q).rpu.phase = p.rpu.phase ∧
    (p.applyStep q).rpu.lineResetBusy = p.rpu.lineResetBusy ∧ (p.applyStep q).rpu.threshold = p.rpu.threshold ∧
    (p.applyStep q).rpu.busData = p.rpu.busData ∧ (p.applyStep q).rpu.fault = p.rpu.fault ∧
    (p.applyStep q).spm.hallHold = p.spm.hallHold ∧ (p.applyStep q).trl.nextSeq = p.trl.nextSeq ∧
    (∀ k : Fin 6, (p.applyStep q).rbp.robots[k.val].state = p.rbp.robots[k.val].state) ∧
    (∀ k : Fin 6, (p.applyStep q).rbp.robots[k.val].pins = p.rbp.robots[k.val].pins) ∧
    (∀ k : Fin 16, (p.applyStep q).spm.ports[k.val].role = p.spm.ports[k.val].role) ∧
    (∀ k : Fin 16, (p.applyStep q).spm.ports[k.val].admission = p.spm.ports[k.val].admission) ∧
    (∀ k : Fin 16, (p.applyStep q).spm.ports[k.val].link = p.spm.ports[k.val].link) ∧
    (∀ k : Fin 8, (p.applyStep q).sac.zones[k.val].state = p.sac.zones[k.val].state) ∧
    (∀ k : Fin 8, (p.applyStep q).sac.zones[k.val].level = p.sac.zones[k.val].level) ∧
    (∀ k : Fin 8, (p.applyStep q).sac.zones[k.val].origin = p.sac.zones[k.val].origin) ∧
    (∀ k : Fin 8, (p.applyStep q).sac.zones[k.val].door = p.sac.zones[k.val].door) := by
  unfold Part.applyStep; dsimp only; simp

@[simp] theorem Part.releaseStep_frame (p : Part) :
    p.releaseStep.syncLine = p.syncLine ∧ p.releaseStep.lrst = p.lrst ∧ p.releaseStep.freeCount = p.freeCount ∧
    p.releaseStep.cvt.position = p.cvt.position ∧ p.releaseStep.cvt.highWater = p.cvt.highWater ∧
    p.releaseStep.cvt.depth = p.cvt.depth ∧ p.releaseStep.cvt.phase = p.cvt.phase ∧
    p.releaseStep.cvt.profile = p.cvt.profile ∧ p.releaseStep.cvt.tracker = p.cvt.tracker ∧
    p.releaseStep.cvt.adoption = p.cvt.adoption ∧ p.releaseStep.odk.queue = p.odk.queue ∧
    p.releaseStep.odk.takeIdentity = p.odk.takeIdentity ∧ p.releaseStep.rpu.phase = p.rpu.phase ∧
    p.releaseStep.rpu.lineResetBusy = p.rpu.lineResetBusy ∧ p.releaseStep.rpu.threshold = p.rpu.threshold ∧
    p.releaseStep.rpu.busData = p.rpu.busData ∧ p.releaseStep.rpu.fault = p.rpu.fault ∧
    p.releaseStep.spm.hallHold = p.spm.hallHold ∧ p.releaseStep.trl.nextSeq = p.trl.nextSeq ∧
    (∀ k : Fin 6, p.releaseStep.rbp.robots[k.val].state = p.rbp.robots[k.val].state) ∧
    (∀ k : Fin 6, p.releaseStep.rbp.robots[k.val].pins = p.rbp.robots[k.val].pins) ∧
    (∀ k : Fin 16, p.releaseStep.spm.ports[k.val].role = p.spm.ports[k.val].role) ∧
    (∀ k : Fin 16, p.releaseStep.spm.ports[k.val].admission = p.spm.ports[k.val].admission) ∧
    (∀ k : Fin 16, p.releaseStep.spm.ports[k.val].link = p.spm.ports[k.val].link) ∧
    (∀ k : Fin 8, p.releaseStep.sac.zones[k.val].state = p.sac.zones[k.val].state) ∧
    (∀ k : Fin 8, p.releaseStep.sac.zones[k.val].level = p.sac.zones[k.val].level) ∧
    (∀ k : Fin 8, p.releaseStep.sac.zones[k.val].origin = p.sac.zones[k.val].origin) ∧
    (∀ k : Fin 8, p.releaseStep.sac.zones[k.val].door = p.sac.zones[k.val].door) := by
  unfold Part.releaseStep; (repeat' split) <;> simp

@[simp] theorem Part.timeStepOrder_frame (p : Part) (ref : OrderRef) (offset : Word) :
    (p.timeStepOrder ref offset).syncLine = p.syncLine ∧ (p.timeStepOrder ref offset).lrst = p.lrst ∧
    (p.timeStepOrder ref offset).freeCount = p.freeCount ∧
    (p.timeStepOrder ref offset).cvt.position = p.cvt.position ∧
    (p.timeStepOrder ref offset).cvt.highWater = p.cvt.highWater ∧
    (p.timeStepOrder ref offset).cvt.depth = p.cvt.depth ∧ (p.timeStepOrder ref offset).cvt.phase = p.cvt.phase ∧
    (p.timeStepOrder ref offset).cvt.profile = p.cvt.profile ∧
    (p.timeStepOrder ref offset).cvt.tracker = p.cvt.tracker ∧
    (p.timeStepOrder ref offset).cvt.adoption = p.cvt.adoption ∧
    (p.timeStepOrder ref offset).odk.queue = p.odk.queue ∧
    (p.timeStepOrder ref offset).odk.takeIdentity = p.odk.takeIdentity ∧
    (p.timeStepOrder ref offset).rpu.phase = p.rpu.phase ∧
    (p.timeStepOrder ref offset).rpu.lineResetBusy = p.rpu.lineResetBusy ∧
    (p.timeStepOrder ref offset).rpu.threshold = p.rpu.threshold ∧
    (p.timeStepOrder ref offset).rpu.busData = p.rpu.busData ∧ (p.timeStepOrder ref offset).rpu.fault = p.rpu.fault ∧
    (p.timeStepOrder ref offset).spm.hallHold = p.spm.hallHold ∧
    (p.timeStepOrder ref offset).trl.nextSeq = p.trl.nextSeq ∧
    (∀ k : Fin 6, (p.timeStepOrder ref offset).rbp.robots[k.val].state = p.rbp.robots[k.val].state) ∧
    (∀ k : Fin 6, (p.timeStepOrder ref offset).rbp.robots[k.val].pins = p.rbp.robots[k.val].pins) ∧
    (∀ k : Fin 16, (p.timeStepOrder ref offset).spm.ports[k.val].role = p.spm.ports[k.val].role) ∧
    (∀ k : Fin 16, (p.timeStepOrder ref offset).spm.ports[k.val].admission = p.spm.ports[k.val].admission) ∧
    (∀ k : Fin 16, (p.timeStepOrder ref offset).spm.ports[k.val].link = p.spm.ports[k.val].link) ∧
    (∀ k : Fin 8, (p.timeStepOrder ref offset).sac.zones[k.val].state = p.sac.zones[k.val].state) ∧
    (∀ k : Fin 8, (p.timeStepOrder ref offset).sac.zones[k.val].level = p.sac.zones[k.val].level) ∧
    (∀ k : Fin 8, (p.timeStepOrder ref offset).sac.zones[k.val].origin = p.sac.zones[k.val].origin) ∧
    (∀ k : Fin 8, (p.timeStepOrder ref offset).sac.zones[k.val].door = p.sac.zones[k.val].door) := by
  unfold Part.timeStepOrder; dsimp only; (repeat' split) <;> simp

@[simp] theorem Part.syncPulse_frame (p : Part) :
    p.syncPulse.syncLine = p.syncLine ∧ p.syncPulse.lrst = p.lrst ∧ p.syncPulse.freeCount = p.freeCount ∧
    p.syncPulse.cvt.position = p.cvt.position ∧ p.syncPulse.cvt.highWater = p.cvt.highWater ∧
    p.syncPulse.cvt.depth = p.cvt.depth ∧ p.syncPulse.cvt.phase = p.cvt.phase ∧
    p.syncPulse.cvt.profile = p.cvt.profile ∧ p.syncPulse.cvt.tracker = p.cvt.tracker ∧
    p.syncPulse.cvt.adoption = p.cvt.adoption ∧ p.syncPulse.odk.queue = p.odk.queue ∧
    p.syncPulse.odk.takeIdentity = p.odk.takeIdentity ∧ p.syncPulse.rpu.phase = p.rpu.phase ∧
    p.syncPulse.rpu.lineResetBusy = p.rpu.lineResetBusy ∧ p.syncPulse.rpu.threshold = p.rpu.threshold ∧
    p.syncPulse.rpu.busData = p.rpu.busData ∧ p.syncPulse.rpu.fault = p.rpu.fault ∧
    p.syncPulse.spm.hallHold = p.spm.hallHold ∧ p.syncPulse.trl.nextSeq = p.trl.nextSeq ∧
    (∀ k : Fin 6, p.syncPulse.rbp.robots[k.val].state = p.rbp.robots[k.val].state) ∧
    (∀ k : Fin 6, p.syncPulse.rbp.robots[k.val].pins = p.rbp.robots[k.val].pins) ∧
    (∀ k : Fin 16, p.syncPulse.spm.ports[k.val].role = p.spm.ports[k.val].role) ∧
    (∀ k : Fin 16, p.syncPulse.spm.ports[k.val].admission = p.spm.ports[k.val].admission) ∧
    (∀ k : Fin 16, p.syncPulse.spm.ports[k.val].link = p.spm.ports[k.val].link) ∧
    (∀ k : Fin 8, p.syncPulse.sac.zones[k.val].state = p.sac.zones[k.val].state) ∧
    (∀ k : Fin 8, p.syncPulse.sac.zones[k.val].level = p.sac.zones[k.val].level) ∧
    (∀ k : Fin 8, p.syncPulse.sac.zones[k.val].origin = p.sac.zones[k.val].origin) ∧
    (∀ k : Fin 8, p.syncPulse.sac.zones[k.val].door = p.sac.zones[k.val].door) := by
  unfold Part.syncPulse; dsimp only; (repeat' split) <;> simp

@[simp] theorem Part.syncLevel_frame (p : Part) (level : Bool) :
    (p.syncLevel level).lrst = p.lrst ∧ (p.syncLevel level).freeCount = p.freeCount ∧
    (p.syncLevel level).cvt.position = p.cvt.position ∧ (p.syncLevel level).cvt.highWater = p.cvt.highWater ∧
    (p.syncLevel level).cvt.depth = p.cvt.depth ∧ (p.syncLevel level).cvt.phase = p.cvt.phase ∧
    (p.syncLevel level).cvt.profile = p.cvt.profile ∧ (p.syncLevel level).cvt.tracker = p.cvt.tracker ∧
    (p.syncLevel level).cvt.adoption = p.cvt.adoption ∧ (p.syncLevel level).odk.queue = p.odk.queue ∧
    (p.syncLevel level).odk.takeIdentity = p.odk.takeIdentity ∧ (p.syncLevel level).rpu.phase = p.rpu.phase ∧
    (p.syncLevel level).rpu.lineResetBusy = p.rpu.lineResetBusy ∧
    (p.syncLevel level).rpu.threshold = p.rpu.threshold ∧ (p.syncLevel level).rpu.busData = p.rpu.busData ∧
    (p.syncLevel level).rpu.fault = p.rpu.fault ∧ (p.syncLevel level).spm.hallHold = p.spm.hallHold ∧
    (p.syncLevel level).trl.nextSeq = p.trl.nextSeq ∧
    (∀ k : Fin 6, (p.syncLevel level).rbp.robots[k.val].state = p.rbp.robots[k.val].state) ∧
    (∀ k : Fin 6, (p.syncLevel level).rbp.robots[k.val].pins = p.rbp.robots[k.val].pins) ∧
    (∀ k : Fin 16, (p.syncLevel level).spm.ports[k.val].role = p.spm.ports[k.val].role) ∧
    (∀ k : Fin 16, (p.syncLevel level).spm.ports[k.val].admission = p.spm.ports[k.val].admission) ∧
    (∀ k : Fin 16, (p.syncLevel level).spm.ports[k.val].link = p.spm.ports[k.val].link) ∧
    (∀ k : Fin 8, (p.syncLevel level).sac.zones[k.val].state = p.sac.zones[k.val].state) ∧
    (∀ k : Fin 8, (p.syncLevel level).sac.zones[k.val].level = p.sac.zones[k.val].level) ∧
    (∀ k : Fin 8, (p.syncLevel level).sac.zones[k.val].origin = p.sac.zones[k.val].origin) ∧
    (∀ k : Fin 8, (p.syncLevel level).sac.zones[k.val].door = p.sac.zones[k.val].door) := by
  unfold Part.syncLevel; dsimp only; (repeat' split) <;> simp

@[simp] theorem Part.loseSync_frame (p : Part) :
    p.loseSync.syncLine = p.syncLine ∧ p.loseSync.lrst = p.lrst ∧ p.loseSync.freeCount = p.freeCount ∧
    p.loseSync.cvt.position = p.cvt.position ∧ p.loseSync.cvt.highWater = p.cvt.highWater ∧
    p.loseSync.cvt.depth = p.cvt.depth ∧ p.loseSync.cvt.phase = p.cvt.phase ∧
    p.loseSync.cvt.profile = p.cvt.profile ∧ p.loseSync.cvt.tracker = p.cvt.tracker ∧
    p.loseSync.cvt.adoption = p.cvt.adoption ∧ p.loseSync.odk.queue = p.odk.queue ∧
    p.loseSync.odk.takeIdentity = p.odk.takeIdentity ∧ p.loseSync.rpu.phase = p.rpu.phase ∧
    p.loseSync.rpu.lineResetBusy = p.rpu.lineResetBusy ∧ p.loseSync.rpu.threshold = p.rpu.threshold ∧
    p.loseSync.rpu.busData = p.rpu.busData ∧ p.loseSync.spm.hallHold = p.spm.hallHold ∧
    p.loseSync.trl.nextSeq = p.trl.nextSeq ∧
    (∀ k : Fin 6, p.loseSync.rbp.robots[k.val].state = p.rbp.robots[k.val].state) ∧
    (∀ k : Fin 6, p.loseSync.rbp.robots[k.val].pins = p.rbp.robots[k.val].pins) ∧
    (∀ k : Fin 16, p.loseSync.spm.ports[k.val].role = p.spm.ports[k.val].role) ∧
    (∀ k : Fin 16, p.loseSync.spm.ports[k.val].admission = p.spm.ports[k.val].admission) ∧
    (∀ k : Fin 16, p.loseSync.spm.ports[k.val].link = p.spm.ports[k.val].link) ∧
    (∀ k : Fin 8, p.loseSync.sac.zones[k.val].state = p.sac.zones[k.val].state) ∧
    (∀ k : Fin 8, p.loseSync.sac.zones[k.val].level = p.sac.zones[k.val].level) ∧
    (∀ k : Fin 8, p.loseSync.sac.zones[k.val].origin = p.sac.zones[k.val].origin) ∧
    (∀ k : Fin 8, p.loseSync.sac.zones[k.val].door = p.sac.zones[k.val].door) := by
  unfold Part.loseSync; dsimp only; simp

@[simp] theorem Part.syncLoss_frame (p : Part) :
    p.syncLoss.syncLine = p.syncLine ∧ p.syncLoss.lrst = p.lrst ∧ p.syncLoss.freeCount = p.freeCount ∧
    p.syncLoss.cvt.position = p.cvt.position ∧ p.syncLoss.cvt.highWater = p.cvt.highWater ∧
    p.syncLoss.cvt.depth = p.cvt.depth ∧ p.syncLoss.cvt.phase = p.cvt.phase ∧
    p.syncLoss.cvt.profile = p.cvt.profile ∧ p.syncLoss.cvt.tracker = p.cvt.tracker ∧
    p.syncLoss.cvt.adoption = p.cvt.adoption ∧ p.syncLoss.odk.queue = p.odk.queue ∧
    p.syncLoss.odk.takeIdentity = p.odk.takeIdentity ∧ p.syncLoss.rpu.phase = p.rpu.phase ∧
    p.syncLoss.rpu.lineResetBusy = p.rpu.lineResetBusy ∧ p.syncLoss.rpu.threshold = p.rpu.threshold ∧
    p.syncLoss.rpu.busData = p.rpu.busData ∧ p.syncLoss.spm.hallHold = p.spm.hallHold ∧
    p.syncLoss.trl.nextSeq = p.trl.nextSeq ∧
    (∀ k : Fin 6, p.syncLoss.rbp.robots[k.val].state = p.rbp.robots[k.val].state) ∧
    (∀ k : Fin 6, p.syncLoss.rbp.robots[k.val].pins = p.rbp.robots[k.val].pins) ∧
    (∀ k : Fin 16, p.syncLoss.spm.ports[k.val].role = p.spm.ports[k.val].role) ∧
    (∀ k : Fin 16, p.syncLoss.spm.ports[k.val].admission = p.spm.ports[k.val].admission) ∧
    (∀ k : Fin 16, p.syncLoss.spm.ports[k.val].link = p.spm.ports[k.val].link) ∧
    (∀ k : Fin 8, p.syncLoss.sac.zones[k.val].state = p.sac.zones[k.val].state) ∧
    (∀ k : Fin 8, p.syncLoss.sac.zones[k.val].level = p.sac.zones[k.val].level) ∧
    (∀ k : Fin 8, p.syncLoss.sac.zones[k.val].origin = p.sac.zones[k.val].origin) ∧
    (∀ k : Fin 8, p.syncLoss.sac.zones[k.val].door = p.sac.zones[k.val].door) := by
  unfold Part.syncLoss; (repeat' split) <;> simp

@[simp] theorem Part.syncAdopt_frame (p : Part) (mode : SyncMode) :
    (p.syncAdopt mode).syncLine = p.syncLine ∧ (p.syncAdopt mode).lrst = p.lrst ∧
    (p.syncAdopt mode).freeCount = p.freeCount ∧ (p.syncAdopt mode).cvt.position = p.cvt.position ∧
    (p.syncAdopt mode).cvt.highWater = p.cvt.highWater ∧ (p.syncAdopt mode).cvt.depth = p.cvt.depth ∧
    (p.syncAdopt mode).cvt.phase = p.cvt.phase ∧ (p.syncAdopt mode).cvt.profile = p.cvt.profile ∧
    (p.syncAdopt mode).cvt.tracker = p.cvt.tracker ∧ (p.syncAdopt mode).cvt.adoption = p.cvt.adoption ∧
    (p.syncAdopt mode).odk.queue = p.odk.queue ∧ (p.syncAdopt mode).odk.takeIdentity = p.odk.takeIdentity ∧
    (p.syncAdopt mode).rpu.phase = p.rpu.phase ∧ (p.syncAdopt mode).rpu.lineResetBusy = p.rpu.lineResetBusy ∧
    (p.syncAdopt mode).rpu.threshold = p.rpu.threshold ∧ (p.syncAdopt mode).rpu.busData = p.rpu.busData ∧
    (p.syncAdopt mode).rpu.fault = p.rpu.fault ∧ (p.syncAdopt mode).spm.hallHold = p.spm.hallHold ∧
    (p.syncAdopt mode).trl.nextSeq = p.trl.nextSeq ∧
    (∀ k : Fin 6, (p.syncAdopt mode).rbp.robots[k.val].state = p.rbp.robots[k.val].state) ∧
    (∀ k : Fin 6, (p.syncAdopt mode).rbp.robots[k.val].pins = p.rbp.robots[k.val].pins) ∧
    (∀ k : Fin 16, (p.syncAdopt mode).spm.ports[k.val].role = p.spm.ports[k.val].role) ∧
    (∀ k : Fin 16, (p.syncAdopt mode).spm.ports[k.val].admission = p.spm.ports[k.val].admission) ∧
    (∀ k : Fin 16, (p.syncAdopt mode).spm.ports[k.val].link = p.spm.ports[k.val].link) ∧
    (∀ k : Fin 8, (p.syncAdopt mode).sac.zones[k.val].state = p.sac.zones[k.val].state) ∧
    (∀ k : Fin 8, (p.syncAdopt mode).sac.zones[k.val].level = p.sac.zones[k.val].level) ∧
    (∀ k : Fin 8, (p.syncAdopt mode).sac.zones[k.val].origin = p.sac.zones[k.val].origin) ∧
    (∀ k : Fin 8, (p.syncAdopt mode).sac.zones[k.val].door = p.sac.zones[k.val].door) := by
  unfold Part.syncAdopt; dsimp only; (repeat' split) <;> simp

@[simp] theorem Part.readTime_frame (p : Part) :
    p.readTime.cvt = p.cvt ∧ p.readTime.trl = p.trl ∧ p.readTime.rbp = p.rbp ∧ p.readTime.ctu = p.ctu ∧
    p.readTime.rej = p.rej ∧ p.readTime.spm = p.spm ∧ p.readTime.sac = p.sac ∧ p.readTime.odk = p.odk ∧
    p.readTime.syncLine = p.syncLine ∧ p.readTime.lrst = p.lrst ∧ p.readTime.mem = p.mem ∧
    p.readTime.freeCount = p.freeCount ∧ p.readTime.rpu.phase = p.rpu.phase ∧
    p.readTime.rpu.lineResetBusy = p.rpu.lineResetBusy ∧ p.readTime.rpu.threshold = p.rpu.threshold ∧
    p.readTime.rpu.fault = p.rpu.fault ∧ p.readTime.mtu.time = p.mtu.time := by
  unfold Part.readTime; dsimp only; (repeat' split) <;> simp

@[simp] theorem Part.timeLineReset_frame (p : Part) :
    p.timeLineReset.cvt = p.cvt ∧ p.timeLineReset.trl = p.trl ∧ p.timeLineReset.rbp = p.rbp ∧
    p.timeLineReset.ctu = p.ctu ∧ p.timeLineReset.rej = p.rej ∧ p.timeLineReset.spm = p.spm ∧
    p.timeLineReset.sac = p.sac ∧ p.timeLineReset.odk = p.odk ∧ p.timeLineReset.syncLine = p.syncLine ∧
    p.timeLineReset.lrst = p.lrst ∧ p.timeLineReset.freeCount = p.freeCount ∧
    p.timeLineReset.rpu.phase = p.rpu.phase ∧ p.timeLineReset.rpu.lineResetBusy = p.rpu.lineResetBusy ∧
    p.timeLineReset.rpu.threshold = p.rpu.threshold ∧ p.timeLineReset.rpu.busData = p.rpu.busData ∧
    p.timeLineReset.rpu.fault = p.rpu.fault ∧ p.timeLineReset.mtu.time = p.mtu.time := by
  unfold Part.timeLineReset; (repeat' split) <;> simp

@[simp] theorem Part.seenWrite_frame (p : Part) (b : Fin 10) (value : Half) :
    (p.seenWrite b value).mtu = p.mtu ∧ (p.seenWrite b value).cvt = p.cvt ∧ (p.seenWrite b value).trl = p.trl ∧
    (p.seenWrite b value).rbp = p.rbp ∧ (p.seenWrite b value).ctu = p.ctu ∧ (p.seenWrite b value).rej = p.rej ∧
    (p.seenWrite b value).spm = p.spm ∧ (p.seenWrite b value).sac = p.sac ∧ (p.seenWrite b value).odk = p.odk ∧
    (p.seenWrite b value).syncLine = p.syncLine ∧ (p.seenWrite b value).lrst = p.lrst ∧
    (p.seenWrite b value).freeCount = p.freeCount ∧ (p.seenWrite b value).rpu.phase = p.rpu.phase ∧
    (p.seenWrite b value).rpu.lineResetBusy = p.rpu.lineResetBusy ∧
    (p.seenWrite b value).rpu.threshold = p.rpu.threshold ∧ (p.seenWrite b value).rpu.busData = p.rpu.busData ∧
    (p.seenWrite b value).rpu.fault = p.rpu.fault := by
  unfold Part.seenWrite; dsimp only; (repeat' split) <;> simp

@[simp] theorem Part.pageError_frame (p : Part) (i : Fin 8) :
    (p.pageError i).mtu = p.mtu ∧ (p.pageError i).cvt = p.cvt ∧ (p.pageError i).trl = p.trl ∧
    (p.pageError i).rbp = p.rbp ∧ (p.pageError i).ctu = p.ctu ∧ (p.pageError i).rej = p.rej ∧
    (p.pageError i).spm = p.spm ∧ (p.pageError i).sac = p.sac ∧ (p.pageError i).syncLine = p.syncLine ∧
    (p.pageError i).lrst = p.lrst ∧ (p.pageError i).freeCount = p.freeCount ∧
    (p.pageError i).odk.queue = p.odk.queue ∧ (p.pageError i).odk.takeIdentity = p.odk.takeIdentity ∧
    (p.pageError i).rpu.phase = p.rpu.phase ∧ (p.pageError i).rpu.lineResetBusy = p.rpu.lineResetBusy ∧
    (p.pageError i).rpu.threshold = p.rpu.threshold ∧ (p.pageError i).rpu.busData = p.rpu.busData ∧
    (p.pageError i).rpu.fault = p.rpu.fault := by
  unfold Part.pageError; simp

@[simp] theorem Part.returnPage_frame (p : Part) (i : Fin 8) :
    (p.returnPage i).mtu = p.mtu ∧ (p.returnPage i).cvt = p.cvt ∧ (p.returnPage i).trl = p.trl ∧
    (p.returnPage i).rbp = p.rbp ∧ (p.returnPage i).ctu = p.ctu ∧ (p.returnPage i).rej = p.rej ∧
    (p.returnPage i).spm = p.spm ∧ (p.returnPage i).sac = p.sac ∧ (p.returnPage i).odk = p.odk ∧
    (p.returnPage i).syncLine = p.syncLine ∧ (p.returnPage i).lrst = p.lrst ∧
    (p.returnPage i).freeCount = p.freeCount ∧ (p.returnPage i).rpu.phase = p.rpu.phase ∧
    (p.returnPage i).rpu.lineResetBusy = p.rpu.lineResetBusy ∧ (p.returnPage i).rpu.threshold = p.rpu.threshold ∧
    (p.returnPage i).rpu.busData = p.rpu.busData ∧ (p.returnPage i).rpu.fault = p.rpu.fault := by
  unfold Part.returnPage; dsimp only; (repeat' split) <;> simp

@[simp] theorem Part.pageStateWrite_frame (p : Part) (i : Fin 8) (value : Half) :
    (p.pageStateWrite i value).mtu = p.mtu ∧ (p.pageStateWrite i value).cvt = p.cvt ∧
    (p.pageStateWrite i value).trl = p.trl ∧ (p.pageStateWrite i value).rbp = p.rbp ∧
    (p.pageStateWrite i value).ctu = p.ctu ∧ (p.pageStateWrite i value).rej = p.rej ∧
    (p.pageStateWrite i value).spm = p.spm ∧ (p.pageStateWrite i value).sac = p.sac ∧
    (p.pageStateWrite i value).syncLine = p.syncLine ∧ (p.pageStateWrite i value).lrst = p.lrst ∧
    (p.pageStateWrite i value).freeCount = p.freeCount ∧ (p.pageStateWrite i value).odk.queue = p.odk.queue ∧
    (p.pageStateWrite i value).odk.takeIdentity = p.odk.takeIdentity ∧
    (p.pageStateWrite i value).rpu.phase = p.rpu.phase ∧
    (p.pageStateWrite i value).rpu.lineResetBusy = p.rpu.lineResetBusy ∧
    (p.pageStateWrite i value).rpu.threshold = p.rpu.threshold ∧
    (p.pageStateWrite i value).rpu.busData = p.rpu.busData ∧ (p.pageStateWrite i value).rpu.fault = p.rpu.fault := by
  unfold Part.pageStateWrite; (repeat' split) <;> simp

@[simp] theorem Part.pageAge_frame (p : Part) :
    p.pageAge.mtu = p.mtu ∧ p.pageAge.cvt = p.cvt ∧ p.pageAge.trl = p.trl ∧ p.pageAge.rbp = p.rbp ∧
    p.pageAge.ctu = p.ctu ∧ p.pageAge.rej = p.rej ∧ p.pageAge.spm = p.spm ∧ p.pageAge.sac = p.sac ∧
    p.pageAge.odk = p.odk ∧ p.pageAge.syncLine = p.syncLine ∧ p.pageAge.lrst = p.lrst ∧
    p.pageAge.freeCount = p.freeCount ∧ p.pageAge.rpu.phase = p.rpu.phase ∧
    p.pageAge.rpu.lineResetBusy = p.rpu.lineResetBusy ∧ p.pageAge.rpu.threshold = p.rpu.threshold ∧
    p.pageAge.rpu.busData = p.rpu.busData ∧ p.pageAge.rpu.fault = p.rpu.fault := by
  unfold Part.pageAge; (repeat' split) <;> simp

@[simp] theorem Part.closeFilling_frame (p : Part) (cause : CloseCause) :
    (p.closeFilling cause).mtu = p.mtu ∧ (p.closeFilling cause).cvt = p.cvt ∧ (p.closeFilling cause).trl = p.trl ∧
    (p.closeFilling cause).rbp = p.rbp ∧ (p.closeFilling cause).ctu = p.ctu ∧ (p.closeFilling cause).rej = p.rej ∧
    (p.closeFilling cause).spm = p.spm ∧ (p.closeFilling cause).sac = p.sac ∧ (p.closeFilling cause).odk = p.odk ∧
    (p.closeFilling cause).syncLine = p.syncLine ∧ (p.closeFilling cause).lrst = p.lrst ∧
    (p.closeFilling cause).freeCount = p.freeCount ∧ (p.closeFilling cause).rpu.phase = p.rpu.phase ∧
    (p.closeFilling cause).rpu.lineResetBusy = p.rpu.lineResetBusy ∧
    (p.closeFilling cause).rpu.threshold = p.rpu.threshold ∧ (p.closeFilling cause).rpu.busData = p.rpu.busData ∧
    (p.closeFilling cause).rpu.fault = p.rpu.fault := by
  unfold Part.closeFilling; (repeat' split) <;> simp

@[simp] theorem Part.outcomeFlushOrder_frame (p : Part) (ref : OrderRef) :
    (p.outcomeFlushOrder ref).mtu = p.mtu ∧ (p.outcomeFlushOrder ref).cvt = p.cvt ∧
    (p.outcomeFlushOrder ref).trl = p.trl ∧ (p.outcomeFlushOrder ref).rbp = p.rbp ∧
    (p.outcomeFlushOrder ref).ctu = p.ctu ∧ (p.outcomeFlushOrder ref).rej = p.rej ∧
    (p.outcomeFlushOrder ref).spm = p.spm ∧ (p.outcomeFlushOrder ref).sac = p.sac ∧
    (p.outcomeFlushOrder ref).syncLine = p.syncLine ∧ (p.outcomeFlushOrder ref).lrst = p.lrst ∧
    (p.outcomeFlushOrder ref).freeCount = p.freeCount ∧ (p.outcomeFlushOrder ref).odk.queue = p.odk.queue ∧
    (p.outcomeFlushOrder ref).odk.takeIdentity = p.odk.takeIdentity ∧
    (p.outcomeFlushOrder ref).rpu.phase = p.rpu.phase ∧
    (p.outcomeFlushOrder ref).rpu.lineResetBusy = p.rpu.lineResetBusy ∧
    (p.outcomeFlushOrder ref).rpu.threshold = p.rpu.threshold ∧
    (p.outcomeFlushOrder ref).rpu.busData = p.rpu.busData ∧ (p.outcomeFlushOrder ref).rpu.fault = p.rpu.fault := by
  unfold Part.outcomeFlushOrder; simp

@[simp] theorem Part.faultUnlockOrder_frame (p : Part) (ref : OrderRef) (count : Half) :
    (p.faultUnlockOrder ref count).mtu = p.mtu ∧ (p.faultUnlockOrder ref count).cvt = p.cvt ∧
    (p.faultUnlockOrder ref count).trl = p.trl ∧ (p.faultUnlockOrder ref count).rbp = p.rbp ∧
    (p.faultUnlockOrder ref count).ctu = p.ctu ∧ (p.faultUnlockOrder ref count).rej = p.rej ∧
    (p.faultUnlockOrder ref count).spm = p.spm ∧ (p.faultUnlockOrder ref count).sac = p.sac ∧
    (p.faultUnlockOrder ref count).syncLine = p.syncLine ∧ (p.faultUnlockOrder ref count).lrst = p.lrst ∧
    (p.faultUnlockOrder ref count).freeCount = p.freeCount ∧ (p.faultUnlockOrder ref count).odk.queue = p.odk.queue ∧
    (p.faultUnlockOrder ref count).odk.takeIdentity = p.odk.takeIdentity ∧
    (p.faultUnlockOrder ref count).rpu.phase = p.rpu.phase ∧
    (p.faultUnlockOrder ref count).rpu.lineResetBusy = p.rpu.lineResetBusy ∧
    (p.faultUnlockOrder ref count).rpu.threshold = p.rpu.threshold ∧
    (p.faultUnlockOrder ref count).rpu.busData = p.rpu.busData := by
  unfold Part.faultUnlockOrder; (repeat' split) <;> simp

@[simp] theorem Part.intLevel_frame (p : Part) (value : Half) :
    (p.intLevel value).mtu = p.mtu ∧ (p.intLevel value).cvt = p.cvt ∧ (p.intLevel value).trl = p.trl ∧
    (p.intLevel value).rbp = p.rbp ∧ (p.intLevel value).ctu = p.ctu ∧ (p.intLevel value).rej = p.rej ∧
    (p.intLevel value).spm = p.spm ∧ (p.intLevel value).sac = p.sac ∧ (p.intLevel value).odk = p.odk ∧
    (p.intLevel value).syncLine = p.syncLine ∧ (p.intLevel value).lrst = p.lrst ∧
    (p.intLevel value).freeCount = p.freeCount ∧ (p.intLevel value).rpu.phase = p.rpu.phase ∧
    (p.intLevel value).rpu.lineResetBusy = p.rpu.lineResetBusy ∧ (p.intLevel value).rpu.busData = p.rpu.busData ∧
    (p.intLevel value).rpu.fault = p.rpu.fault := by
  unfold Part.intLevel; (repeat' split) <;> simp

end Sys2Proof.Machine
end

