-- ==== Sys2Proof/Laws/FrameAdoption.lean ====
section
/-! SUPPORT. What each operation of the adoption of a profile leaves unchanged: one theorem per operation. -/

namespace Sys2Proof.Machine

@[simp] theorem Part.refuseAdoption_frame (p : Part) (ref : OrderRef) (r : AdoptRefusal) :
    (p.refuseAdoption ref r).mtu = p.mtu ∧ (p.refuseAdoption ref r).trl = p.trl ∧
    (p.refuseAdoption ref r).rbp = p.rbp ∧ (p.refuseAdoption ref r).ctu = p.ctu ∧
    (p.refuseAdoption ref r).rej = p.rej ∧ (p.refuseAdoption ref r).spm = p.spm ∧
    (p.refuseAdoption ref r).sac = p.sac ∧ (p.refuseAdoption ref r).syncLine = p.syncLine ∧
    (p.refuseAdoption ref r).lrst = p.lrst ∧ (p.refuseAdoption ref r).freeCount = p.freeCount ∧
    (p.refuseAdoption ref r).cvt.position = p.cvt.position ∧
    (p.refuseAdoption ref r).cvt.highWater = p.cvt.highWater ∧ (p.refuseAdoption ref r).cvt.depth = p.cvt.depth ∧
    (p.refuseAdoption ref r).cvt.phase = p.cvt.phase ∧ (p.refuseAdoption ref r).cvt.profile = p.cvt.profile ∧
    (p.refuseAdoption ref r).cvt.tracker = p.cvt.tracker ∧ (p.refuseAdoption ref r).odk.queue = p.odk.queue ∧
    (p.refuseAdoption ref r).odk.takeIdentity = p.odk.takeIdentity ∧
    (p.refuseAdoption ref r).rpu.phase = p.rpu.phase ∧
    (p.refuseAdoption ref r).rpu.lineResetBusy = p.rpu.lineResetBusy ∧
    (p.refuseAdoption ref r).rpu.threshold = p.rpu.threshold ∧ (p.refuseAdoption ref r).rpu.busData = p.rpu.busData ∧
    (p.refuseAdoption ref r).rpu.fault = p.rpu.fault := by
  unfold Part.refuseAdoption; dsimp only; simp

@[simp] theorem Part.profileAdoptOrder_frame (p : Part) (ref : OrderRef) :
    (p.profileAdoptOrder ref).mtu = p.mtu ∧ (p.profileAdoptOrder ref).trl = p.trl ∧
    (p.profileAdoptOrder ref).rbp = p.rbp ∧ (p.profileAdoptOrder ref).ctu = p.ctu ∧
    (p.profileAdoptOrder ref).rej = p.rej ∧ (p.profileAdoptOrder ref).spm = p.spm ∧
    (p.profileAdoptOrder ref).sac = p.sac ∧ (p.profileAdoptOrder ref).syncLine = p.syncLine ∧
    (p.profileAdoptOrder ref).lrst = p.lrst ∧ (p.profileAdoptOrder ref).freeCount = p.freeCount ∧
    (p.profileAdoptOrder ref).cvt.position = p.cvt.position ∧
    (p.profileAdoptOrder ref).cvt.highWater = p.cvt.highWater ∧ (p.profileAdoptOrder ref).cvt.depth = p.cvt.depth ∧
    (p.profileAdoptOrder ref).cvt.phase = p.cvt.phase ∧ (p.profileAdoptOrder ref).cvt.profile = p.cvt.profile ∧
    (p.profileAdoptOrder ref).cvt.tracker = p.cvt.tracker ∧ (p.profileAdoptOrder ref).odk.queue = p.odk.queue ∧
    (p.profileAdoptOrder ref).odk.takeIdentity = p.odk.takeIdentity ∧
    (p.profileAdoptOrder ref).rpu.phase = p.rpu.phase ∧
    (p.profileAdoptOrder ref).rpu.lineResetBusy = p.rpu.lineResetBusy ∧
    (p.profileAdoptOrder ref).rpu.threshold = p.rpu.threshold ∧
    (p.profileAdoptOrder ref).rpu.busData = p.rpu.busData ∧ (p.profileAdoptOrder ref).rpu.fault = p.rpu.fault := by
  unfold Part.profileAdoptOrder; (repeat' split) <;> simp

@[simp] theorem Part.advanceCopy_frame (p : Part) (target : Nat) :
    (p.advanceCopy target).mtu = p.mtu ∧ (p.advanceCopy target).trl = p.trl ∧ (p.advanceCopy target).rbp = p.rbp ∧
    (p.advanceCopy target).ctu = p.ctu ∧ (p.advanceCopy target).rej = p.rej ∧ (p.advanceCopy target).spm = p.spm ∧
    (p.advanceCopy target).sac = p.sac ∧ (p.advanceCopy target).odk = p.odk ∧ (p.advanceCopy target).rpu = p.rpu ∧
    (p.advanceCopy target).syncLine = p.syncLine ∧ (p.advanceCopy target).lrst = p.lrst ∧
    (p.advanceCopy target).mem = p.mem ∧ (p.advanceCopy target).freeCount = p.freeCount ∧
    (p.advanceCopy target).cvt.position = p.cvt.position ∧ (p.advanceCopy target).cvt.highWater = p.cvt.highWater ∧
    (p.advanceCopy target).cvt.depth = p.cvt.depth ∧ (p.advanceCopy target).cvt.phase = p.cvt.phase ∧
    (p.advanceCopy target).cvt.profile = p.cvt.profile ∧ (p.advanceCopy target).cvt.tracker = p.cvt.tracker := by
  unfold Part.advanceCopy; simp

@[simp] theorem Part.trackerAdopt_frame (p : Part) :
    p.trackerAdopt.mtu = p.mtu ∧ p.trackerAdopt.trl = p.trl ∧ p.trackerAdopt.rbp = p.rbp ∧
    p.trackerAdopt.spm = p.spm ∧ p.trackerAdopt.sac = p.sac ∧ p.trackerAdopt.odk = p.odk ∧
    p.trackerAdopt.syncLine = p.syncLine ∧ p.trackerAdopt.lrst = p.lrst ∧ p.trackerAdopt.freeCount = p.freeCount ∧
    p.trackerAdopt.cvt.position = p.cvt.position ∧ p.trackerAdopt.cvt.profile = p.cvt.profile ∧
    p.trackerAdopt.cvt.adoption = p.cvt.adoption ∧ p.trackerAdopt.rpu.phase = p.rpu.phase ∧
    p.trackerAdopt.rpu.lineResetBusy = p.rpu.lineResetBusy ∧ p.trackerAdopt.rpu.threshold = p.rpu.threshold ∧
    p.trackerAdopt.rpu.busData = p.rpu.busData ∧ p.trackerAdopt.rpu.fault = p.rpu.fault := by
  unfold Part.trackerAdopt; dsimp only; simp

@[simp] theorem Part.takeParts_frame (p : Part) (f : Profile) :
    (p.takeParts f).syncLine = p.syncLine ∧ (p.takeParts f).lrst = p.lrst ∧
    (p.takeParts f).cvt.position = p.cvt.position ∧ (p.takeParts f).cvt.adoption = p.cvt.adoption ∧
    (p.takeParts f).odk.queue = p.odk.queue ∧ (p.takeParts f).odk.takeIdentity = p.odk.takeIdentity ∧
    (p.takeParts f).rpu.phase = p.rpu.phase ∧ (p.takeParts f).rpu.lineResetBusy = p.rpu.lineResetBusy ∧
    (p.takeParts f).rpu.threshold = p.rpu.threshold ∧ (p.takeParts f).rpu.busData = p.rpu.busData ∧
    (p.takeParts f).rpu.fault = p.rpu.fault ∧ (p.takeParts f).spm.hallHold = p.spm.hallHold ∧
    (p.takeParts f).trl.nextSeq = p.trl.nextSeq := by
  unfold Part.takeParts; dsimp only; simp

@[simp] theorem Part.adopt_frame (p : Part) (ref : OrderRef) (f : Profile) :
    (p.adopt ref f).syncLine = p.syncLine ∧ (p.adopt ref f).lrst = p.lrst ∧
    (p.adopt ref f).cvt.position = p.cvt.position ∧ (p.adopt ref f).odk.queue = p.odk.queue ∧
    (p.adopt ref f).odk.takeIdentity = p.odk.takeIdentity ∧ (p.adopt ref f).rpu.phase = p.rpu.phase ∧
    (p.adopt ref f).rpu.lineResetBusy = p.rpu.lineResetBusy ∧ (p.adopt ref f).rpu.threshold = p.rpu.threshold ∧
    (p.adopt ref f).rpu.busData = p.rpu.busData ∧ (p.adopt ref f).rpu.fault = p.rpu.fault ∧
    (p.adopt ref f).spm.hallHold = p.spm.hallHold ∧ (p.adopt ref f).trl.nextSeq = p.trl.nextSeq := by
  unfold Part.adopt; dsimp only; simp

@[simp] theorem Part.judgeCandidate_frame (p : Part) (ref : OrderRef) (m : Memory) :
    (p.judgeCandidate ref m).syncLine = p.syncLine ∧ (p.judgeCandidate ref m).lrst = p.lrst ∧
    (p.judgeCandidate ref m).cvt.position = p.cvt.position ∧ (p.judgeCandidate ref m).odk.queue = p.odk.queue ∧
    (p.judgeCandidate ref m).odk.takeIdentity = p.odk.takeIdentity ∧
    (p.judgeCandidate ref m).rpu.phase = p.rpu.phase ∧
    (p.judgeCandidate ref m).rpu.lineResetBusy = p.rpu.lineResetBusy ∧
    (p.judgeCandidate ref m).rpu.threshold = p.rpu.threshold ∧ (p.judgeCandidate ref m).rpu.busData = p.rpu.busData ∧
    (p.judgeCandidate ref m).rpu.fault = p.rpu.fault ∧ (p.judgeCandidate ref m).spm.hallHold = p.spm.hallHold ∧
    (p.judgeCandidate ref m).trl.nextSeq = p.trl.nextSeq := by
  unfold Part.judgeCandidate; (repeat' split) <;> simp

@[simp] theorem Part.copyEnd_frame (p : Part) :
    p.copyEnd.syncLine = p.syncLine ∧ p.copyEnd.lrst = p.lrst ∧ p.copyEnd.cvt.position = p.cvt.position ∧
    p.copyEnd.odk.queue = p.odk.queue ∧ p.copyEnd.odk.takeIdentity = p.odk.takeIdentity ∧
    p.copyEnd.rpu.phase = p.rpu.phase ∧ p.copyEnd.rpu.lineResetBusy = p.rpu.lineResetBusy ∧
    p.copyEnd.rpu.threshold = p.rpu.threshold ∧ p.copyEnd.rpu.busData = p.rpu.busData ∧
    p.copyEnd.rpu.fault = p.rpu.fault ∧ p.copyEnd.spm.hallHold = p.spm.hallHold ∧
    p.copyEnd.trl.nextSeq = p.trl.nextSeq := by
  unfold Part.copyEnd; (repeat' split) <;> simp

end Sys2Proof.Machine
end

