-- ==== Sys2Proof/Laws/FrameDesk.lean ====
section
/-! SUPPORT. What each operation of the Order Desk, start-up, the resets and the host bus leaves unchanged: one
theorem per operation. -/

namespace Sys2Proof.Machine

@[simp] theorem Part.protocolError_frame (p : Part) (n : Fin 48) :
    (p.protocolError n).mtu = p.mtu ∧ (p.protocolError n).cvt = p.cvt ∧ (p.protocolError n).trl = p.trl ∧
    (p.protocolError n).rbp = p.rbp ∧ (p.protocolError n).ctu = p.ctu ∧ (p.protocolError n).rej = p.rej ∧
    (p.protocolError n).spm = p.spm ∧ (p.protocolError n).sac = p.sac ∧ (p.protocolError n).syncLine = p.syncLine ∧
    (p.protocolError n).lrst = p.lrst ∧ (p.protocolError n).freeCount = p.freeCount ∧
    (p.protocolError n).odk.queue = p.odk.queue ∧ (p.protocolError n).odk.takeIdentity = p.odk.takeIdentity ∧
    (p.protocolError n).rpu.phase = p.rpu.phase ∧ (p.protocolError n).rpu.lineResetBusy = p.rpu.lineResetBusy ∧
    (p.protocolError n).rpu.threshold = p.rpu.threshold ∧ (p.protocolError n).rpu.busData = p.rpu.busData ∧
    (p.protocolError n).rpu.fault = p.rpu.fault := by
  unfold Part.protocolError; simp

@[simp] theorem Part.storeHand_frame (p : Part) (n : Fin 48) (value : Half) :
    (p.storeHand n value).mtu = p.mtu ∧ (p.storeHand n value).cvt = p.cvt ∧ (p.storeHand n value).trl = p.trl ∧
    (p.storeHand n value).rbp = p.rbp ∧ (p.storeHand n value).ctu = p.ctu ∧ (p.storeHand n value).rej = p.rej ∧
    (p.storeHand n value).spm = p.spm ∧ (p.storeHand n value).sac = p.sac ∧ (p.storeHand n value).odk = p.odk ∧
    (p.storeHand n value).rpu = p.rpu ∧ (p.storeHand n value).syncLine = p.syncLine ∧
    (p.storeHand n value).lrst = p.lrst ∧ (p.storeHand n value).freeCount = p.freeCount := by
  unfold Part.storeHand; simp

@[simp] theorem Part.postCell_frame (p : Part) (n : Fin 48) (value : Half) :
    (p.postCell n value).mtu = p.mtu ∧ (p.postCell n value).cvt = p.cvt ∧ (p.postCell n value).trl = p.trl ∧
    (p.postCell n value).rbp = p.rbp ∧ (p.postCell n value).ctu = p.ctu ∧ (p.postCell n value).rej = p.rej ∧
    (p.postCell n value).spm = p.spm ∧ (p.postCell n value).sac = p.sac ∧
    (p.postCell n value).syncLine = p.syncLine ∧ (p.postCell n value).lrst = p.lrst ∧
    (p.postCell n value).freeCount = p.freeCount ∧ (p.postCell n value).odk.takeIdentity = p.odk.takeIdentity ∧
    (p.postCell n value).rpu.phase = p.rpu.phase ∧ (p.postCell n value).rpu.lineResetBusy = p.rpu.lineResetBusy ∧
    (p.postCell n value).rpu.threshold = p.rpu.threshold ∧ (p.postCell n value).rpu.busData = p.rpu.busData ∧
    (p.postCell n value).rpu.fault = p.rpu.fault := by
  unfold Part.postCell; simp

@[simp] theorem Part.withdrawCell_frame (p : Part) (n : Fin 48) (value : Half) :
    (p.withdrawCell n value).mtu = p.mtu ∧ (p.withdrawCell n value).cvt = p.cvt ∧
    (p.withdrawCell n value).trl = p.trl ∧ (p.withdrawCell n value).rbp = p.rbp ∧
    (p.withdrawCell n value).ctu = p.ctu ∧ (p.withdrawCell n value).rej = p.rej ∧
    (p.withdrawCell n value).spm = p.spm ∧ (p.withdrawCell n value).sac = p.sac ∧
    (p.withdrawCell n value).syncLine = p.syncLine ∧ (p.withdrawCell n value).lrst = p.lrst ∧
    (p.withdrawCell n value).freeCount = p.freeCount ∧
    (p.withdrawCell n value).odk.takeIdentity = p.odk.takeIdentity ∧
    (p.withdrawCell n value).rpu.phase = p.rpu.phase ∧
    (p.withdrawCell n value).rpu.lineResetBusy = p.rpu.lineResetBusy ∧
    (p.withdrawCell n value).rpu.threshold = p.rpu.threshold ∧ (p.withdrawCell n value).rpu.busData = p.rpu.busData ∧
    (p.withdrawCell n value).rpu.fault = p.rpu.fault := by
  unfold Part.withdrawCell; simp

@[simp] theorem Part.handWrite_frame (p : Part) (n : Fin 48) (value : Half) :
    (p.handWrite n value).mtu = p.mtu ∧ (p.handWrite n value).cvt = p.cvt ∧ (p.handWrite n value).trl = p.trl ∧
    (p.handWrite n value).rbp = p.rbp ∧ (p.handWrite n value).ctu = p.ctu ∧ (p.handWrite n value).rej = p.rej ∧
    (p.handWrite n value).spm = p.spm ∧ (p.handWrite n value).sac = p.sac ∧
    (p.handWrite n value).syncLine = p.syncLine ∧ (p.handWrite n value).lrst = p.lrst ∧
    (p.handWrite n value).freeCount = p.freeCount ∧ (p.handWrite n value).odk.takeIdentity = p.odk.takeIdentity ∧
    (p.handWrite n value).rpu.phase = p.rpu.phase ∧ (p.handWrite n value).rpu.lineResetBusy = p.rpu.lineResetBusy ∧
    (p.handWrite n value).rpu.threshold = p.rpu.threshold ∧ (p.handWrite n value).rpu.busData = p.rpu.busData ∧
    (p.handWrite n value).rpu.fault = p.rpu.fault := by
  unfold Part.handWrite; dsimp only; (repeat' split) <;> simp

@[simp] theorem Part.perform_frame (p : Part) (ref : OrderRef) (o : Order) :
    (p.perform ref o).syncLine = p.syncLine ∧ (p.perform ref o).lrst = p.lrst ∧
    (p.perform ref o).cvt.position = p.cvt.position ∧ (p.perform ref o).cvt.highWater = p.cvt.highWater ∧
    (p.perform ref o).cvt.depth = p.cvt.depth ∧ (p.perform ref o).cvt.phase = p.cvt.phase ∧
    (p.perform ref o).cvt.profile = p.cvt.profile ∧ (p.perform ref o).odk.queue = p.odk.queue ∧
    (p.perform ref o).odk.takeIdentity = p.odk.takeIdentity ∧ (p.perform ref o).rpu.phase = p.rpu.phase ∧
    (p.perform ref o).rpu.lineResetBusy = p.rpu.lineResetBusy ∧ (p.perform ref o).rpu.threshold = p.rpu.threshold ∧
    (p.perform ref o).rpu.busData = p.rpu.busData := by
  unfold Part.perform; (repeat' split) <;> simp

@[simp] theorem Part.markTaken_frame (p : Part) (n : Fin 48) :
    (p.markTaken n).mtu = p.mtu ∧ (p.markTaken n).cvt = p.cvt ∧ (p.markTaken n).trl = p.trl ∧
    (p.markTaken n).rbp = p.rbp ∧ (p.markTaken n).ctu = p.ctu ∧ (p.markTaken n).rej = p.rej ∧
    (p.markTaken n).spm = p.spm ∧ (p.markTaken n).sac = p.sac ∧ (p.markTaken n).rpu = p.rpu ∧
    (p.markTaken n).syncLine = p.syncLine ∧ (p.markTaken n).lrst = p.lrst ∧
    (p.markTaken n).freeCount = p.freeCount := by
  unfold Part.markTaken; dsimp only; simp

@[simp] theorem Part.endTake_frame (p : Part) (ref : OrderRef) :
    (p.endTake ref).mtu = p.mtu ∧ (p.endTake ref).cvt = p.cvt ∧ (p.endTake ref).trl = p.trl ∧
    (p.endTake ref).rbp = p.rbp ∧ (p.endTake ref).ctu = p.ctu ∧ (p.endTake ref).rej = p.rej ∧
    (p.endTake ref).spm = p.spm ∧ (p.endTake ref).sac = p.sac ∧ (p.endTake ref).syncLine = p.syncLine ∧
    (p.endTake ref).lrst = p.lrst ∧ (p.endTake ref).freeCount = p.freeCount ∧
    (p.endTake ref).odk.queue = p.odk.queue ∧ (p.endTake ref).odk.takeIdentity = p.odk.takeIdentity ∧
    (p.endTake ref).rpu.phase = p.rpu.phase ∧ (p.endTake ref).rpu.lineResetBusy = p.rpu.lineResetBusy ∧
    (p.endTake ref).rpu.threshold = p.rpu.threshold ∧ (p.endTake ref).rpu.busData = p.rpu.busData ∧
    (p.endTake ref).rpu.fault = p.rpu.fault := by
  unfold Part.endTake; simp

@[simp] theorem Part.answer_frame (p : Part) (ref : OrderRef) (order : Option Order) (busy : Bool) :
    (p.answer ref order busy).syncLine = p.syncLine ∧ (p.answer ref order busy).lrst = p.lrst ∧
    (p.answer ref order busy).cvt.position = p.cvt.position ∧
    (p.answer ref order busy).cvt.highWater = p.cvt.highWater ∧ (p.answer ref order busy).cvt.depth = p.cvt.depth ∧
    (p.answer ref order busy).cvt.phase = p.cvt.phase ∧ (p.answer ref order busy).cvt.profile = p.cvt.profile ∧
    (p.answer ref order busy).odk.queue = p.odk.queue ∧
    (p.answer ref order busy).odk.takeIdentity = p.odk.takeIdentity ∧
    (p.answer ref order busy).rpu.phase = p.rpu.phase ∧
    (p.answer ref order busy).rpu.lineResetBusy = p.rpu.lineResetBusy ∧
    (p.answer ref order busy).rpu.threshold = p.rpu.threshold ∧
    (p.answer ref order busy).rpu.busData = p.rpu.busData := by
  unfold Part.answer; (repeat' split) <;> simp

@[simp] theorem Part.take_frame (p : Part) (n : Fin 48) :
    (p.take n).syncLine = p.syncLine ∧ (p.take n).lrst = p.lrst ∧ (p.take n).cvt.position = p.cvt.position ∧
    (p.take n).cvt.highWater = p.cvt.highWater ∧ (p.take n).cvt.depth = p.cvt.depth ∧
    (p.take n).cvt.phase = p.cvt.phase ∧ (p.take n).cvt.profile = p.cvt.profile ∧
    (p.take n).rpu.phase = p.rpu.phase ∧ (p.take n).rpu.lineResetBusy = p.rpu.lineResetBusy ∧
    (p.take n).rpu.threshold = p.rpu.threshold ∧ (p.take n).rpu.busData = p.rpu.busData := by
  unfold Part.take; dsimp only; (repeat' split) <;> simp

@[simp] theorem Part.orderTake_frame (p : Part) :
    p.orderTake.syncLine = p.syncLine ∧ p.orderTake.lrst = p.lrst ∧ p.orderTake.cvt.position = p.cvt.position ∧
    p.orderTake.cvt.highWater = p.cvt.highWater ∧ p.orderTake.cvt.depth = p.cvt.depth ∧
    p.orderTake.cvt.phase = p.cvt.phase ∧ p.orderTake.cvt.profile = p.cvt.profile ∧
    p.orderTake.rpu.phase = p.rpu.phase ∧ p.orderTake.rpu.lineResetBusy = p.rpu.lineResetBusy ∧
    p.orderTake.rpu.threshold = p.rpu.threshold ∧ p.orderTake.rpu.busData = p.rpu.busData := by
  unfold Part.orderTake; (repeat' split) <;> simp

@[simp] theorem Part.takeAs_frame (p : Part) (n : Fin 48) (o : Order) :
    (p.takeAs n o).syncLine = p.syncLine ∧ (p.takeAs n o).lrst = p.lrst ∧
    (p.takeAs n o).cvt.position = p.cvt.position ∧ (p.takeAs n o).cvt.highWater = p.cvt.highWater ∧
    (p.takeAs n o).cvt.depth = p.cvt.depth ∧ (p.takeAs n o).cvt.phase = p.cvt.phase ∧
    (p.takeAs n o).cvt.profile = p.cvt.profile ∧ (p.takeAs n o).rpu.phase = p.rpu.phase ∧
    (p.takeAs n o).rpu.lineResetBusy = p.rpu.lineResetBusy ∧ (p.takeAs n o).rpu.threshold = p.rpu.threshold ∧
    (p.takeAs n o).rpu.busData = p.rpu.busData := by
  unfold Part.takeAs; (repeat' split) <;> simp

@[simp] theorem Part.rewriteAll_frame (p : Part) :
    p.rewriteAll.mtu = p.mtu ∧ p.rewriteAll.cvt = p.cvt ∧ p.rewriteAll.trl = p.trl ∧ p.rewriteAll.rbp = p.rbp ∧
    p.rewriteAll.ctu = p.ctu ∧ p.rewriteAll.rej = p.rej ∧ p.rewriteAll.spm = p.spm ∧ p.rewriteAll.sac = p.sac ∧
    p.rewriteAll.odk = p.odk ∧ p.rewriteAll.syncLine = p.syncLine ∧ p.rewriteAll.lrst = p.lrst ∧
    p.rewriteAll.freeCount = p.freeCount ∧ p.rewriteAll.rpu.phase = p.rpu.phase ∧
    p.rewriteAll.rpu.lineResetBusy = p.rpu.lineResetBusy ∧ p.rewriteAll.rpu.threshold = p.rpu.threshold ∧
    p.rewriteAll.rpu.busData = p.rpu.busData ∧ p.rewriteAll.rpu.fault = p.rpu.fault := by
    unfold Part.rewriteAll; simp [fold_mtu, fold_cvt, fold_trl, fold_rbp, fold_ctu, fold_rej, fold_spm, fold_sac,
    fold_odk, fold_syncLine, fold_lrst, fold_freeCount, fold_rpu_phase, fold_rpu_lineResetBusy, fold_rpu_threshold,
    fold_rpu_busData, fold_rpu_fault]

@[simp] theorem Part.writeBoard_frame (p : Part) :
    p.writeBoard.mtu = p.mtu ∧ p.writeBoard.cvt = p.cvt ∧ p.writeBoard.trl = p.trl ∧ p.writeBoard.rbp = p.rbp ∧
    p.writeBoard.ctu = p.ctu ∧ p.writeBoard.rej = p.rej ∧ p.writeBoard.spm = p.spm ∧ p.writeBoard.sac = p.sac ∧
    p.writeBoard.odk = p.odk ∧ p.writeBoard.syncLine = p.syncLine ∧ p.writeBoard.lrst = p.lrst ∧
    p.writeBoard.freeCount = p.freeCount ∧ p.writeBoard.rpu.phase = p.rpu.phase ∧
    p.writeBoard.rpu.lineResetBusy = p.rpu.lineResetBusy ∧ p.writeBoard.rpu.threshold = p.rpu.threshold ∧
    p.writeBoard.rpu.busData = p.rpu.busData ∧ p.writeBoard.rpu.fault = p.rpu.fault := by
    unfold Part.writeBoard; dsimp only; simp [fold_mtu, fold_cvt, fold_trl, fold_rbp, fold_ctu, fold_rej, fold_spm,
    fold_sac, fold_odk, fold_syncLine, fold_lrst, fold_freeCount, fold_rpu_phase, fold_rpu_lineResetBusy,
    fold_rpu_threshold, fold_rpu_busData, fold_rpu_fault]

@[simp] theorem Part.startupComplete_frame (p : Part) :
    p.startupComplete.mtu = p.mtu ∧ p.startupComplete.cvt = p.cvt ∧ p.startupComplete.trl = p.trl ∧
    p.startupComplete.rbp = p.rbp ∧ p.startupComplete.ctu = p.ctu ∧ p.startupComplete.rej = p.rej ∧
    p.startupComplete.spm = p.spm ∧ p.startupComplete.sac = p.sac ∧ p.startupComplete.odk = p.odk ∧
    p.startupComplete.syncLine = p.syncLine ∧ p.startupComplete.lrst = p.lrst ∧
    p.startupComplete.freeCount = p.freeCount ∧ p.startupComplete.rpu.lineResetBusy = p.rpu.lineResetBusy ∧
    p.startupComplete.rpu.threshold = p.rpu.threshold ∧ p.startupComplete.rpu.busData = p.rpu.busData ∧
    p.startupComplete.rpu.fault = p.rpu.fault := by
  unfold Part.startupComplete; (repeat' split) <;> simp

@[simp] theorem Part.beginExchangeReset_frame (p : Part) :
    p.beginExchangeReset.mtu = p.mtu ∧ p.beginExchangeReset.cvt = p.cvt ∧ p.beginExchangeReset.trl = p.trl ∧
    p.beginExchangeReset.rbp = p.rbp ∧ p.beginExchangeReset.ctu = p.ctu ∧ p.beginExchangeReset.rej = p.rej ∧
    p.beginExchangeReset.spm = p.spm ∧ p.beginExchangeReset.sac = p.sac ∧
    p.beginExchangeReset.syncLine = p.syncLine ∧ p.beginExchangeReset.lrst = p.lrst ∧
    p.beginExchangeReset.freeCount = p.freeCount := by
  unfold Part.beginExchangeReset; simp

@[simp] theorem Part.exchangeReset_frame (p : Part) :
    p.exchangeReset.mtu = p.mtu ∧ p.exchangeReset.cvt = p.cvt ∧ p.exchangeReset.trl = p.trl ∧
    p.exchangeReset.rbp = p.rbp ∧ p.exchangeReset.ctu = p.ctu ∧ p.exchangeReset.rej = p.rej ∧
    p.exchangeReset.spm = p.spm ∧ p.exchangeReset.sac = p.sac ∧ p.exchangeReset.syncLine = p.syncLine ∧
    p.exchangeReset.lrst = p.lrst ∧ p.exchangeReset.freeCount = p.freeCount := by
  unfold Part.exchangeReset; (repeat' split) <;> simp

@[simp] theorem Part.exchangeResetEnd_frame (p : Part) :
    p.exchangeResetEnd.mtu = p.mtu ∧ p.exchangeResetEnd.cvt = p.cvt ∧ p.exchangeResetEnd.trl = p.trl ∧
    p.exchangeResetEnd.rbp = p.rbp ∧ p.exchangeResetEnd.ctu = p.ctu ∧ p.exchangeResetEnd.rej = p.rej ∧
    p.exchangeResetEnd.spm = p.spm ∧ p.exchangeResetEnd.sac = p.sac ∧ p.exchangeResetEnd.odk = p.odk ∧
    p.exchangeResetEnd.syncLine = p.syncLine ∧ p.exchangeResetEnd.lrst = p.lrst ∧ p.exchangeResetEnd.mem = p.mem ∧
    p.exchangeResetEnd.freeCount = p.freeCount ∧ p.exchangeResetEnd.rpu.lineResetBusy = p.rpu.lineResetBusy ∧
    p.exchangeResetEnd.rpu.threshold = p.rpu.threshold ∧ p.exchangeResetEnd.rpu.busData = p.rpu.busData ∧
    p.exchangeResetEnd.rpu.fault = p.rpu.fault := by
  unfold Part.exchangeResetEnd; (repeat' split) <;> simp

@[simp] theorem Part.abortCell_frame (p : Part) (inflight : List InFlight) (n : Fin 48) :
    (p.abortCell inflight n).mtu = p.mtu ∧ (p.abortCell inflight n).cvt = p.cvt ∧
    (p.abortCell inflight n).trl = p.trl ∧ (p.abortCell inflight n).rbp = p.rbp ∧
    (p.abortCell inflight n).ctu = p.ctu ∧ (p.abortCell inflight n).rej = p.rej ∧
    (p.abortCell inflight n).spm = p.spm ∧ (p.abortCell inflight n).sac = p.sac ∧
    (p.abortCell inflight n).odk = p.odk ∧ (p.abortCell inflight n).rpu = p.rpu ∧
    (p.abortCell inflight n).syncLine = p.syncLine ∧ (p.abortCell inflight n).lrst = p.lrst ∧
    (p.abortCell inflight n).freeCount = p.freeCount := by
  unfold Part.abortCell; dsimp only; (repeat' split) <;> simp

@[simp] theorem Part.abortCells_frame (p : Part) (inflight : List InFlight) :
    (p.abortCells inflight).mtu = p.mtu ∧ (p.abortCells inflight).cvt = p.cvt ∧ (p.abortCells inflight).trl = p.trl ∧
    (p.abortCells inflight).rbp = p.rbp ∧ (p.abortCells inflight).ctu = p.ctu ∧ (p.abortCells inflight).rej = p.rej ∧
    (p.abortCells inflight).spm = p.spm ∧ (p.abortCells inflight).sac = p.sac ∧ (p.abortCells inflight).odk = p.odk ∧
    (p.abortCells inflight).syncLine = p.syncLine ∧ (p.abortCells inflight).lrst = p.lrst ∧
    (p.abortCells inflight).freeCount = p.freeCount ∧ (p.abortCells inflight).rpu.phase = p.rpu.phase ∧
    (p.abortCells inflight).rpu.lineResetBusy = p.rpu.lineResetBusy ∧
    (p.abortCells inflight).rpu.threshold = p.rpu.threshold ∧ (p.abortCells inflight).rpu.busData = p.rpu.busData ∧
    (p.abortCells inflight).rpu.fault = p.rpu.fault := by
    unfold Part.abortCells; simp [fold_mtu, fold_cvt, fold_trl, fold_rbp, fold_ctu, fold_rej, fold_spm, fold_sac,
    fold_odk, fold_syncLine, fold_lrst, fold_freeCount, fold_rpu_phase, fold_rpu_lineResetBusy, fold_rpu_threshold,
    fold_rpu_busData, fold_rpu_fault]

@[simp] theorem Part.beginLineReset_frame (p : Part) :
    p.beginLineReset.syncLine = p.syncLine ∧ p.beginLineReset.lrst = p.lrst ∧
    p.beginLineReset.freeCount = p.freeCount ∧ p.beginLineReset.cvt.position = p.cvt.position ∧
    p.beginLineReset.cvt.profile = p.cvt.profile ∧ p.beginLineReset.odk.takeIdentity = p.odk.takeIdentity ∧
    p.beginLineReset.rpu.phase = p.rpu.phase ∧ p.beginLineReset.rpu.threshold = p.rpu.threshold ∧
    p.beginLineReset.rpu.busData = p.rpu.busData ∧ p.beginLineReset.rpu.fault = p.rpu.fault ∧
    p.beginLineReset.spm.hallHold = p.spm.hallHold ∧ p.beginLineReset.mtu.time = p.mtu.time ∧
    (∀ k : Fin 16, p.beginLineReset.spm.ports[k.val].role = p.spm.ports[k.val].role) ∧
    (∀ k : Fin 16, p.beginLineReset.spm.ports[k.val].link = p.spm.ports[k.val].link) := by
  unfold Part.beginLineReset; dsimp only; simp

@[simp] theorem Part.controlLineReset_frame (p : Part) :
    p.controlLineReset.syncLine = p.syncLine ∧ p.controlLineReset.lrst = p.lrst ∧
    p.controlLineReset.freeCount = p.freeCount ∧ p.controlLineReset.cvt.position = p.cvt.position ∧
    p.controlLineReset.cvt.profile = p.cvt.profile ∧ p.controlLineReset.odk.takeIdentity = p.odk.takeIdentity ∧
    p.controlLineReset.rpu.phase = p.rpu.phase ∧ p.controlLineReset.rpu.threshold = p.rpu.threshold ∧
    p.controlLineReset.rpu.busData = p.rpu.busData ∧ p.controlLineReset.rpu.fault = p.rpu.fault ∧
    p.controlLineReset.spm.hallHold = p.spm.hallHold ∧ p.controlLineReset.mtu.time = p.mtu.time ∧
    (∀ k : Fin 16, p.controlLineReset.spm.ports[k.val].role = p.spm.ports[k.val].role) ∧
    (∀ k : Fin 16, p.controlLineReset.spm.ports[k.val].link = p.spm.ports[k.val].link) := by
  unfold Part.controlLineReset; (repeat' split) <;> simp

@[simp] theorem Part.pinLineReset_frame (p : Part) :
    p.pinLineReset.syncLine = p.syncLine ∧ p.pinLineReset.freeCount = p.freeCount ∧
    p.pinLineReset.cvt.position = p.cvt.position ∧ p.pinLineReset.cvt.profile = p.cvt.profile ∧
    p.pinLineReset.odk.takeIdentity = p.odk.takeIdentity ∧ p.pinLineReset.rpu.phase = p.rpu.phase ∧
    p.pinLineReset.rpu.threshold = p.rpu.threshold ∧ p.pinLineReset.rpu.busData = p.rpu.busData ∧
    p.pinLineReset.rpu.fault = p.rpu.fault ∧ p.pinLineReset.spm.hallHold = p.spm.hallHold ∧
    p.pinLineReset.mtu.time = p.mtu.time ∧
    (∀ k : Fin 16, p.pinLineReset.spm.ports[k.val].role = p.spm.ports[k.val].role) ∧
    (∀ k : Fin 16, p.pinLineReset.spm.ports[k.val].link = p.spm.ports[k.val].link) := by
  unfold Part.pinLineReset; (repeat' split) <;> simp

@[simp] theorem Part.lineResetEnd_frame (p : Part) :
    p.lineResetEnd.mtu = p.mtu ∧ p.lineResetEnd.cvt = p.cvt ∧ p.lineResetEnd.trl = p.trl ∧
    p.lineResetEnd.rbp = p.rbp ∧ p.lineResetEnd.ctu = p.ctu ∧ p.lineResetEnd.rej = p.rej ∧
    p.lineResetEnd.spm = p.spm ∧ p.lineResetEnd.sac = p.sac ∧ p.lineResetEnd.odk = p.odk ∧
    p.lineResetEnd.syncLine = p.syncLine ∧ p.lineResetEnd.freeCount = p.freeCount ∧
    p.lineResetEnd.rpu.phase = p.rpu.phase ∧ p.lineResetEnd.rpu.threshold = p.rpu.threshold ∧
    p.lineResetEnd.rpu.busData = p.rpu.busData ∧ p.lineResetEnd.rpu.fault = p.rpu.fault := by
  unfold Part.lineResetEnd; dsimp only; (repeat' split) <;> simp

@[simp] theorem Part.hostStore_frame (p : Part) (offset : Nat) (value : Half) :
    (p.hostStore offset value).mtu = p.mtu ∧ (p.hostStore offset value).cvt = p.cvt ∧
    (p.hostStore offset value).trl = p.trl ∧ (p.hostStore offset value).rbp = p.rbp ∧
    (p.hostStore offset value).ctu = p.ctu ∧ (p.hostStore offset value).rej = p.rej ∧
    (p.hostStore offset value).spm = p.spm ∧ (p.hostStore offset value).sac = p.sac ∧
    (p.hostStore offset value).syncLine = p.syncLine ∧ (p.hostStore offset value).lrst = p.lrst ∧
    (p.hostStore offset value).freeCount = p.freeCount ∧
    (p.hostStore offset value).odk.takeIdentity = p.odk.takeIdentity ∧
    (p.hostStore offset value).rpu.phase = p.rpu.phase ∧
    (p.hostStore offset value).rpu.lineResetBusy = p.rpu.lineResetBusy ∧
    (p.hostStore offset value).rpu.threshold = p.rpu.threshold ∧
    (p.hostStore offset value).rpu.busData = p.rpu.busData ∧ (p.hostStore offset value).rpu.fault = p.rpu.fault := by
  unfold Part.hostStore; (repeat' split) <;> simp

@[simp] theorem Part.hostMemoryWrite_frame (p : Part) (offset : Nat) (value : Half) (progress : Nat) :
    (p.hostMemoryWrite offset value progress).mtu = p.mtu ∧ (p.hostMemoryWrite offset value progress).trl = p.trl ∧
    (p.hostMemoryWrite offset value progress).rbp = p.rbp ∧ (p.hostMemoryWrite offset value progress).ctu = p.ctu ∧
    (p.hostMemoryWrite offset value progress).rej = p.rej ∧ (p.hostMemoryWrite offset value progress).spm = p.spm ∧
    (p.hostMemoryWrite offset value progress).sac = p.sac ∧
    (p.hostMemoryWrite offset value progress).syncLine = p.syncLine ∧
    (p.hostMemoryWrite offset value progress).lrst = p.lrst ∧
    (p.hostMemoryWrite offset value progress).freeCount = p.freeCount ∧
    (p.hostMemoryWrite offset value progress).cvt.position = p.cvt.position ∧
    (p.hostMemoryWrite offset value progress).cvt.highWater = p.cvt.highWater ∧
    (p.hostMemoryWrite offset value progress).cvt.depth = p.cvt.depth ∧
    (p.hostMemoryWrite offset value progress).cvt.phase = p.cvt.phase ∧
    (p.hostMemoryWrite offset value progress).cvt.profile = p.cvt.profile ∧
    (p.hostMemoryWrite offset value progress).cvt.tracker = p.cvt.tracker ∧
    (p.hostMemoryWrite offset value progress).odk.takeIdentity = p.odk.takeIdentity ∧
    (p.hostMemoryWrite offset value progress).rpu.phase = p.rpu.phase ∧
    (p.hostMemoryWrite offset value progress).rpu.lineResetBusy = p.rpu.lineResetBusy ∧
    (p.hostMemoryWrite offset value progress).rpu.threshold = p.rpu.threshold ∧
    (p.hostMemoryWrite offset value progress).rpu.busData = p.rpu.busData ∧
    (p.hostMemoryWrite offset value progress).rpu.fault = p.rpu.fault := by
  unfold Part.hostMemoryWrite; (repeat' split) <;> simp

@[simp] theorem Part.registerWrite_frame (p : Part) (register : Fin 8) (value : Half) :
    (p.registerWrite register value).syncLine = p.syncLine ∧ (p.registerWrite register value).lrst = p.lrst ∧
    (p.registerWrite register value).freeCount = p.freeCount ∧
    (p.registerWrite register value).cvt.position = p.cvt.position ∧
    (p.registerWrite register value).cvt.profile = p.cvt.profile ∧
    (p.registerWrite register value).spm.hallHold = p.spm.hallHold ∧
    (p.registerWrite register value).mtu.time = p.mtu.time ∧
    (∀ k : Fin 16, (p.registerWrite register value).spm.ports[k.val].role = p.spm.ports[k.val].role) ∧
    (∀ k : Fin 16, (p.registerWrite register value).spm.ports[k.val].link = p.spm.ports[k.val].link) := by
  unfold Part.registerWrite; (repeat' split) <;> simp

end Sys2Proof.Machine
end

