-- ==== Sys2Proof/Laws/Effects.lean ====
section
/-! SUPPORT. What the shared operations do, once each: which bytes they store to and what then stands there, what a
raise and a report leave in the Report Unit, what completing an order leaves on the desk, and what a whole take does. -/

namespace Sys2Proof.Machine

/-! ## Reading bytes -/

@[simp] theorem Memory.read_length (m : Memory) (a len : Nat) : (Memory.read m a len).length = len := by
  induction len generalizing a with
  | zero => rfl
  | succ n ih => simp [Memory.read, ih]

theorem Memory.read_eq (m : Memory) (a : Nat) (bytes : List Byte)
    (h : ∀ k < bytes.length, Memory.byte m (a + k) = bytes.getD k 0) : Memory.read m a bytes.length = bytes := by
  induction bytes generalizing a with
  | nil => rfl
  | cons b bs ih =>
    have h0 := h 0 (by simp)
    simp only [Nat.add_zero, List.getD_cons_zero] at h0
    simp only [List.length_cons, Memory.read, h0]
    rw [ih (a + 1) fun k hk => by
      have := h (k + 1) (by simpa using hk)
      rw [List.getD_cons_succ] at this
      rw [← this, show a + 1 + k = a + (k + 1) by omega]]

theorem Memory.read_congr (m m' : Memory) (a len : Nat) (h : ∀ k < len, Memory.byte m' (a + k) = Memory.byte m (a + k)) :
    Memory.read m' a len = Memory.read m a len := by
  induction len generalizing a with
  | zero => rfl
  | succ n ih =>
    have h0 := h 0 (by omega)
    simp only [Nat.add_zero] at h0
    simp only [Memory.read, h0]
    rw [ih (a + 1) fun k hk => by
      have := h (k + 1) (by omega)
      rw [show a + 1 + k = a + (k + 1) by omega]; exact this]

/-- What has just been stored reads back. -/
theorem Memory.read_write (m : Memory) (base len : Nat) (bytes : List Byte) (h : bytes.length = len) :
    Memory.read (Memory.write m base bytes) base len = bytes := by
  subst h
  exact Memory.read_eq _ _ _ fun k hk => by
    rw [Memory.byte_write, if_pos (by omega), show base + k - base = k by omega]

theorem Memory.read_append (m : Memory) (a n k : Nat) :
    Memory.read m a (n + k) = Memory.read m a n ++ Memory.read m (a + n) k := by
  induction n generalizing a with
  | zero => simp [Memory.read]
  | succ n ih =>
    rw [show n + 1 + k = (n + k) + 1 by omega]
    simp only [Memory.read, ih, List.cons_append, show a + 1 + n = a + (n + 1) by omega]

/-- A number's bytes are what reads there. -/
theorem Memory.leBytes_number (m : Memory) (a n : Nat) : leBytes n (Memory.number m a n) = Memory.read m a n := by
  induction n generalizing a with
  | zero => rfl
  | succ n ih =>
    have hb := (Memory.byte m a).isLt
    simp only [leBytes, Memory.number, Memory.read]
    rw [show ((Memory.byte m a).toNat + 256 * Memory.number m (a + 1) n) / 256 = Memory.number m (a + 1) n by omega, ih]
    congr 1
    apply BitVec.eq_of_toNat_eq
    simp only [BitVec.toNat_ofNat]
    omega

/-! ## Which bytes are stored to -/

theorem Memory.storesOnly_refl (m : Memory) (l : List Area) : Memory.storesOnly m m l := fun _ _ => rfl

theorem Memory.storesOnly_trans {m m' m'' : Memory} {l : List Area} (h : Memory.storesOnly m m' l)
    (h' : Memory.storesOnly m' m'' l) : Memory.storesOnly m m'' l := fun a ha => by rw [h' a ha, h a ha]

theorem Memory.storesOnly_mono {m m' : Memory} {l k : List Area} (h : Memory.storesOnly m m' l) (hs : l ⊆ k) :
    Memory.storesOnly m m' k := fun a ha => h a fun x hx => ha x (hs hx)

/-- A write into an area of the list. -/
theorem Memory.storesOnly_write {m m' : Memory} {l : List Area} (x : Area) {base : Nat} {bytes : List Byte}
    (hx : x ∈ l) (hb : x.base ≤ base) (he : base + bytes.length ≤ x.base + x.size) (h : Memory.storesOnly m m' l) :
    Memory.storesOnly m (Memory.write m' base bytes) l := fun a ha => by
  rw [Memory.byte_write_outside, h a ha]
  rcases ha x hx with h | h <;> omega

/-- What reads in bytes that no area of the list reaches still reads there. -/
theorem Memory.read_of_storesOnly {m m' : Memory} {l : List Area} {a len : Nat} (h : Memory.storesOnly m m' l)
    (hd : ∀ x ∈ l, a + len ≤ x.base ∨ x.base + x.size ≤ a) : Memory.read m' a len = Memory.read m a len :=
  Memory.read_congr _ _ _ _ fun k hk => h (a + k) fun x hx => by rcases hd x hx with h | h <;> omega

theorem Part.rewrite_stores {m : Memory} {l : List Area} (p : Part) (i : MirrorId) (hx : .mirror i ∈ l)
    (h : m.storesOnly p.mem l) : m.storesOnly (p.rewrite i).mem l := by
  unfold Part.rewrite; dsimp only
  exact Memory.storesOnly_write (.mirror i) hx (Nat.le_refl _) (by simp [Area.base, Area.size]) h

theorem Part.storeBulletin_stores {m : Memory} {l : List Area} (p : Part) (b : Fin 10) (hx : .bulletin b ∈ l)
    (h : m.storesOnly p.mem l) : m.storesOnly (p.storeBulletin b).mem l := by
  unfold Part.storeBulletin
  exact Memory.storesOnly_write (.bulletin b) hx (Nat.le_refl _) (by simp [Area.base, Area.size]) h

theorem Part.raise_stores {m : Memory} {l : List Area} (p : Part) (n : News) (member : Byte)
    (hx : .bulletin n.bulletin ∈ l) (h : m.storesOnly p.mem l) : m.storesOnly (p.raise n member).mem l := by
  unfold Part.raise; dsimp only
  exact Part.storeBulletin_stores _ _ hx (by simpa using h)

theorem Part.storeFault_stores {m : Memory} {l : List Area} (p : Part) (hx : .fault ∈ l) (h : m.storesOnly p.mem l) :
    m.storesOnly p.storeFault.mem l := by
  unfold Part.storeFault
  exact Memory.storesOnly_write .fault hx (Nat.le_refl _) (by simp [Area.base, Area.size]) h

theorem Part.report_stores {m : Memory} {l : List Area} (p : Part) (k : FaultKind) (member : Byte) (seq : Word)
    (hx : .fault ∈ l) (hy : .bulletin 9 ∈ l) (h : m.storesOnly p.mem l) :
    m.storesOnly (p.report k member seq).mem l := by
  unfold Part.report; dsimp only
  exact Part.raise_stores _ _ _ hy (Part.storeFault_stores _ hx (by simpa using h))

theorem Part.storePage_stores {m : Memory} {l : List Area} (p : Part) (i : Fin 8) (hx : .entry i ∈ l)
    (h : m.storesOnly p.mem l) : m.storesOnly (p.storePage i).mem l := by
  unfold Part.storePage
  exact Memory.storesOnly_write (.entry i) hx (Nat.le_refl _) (by simp [Area.base, Area.size]) h

theorem Part.openPage_stores {m : Memory} {l : List Area} (p : Part) (i : Fin 8) (hx : .entry i ∈ l)
    (h : m.storesOnly p.mem l) : m.storesOnly (p.openPage i).mem l := by
  unfold Part.openPage; dsimp only
  exact Part.storePage_stores _ _ hx (by simpa using h)

theorem Part.closePage_stores {m : Memory} {l : List Area} (p : Part) (i : Fin 8) (c : CloseCause) (hx : .entry i ∈ l)
    (hy : .entry (i + 1) ∈ l) (hb : .bulletin 8 ∈ l) (hm : .mirror .rpu ∈ l)
    (h : m.storesOnly p.mem l) : m.storesOnly (p.closePage i c).mem l := by
  unfold Part.closePage; dsimp only
  refine Part.rewrite_stores _ _ hm ?_
  split
  · exact Part.openPage_stores _ _ hy (Part.raise_stores _ _ _ hb (Part.storePage_stores _ _ hx (by simpa using h)))
  · exact Part.raise_stores _ _ _ hb (Part.storePage_stores _ _ hx (by simpa using h))

theorem Part.storeDropped_stores {m : Memory} {l : List Area} (p : Part) (hx : .dropped ∈ l)
    (h : m.storesOnly p.mem l) : m.storesOnly p.storeDropped.mem l := by
  unfold Part.storeDropped
  exact Memory.storesOnly_write .dropped hx (Nat.le_refl _) (by simp [Area.base, Area.size]) h

theorem Part.writeResult_stores {m : Memory} {l : List Area} (p : Part) (n : Fin 48) (kind tag k : Nat) (c : Completion)
    (hx : .cell n ∈ l) (h : m.storesOnly p.mem l) : m.storesOnly (p.writeResult n kind tag k c).mem l := by
  unfold Part.writeResult
  exact Memory.storesOnly_write (.cell n) hx (Nat.le_refl _) (by simp [Area.base, Area.size]) h

theorem Part.complete_stores {m : Memory} {l : List Area} (p : Part) (ref : OrderRef) (r : Result) (d : Byte)
    (hc : .cell ref.cell ∈ l) (hb : .bulletin 0 ∈ l) (hm : .mirror .odk ∈ l) (h : m.storesOnly p.mem l) :
    m.storesOnly (p.complete ref r d).mem l := by
  unfold Part.complete
  split
  · exact h
  · dsimp only
    split
    · exact Part.rewrite_stores _ _ hm (by simpa using h)
    · split
      · exact Part.rewrite_stores _ _ hm (Part.raise_stores _ _ _ hb (Part.writeResult_stores _ _ _ _ _ _ hc (by simpa using h)))
      · exact Part.writeResult_stores _ _ _ _ _ _ hc (by simpa using h)

theorem Part.markTaken_stores {m : Memory} {l : List Area} (p : Part) (n : Fin 48) (hc : .cell n ∈ l)
    (h : m.storesOnly p.mem l) : m.storesOnly (p.markTaken n).mem l := by
  unfold Part.markTaken; dsimp only
  exact Memory.storesOnly_write (.cell n) hc (by simp [Area.base]) (by simp [Area.base, Area.size])
    (Memory.storesOnly_write (.cell n) hc (by simp [Area.base]) (by simp [Area.base, Area.size]) h)

theorem Part.endTake_stores {m : Memory} {l : List Area} (p : Part) (ref : OrderRef) (hm : .mirror .odk ∈ l)
    (h : m.storesOnly p.mem l) : m.storesOnly (p.endTake ref).mem l := by
  unfold Part.endTake
  exact Part.rewrite_stores _ _ hm (by simpa using h)

/-! ## A cell among the other areas: they lie apart from it -/

theorem Area.apart_cell (n : Fin 48) (x : Area) (h : match x with | .cell k => k ≠ n | _ => True) :
    cellBase n + 12 ≤ x.base ∨ x.base + x.size ≤ cellBase n := by
  cases x with
  | cell k =>
    have hk : k.val ≠ n.val := fun e => h (Fin.ext e)
    simp only [Area.base, Area.size, cellBase]; omega
  | bulletin b => simp only [Area.base, Area.size, cellBase, bulletinBase]; omega
  | fault => simp only [Area.base, cellBase]; omega
  | entry i => simp only [Area.base, cellBase, entryBase]; omega
  | record i k => simp only [Area.base, cellBase, recordBase]; omega
  | dropped => simp only [Area.base, Area.size, cellBase]; omega
  | mirror m => simp only [Area.base, cellBase]; cases m <;> simp only [MirrorId.base] <;> omega

/-- What an operation that stores to other areas leaves in a cell. -/
theorem Memory.read_cell_of {m m' : Memory} (n : Fin 48) (l : List Area) (h : Memory.storesOnly m m' l)
    (hl : ∀ x ∈ l, match x with | .cell k => k ≠ n | _ => True) :
    Memory.read m' (cellBase n) 12 = Memory.read m (cellBase n) 12 :=
  Memory.read_of_storesOnly h fun x hx => Area.apart_cell n x (hl x hx)

@[simp] theorem Part.rewrite_cell (p : Part) (m : MirrorId) (n : Fin 48) :
    Memory.read (p.rewrite m).mem (cellBase n) 12 = Memory.read p.mem (cellBase n) 12 :=
  Memory.read_cell_of n [.mirror m] (Part.rewrite_stores _ _ (by simp) (Memory.storesOnly_refl _ _)) (by simp)

@[simp] theorem Part.raise_cell (p : Part) (k : News) (member : Byte) (n : Fin 48) :
    Memory.read (p.raise k member).mem (cellBase n) 12 = Memory.read p.mem (cellBase n) 12 :=
  Memory.read_cell_of n [.bulletin k.bulletin] (Part.raise_stores _ _ _ (by simp) (Memory.storesOnly_refl _ _)) (by simp)

@[simp] theorem Part.report_cell (p : Part) (k : FaultKind) (member : Byte) (seq : Word) (n : Fin 48) :
    Memory.read (p.report k member seq).mem (cellBase n) 12 = Memory.read p.mem (cellBase n) 12 :=
  Memory.read_cell_of n [.fault, .bulletin 9] (Part.report_stores _ _ _ _ (by simp) (by simp) (Memory.storesOnly_refl _ _))
    (by simp)

/-! ## What the Report Unit then holds -/

/-- The Report Unit but for its bulletins, its fault record and its update counts. -/
def Rpu.rest (u : Rpu) : Rpu :=
  { u with bulletins := Vector.replicate 10 .powerOn, fault := .clear, updateCounts := Vector.replicate 11 0 }

theorem announced_append (v : Vector Bulletin 10) (t : Time) (l k : Tidings) :
    announced (announced v t l) t k = announced v t (l ++ k) := by simp [announced]

@[simp] theorem announced_nil (v : Vector Bulletin 10) (t : Time) : announced v t [] = v := rfl

@[simp] theorem Part.rewrite_rpu (p : Part) (m : MirrorId) :
    (p.rewrite m).rpu.bulletins = p.rpu.bulletins ∧ (p.rewrite m).rpu.rest = p.rpu.rest := ⟨rfl, rfl⟩

@[simp] theorem Part.raise_rpu (p : Part) (n : News) (member : Byte) :
    (p.raise n member).rpu.bulletins = announced p.rpu.bulletins p.now [(n, member)] ∧
    (p.raise n member).rpu.rest = p.rpu.rest ∧ (p.raise n member).rpu.updateCounts = p.rpu.updateCounts :=
  ⟨rfl, rfl, rfl⟩

@[simp] theorem Part.report_rpu (p : Part) (k : FaultKind) (member : Byte) (seq : Word) :
    (p.report k member seq).rpu.bulletins = announced p.rpu.bulletins p.now [(.fault k, member)] ∧
    (p.report k member seq).rpu.rest = p.rpu.rest ∧
    (p.report k member seq).rpu.fault = p.rpu.fault.after k member seq p.now ∧
    (p.report k member seq).rpu.updateCounts = p.rpu.updateCounts := by
  refine ⟨rfl, rfl, ?_, rfl⟩
  cases h : p.rpu.fault.kind <;>
    simp only [Part.report, FaultRecord.after, h, Part.raise_frame, Part.storeFault_frame, Part.modRpu_fields, Part.now]

/-- The Report Unit is what its bulletins, its fault record, its update counts and the rest say. -/
theorem Rpu.eq_of_rest {u v : Rpu} (h : u.rest = v.rest) :
    u = { v with bulletins := u.bulletins, fault := u.fault, updateCounts := u.updateCounts } := by
  cases u; cases v
  simp only [Rpu.rest, Rpu.mk.injEq] at h ⊢
  simp [h]

theorem Part.tells_of {p q : Part} {l : Tidings} (hr : q.rpu.rest = p.rpu.rest) (hf : q.rpu.fault = p.rpu.fault)
    (hb : q.rpu.bulletins = announced p.rpu.bulletins q.now l) : p.tells q l := by
  unfold Part.tells
  rw [Rpu.eq_of_rest hr, hb, hf]

theorem Part.tellsFault_of {p q : Part} {k : FaultKind} {member : Byte} {seq : Word} {l : Tidings}
    (hr : q.rpu.rest = p.rpu.rest) (hf : q.rpu.fault = p.rpu.fault.after k member seq q.now)
    (hb : q.rpu.bulletins = announced p.rpu.bulletins q.now ((.fault k, member) :: l)) :
    p.tellsFault q k member seq l := by
  unfold Part.tellsFault
  rw [Rpu.eq_of_rest hr, hb, hf]

/-- Two parts with the same blocks, lines and memory are one. -/
theorem Part.eq_of_fields {p q : Part} (h1 : q.mtu = p.mtu) (h2 : q.cvt = p.cvt) (h3 : q.trl = p.trl)
    (h4 : q.rbp = p.rbp) (h5 : q.ctu = p.ctu) (h6 : q.rej = p.rej) (h7 : q.spm = p.spm) (h8 : q.sac = p.sac)
    (h9 : q.odk = p.odk) (h10 : q.rpu = p.rpu) (h11 : q.syncLine = p.syncLine) (h12 : q.lrst = p.lrst)
    (h13 : q.mem = p.mem) (h14 : q.freeCount = p.freeCount) : q = p := by
  cases p; cases q
  simp only at h1 h2 h3 h4 h5 h6 h7 h8 h9 h10 h11 h12 h13 h14
  subst_vars; rfl

/-! ## Completing an order (R179) -/

/-- An order in the table, not kept past a take: its cell is written, its entry goes, and no more. -/
theorem Part.complete_atTake (p : Part) (ref : OrderRef) (r : Result) (d : Byte) (e : InFlight)
    (he : p.odk.entry ref = some e) (ho : e.orphaned = false) (hk : e.kept = false) :
    p.complete ref r d =
      (p.modOdk fun o => { o with inflight := o.inflight.filter fun x => x.ref != ref }).writeResult ref.cell
        e.kind.toNat e.tag.toNat (ref.takeId.toNat % 65536) ⟨r, d⟩ := by
  unfold Part.complete
  simp only [he]
  simp [ho, hk]

/-- An order held past its take: besides, COMPLETED is raised and the desk's mirror rewritten. -/
theorem Part.complete_held (p : Part) (ref : OrderRef) (r : Result) (d : Byte) (e : InFlight)
    (he : p.odk.entry ref = some e) (ho : e.orphaned = false) (hk : e.kept = true) :
    p.complete ref r d =
      (((p.modOdk fun o => { o with inflight := o.inflight.filter fun x => x.ref != ref }).writeResult ref.cell
        e.kind.toNat e.tag.toNat (ref.takeId.toNat % 65536) ⟨r, d⟩).raise .completed
          (BitVec.ofNat 8 ref.cell.val)).rewrite .odk := by
  unfold Part.complete
  simp only [he]
  simp [ho, hk]

/-- An order that the table does not hold: nothing. -/
theorem Part.complete_absent (p : Part) (ref : OrderRef) (r : Result) (d : Byte) (he : p.odk.entry ref = none) :
    p.complete ref r d = p := by
  unfold Part.complete
  simp only [he]

end Sys2Proof.Machine
end

