-- ==== Sys2Proof/Laws/Takes.lean ====
section
/-! SUPPORT. What a take (R178) does around its owner's effect: the owner's part of the step is a part `X`; the desk then
completes the order there, or keeps it. -/

namespace Sys2Proof.Machine

/-- The table while a take lasts: the orders that were in flight, and the order being taken. -/
def Part.takingOdk (p : Part) (n : Fin 48) (others : List InFlight) : Odk :=
  { p.odk.afterTake with inflight := others ++ [p.takeEntry n] }

@[simp] theorem Part.markTaken_odk (p : Part) (n : Fin 48) :
    (p.markTaken n).odk = p.takingOdk n p.odk.inflight := rfl

/-- `q` is `X` but for the desk: its table, its mirror, the cell of the order taken. -/
structure Part.Settled (X q : Part) (n : Fin 48) : Prop where
  mtu : q.mtu = X.mtu
  cvt : q.cvt = X.cvt
  trl : q.trl = X.trl
  rbp : q.rbp = X.rbp
  ctu : q.ctu = X.ctu
  rej : q.rej = X.rej
  spm : q.spm = X.spm
  sac : q.sac = X.sac
  syncLine : q.syncLine = X.syncLine
  lrst : q.lrst = X.lrst
  freeCount : q.freeCount = X.freeCount
  rest : q.rpu.rest = X.rpu.rest
  bulletins : q.rpu.bulletins = X.rpu.bulletins
  fault : q.rpu.fault = X.rpu.fault
  counts : ∀ m : MirrorId, m ≠ .odk → q.rpu.updateCounts[m.index] = X.rpu.updateCounts[m.index]
  stores : ∀ (m : Memory) (l : List Area), .cell n ∈ l → .mirror .odk ∈ l → m.storesOnly X.mem l → m.storesOnly q.mem l

/-- What reads outside the cell and the desk's mirror still reads there. -/
theorem Part.Settled.read {X q : Part} {n : Fin 48} (h : X.Settled q n) (a len : Nat)
    (hc : a + len ≤ cellBase n ∨ cellBase n + 12 ≤ a) (hm : a + len ≤ 0x30C0 ∨ 0x3100 ≤ a) :
    Memory.read q.mem a len = Memory.read X.mem a len := by
  refine Memory.read_of_storesOnly
    (h.stores X.mem [.cell n, .mirror .odk] (by simp) (by simp) (Memory.storesOnly_refl _ _)) ?_
  simp only [List.mem_cons, List.not_mem_nil, or_false, forall_eq_or_imp, forall_eq]
  exact ⟨hc, hm⟩

/-- Another cell is as it was before the desk was done. -/
theorem Part.Settled.cell {X q : Part} {n : Fin 48} (h : X.Settled q n) (k : Fin 48) (hk : k ≠ n) :
    Memory.read q.mem (cellBase k) 12 = Memory.read X.mem (cellBase k) 12 :=
  Memory.read_cell_of k [.cell n, .mirror .odk]
    (h.stores X.mem _ (by simp) (by simp) (Memory.storesOnly_refl _ _)) (by simpa using fun e => hk e.symm)

/-- A mirror record that showed the part before the desk was done shows it after. -/
theorem Part.Settled.mirrored {X q : Part} {n : Fin 48} (h : X.Settled q n) (m : MirrorId) (hm : m ≠ .odk)
    (hX : X.mirrored m) : q.mirrored m := by
  unfold Part.mirrored at hX ⊢
  have hb : mirrorBytes q m = mirrorBytes X m := by
    have hr := h.rest
    have hu : ∀ {α : Type} (g : Rpu → α), (∀ u, g u.rest = g u) → g q.rpu = g X.rpu := fun g hg => by
      rw [← hg, hr, hg]
    have hf : mirrorFields q m = mirrorFields X m := by
      by_cases hp : m = .rpu
      · subst hp
        simp only [mirrorFields, rpuFields]
        rw [hu (·.outcomeNumber) fun _ => rfl, hu (·.lastPageSeq) fun _ => rfl, hu (·.nextPage) fun _ => rfl,
          hu (·.dropping) fun _ => rfl, hu (·.threshold) fun _ => rfl, hu (·.ageDeadline) fun _ => rfl]
      · have h1 := h.mtu; have h2 := h.cvt; have h3 := h.trl; have h4 := h.rbp; have h5 := h.ctu; have h6 := h.rej
        have h7 := h.spm; have h8 := h.sac
        clear h hr hu hX
        obtain ⟨⟩ := q; obtain ⟨⟩ := X
        dsimp only at h1 h2 h3 h4 h5 h6 h7 h8
        subst h1 h2 h3 h4 h5 h6 h7 h8
        cases m <;> first | exact absurd rfl hm | exact absurd rfl hp | rfl
    simp only [mirrorBytes, hf, h.counts m hm]
  rw [hb, ← hX]
  refine h.read _ _ ?_ ?_
  · right; simp only [cellBase]; cases m <;> simp only [MirrorId.base] <;> omega
  · cases m <;> first | exact absurd rfl hm | (simp only [MirrorId.base, MirrorId.size]; omega)

/-- What the Report Unit was told before the desk was done is what it has been told after. -/
theorem Part.Settled.tells {p X q : Part} {n : Fin 48} {l : Tidings} (h : X.Settled q n) (hX : p.tells X l) :
    p.tells q l := by
  unfold Part.tells at hX
  refine Part.tells_of ?_ ?_ ?_
  · rw [h.rest, hX]; rfl
  · rw [h.fault, hX]
  · rw [h.bulletins, hX, show q.now = X.now from congrArg Mtu.time h.mtu]

/-- What was stored to before the desk was done, and what the desk stores to. -/
theorem Part.Settled.storesOnly {X q : Part} {n : Fin 48} {m : Memory} {l k : List Area} (h : X.Settled q n)
    (hX : m.storesOnly X.mem l) (hc : .cell n ∈ k) (hm : .mirror .odk ∈ k) (hl : l ⊆ k) : m.storesOnly q.mem k :=
  h.stores m k hc hm (Memory.storesOnly_mono hX hl)

/-- A record just rewritten shows the part. -/
theorem Part.rewrite_mirrored (p : Part) (m : MirrorId) : (p.rewrite m).mirrored m := by
  unfold Part.mirrored Part.rewrite
  dsimp only
  rw [Part.store_fields _ _ _ |>.1, Memory.read_write _ _ _ _ (by simp)]
  cases m <;> rfl

/-- A taken order's entry, among orders that are not it. -/
theorem Part.taking_entry (p : Part) (n : Fin 48) (others : List InFlight) (h : ∀ e ∈ others, e.ref ≠ p.nextRef n) :
    (p.takingOdk n others).entry (p.nextRef n) = some (p.takeEntry n) := by
  unfold Part.takingOdk Odk.entry
  rw [List.find?_append]
  rw [List.find?_eq_none.mpr fun e he => by simpa using h e he]
  simp [Part.takeEntry]

theorem Part.taking_without (p : Part) (n : Fin 48) (others : List InFlight) (h : ∀ e ∈ others, e.ref ≠ p.nextRef n) :
    (others ++ [p.takeEntry n]).filter (fun x => x.ref != p.nextRef n) = others := by
  rw [List.filter_append, List.filter_eq_self.mpr fun e he => by simpa using h e he]
  simp [Part.takeEntry]

/-- A table without the order that a take ends is left alone by the end of the take. -/
theorem map_keep_absent (l : List InFlight) (ref : OrderRef) (h : ∀ e ∈ l, e.ref ≠ ref) :
    l.map (fun e => if e.ref = ref then { e with kept := true } else e) = l := by
  conv => rhs; rw [← List.map_id l]
  exact List.map_congr_left fun e he => by simp [h e he]

/-- The twelve bytes of a completed cell, just written. -/
theorem Part.writeResult_read (p : Part) (n : Fin 48) (e : InFlight) (c : Completion) :
    Memory.read (p.writeResult n e.kind.toNat e.tag.toNat (e.ref.takeId.toNat % 65536) c).mem (cellBase n) 12 =
      e.result c p.now := by
  unfold Part.writeResult
  rw [Part.store_fields p _ _ |>.1, Memory.read_write _ _ _ _ (by simp)]
  simp [InFlight.result]

theorem Part.endTake_settled (X : Part) (ref : OrderRef) (n : Fin 48) : X.Settled (X.endTake ref) n where
  mtu := by simp
  cvt := by simp
  trl := by simp
  rbp := by simp
  ctu := by simp
  rej := by simp
  spm := by simp
  sac := by simp
  syncLine := by simp
  lrst := by simp
  freeCount := by simp
  rest := by unfold Part.endTake; simp
  bulletins := by unfold Part.endTake; simp
  fault := by simp
  counts := fun m hm => by
    unfold Part.endTake Part.rewrite
    simp only [Part.store_fields, Part.modRpu_fields, Part.modOdk_fields]
    refine modAt_other _ _ ?_
    cases m <;> first | exact absurd rfl hm | decide
  stores := fun _ _ _ hm h => Part.endTake_stores _ _ hm h

theorem Part.writeResult_settled (X : Part) (n : Fin 48) (f : Odk → Odk) (k t i : Nat) (c : Completion) :
    X.Settled ((X.modOdk f).writeResult n k t i c) n where
  mtu := by simp
  cvt := by simp
  trl := by simp
  rbp := by simp
  ctu := by simp
  rej := by simp
  spm := by simp
  sac := by simp
  syncLine := by simp
  lrst := by simp
  freeCount := by simp
  rest := by simp
  bulletins := by simp
  fault := by simp
  counts := fun m _ => by simp
  stores := fun _ _ hc _ h => Part.writeResult_stores _ _ _ _ _ _ hc (by simpa using h)

theorem Part.Settled.trans {X Y Z : Part} {n : Fin 48} (h : X.Settled Y n) (k : Y.Settled Z n) : X.Settled Z n where
  mtu := k.mtu.trans h.mtu
  cvt := k.cvt.trans h.cvt
  trl := k.trl.trans h.trl
  rbp := k.rbp.trans h.rbp
  ctu := k.ctu.trans h.ctu
  rej := k.rej.trans h.rej
  spm := k.spm.trans h.spm
  sac := k.sac.trans h.sac
  syncLine := k.syncLine.trans h.syncLine
  lrst := k.lrst.trans h.lrst
  freeCount := k.freeCount.trans h.freeCount
  rest := k.rest.trans h.rest
  bulletins := k.bulletins.trans h.bulletins
  fault := k.fault.trans h.fault
  counts := fun m hm => (k.counts m hm).trans (h.counts m hm)
  stores := fun m l hc hm hX => k.stores m l hc hm (h.stores m l hc hm hX)

/-- The table once the order taken has been completed at its take. -/
def Part.doneOdk (p : Part) (others : List InFlight) : Odk := { p.odk.afterTake with inflight := others }

/-- The owner left `X` and completes the order of the take: the table has it no more, the cell shows the result. -/
theorem Part.completed_of (p : Part) (n : Fin 48) (X : Part) (r : Result) (d : Byte) (others : List InFlight)
    (hf : ∀ e ∈ others, e.ref ≠ p.nextRef n) (hX : X.odk = p.takingOdk n others) :
    (X.complete (p.nextRef n) r d).odk = p.doneOdk others ∧
    Memory.read (X.complete (p.nextRef n) r d).mem (cellBase n) 12 = (p.takeEntry n).result ⟨r, d⟩ X.now ∧
    X.Settled (X.complete (p.nextRef n) r d) n := by
  have he : X.odk.entry (p.nextRef n) = some (p.takeEntry n) := by rw [hX]; exact p.taking_entry n others hf
  rw [Part.complete_atTake X _ r d _ he rfl rfl]
  refine ⟨?_, ?_, Part.writeResult_settled X n _ _ _ _ _⟩
  · simp only [Part.modOdk_fields, Part.writeResult_frame, hX, Part.takingOdk, Part.doneOdk]
    rw [p.taking_without n others hf]
  · rw [show (p.nextRef n).cell = n from rfl, show (p.nextRef n).takeId = (p.takeEntry n).ref.takeId from rfl,
      Part.writeResult_read]
    simp [Part.now]

/-- The end of a take whose order has been completed, whatever was done after that besides. -/
theorem Part.ended_of (p : Part) (n : Fin 48) (Z : Part) (c : Completion) (others : List InFlight)
    (hf : ∀ e ∈ others, e.ref ≠ p.nextRef n) (hZ : Z.odk = p.doneOdk others)
    (hr : Memory.read Z.mem (cellBase n) 12 = (p.takeEntry n).result c Z.now) :
    p.answersAmong (Z.endTake (p.nextRef n)) n c others ∧ Z.Settled (Z.endTake (p.nextRef n)) n := by
  refine ⟨⟨?_, ?_⟩, Part.endTake_settled Z _ n⟩
  · unfold Part.endTake
    simp only [Part.rewrite_frame, Part.modOdk_fields, hZ, Part.doneOdk]
    rw [map_keep_absent _ _ hf]
  · unfold Part.endTake
    rw [Part.rewrite_cell, Part.modOdk_fields _ _ |>.2.2.2.2.2.2.2.2.2.2.2.2.1, hr]
    simp [Part.now]

/-- The end of a take in which the owner left `X` and the order is answered. -/
theorem Part.answered_of (p : Part) (n : Fin 48) (X : Part) (r : Result) (d : Byte) (others : List InFlight)
    (hf : ∀ e ∈ others, e.ref ≠ p.nextRef n) (hX : X.odk = p.takingOdk n others) :
    p.answersAmong ((X.complete (p.nextRef n) r d).endTake (p.nextRef n)) n ⟨r, d⟩ others ∧
      X.Settled ((X.complete (p.nextRef n) r d).endTake (p.nextRef n)) n := by
  obtain ⟨h1, h2, h3⟩ := p.completed_of n X r d others hf hX
  obtain ⟨h4, h5⟩ := p.ended_of n _ ⟨r, d⟩ others hf h1 (by simpa [Part.now] using h2)
  exact ⟨h4, h3.trans h5⟩

/-- The bytes of a cell just taken. -/
theorem Part.markTaken_read (p : Part) (n : Fin 48) :
    Memory.read (p.markTaken n).mem (cellBase n) 12 = (p.takeEntry n).taken := by
  unfold Part.markTaken
  dsimp only
  simp only [Part.store_fields, Part.modOdk_fields]
  rw [show (12 : Nat) = 8 + (2 + 2) from rfl, Memory.read_append, Memory.read_append]
  rw [Memory.read_congr (Memory.write p.mem (cellBase n) [2, (p.takeEntry n).kind, 0, 0, 0, 0, 0, 0]) _ (cellBase n) 8
    fun k hk => Memory.byte_write_outside _ _ _ _ (by simp; omega)]
  rw [Memory.read_write _ _ _ _ (by simp)]
  rw [Memory.read_congr p.mem _ (cellBase n + 8) 2 fun k hk => by
    rw [Memory.byte_write_outside _ _ _ _ (by simp; omega), Memory.byte_write_outside _ _ _ _ (by simp)]]
  rw [Memory.read_write _ _ _ _ (by simp)]
  unfold InFlight.taken
  have ht : leBytes 2 (p.takeEntry n).tag.toNat = Memory.read p.mem (cellBase n + 8) 2 := by
    rw [← Memory.leBytes_number]
    congr 1
    have h0 := (Memory.byte p.mem (cellBase n + 8)).isLt
    have h1 := (Memory.byte p.mem (cellBase n + 8 + 1)).isLt
    simp only [Part.takeEntry, Memory.tag, BitVec.toNat_ofNat, Memory.number]
    omega
  rw [ht]
  simp [Part.takeEntry, Part.nextRef]

/-- The end of a take in which the owner left `X` and holds the order. -/
theorem Part.kept_of (p : Part) (n : Fin 48) (X : Part) (others : List InFlight)
    (hf : ∀ e ∈ others, e.ref ≠ p.nextRef n) (hX : X.odk = p.takingOdk n others)
    (hm : Memory.read X.mem (cellBase n) 12 = (p.takeEntry n).taken) :
    p.keepsAmong (X.endTake (p.nextRef n)) n others ∧ X.Settled (X.endTake (p.nextRef n)) n := by
  refine ⟨⟨?_, ?_⟩, Part.endTake_settled X _ n⟩
  · unfold Part.endTake
    simp only [Part.rewrite_frame, Part.modOdk_fields, hX, Part.takingOdk, List.map_append]
    rw [map_keep_absent _ _ hf]
    simp [Part.takeEntry]
  · unfold Part.endTake
    rw [Part.rewrite_cell, Part.modOdk_fields _ _ |>.2.2.2.2.2.2.2.2.2.2.2.2.1]
    exact hm

/-- A completed order that was held (R179): the table without it, its cell, COMPLETED, and no more. -/
theorem Part.concluded (X : Part) (e : InFlight) (r : Result) (d : Byte) (h : X.odk.holds e) :
    (X.complete e.ref r d).odk = { X.odk with inflight := X.odk.without e.ref } ∧
    Memory.read (X.complete e.ref r d).mem (cellBase e.ref.cell) 12 = e.result ⟨r, d⟩ X.now ∧
    (∀ n, n ≠ e.ref.cell →
      Memory.read (X.complete e.ref r d).mem (cellBase n) 12 = Memory.read X.mem (cellBase n) 12) ∧
    (X.complete e.ref r d).rpu.bulletins = announced X.rpu.bulletins X.now [e.told] ∧
    (X.complete e.ref r d).rpu.rest = X.rpu.rest := by
  refine ⟨?_, ?_, ?_, ?_, ?_⟩
  · rw [Part.complete_held X _ r d e h.1 h.2.2 h.2.1]; simp [Odk.without]
  · rw [Part.complete_held X _ r d e h.1 h.2.2 h.2.1]
    simp only [Part.rewrite_cell, Part.raise_cell]
    rw [Part.writeResult_read]
    simp [Part.now]
  · intro n hn
    rw [Part.complete_held X _ r d e h.1 h.2.2 h.2.1]
    simp only [Part.rewrite_cell, Part.raise_cell]
    refine Memory.read_cell_of n [.cell e.ref.cell]
      (Part.writeResult_stores _ _ _ _ _ _ (by simp) (by simpa using Memory.storesOnly_refl _ _)) ?_
    simpa using fun e => hn e.symm
  · rw [Part.complete_held X _ r d e h.1 h.2.2 h.2.1]; simp [Part.now, InFlight.told]
  · rw [Part.complete_held X _ r d e h.1 h.2.2 h.2.1]; simp

/-- An order held before a take is still held while the take lasts, on another cell, and ends beside it. -/
theorem Part.canTake_other {p : Part} {n : Fin 48} {o : Order} (h : p.canTake n o) {e : InFlight} (he : p.odk.holds e) :
    (p.takingOdk n p.odk.inflight).holds e ∧ e.ref.cell ≠ n ∧ (∀ x ∈ p.odk.without e.ref, x.ref ≠ p.nextRef n) ∧
      (p.takingOdk n p.odk.inflight).without e.ref = p.odk.without e.ref ++ [p.takeEntry n] := by
  have hm : e ∈ p.odk.inflight := List.mem_of_find?_eq_some he.1
  have hn := h.2.2.2 e hm
  refine ⟨⟨?_, he.2⟩, hn.2 he.2.2, fun x hx => (h.2.2.2 x (List.mem_filter.mp hx).1).1, ?_⟩
  · have h1 := he.1
    unfold Odk.entry at h1
    simp [Odk.entry, Part.takingOdk, List.find?_append, h1]
  · have : (p.nextRef n != e.ref) = true := by simpa using fun h => hn.1 h.symm
    simp [Odk.without, Part.takingOdk, Part.takeEntry, this]

/-- R178: a cell that can be taken, holding this order, is taken: marked, handed over, ended. -/
theorem Part.takeAs_eq {p : Part} {n : Fin 48} {o : Order} (h : p.canTake n o) :
    p.takeAs n o = ((p.markTaken n).perform (p.nextRef n) o).endTake (p.nextRef n) := by
  obtain ⟨h1, h2, h3, -⟩ := h
  unfold Part.takeAs
  rw [if_pos ⟨h1, h2⟩]
  unfold Part.take Part.answer
  simp [h2, h3]

theorem Part.canTake_fresh {p : Part} {n : Fin 48} {o : Order} (h : p.canTake n o) :
    ∀ e ∈ p.odk.inflight, e.ref ≠ p.nextRef n := fun e he => (h.2.2.2 e he).1

/-- R179: an order that the part leaves where it is answered at once. -/
theorem Part.answered_at_once {p : Part} {n : Fin 48} {o : Order} (h : p.canTake n o) (X : Part) (r : Result) (d : Byte)
    (hp : (p.markTaken n).perform (p.nextRef n) o = X.complete (p.nextRef n) r d)
    (hX : X.odk = p.takingOdk n p.odk.inflight) :
    p.answers (p.takeAs n o) n r d ∧ X.Settled (p.takeAs n o) n := by
  rw [Part.takeAs_eq h, hp]
  exact p.answered_of n X r d _ (Part.canTake_fresh h) hX

theorem Part.kept_on {p : Part} {n : Fin 48} {o : Order} (h : p.canTake n o) (X : Part)
    (hp : (p.markTaken n).perform (p.nextRef n) o = X) (hX : X.odk = p.takingOdk n p.odk.inflight)
    (hm : Memory.read X.mem (cellBase n) 12 = (p.takeEntry n).taken) :
    p.keeps (p.takeAs n o) n ∧ X.Settled (p.takeAs n o) n := by
  rw [Part.takeAs_eq h, hp]
  exact p.kept_of n X _ (Part.canTake_fresh h) hX hm

/-- Beside the desk, a settled part is the part that the owner left. -/
theorem Part.Settled.eq {X q : Part} {n : Fin 48} (h : X.Settled q n) :
    q = { X with odk := q.odk, rpu := q.rpu, mem := q.mem } :=
  Part.eq_of_fields h.mtu h.cvt h.trl h.rbp h.ctu h.rej h.spm h.sac rfl rfl h.syncLine h.lrst rfl h.freeCount

/-- An order answered with no effect of its own. -/
theorem Part.refused_of {p : Part} {n : Fin 48} {o : Order} (h : p.canTake n o) (r : Result) (d : Byte)
    (hp : (p.markTaken n).perform (p.nextRef n) o = (p.markTaken n).complete (p.nextRef n) r d) :
    p.onlyAnswers (p.takeAs n o) n r d := by
  obtain ⟨ha, hs⟩ := Part.answered_at_once h (p.markTaken n) r d hp rfl
  refine ⟨ha, ?_, hs.tells ?_, ?_⟩
  · refine hs.eq.trans ?_
    refine Part.eq_of_fields ?_ ?_ ?_ ?_ ?_ ?_ ?_ ?_ rfl rfl ?_ ?_ rfl ?_ <;> simp
  · exact Part.tells_of (by simp) (by simp) (by simp)
  · exact hs.storesOnly (l := [.cell n]) (Part.markTaken_stores p n (by simp) (Memory.storesOnly_refl _ _)) (by simp)
      (by simp) (by simp)

end Sys2Proof.Machine
end

