-- ==== Sys2Proof/Laws/Board.lean ====
section
/-! SUPPORT. What the Report Unit writes: the board of start-up and of an exchange reset (R197), the mirror as a whole
(R193), the close of a page (R186), the NEWS register (R184). -/

namespace Sys2Proof.Machine

/-! ## The NEWS register -/

/-- Every bulletin is listed. -/
theorem mem_tens (b : Fin 10) : b ∈ tens := by revert b; decide

/-- R184: bit b of NEWS. -/
theorem Part.newsRegister_bit (p : Part) (b : Fin 10) : p.newsRegister.getLsbD b.val = p.rpu.bulletins[b].news := by
  unfold Part.newsRegister
  have key : ∀ f0 f1 f2 f3 f4 f5 f6 f7 f8 f9 : Bool, ∀ b : Fin 10, (BitVec.ofNat 16 (([(0 : Fin 10), 1, 2, 3, 4, 5, 6, 7, 8, 9].map fun b => if [f0, f1, f2, f3, f4, f5, f6, f7, f8, f9][b.val]! then 2 ^ b.val else 0).sum)).getLsbD b.val = [f0, f1, f2, f3, f4, f5, f6, f7, f8, f9][b.val]! := by decide +kernel
  have := key p.rpu.bulletins[(0 : Fin 10)].news p.rpu.bulletins[(1 : Fin 10)].news p.rpu.bulletins[(2 : Fin 10)].news p.rpu.bulletins[(3 : Fin 10)].news p.rpu.bulletins[(4 : Fin 10)].news p.rpu.bulletins[(5 : Fin 10)].news p.rpu.bulletins[(6 : Fin 10)].news p.rpu.bulletins[(7 : Fin 10)].news p.rpu.bulletins[(8 : Fin 10)].news p.rpu.bulletins[(9 : Fin 10)].news b
  simp only [tens, List.map_cons, List.map_nil] at *
  match b, this with
  | 0, t => exact t
  | 1, t => exact t
  | 2, t => exact t
  | 3, t => exact t
  | 4, t => exact t
  | 5, t => exact t
  | 6, t => exact t
  | 7, t => exact t
  | 8, t => exact t
  | 9, t => exact t

/-! ## A copy that reads nothing -/

/-- A copy that is to read nothing stays where it is. -/
theorem Part.advanceCopy_zero (p : Part) : p.advanceCopy 0 = p := by
  unfold Part.advanceCopy Part.modCvt
  have : p.cvt.adoption.map (fun a => a.advance p.mem 0) = p.cvt.adoption := by
    cases p.cvt.adoption with
    | none => rfl
    | some a => simp [Adoption.advance]
  dsimp only
  rw [this]

/-! ## Pages -/

/-- The page after a page is another. -/
theorem page_after_ne (i : Fin 8) : (i + 1).val ≠ i.val := by revert i; decide

/-- All that the close of a page does. -/
theorem Part.closePage_closes (p : Part) (i : Fin 8) (cause : CloseCause) :
    p.closes (p.closePage i cause) i cause [] ∧
    (p.closePage i cause) = { p with rpu := (p.closePage i cause).rpu, mem := (p.closePage i cause).mem } ∧
    (p.closePage i cause).mirrored .rpu ∧
    Memory.storesOnly p.mem (p.closePage i cause).mem [.entry i, .entry (i + 1), .bulletin 8, .mirror .rpu] := by
  obtain ⟨A, hA⟩ : ∃ A, A = ((p.modRpu fun u =>
    { u with pages := modAt u.pages i fun g => { g with state := .full, cause := cause }
             ageDeadline := none
             nextPage := i + 1 }).storePage i).raise .pageFull (BitVec.ofNat 8 i.val) := ⟨_, rfl⟩
  have he : p.closePage i cause = (if A.rpu.pages[i + 1].state = .empty then A.openPage (i + 1) else A).rewrite .rpu := by
    rw [hA]; rfl
  have hAr : A.rpu = { p.rpu with
      pages := p.rpu.pages.set i { p.rpu.pages[i] with state := .full, cause := cause }
      ageDeadline := none, nextPage := i + 1
      bulletins := announced p.rpu.bulletins p.now [(.pageFull, BitVec.ofNat 8 i.val)] } := by
    rw [hA]; rfl
  have hnext : A.rpu.pages[i + 1].state = p.rpu.pages[i + 1].state := by
    rw [hAr]; simp only [Fin.getElem_fin]; rw [Vector.getElem_set_ne _ _ (fun h => page_after_ne i h.symm)]
  have hBm : ∃ B : Part, B.rpu.pages[i.val] = { p.rpu.pages[i.val] with state := .full, cause := cause } ∧ Memory.read B.mem (entryBase i) 16 = B.rpu.pages[i.val].bytes ∧ A = B.raise .pageFull (BitVec.ofNat 8 i.val) := by
    refine ⟨_, ?_, ?_, hA⟩
    · simp [Part.storePage, modAt]
    · unfold Part.storePage
      rw [Part.store_fields _ _ _ |>.1, Memory.read_write _ _ _ _ (Page.bytes_length _)]
      simp [Part.store_fields]
  have hread : Memory.read (p.closePage i cause).mem (entryBase i) 16 = Page.bytes { p.rpu.pages[i.val] with state := .full, cause := cause } := by
    obtain ⟨B, h1, h2, h3⟩ := hBm
    rw [← h1, ← h2]
    refine Memory.read_of_storesOnly (l := [.bulletin 8, .entry (i + 1), .mirror .rpu]) ?_ ?_
    · rw [he]
      refine Part.rewrite_stores _ _ (by simp) ?_
      have : Memory.storesOnly B.mem A.mem [.bulletin 8, .entry (i + 1), .mirror .rpu] := by
        rw [h3]; exact Part.raise_stores _ _ _ (by simp [News.bulletin]) (Memory.storesOnly_refl _ _)
      split
      · exact Part.openPage_stores _ _ (by simp) this
      · exact this
    · have := page_after_ne i
      simp only [List.mem_cons, List.not_mem_nil, or_false, forall_eq_or_imp, forall_eq, Area.base, Area.size, entryBase, bulletinBase, MirrorId.base, MirrorId.size]
      refine ⟨?_, ?_, ?_⟩
      · right; simp; omega
      · exact (by intro a b h; omega : ∀ a b : Nat, a ≠ b → 0x0E40 + 16 * b + 16 ≤ 0x0E40 + 16 * a ∨ 0x0E40 + 16 * a + 16 ≤ 0x0E40 + 16 * b) _ _ this
      · left; omega
  have hrpu : (p.closePage i cause).rpu = { A.rpu with
      pages := if A.rpu.pages[(i + 1).val].state = .empty then A.rpu.pages.set (i + 1).val (Page.filling A.rpu.lastPageSeq) else A.rpu.pages
      lastPageSeq := if A.rpu.pages[(i + 1).val].state = .empty then (Page.filling A.rpu.lastPageSeq).sequence else A.rpu.lastPageSeq
      dropping := if A.rpu.pages[(i + 1).val].state = .empty then false else A.rpu.dropping
      updateCounts := (p.closePage i cause).rpu.updateCounts } := by
    rw [he]
    simp only [Fin.getElem_fin]
    split
    · unfold Part.rewrite Part.openPage Part.storePage
      simp only [Part.store_fields, Part.modRpu_fields]
      rfl
    · unfold Part.rewrite
      simp only [Part.store_fields, Part.modRpu_fields]
  have hnow : (p.closePage i cause).now = p.now := by simp [Part.now]
  have hpi : (p.closePage i cause).rpu.pages[i.val] = { p.rpu.pages[i.val] with state := .full, cause := cause } := by
    rw [hrpu]; dsimp only
    have hx : A.rpu.pages[i.val] = { p.rpu.pages[i.val] with state := .full, cause := cause } := by rw [hAr]; simp
    split
    · rw [Vector.getElem_set_ne _ _ (page_after_ne i), hx]
    · exact hx
  simp only [Fin.getElem_fin] at hnext
  refine ⟨⟨?_, ?_⟩, ?_, ?_, ?_⟩
  · refine hrpu.trans ?_
    rw [hnow]
    dsimp only
    simp only [hnext, Fin.getElem_fin]
    rw [hAr]
    simp
  · simp only [Fin.getElem_fin]; rw [hread, hpi]
  · refine Part.eq_of_fields ?_ ?_ ?_ ?_ ?_ ?_ ?_ ?_ ?_ ?_ ?_ ?_ ?_ ?_ <;> first | with_reducible rfl | simp
  · rw [he]; exact Part.rewrite_mirrored _ _
  · exact Part.closePage_stores _ _ _ (by simp) (by simp) (by simp) (by simp) (Memory.storesOnly_refl _ _)

/-- Returning a FULL page leaves whether a page is FILLING. -/
theorem Part.fillingPage_returned (p : Part) (i : Fin 8) (q : Part) (hq : q.rpu.pages = p.rpu.pages.set i { p.rpu.pages[i.val] with state := .empty, count := 0, cause := .none })
    (hf : p.rpu.pages[i].state = .full) : q.fillingPage.isNone = p.fillingPage.isNone := by
  have : ∀ j : Fin 8, (q.rpu.pages[j].state == .filling) = (p.rpu.pages[j].state == .filling) := by
    intro j
    rw [hq]
    simp only [Fin.getElem_fin] at hf ⊢
    by_cases h : i.val = j.val
    · obtain rfl : i = j := Fin.ext h
      rw [Vector.getElem_set_self, hf]; rfl
    · rw [Vector.getElem_set_ne _ _ h]
  unfold Part.fillingPage
  simp only [this]

/-! ## The mirror and the board -/

/-- A record that shows the part still does after another is rewritten. -/
theorem Part.mirrored_rewrite (p : Part) (m m' : MirrorId) (h : m' ≠ m) (hm : p.mirrored m) : (p.rewrite m').mirrored m := by
  unfold Part.mirrored at *
  have h1 : mirrorBytes (p.rewrite m') m = mirrorBytes p m := by
    have h2 : (p.rewrite m').rpu.updateCounts[m.index] = p.rpu.updateCounts[m.index] := by
      unfold Part.rewrite; simp only [Part.store_fields, Part.modRpu_fields]
      exact modAt_other _ _ (by intro e; apply h; revert e; cases m <;> cases m' <;> decide)
    have h3 : mirrorFields (p.rewrite m') m = mirrorFields p m := by cases m <;> rfl
    unfold mirrorBytes; rw [h2, h3]
  rw [h1, ← hm]
  refine Memory.read_of_storesOnly (l := [.mirror m']) (Part.rewrite_stores _ _ (by simp) (Memory.storesOnly_refl _ _)) ?_
  simp only [List.mem_singleton, forall_eq, Area.base, Area.size]
  cases m <;> cases m' <;> first | exact absurd rfl h | decide

/-- After all are rewritten, every record shows the part. -/
theorem Part.rewriteAll_mirrored (p : Part) (m : MirrorId) : p.rewriteAll.mirrored m := by
  have key : ∀ (l : List MirrorId) (p : Part), l.Nodup → m ∈ l → (l.foldl Part.rewrite p).mirrored m := by
    have keep : ∀ (l : List MirrorId) (p : Part), m ∉ l → p.mirrored m → (l.foldl Part.rewrite p).mirrored m := by
      intro l; induction l with
      | nil => intro p _ h; exact h
      | cons x xs ih => intro p hx h; simp at hx; exact ih _ hx.2 (Part.mirrored_rewrite _ _ _ (fun e => hx.1 e.symm) h)
    intro l; induction l with
    | nil => intro p _ h; simp at h
    | cons x xs ih =>
      intro p hd h
      simp at hd
      by_cases e : m = x
      · subst e; exact keep xs _ hd.1 (Part.rewrite_mirrored _ _)
      · exact ih _ hd.2 (by simpa [e] using h)
  exact key _ _ (by decide) (by cases m <;> decide)

/-- Rewriting the mirror stores to nothing else. -/
theorem Part.rewriteAll_outside (p : Part) (a : Nat) (h : a < 0x3000 ∨ 0x5000 ≤ a) : Memory.byte p.rewriteAll.mem a = Memory.byte p.mem a := by
  have key : ∀ (l : List MirrorId) (p : Part), Memory.byte (l.foldl Part.rewrite p).mem a = Memory.byte p.mem a := by
    intro l; induction l with
    | nil => intro p; rfl
    | cons x xs ih =>
      intro p; rw [List.foldl_cons, ih]
      exact Part.rewrite_stores (l := [.mirror x]) p x (by simp) (Memory.storesOnly_refl _ _) a (by
        simp only [List.mem_singleton, forall_eq, Area.base, Area.size]
        cases x <;> simp [MirrorId.base, MirrorId.size] <;> omega)
  exact key _ _

/-- Rewriting the mirror changes the update counts and the memory. -/
theorem Part.rewriteAll_only (p : Part) : p.rewriteAll.rpu = { p.rpu with updateCounts := p.rewriteAll.rpu.updateCounts } ∧ p.rewriteAll = { p with rpu := p.rewriteAll.rpu, mem := p.rewriteAll.mem } := by
  have key : ∀ (l : List MirrorId) (p : Part), (l.foldl Part.rewrite p).rpu = { p.rpu with updateCounts := (l.foldl Part.rewrite p).rpu.updateCounts } ∧ (l.foldl Part.rewrite p) = { p with rpu := (l.foldl Part.rewrite p).rpu, mem := (l.foldl Part.rewrite p).mem } := by
    intro l; induction l with
    | nil => intro p; exact ⟨rfl, rfl⟩
    | cons x xs ih =>
      intro p
      obtain ⟨h1, h2⟩ := ih (p.rewrite x)
      simp only [List.foldl_cons]
      refine ⟨h1.trans ?_, h2.trans ?_⟩
      · unfold Part.rewrite; simp only [Part.store_fields, Part.modRpu_fields]
      · unfold Part.rewrite; simp only [Part.store_fields, Part.modRpu_fields]
  exact key _ _

/-- The ten bulletins, stored. -/
theorem Part.storeBulletins_all (p : Part) : (tens.foldl Part.storeBulletin p) = { p with mem := (tens.foldl Part.storeBulletin p).mem } ∧
    (∀ b : Fin 10, Memory.read (tens.foldl Part.storeBulletin p).mem (bulletinBase b) 16 = p.rpu.bulletins[b.val].bytes) ∧
    (∀ a, a < 0x0100 ∨ 0x01A0 ≤ a → Memory.byte (tens.foldl Part.storeBulletin p).mem a = Memory.byte p.mem a) := by
  have key : ∀ (l : List (Fin 10)) (p : Part), l.Nodup → (l.foldl Part.storeBulletin p) = { p with mem := (l.foldl Part.storeBulletin p).mem } ∧
    (∀ b : Fin 10, b ∈ l → Memory.read (l.foldl Part.storeBulletin p).mem (bulletinBase b) 16 = p.rpu.bulletins[b.val].bytes) ∧
    (∀ a, (∀ b ∈ l, a < bulletinBase b ∨ bulletinBase b + 16 ≤ a) → Memory.byte (l.foldl Part.storeBulletin p).mem a = Memory.byte p.mem a) := by
    intro l; induction l with
    | nil => intro p _; exact ⟨rfl, by simp, fun _ _ => rfl⟩
    | cons x xs ih =>
      intro p hd
      simp at hd
      obtain ⟨h1, h2, h3⟩ := ih (p.storeBulletin x) hd.2
      simp only [List.foldl_cons]
      have hs : (p.storeBulletin x) = { p with mem := (p.storeBulletin x).mem } := rfl
      refine ⟨h1.trans (by rw [hs]), ?_, ?_⟩
      · intro b hb
        by_cases e : b ∈ xs
        · rw [h2 b e]; rfl
        · obtain rfl : b = x := by simpa [e] using hb
          rw [Memory.read_congr (p.storeBulletin b).mem _ _ _ fun k hk => h3 _ fun y hy => ?_]
          · unfold Part.storeBulletin; rw [Part.store_fields _ _ _ |>.1, Memory.read_write _ _ _ _ (by simp [Bulletin.bytes])]; rfl
          · have : b.val ≠ y.val := fun h => e (by rw [Fin.ext h]; exact hy)
            simp only [bulletinBase]; omega
      · intro a ha
        rw [h3 a fun b hb => ha b (by simp [hb])]
        unfold Part.storeBulletin
        rw [Part.store_fields _ _ _ |>.1]
        exact Memory.byte_write_outside _ _ _ _ (by have := ha x (by simp); simp [Bulletin.bytes]; omega)
  obtain ⟨h1, h2, h3⟩ := key tens p (by decide)
  exact ⟨h1, fun b => h2 b (by revert b; decide), fun a ha => h3 a fun b _ => by simp only [bulletinBase]; omega⟩

/-- The eight directory entries, stored. -/
theorem Part.storePages_all (p : Part) : (eights.foldl Part.storePage p) = { p with mem := (eights.foldl Part.storePage p).mem } ∧
    (∀ b : Fin 8, Memory.read (eights.foldl Part.storePage p).mem (entryBase b) 16 = p.rpu.pages[b.val].bytes) ∧
    (∀ a, a < 0x0E40 ∨ 0x0EC0 ≤ a → Memory.byte (eights.foldl Part.storePage p).mem a = Memory.byte p.mem a) := by
  have key : ∀ (l : List (Fin 8)) (p : Part), l.Nodup → (l.foldl Part.storePage p) = { p with mem := (l.foldl Part.storePage p).mem } ∧
    (∀ b : Fin 8, b ∈ l → Memory.read (l.foldl Part.storePage p).mem (entryBase b) 16 = p.rpu.pages[b.val].bytes) ∧
    (∀ a, (∀ b ∈ l, a < entryBase b ∨ entryBase b + 16 ≤ a) → Memory.byte (l.foldl Part.storePage p).mem a = Memory.byte p.mem a) := by
    intro l; induction l with
    | nil => intro p _; exact ⟨rfl, by simp, fun _ _ => rfl⟩
    | cons x xs ih =>
      intro p hd
      simp at hd
      obtain ⟨h1, h2, h3⟩ := ih (p.storePage x) hd.2
      simp only [List.foldl_cons]
      have hs : (p.storePage x) = { p with mem := (p.storePage x).mem } := rfl
      refine ⟨h1.trans (by rw [hs]), ?_, ?_⟩
      · intro b hb
        by_cases e : b ∈ xs
        · rw [h2 b e]; rfl
        · obtain rfl : b = x := by simpa [e] using hb
          rw [Memory.read_congr (p.storePage b).mem _ _ _ fun k hk => h3 _ fun y hy => ?_]
          · unfold Part.storePage; rw [Part.store_fields _ _ _ |>.1, Memory.read_write _ _ _ _ (by simp [Page.bytes])]; rfl
          · have : b.val ≠ y.val := fun h => e (by rw [Fin.ext h]; exact hy)
            simp only [entryBase]; omega
      · intro a ha
        rw [h3 a fun b hb => ha b (by simp [hb])]
        unfold Part.storePage
        rw [Part.store_fields _ _ _ |>.1]
        exact Memory.byte_write_outside _ _ _ _ (by have := ha x (by simp); simp [Page.bytes]; omega)
  obtain ⟨h1, h2, h3⟩ := key eights p (by decide)
  exact ⟨h1, fun b => h2 b (by revert b; decide), fun a ha => h3 a fun b _ => by simp only [entryBase]; omega⟩

/-- All that the writing of the board does. -/
theorem Part.writeBoard_writes (p : Part) :
    p.writeBoard.rpu = { p.rpu with updateCounts := p.writeBoard.rpu.updateCounts } ∧ p.writeBoard = { p with rpu := p.writeBoard.rpu, mem := p.writeBoard.mem } ∧
    Memory.read p.writeBoard.mem 0 16 = headerBytes p.rpu.dropped ∧ (∀ b : Fin 10, Memory.read p.writeBoard.mem (bulletinBase b) 16 =
        p.rpu.bulletins[b.val].bytes) ∧ (∀ i : Fin 8, Memory.read p.writeBoard.mem (entryBase i) 16 = p.rpu.pages[i.val].bytes) ∧
      Memory.read p.writeBoard.mem 0x0E00 16 = p.rpu.fault.bytes ∧ (∀ m : MirrorId, p.writeBoard.mirrored m) ∧
    (∀ a, (0x0200 ≤ a ∧ a < 0x0E00) ∨ (0x1000 ≤ a ∧ a < 0x3000) ∨ 0x5000 ≤ a → Memory.byte p.writeBoard.mem a = Memory.byte p.mem a) := by
  obtain ⟨A, hA⟩ : ∃ A, A = p.store 0x0000 (headerBytes p.rpu.dropped) := ⟨_, rfl⟩
  obtain ⟨B, hB⟩ : ∃ B, B = tens.foldl Part.storeBulletin A := ⟨_, rfl⟩
  obtain ⟨C, hC⟩ : ∃ C, C = B.storeFault := ⟨_, rfl⟩
  obtain ⟨D, hD⟩ : ∃ D, D = eights.foldl Part.storePage C := ⟨_, rfl⟩
  have hE : p.writeBoard = D.rewriteAll := by rw [hD, hC, hB, hA]; rfl
  obtain ⟨e1, e2⟩ := Part.rewriteAll_only D
  obtain ⟨d1, d2, d3⟩ := Part.storePages_all C
  obtain ⟨b1, b2, b3⟩ := Part.storeBulletins_all A
  rw [← hB] at b1 b2 b3
  rw [← hD] at d1 d2 d3
  have hAp : A = { p with mem := A.mem } := by rw [hA]; rfl
  have hCp : C = { B with mem := C.mem } := by rw [hC]; rfl
  have hDr : D.rpu = p.rpu := by rw [d1, hCp, b1, hAp]
  have hlen : (headerBytes p.rpu.dropped).length = 16 := by simp [headerBytes]
  have hout : ∀ a, a < 0x3000 ∨ 0x5000 ≤ a → Memory.byte p.writeBoard.mem a = Memory.byte D.mem a := fun a ha => by rw [hE]; exact Part.rewriteAll_outside _ _ ha
  have hCm : ∀ a, a < 0x0E00 ∨ 0x0E10 ≤ a → Memory.byte C.mem a = Memory.byte B.mem a := fun a ha => by
    rw [hC]; unfold Part.storeFault; rw [Part.store_fields _ _ _ |>.1]; exact Memory.byte_write_outside _ _ _ _ (by simp [FaultRecord.bytes]; omega)
  have hAm : ∀ a, 0x10 ≤ a → Memory.byte A.mem a = Memory.byte p.mem a := fun a ha => by
    rw [hA]; rw [Part.store_fields _ _ _ |>.1]; exact Memory.byte_write_outside _ _ _ _ (by omega)
  refine ⟨?_, ?_, ?_, ?_, ?_, ?_, ?_, ?_⟩
  · rw [hE]; exact e1.trans (by rw [hDr])
  · rw [hE]; refine e2.trans ?_; rw [d1, hCp, b1, hAp]
  · rw [Memory.read_congr A.mem _ _ _ fun k hk => by rw [hout _ (by omega), d3 _ (by omega), hCm _ (by omega), b3 _ (by omega)]]
    rw [hA, Part.store_fields _ _ _ |>.1, Memory.read_write _ _ _ _ hlen]
  · intro b
    rw [Memory.read_congr B.mem _ _ _ fun k hk => by rw [hout _ (by simp only [bulletinBase]; omega), d3 _ (by simp only [bulletinBase]; omega), hCm _ (by simp only [bulletinBase]; omega)]]
    rw [b2, hAp]
  · intro i
    rw [Memory.read_congr D.mem _ _ _ fun k hk => by rw [hout _ (by simp only [entryBase]; omega)]]
    rw [d2, hCp, b1, hAp]
  · rw [Memory.read_congr C.mem _ _ _ fun k hk => by rw [hout _ (by omega), d3 _ (by omega)]]
    rw [hC]; unfold Part.storeFault
    rw [Part.store_fields _ _ _ |>.1, Memory.read_write _ _ _ _ (by simp [FaultRecord.bytes]), b1, hAp]
  · intro m; rw [hE]; exact Part.rewriteAll_mirrored _ _
  · intro a ha
    rw [hout _ (by omega), d3 _ (by omega), hCm _ (by omega), b3 _ (by omega), hAm _ (by omega)]

end Sys2Proof.Machine
end

