-- ==== Sys2Proof/Laws/Steps.lean ====
section
/-! SUPPORT. Clamps, results, and what a time step (R8, R9) does to the part and to its stored times. -/

namespace Sys2Proof.Machine

theorem clampSigned_eq (k n : Int) (h : 0 ≤ k) : clampSigned k n = max (-k) (min k n) := by
  unfold clampSigned; split <;> [skip; split] <;> omega

theorem clampedIf_eq (a b : Int) : Result.clampedIf (decide (a ≠ b)) = (if b = a then .ok else .clamped) := by
  by_cases h : b = a
  · simp [h, Result.clampedIf]
  · have h2 : ¬ a = b := fun e => h e.symm
    simp [h, h2, Result.clampedIf]

/-- A field that is not a bulletin, the fault record or an update count. -/
theorem Rpu.of_rest {u v : Rpu} (h : u.rest = v.rest) {α : Type} (g : Rpu → α) (hg : ∀ x, g x.rest = g x) :
    g u = g v := by rw [← hg, h, hg]

@[simp] theorem Part.shift_fields (p : Part) (o : Time) :
    (p.shift o).mtu = p.mtu.shift o ∧ (p.shift o).cvt = p.cvt.shift o ∧ (p.shift o).trl = p.trl ∧
    (p.shift o).rbp = p.rbp.shift o ∧ (p.shift o).ctu = p.ctu.shift o ∧ (p.shift o).rej = p.rej.shift o ∧
    (p.shift o).spm = p.spm.shift o ∧ (p.shift o).sac = p.sac.shift o ∧ (p.shift o).odk = p.odk ∧
    (p.shift o).rpu = p.rpu.shift o ∧ (p.shift o).mem = p.mem ∧ (p.shift o).syncLine = p.syncLine ∧
    (p.shift o).lrst = p.lrst ∧ (p.shift o).freeCount = p.freeCount := by
  refine ⟨?_, ?_, ?_, ?_, ?_, ?_, ?_, ?_, ?_, ?_, ?_, ?_, ?_, ?_⟩ <;> rfl

theorem Part.markStepped_trl (p : Part) (o : Int) : (p.markStepped o).trl = { p.trl with
    records := if o = 0 then p.trl.records else p.trl.records.map fun r => { r with stepped := true } } := by
  unfold Part.markStepped; split <;> simp_all

@[simp] theorem Part.markStepped_fields (p : Part) (o : Int) :
    (p.markStepped o).rpu = p.rpu ∧ (p.markStepped o).mem = p.mem := by
  unfold Part.markStepped; split <;> simp

/-- Every stored time moves by the offset. -/
theorem Part.shift_times (p : Part) (o : Time) : (p.shift o).storedTimes = p.storedTimes.map (Option.map (· + o)) := by
  unfold Part.storedTimes Part.shift
  simp only [Mtu.shift, Cvt.shift, Rbp.shift, Ctu.shift, Rej.shift, Spm.shift, Sac.shift, Rpu.shift, List.map_append,
    List.map_cons, List.map_nil, List.map_map, List.map_flatMap, Vector.toList_map, List.flatMap_map, moved,
    Option.map_map, Function.comp_def, OutputPulse.shift]
  simp

/-- Times and clock moved together keep their differences. -/
theorem differences_shift (o n : Time) (l : List (Option Time)) :
    (l.map (Option.map (· + o))).map (Option.map fun t => (n + o) - t) = l.map (Option.map fun t => n - t) := by
  rw [List.map_map]
  apply List.map_congr_left
  intro a _
  cases a with
  | none => rfl
  | some t => simp only [Function.comp, Option.map_some, Option.some.injEq]; bv_omega

/-- The stored times are read from these fields alone. -/
theorem Part.storedTimes_congr {p q : Part} (h1 : q.mtu.windowEnd = p.mtu.windowEnd)
    (h2 : q.mtu.lossDeadline = p.mtu.lossDeadline) (h3 : q.cvt.marks = p.cvt.marks) (h4 : q.rbp = p.rbp)
    (h5 : q.ctu = p.ctu) (h6 : q.rej = p.rej) (h7 : q.spm = p.spm) (h8 : q.sac = p.sac)
    (h9 : q.rpu.ageDeadline = p.rpu.ageDeadline) : q.storedTimes = p.storedTimes := by
  unfold Part.storedTimes; rw [h1, h2, h3, h4, h5, h6, h7, h8, h9]

@[simp] theorem Part.complete_rest (p : Part) (ref : OrderRef) (r : Result) (d : Byte) :
    (p.complete ref r d).rpu.rest = p.rpu.rest := by
  unfold Part.complete
  split
  · rfl
  · dsimp only
    split
    · simp
    · split <;> simp

@[simp] theorem Part.mirrorStep_rpu (p : Part) (o : Int) :
    (p.mirrorStep o).rpu.bulletins = p.rpu.bulletins ∧ (p.mirrorStep o).rpu.rest = p.rpu.rest := by
  unfold Part.mirrorStep; dsimp only; (repeat' split) <;> exact ⟨rfl, rfl⟩

/-- What a step moves and what it leaves (R8, R9), whatever its order. -/
theorem Part.applyStep_moves (p : Part) (q : PendingStep) :
    (p.applyStep q).mtu = { (p.mtu.shift (BitVec.ofInt 48 q.offset)) with
      pendingStep := none, beforeStep := p.now, lastOffset := q.offset } ∧
    (p.applyStep q).storedTimes = (p.shift (BitVec.ofInt 48 q.offset)).storedTimes ∧
    (p.applyStep q).trl = { p.trl with
      records := if q.offset = 0 then p.trl.records else p.trl.records.map fun r => { r with stepped := true } } ∧
    (p.applyStep q).rpu.rest = (p.shift (BitVec.ofInt 48 q.offset)).rpu.rest ∧
    (p.applyStep q).rpu.fault = p.rpu.fault := by
  have hm : (p.applyStep q).mtu = { (p.mtu.shift (BitVec.ofInt 48 q.offset)) with
      pendingStep := none, beforeStep := p.now, lastOffset := q.offset } := by
    unfold Part.applyStep; simp
  have hr : (p.applyStep q).rpu.rest = (p.shift (BitVec.ofInt 48 q.offset)).rpu.rest := by
    unfold Part.applyStep; simp
  refine ⟨hm, Part.storedTimes_congr ?_ ?_ ?_ ?_ ?_ ?_ ?_ ?_ ?_, ?_, hr, ?_⟩
  · rw [hm]; rfl
  · rw [hm]; rfl
  · unfold Part.applyStep; simp
  · unfold Part.applyStep; simp
  · unfold Part.applyStep; simp
  · unfold Part.applyStep; simp
  · unfold Part.applyStep; simp
  · unfold Part.applyStep; simp
  · exact Rpu.of_rest hr (·.ageDeadline) fun _ => rfl
  · unfold Part.applyStep; simp [Part.markStepped_trl]
  · unfold Part.applyStep; simp [Rpu.shift]

end Sys2Proof.Machine
end

