-- ==== Sys2Proof/Laws/Motion.lean ====
section
/-! SUPPORT. The tracker's entry to CRAWL (R31) and what the loss of pace does (R38, R115); counters. -/

namespace Sys2Proof.Machine

theorem inc16_eq (n : Nat) : inc16 n = min 65535 (n + 1) := by unfold inc16 saturate; split <;> omega
theorem inc32_eq (n : Nat) : inc32 n = min 4294967295 (n + 1) := by unfold inc32 saturate; split <;> omega
theorem inc8_eq (n : Nat) : inc8 n = min 255 (n + 1) := by unfold inc8 saturate; split <;> omega

/-- The tracker after an entry to CRAWL. -/
def Cvt.crawled (c : Cvt) : Cvt := { c with marks := [], pace := 0, paceState := .crawl }

theorem Part.enterCrawl_plain (p : Part) (h : p.cvt.paceState ≠ .timed) :
    p.enterCrawl = (p.modCvt Cvt.crawled).rewrite .cvt := by
  unfold Part.enterCrawl; dsimp only; rw [if_neg h]; rfl

theorem Part.enterCrawl_timed (p : Part) (h : p.cvt.paceState = .timed) :
    p.enterCrawl = ((((p.modCvt Cvt.crawled).camerasPaceLost.ejectorPaceLost).raise .paceCrawl).rewrite .cvt) := by
  unfold Part.enterCrawl; dsimp only; rw [if_pos h]; rfl

theorem Part.enterCrawl_cvt (p : Part) : p.enterCrawl.cvt = p.cvt.crawled := by
  by_cases h : p.cvt.paceState = .timed
  · rw [p.enterCrawl_timed h]; simp
  · rw [p.enterCrawl_plain h]; simp

theorem Part.enterCrawl_mirrored (p : Part) : p.enterCrawl.mirrored .cvt := by
  by_cases h : p.cvt.paceState = .timed
  · rw [p.enterCrawl_timed h]; exact Part.rewrite_mirrored _ _
  · rw [p.enterCrawl_plain h]; exact Part.rewrite_mirrored _ _

theorem sixes_foldl {α : Type} (f : α → Fin 6 → α) (a : α) :
    sixes.foldl f a = f (f (f (f (f (f a 0) 1) 2) 3) 4) 5 := rfl

/-- A change of every entry of a table of six, one after another, is a map. -/
theorem modAt_all_six {α : Type} (v : Vector α 6) (g : α → α) :
    modAt (modAt (modAt (modAt (modAt (modAt v 0 g) 1 g) 2 g) 3 g) 4 g) 5 g = v.map g := by
  apply Vector.ext
  intro i hi
  have : i = 0 ∨ i = 1 ∨ i = 2 ∨ i = 3 ∨ i = 4 ∨ i = 5 := by omega
  rcases this with rfl | rfl | rfl | rfl | rfl | rfl <;> simp [modAt]

/-- R38: pace lost at the Camera Trigger Unit. -/
theorem Part.camerasPaceLost_eq (p : Part) : p.camerasPaceLost = p.modCtu fun b => { b with
    cameras := b.cameras.map fun k => { k with schedule := k.schedule.map fun x => { x with time := none } } } := by
  unfold Part.camerasPaceLost
  rw [sixes_foldl]
  unfold Part.modCamera Part.modCtu
  simp only
  rw [modAt_all_six]

/-- R115: the pulses by position that pace lost leaves. -/
theorem flatMap_split (l : List Pulse) : l.flatMap Pulse.split = (l.flatMap (·.members)).map fun s => ⟨[s], none⟩ := by
  rw [List.map_flatMap]; rfl

end Sys2Proof.Machine
end

