-- ==== Sys2Proof/Laws/Handshakes.lean ====
section
/-! SUPPORT. Robots: a report that no zone minds (R74), a change of state, the end of a handshake (R66, R69) and the
entry to FAULTED (R72), each as the statements say it. -/

set_option linter.unusedSimpArgs false
set_option linter.unusedVariables false

namespace Sys2Proof.Machine

theorem Part.zoneMap_congr {p q : Part} (h : q.cvt.profile = p.cvt.profile) (z : Fin 8) : q.zoneMap z = p.zoneMap z := by
  unfold Part.zoneMap; rw [h]
theorem Part.zoneHasRobot_congr {p q : Part} (h : q.cvt.profile = p.cvt.profile) (z : Fin 8) (r : Fin 6) : q.zoneHasRobot z r = p.zoneHasRobot z r := by
  unfold Part.zoneHasRobot; rw [Part.zoneMap_congr h]
theorem Part.held_congr {p q : Part} (h : q.cvt.profile = p.cvt.profile) (hs : q.sac = p.sac) (r : Fin 6) : q.held r = p.held r := by
  unfold Part.held; simp only [Part.zoneHasRobot_congr h, hs]
theorem Part.unwatched_congr {p q : Part} (h : q.cvt.profile = p.cvt.profile) (hs : q.sac = p.sac) (r : Fin 6) (hp : p.unwatched r) : q.unwatched r := by
  intro z; rw [Part.zoneHasRobot_congr h, hs]; exact hp z

theorem fold_fix {α β : Type} (l : List α) (f : β → α → β) (b : β) (h : ∀ a, f b a = b) : l.foldl f b = b := by
  induction l with
  | nil => rfl
  | cons a l ih => rw [List.foldl_cons, h, ih]

/-- R74: a report on a robot that no zone watches changes nothing. -/
theorem Part.reportRobot_unwatched (p : Part) (r : Fin 6) (h : p.unwatched r) : p.reportRobot r = p := by
  unfold Part.reportRobot
  apply fold_fix
  intro z
  obtain ⟨h1, h2⟩ := h z
  have hh : p.hearRobot r z = p := by
    unfold Part.hearRobot
    split
    · rename_i hz
      obtain ⟨h3, h4⟩ := h1 hz
      rw [if_neg (by rw [h3]; decide)]
      unfold Part.evalDoorRel
      rw [if_pos]
      unfold Part.doorRelCondition
      rw [h3, h4]; simp
    · rfl
  rw [hh]
  unfold Part.settleResume
  rw [if_neg h2]

theorem Part.robotChanged_to (p : Part) (r : Fin 6) (before : RobotState) (h : p.rbp.robots[r].state ≠ before) (hb : before ≠ .running) :
    p.robotChanged r before = (p.rewrite .rbp).reportRobot r := by
  unfold Part.robotChanged
  rw [if_neg h]; dsimp only; rw [if_neg hb]

theorem Part.robotChanged_from_running (p : Part) (r : Fin 6) (h : p.rbp.robots[r].state ≠ .running) (hw : p.rbp.robots[r].pendingWindow = none) :
    p.robotChanged r .running = ((p.modRobot r fun k => { k with openWindows := [] }).rewrite .rbp).reportRobot r := by
  unfold Part.robotChanged
  rw [if_neg h]; dsimp only; rw [if_pos rfl]
  congr 2
  unfold Part.adoptWindow
  simp only [Fin.getElem_fin] at hw
  simp only [Part.modRobot_fields, Fin.getElem_fin]
  simp [modAt, hw]

theorem Part.finishRun_eq (p : Part) (r : Fin 6) (h : p.rbp.robots[r].state = .starting) : p.finishRun r =
    (((((p.modRobot r fun k => { k with state := .running, deadline := none, order := none }).completeIf
      p.rbp.robots[r].order .ok).raise .running (robotMember r)).rewrite .rbp).reportRobot r) := by
  unfold Part.finishRun
  dsimp only
  rw [h, Part.robotChanged_to _ _ _ _ (by decide)]
  simp [modAt]
theorem Part.finishHalt_eq (p : Part) (r : Fin 6) (h : p.rbp.robots[r].state = .halting) : p.finishHalt r =
    (((((p.modRobot r fun k => { k with state := .halted, deadline := none, order := none }).completeIf
      p.rbp.robots[r].order .ok).raise .halted (robotMember r)).rewrite .rbp).reportRobot r) := by
  unfold Part.finishHalt
  dsimp only
  rw [h, Part.robotChanged_to _ _ _ _ (by decide)]
  simp [modAt]

theorem Part.modRobot_id (p : Part) (r : Fin 6) (f : Robot → Robot) (h : f p.rbp.robots[r] = p.rbp.robots[r]) : p.modRobot r f = p := by
  unfold Part.modRobot Part.modRbp modAt
  dsimp only
  rw [h]; simp

theorem Part.robotChanged_eq (p : Part) (r : Fin 6) (before : RobotState) (h : p.rbp.robots[r].state ≠ before)
    (hw : before = .running → p.rbp.robots[r].pendingWindow = none) :
    p.robotChanged r before = ((p.modRobot r fun k =>
      { k with openWindows := if before = .running then [] else k.openWindows }).rewrite .rbp).reportRobot r := by
  by_cases hb : before = .running
  · subst hb; rw [Part.robotChanged_from_running p r h (hw rfl)]; rfl
  · rw [Part.robotChanged_to p r before h hb, Part.modRobot_id]
    simp [hb]

theorem six_of (b : Byte) (r : Fin 6) (h : b.toNat = r.val) : six b = some r := by
  unfold six; rw [dif_pos (by omega)]; simp [h]
theorem six_none (b : Byte) (h : 6 ≤ b.toNat) : six b = none := by
  unfold six; rw [dif_neg (by omega)]
@[simp] theorem modAt_self {α : Type} {n : Nat} (v : Vector α n) (i : Fin n) (f : α → α) : (modAt v i f)[i] = f v[i] := by simp [modAt]
@[simp] theorem modAt_self' {α : Type} {n : Nat} (v : Vector α n) (i : Fin n) (f : α → α) : (modAt v i f)[i.val] = f v[i.val] := by simp [modAt]
@[simp] theorem modAt_modAt {α : Type} {n : Nat} (v : Vector α n) (i : Fin n) (f g : α → α) : modAt (modAt v i f) i g = modAt v i (fun x => g (f x)) := by simp [modAt]
theorem modAt_eq_set {α : Type} {n : Nat} (v : Vector α n) (i : Fin n) (f : α → α) : modAt v i f = v.set i (f v[i]) := rfl


/-- The end of a take whose owner left `M`, completed the order, told the changes and rewrote the record. -/
theorem Part.done_of {p : Part} {n : Fin 48} {o : Order} (h : p.canTake n o) (M Z : Part) (r : Result) (d : Byte)
    (hM : M.odk = p.takingOdk n p.odk.inflight)
    (hZo : Z.odk = (M.complete (p.nextRef n) r d).odk)
    (hZm : Z.mtu.time = M.mtu.time)
    (hZc : Memory.read Z.mem (cellBase n) 12 = Memory.read (M.complete (p.nextRef n) r d).mem (cellBase n) 12) :
    p.answers (Z.endTake (p.nextRef n)) n r d ∧ Z.Settled (Z.endTake (p.nextRef n)) n := by
  obtain ⟨h1, h2, h3⟩ := p.completed_of n M r d _ (Part.canTake_fresh h) hM
  refine p.ended_of n Z ⟨r, d⟩ _ (Part.canTake_fresh h) (hZo.trans h1) ?_
  rw [hZc, h2]
  simp only [Part.now, hZm]



theorem Part.robotLine_runAck (p : Part) (r : Fin 6) (level : Bool) (h : p.rbp.robots[r].pins.runAck = !level) :
    p.robotLine r .runAck level =
      ((p.modRobot r fun k => { k with pins := { k.pins with runAck := level } }).runAckChanged r level).rewrite .rbp := by
  unfold Part.robotLine Part.robotInputs RobotPins.with
  dsimp only
  have hne : ({ p.rbp.robots[r].pins with runAck := level } : RobotPins) ≠ p.rbp.robots[r].pins := by
    intro e; have := congrArg RobotPins.runAck e; rw [h] at this; cases level <;> simp at this
  rw [if_neg hne, if_neg (c := level = _) (by rw [h]; cases level <;> decide)]
  simp only [if_true, Bool.and_not_self, Bool.false_eq_true, if_false, Bool.or_self]
  rfl

theorem Part.robotLine_haltAck (p : Part) (r : Fin 6) (level : Bool) (h : p.rbp.robots[r].pins.haltAck = !level) :
    p.robotLine r .haltAck level =
      ((p.modRobot r fun k => { k with pins := { k.pins with haltAck := level } }).haltAckChanged r level).rewrite .rbp := by
  unfold Part.robotLine Part.robotInputs RobotPins.with
  dsimp only
  have hne : ({ p.rbp.robots[r].pins with haltAck := level } : RobotPins) ≠ p.rbp.robots[r].pins := by
    intro e; have := congrArg RobotPins.haltAck e; rw [h] at this; cases level <;> simp at this
  rw [if_neg hne, if_neg (c := level = _) (by rw [h]; cases level <;> decide)]
  simp only [if_true, Bool.and_not_self, Bool.false_eq_true, if_false, Bool.or_self]
  rfl

theorem Part.robotLine_fault (p : Part) (r : Fin 6) (h : p.rbp.robots[r].pins.fault = false) :
    p.robotLine r .fault true =
      ((p.modRobot r fun k => { k with pins := { k.pins with fault := true } }).faultActive r).rewrite .rbp := by
  unfold Part.robotLine Part.robotInputs RobotPins.with
  dsimp only
  have hne : ({ p.rbp.robots[r].pins with fault := true } : RobotPins) ≠ p.rbp.robots[r].pins := by
    intro e; have := congrArg RobotPins.fault e; rw [h] at this; simp at this
  rw [if_neg hne]
  simp only [if_true, Bool.and_not_self, Bool.false_eq_true, if_false, Bool.or_self, h, Bool.not_false, Bool.and_true]
  rfl

/-- The change of a handshake's end: the order completes, the news, the mirror, the report. -/
theorem Part.handshake_of (p M : Part) (b : Rbp) (r : Fin 6) (news : News) 
    (hM : M = { p with rbp := b }) (hu : p.unwatched r) :
    let Z := ((((M.completeIf p.rbp.robots[r].order .ok).raise news (robotMember r)).rewrite .rbp).reportRobot r).rewrite .rbp
    Z = { p with rbp := Z.rbp, odk := Z.odk, rpu := Z.rpu, mem := Z.mem } ∧ Z.mirrored .rbp ∧ p.endsHandshake Z r news .ok := by
  have hf : M.mtu = p.mtu ∧ M.cvt = p.cvt ∧ M.trl = p.trl ∧ M.ctu = p.ctu ∧ M.rej = p.rej ∧ M.spm = p.spm ∧ M.sac = p.sac ∧ M.syncLine = p.syncLine ∧ M.lrst = p.lrst ∧ M.freeCount = p.freeCount ∧ M.odk = p.odk ∧ M.rpu = p.rpu ∧ M.mem = p.mem := by
    subst hM; exact ⟨rfl, rfl, rfl, rfl, rfl, rfl, rfl, rfl, rfl, rfl, rfl, rfl, rfl⟩
  clear hM
  obtain ⟨f1, f2, f3, f4, f5, f6, f7, f8, f9, f10, f11, f12, f13⟩ := hf
  generalize ho : p.rbp.robots[r].order = ord
  obtain ⟨Y, hYd⟩ : ∃ Y, Y = ((M.completeIf ord .ok).raise news (robotMember r)).rewrite .rbp := ⟨_, rfl⟩
  have hY : Y.mtu = p.mtu ∧ Y.cvt = p.cvt ∧ Y.trl = p.trl ∧ Y.ctu = p.ctu ∧ Y.rej = p.rej ∧ Y.spm = p.spm ∧ Y.sac = p.sac ∧ Y.syncLine = p.syncLine ∧ Y.lrst = p.lrst ∧ Y.freeCount = p.freeCount ∧ Y.rpu.fault = p.rpu.fault := by
    rw [hYd]; simp [f1, f2, f3, f4, f5, f6, f7, f8, f9, f10, f12]
  obtain ⟨y1, y2, y3, y4, y5, y6, y7, y8, y9, y10, y11⟩ := hY
  have hZ : Y.reportRobot r = Y := Part.reportRobot_unwatched _ _ (Part.unwatched_congr (congrArg Cvt.profile y2) y7 r hu)
  intro Z
  have hZe : Z = Y.rewrite .rbp := by show ((((M.completeIf ord .ok).raise news (robotMember r)).rewrite .rbp).reportRobot r).rewrite .rbp = _; rw [← hYd, hZ]
  rw [hZe]
  refine ⟨?_, Part.rewrite_mirrored _ _, ?_⟩
  · have hr := Part.rewrite_frame Y .rbp
    exact Part.eq_of_fields (hr.1.trans y1) (hr.2.1.trans y2) (hr.2.2.1.trans y3) (Eq.refl _) (hr.2.2.2.2.1.trans y4) (hr.2.2.2.2.2.1.trans y5) (hr.2.2.2.2.2.2.1.trans y6) (hr.2.2.2.2.2.2.2.1.trans y7) (Eq.refl _) (Eq.refl _) (hr.2.2.2.2.2.2.2.2.2.1.trans y8) (hr.2.2.2.2.2.2.2.2.2.2.1.trans y9) (Eq.refl _) (hr.2.2.2.2.2.2.2.2.2.2.2.1.trans y10)
  · unfold Part.endsHandshake
    rw [ho]
    cases ord with
    | none =>
      refine ⟨?_, Part.tells_of ?_ ?_ ?_⟩
      · simp [hYd, Part.completeIf, f11]
      · simp [hYd, Part.completeIf, f12]
      · simp [hYd, Part.completeIf, f12]
      · simp [hYd, Part.completeIf, f12, Part.now]
    | some ref =>
      dsimp only
      intro e he hh
      subst he
      obtain ⟨e1, e2, e3, e4, e5⟩ := Part.concluded M e .ok 0 (by rw [f11]; exact hh)
      refine ⟨⟨?_, ?_⟩, Part.tells_of ?_ ?_ ?_⟩
      · simp only [hYd, Part.completeIf, Part.rewrite_frame, Part.raise_frame]
        rw [e1, f11]
      · unfold Part.shows
        simp only [Part.rewrite_cell]
        simp only [hYd, Part.completeIf, Part.rewrite_cell, Part.raise_cell]
        rw [e2]; simp [Part.now, f1]
      · simp only [hYd, Part.completeIf, Part.rewrite_rpu, Part.raise_rpu]
        rw [e5, f12]
      · simpa only [Part.rewrite_frame] using y11
      · simp only [Part.rewrite_rpu]
        simp only [hYd, Part.completeIf, Part.rewrite_rpu, Part.raise_rpu]
        rw [e4, f12]; simp [Part.now, f1, announced_append]


theorem modAt_comm {α : Type} {n : Nat} (v : Vector α n) (i j : Fin n) (f g : α → α) (h : i ≠ j) :
    modAt (modAt v i f) j g = modAt (modAt v j g) i f := by
  have hv : i.val ≠ j.val := fun e => h (Fin.ext e)
  apply Vector.ext
  intro k hk
  unfold modAt
  simp only [Vector.getElem_set, Fin.getElem_fin]
  split <;> split <;> simp_all

theorem announced_swap (v : Vector Bulletin 10) (t : Time) (a b : News × Byte) (l : Tidings) (h : a.1.bulletin ≠ b.1.bulletin) :
    announced v t (a :: b :: l) = announced v t (b :: a :: l) := by
  unfold announced
  simp only [List.foldl_cons]
  rw [modAt_comm _ _ _ _ _ h]

theorem Part.faulted_of (p M Y : Part) (b : Rbp) (r : Fin 6) (cause : RobotFault) (f : Robot → Robot)
    (hM : M = { p with rbp := b })
    (hYd : Y = (((((M.completeIf p.rbp.robots[r].order .failedTimeout cause.code).report (.robot cause) (robotMember r)).raise
      (.robotFault cause) (robotMember r)).modRobot r f).rewrite .rbp)) :
    Y = { p with rbp := Y.rbp, odk := Y.odk, rpu := Y.rpu, mem := Y.mem } ∧ Y.mirrored .rbp ∧ p.endsInFault Y r cause := by
  have hf : M.mtu = p.mtu ∧ M.cvt = p.cvt ∧ M.trl = p.trl ∧ M.ctu = p.ctu ∧ M.rej = p.rej ∧ M.spm = p.spm ∧ M.sac = p.sac ∧ M.syncLine = p.syncLine ∧ M.lrst = p.lrst ∧ M.freeCount = p.freeCount ∧ M.odk = p.odk ∧ M.rpu = p.rpu ∧ M.mem = p.mem := by
    subst hM; exact ⟨rfl, rfl, rfl, rfl, rfl, rfl, rfl, rfl, rfl, rfl, rfl, rfl, rfl⟩
  clear hM
  obtain ⟨f1, f2, f3, f4, f5, f6, f7, f8, f9, f10, f11, f12, f13⟩ := hf
  generalize ho : p.rbp.robots[r].order = ord at hYd
  have hY : Y.mtu = p.mtu ∧ Y.cvt = p.cvt ∧ Y.trl = p.trl ∧ Y.ctu = p.ctu ∧ Y.rej = p.rej ∧ Y.spm = p.spm ∧ Y.sac = p.sac ∧ Y.syncLine = p.syncLine ∧ Y.lrst = p.lrst ∧ Y.freeCount = p.freeCount := by
    rw [hYd]; simp [f1, f2, f3, f4, f5, f6, f7, f8, f9, f10, f12]
  obtain ⟨y1, y2, y3, y4, y5, y6, y7, y8, y9, y10⟩ := hY
  have hft : Y.rpu.fault = p.rpu.fault.after (.robot cause) (robotMember r) 0 Y.now := by
    have e : Y.now = p.now := congrArg Mtu.time y1
    rw [e, hYd]
    simp only [Part.rewrite_frame, Part.modRobot_fields, Part.raise_frame, Part.report_rpu, Part.completeIf_frame]
    simp [f12, Part.now, f1]
  refine ⟨?_, ?_, ?_⟩
  · exact Part.eq_of_fields y1 y2 y3 (Eq.refl _) y4 y5 y6 y7 (Eq.refl _) (Eq.refl _) y8 y9 (Eq.refl _) y10
  · rw [hYd]; exact Part.rewrite_mirrored _ _
  · unfold Part.endsInFault
    rw [ho]
    cases ord with
    | none =>
      refine ⟨?_, Part.tellsFault_of ?_ hft ?_⟩
      · rw [hYd]; simp [Part.completeIf, f11]
      · rw [hYd]; simp [Part.completeIf, f12]
      · rw [hYd]; simp [Part.completeIf, f12, Part.now, announced_append]
    | some ref =>
      dsimp only
      intro e he hh
      subst he
      obtain ⟨e1, e2, e3, e4, e5⟩ := Part.concluded M e .failedTimeout cause.code (by rw [f11]; exact hh)
      refine ⟨⟨?_, ?_⟩, Part.tellsFault_of ?_ hft ?_⟩
      · rw [hYd]
        simp only [Part.completeIf, Part.rewrite_frame, Part.modRobot_fields, Part.raise_frame, Part.report_frame]
        rw [e1, f11]
      · unfold Part.shows
        rw [hYd]
        simp only [Part.rewrite_cell, Part.completeIf, Part.modRobot_fields, Part.raise_cell, Part.report_cell]
        rw [e2]; simp [Part.now, f1]
      · rw [hYd]
        simp only [Part.completeIf, Part.rewrite_rpu, Part.modRobot_fields, Part.raise_rpu, Part.report_rpu]
        rw [e5, f12]
      · rw [announced_swap _ _ _ _ _ (by simp [InFlight.told, News.bulletin])]
        rw [hYd]
        simp only [Part.completeIf, Part.rewrite_rpu, Part.modRobot_fields, Part.raise_rpu, Part.report_rpu]
        rw [e4, f12]; simp [Part.now, f1, announced_append]

/-- A second rewrite of the robots' record changes nothing of it. -/
theorem Part.faulted_rewrite (p Y : Part) (r : Fin 6) (cause : RobotFault)
    (h : Y = { p with rbp := Y.rbp, odk := Y.odk, rpu := Y.rpu, mem := Y.mem } ∧ p.endsInFault Y r cause) :
    (Y.rewrite .rbp) = { p with rbp := (Y.rewrite .rbp).rbp, odk := (Y.rewrite .rbp).odk, rpu := (Y.rewrite .rbp).rpu, mem := (Y.rewrite .rbp).mem } ∧
      (Y.rewrite .rbp).mirrored .rbp ∧ p.endsInFault (Y.rewrite .rbp) r cause := by
  obtain ⟨h1, h2⟩ := h
  have hr := Part.rewrite_frame Y .rbp
  have hy : Y.mtu = p.mtu ∧ Y.cvt = p.cvt ∧ Y.trl = p.trl ∧ Y.ctu = p.ctu ∧ Y.rej = p.rej ∧ Y.spm = p.spm ∧ Y.sac = p.sac ∧ Y.syncLine = p.syncLine ∧ Y.lrst = p.lrst ∧ Y.freeCount = p.freeCount := by
    refine ⟨?_, ?_, ?_, ?_, ?_, ?_, ?_, ?_, ?_, ?_⟩
    · have := congrArg Part.mtu h1; exact this
    · have := congrArg Part.cvt h1; exact this
    · have := congrArg Part.trl h1; exact this
    · have := congrArg Part.ctu h1; exact this
    · have := congrArg Part.rej h1; exact this
    · have := congrArg Part.spm h1; exact this
    · have := congrArg Part.sac h1; exact this
    · have := congrArg Part.syncLine h1; exact this
    · have := congrArg Part.lrst h1; exact this
    · have := congrArg Part.freeCount h1; exact this
  obtain ⟨y1, y2, y3, y4, y5, y6, y7, y8, y9, y10⟩ := hy
  have hn : (Y.rewrite .rbp).now = Y.now := congrArg Mtu.time hr.1
  have hb : (Y.rewrite .rbp).rpu.bulletins = Y.rpu.bulletins := (Part.rewrite_rpu Y .rbp).1
  have hre : (Y.rewrite .rbp).rpu.rest = Y.rpu.rest := (Part.rewrite_rpu Y .rbp).2
  have hft : (Y.rewrite .rbp).rpu.fault = Y.rpu.fault := by simp
  have ht : ∀ l, p.tellsFault Y (.robot cause) (robotMember r) 0 l → p.tellsFault (Y.rewrite .rbp) (.robot cause) (robotMember r) 0 l := by
    intro l hl
    unfold Part.tellsFault at hl
    refine Part.tellsFault_of ?_ ?_ ?_
    · rw [hre, hl]; rfl
    · rw [hft, hl, hn]
    · rw [hb, hl, hn]
  refine ⟨?_, Part.rewrite_mirrored _ _, ?_⟩
  · exact Part.eq_of_fields (hr.1.trans y1) (hr.2.1.trans y2) (hr.2.2.1.trans y3) (Eq.refl _) (hr.2.2.2.2.1.trans y4) (hr.2.2.2.2.2.1.trans y5) (hr.2.2.2.2.2.2.1.trans y6) (hr.2.2.2.2.2.2.2.1.trans y7) (Eq.refl _) (Eq.refl _) (hr.2.2.2.2.2.2.2.2.2.1.trans y8) (hr.2.2.2.2.2.2.2.2.2.2.1.trans y9) (Eq.refl _) (hr.2.2.2.2.2.2.2.2.2.2.2.1.trans y10)
  · unfold Part.endsInFault at h2 ⊢
    cases hor : p.rbp.robots[r].order with
    | none =>
      rw [hor] at h2
      exact ⟨by simpa using h2.1, ht _ h2.2⟩
    | some ref =>
      rw [hor] at h2
      intro e he hh
      obtain ⟨⟨a, b⟩, c⟩ := h2 e he hh
      refine ⟨⟨by simpa using a, ?_⟩, ht _ c⟩
      unfold Part.shows at b ⊢
      rw [Part.rewrite_cell, hn]; exact b

theorem Part.enterFaulted_eq (p : Part) (r : Fin 6) (cause : RobotFault)
    (hw : p.rbp.robots[r].state = .running → p.rbp.robots[r].pendingWindow = none) :
    let W := ((((p.modRobot r fun k => { k with state := .faulted, faultCause := some cause, deadline := none, order := none }).completeIf p.rbp.robots[r].order .failedTimeout cause.code).report (.robot cause) (robotMember r)).raise
      (.robotFault cause) (robotMember r))
    p.enterFaulted r cause = if p.rbp.robots[r].state = .faulted then W.rewrite .rbp else
      ((W.modRobot r fun k => { k with openWindows := if p.rbp.robots[r].state = .running then [] else k.openWindows }).rewrite .rbp).reportRobot r := by
  intro W
  have e : p.enterFaulted r cause = W.robotChanged r p.rbp.robots[r].state := rfl
  rw [e]
  have hW : W.rbp = (p.modRobot r fun k => { k with state := .faulted, faultCause := some cause, deadline := none, order := none }).rbp := by simp [W]
  split
  · rename_i h
    unfold Part.robotChanged
    rw [if_pos]
    rw [hW, h]; simp [modAt]
  · rename_i h
    refine Part.robotChanged_eq _ _ _ ?_ ?_
    · rw [hW]; simpa [modAt] using fun e => h e.symm
    · intro hr; rw [hW]; simpa [modAt] using hw hr

/-- Entering FAULTED: what the part is then, apart from a last rewrite. -/
theorem Part.faulted_all (p P1 : Part) (b : Rbp) (r : Fin 6) (pins : RobotPins) (cause : RobotFault)
    (hP : P1 = { p with rbp := p.rbp.put r { p.rbp.robots[r] with pins := pins } })
    (hw : p.rbp.robots[r].state = .running → p.rbp.robots[r].pendingWindow = none) :
    let q := P1.enterFaulted r cause
    let k := p.rbp.robots[r]
    q.rbp = p.rbp.put r { k with state := .faulted, faultCause := some cause, deadline := none, order := none, pins := pins
                                 openWindows := if k.state = .running then [] else k.openWindows } ∧
    q.mtu = p.mtu ∧ q.cvt = p.cvt ∧
    (p.unwatched r → q = { p with rbp := q.rbp, odk := q.odk, rpu := q.rpu, mem := q.mem } ∧ q.mirrored .rbp ∧ p.endsInFault q r cause) := by
  have h0 : P1.rbp.robots[r] = { p.rbp.robots[r] with pins := pins } := by rw [hP]; simp [Rbp.put]
  have hmtu : P1.mtu = p.mtu := by rw [hP]
  have hcvt : P1.cvt = p.cvt := by rw [hP]
  have hsac : P1.sac = p.sac := by rw [hP]
  have hrbp : P1.rbp = p.rbp.put r { p.rbp.robots[r] with pins := pins } := by rw [hP]
  have heq := Part.enterFaulted_eq P1 r cause (by rw [h0]; exact hw)
  intro q k
  have hq : q = P1.enterFaulted r cause := rfl
  clear_value q
  rw [h0] at heq
  dsimp only at heq
  have hMd : (P1.modRobot r fun k => { k with state := .faulted, faultCause := some cause, deadline := none, order := none }) = { p with rbp := (P1.modRobot r fun k => { k with state := .faulted, faultCause := some cause, deadline := none, order := none }).rbp } := by
    rw [hP]; rfl
  have hgen := fun (Y : Part) (f : Robot → Robot) => Part.faulted_of p _ Y _ r cause f hMd
  by_cases hs : p.rbp.robots[r].state = .faulted
  · rw [if_pos hs] at heq
    rw [hq, heq]
    refine ⟨?_, ?_, ?_, ?_⟩
    · simp only [Part.rewrite_frame, Part.raise_frame, Part.report_frame, Part.completeIf_frame, Part.modRobot_fields, hrbp]
      simp only [Fin.getElem_fin] at hs
      simp [Rbp.put, modAt, k, hs]
    · simp [hmtu]
    · simp [hcvt]
    · intro _
      refine hgen _ (fun k => k) ?_
      rw [Part.modRobot_id _ _ (fun k => k) rfl]
  · rw [if_neg hs] at heq
    have hun : p.unwatched r → q = _ := fun hu => hq.trans (heq.trans (Part.reportRobot_unwatched _ _ (Part.unwatched_congr (by simp [hcvt]) (by simp [hsac]) r hu)))
    refine ⟨?_, ?_, ?_, ?_⟩
    · rw [hq, heq]
      simp only [Part.rewrite_frame, Part.raise_frame, Part.report_frame, Part.completeIf_frame, Part.modRobot_fields, hrbp, Part.reportRobot_frame]
      simp [Rbp.put, modAt, k]
    · rw [hq, heq]; simp [hmtu]
    · rw [hq, heq]; simp [hcvt]
    · intro hu
      exact hgen q _ (hun hu)

theorem Part.beginHalt_of {p B : Part} {r : Fin 6} {origin : HaltOrigin} {ref : Option OrderRef}
    (hB : (p.modRobot r fun k => { k with state := .halting, haltOrigin := some origin, order := ref, deadline := some (p.haltDeadline r) }).robotChanged r p.rbp.robots[r].state = B) :
    p.beginHalt r origin ref = if B.rbp.robots[r].pins.haltAck ∧ B.rbp.robots[r].state = .halting then B.finishHalt r else B := by
  subst hB; rfl

/-- R68: a halt asked of an active robot. -/
theorem Part.requestHalt_robot (U : Part) (r : Fin 6) (o : HaltOrigin) (hact : U.rbp.robots[r].active = true)
    (hh : U.rbp.robots[r].pins.haltAck = false) (hw : U.rbp.robots[r].state = .running → U.rbp.robots[r].pendingWindow = none) :
    (U.requestHalt r o).rbp.robots[r] = { U.rbp.robots[r] with state := .halting, haltOrigin := some o, order := none, deadline := some (U.haltDeadline r), openWindows := if U.rbp.robots[r].state = .running then [] else U.rbp.robots[r].openWindows } := by
  unfold Part.requestHalt
  rw [if_pos hact]
  dsimp only
  obtain ⟨V, hVd⟩ : ∃ V, V = U.completeIf U.rbp.robots[r].order .superseded := ⟨_, rfl⟩
  rw [← hVd]
  have hV : V.rbp = U.rbp := by rw [hVd]; simp
  have hVd : V.haltDeadline r = U.haltDeadline r := by
    unfold Part.haltDeadline Part.robotSettings Part.now; rw [hVd]; simp
  obtain ⟨A, hAd⟩ : ∃ A, A = V.modRobot r fun k => { k with state := .halting, haltOrigin := some o, order := none, deadline := some (V.haltDeadline r) } := ⟨_, rfl⟩
  have hA : A.rbp.robots[r] = { U.rbp.robots[r] with state := .halting, haltOrigin := some o, order := none, deadline := some (U.haltDeadline r) } := by
    rw [hAd, ← hV, ← hVd]; simp
  have hst : U.rbp.robots[r].state = .starting ∨ U.rbp.robots[r].state = .running := by
    unfold Robot.active at hact; simpa using hact
  have hB : A.robotChanged r V.rbp.robots[r].state = ((A.modRobot r fun k => { k with openWindows := if V.rbp.robots[r].state = .running then [] else k.openWindows }).rewrite .rbp).reportRobot r := by
    apply Part.robotChanged_eq
    · rw [hA, hV]; rcases hst with h | h <;> rw [h] <;> simp
    · intro hr; rw [hA]; rw [hV] at hr; exact hw hr
  rw [hAd] at hB
  rw [Part.beginHalt_of hB, ← hAd]
  have hBr : (((A.modRobot r fun k => { k with openWindows := if V.rbp.robots[r].state = .running then [] else k.openWindows }).rewrite .rbp).reportRobot r).rbp.robots[r] = { A.rbp.robots[r] with openWindows := if V.rbp.robots[r].state = .running then [] else A.rbp.robots[r].openWindows } := by
    simp only [Part.reportRobot_frame, Part.rewrite_frame, Part.modRobot_fields, modAt_self]
  rw [if_neg]
  · rw [hBr, hA, hV]
  · rw [hBr, hA]
    simp only [Fin.getElem_fin] at hh; simp [hh]

end Sys2Proof.Machine
end

