-- ==== Sys2Proof/Laws/Outcomes.lean ====
section
/-! SUPPORT. An outcome record handed over (R186, R187), and what is told and stored before and after it: the relation
`Plain` chains the operations around it, and `records_of` gives the statement. -/

set_option linter.unusedSimpArgs false

namespace Sys2Proof.Machine

/-! ## Bulletins one by one -/

theorem announced_get {v w : Vector Bulletin 10} (t : Time) (l : Tidings) (b : Fin 10) (h : v[b] = w[b]) :
    (announced v t l)[b] = (announced w t l)[b] := by
  induction l generalizing v w with
  | nil => exact h
  | cons x l ih =>
    simp only [announced, List.foldl_cons] at ih ⊢
    refine ih ?_
    unfold modAt
    simp only [Fin.getElem_fin, Vector.getElem_set] at h ⊢
    split
    · rename_i e; simp [e, h]
    · exact h

theorem announced_other (v : Vector Bulletin 10) (t : Time) (x : News × Byte) (b : Fin 10) (h : x.1.bulletin ≠ b) :
    (announced v t [x])[b] = v[b] := by
  have : x.1.bulletin.val ≠ b.val := fun e => h (Fin.ext e)
  simp [announced, modAt, Vector.getElem_set, this]

/-! ## What happens around a record -/

/-- What the Report Unit keeps of its pages (R185 to R187). -/
def Rpu.book (u : Rpu) :=
  (u.outcomeNumber, u.pages, u.dropped, u.lastPageSeq, u.nextPage, u.ageDeadline, u.dropping)

/-- From `p` to `q` no outcome is handed over and no page changes; the changes `l` are told, none of them on OUTCOMES,
and `k` is stored to. -/
structure Part.Plain (p q : Part) (l : Tidings) (k : List Area) : Prop where
  time : q.mtu.time = p.mtu.time
  book : q.rpu.book = p.rpu.book
  outcomes : q.rpu.bulletins[8] = p.rpu.bulletins[8]
  bulletins : ∀ b : Fin 10, b ≠ 8 → q.rpu.bulletins[b] = (announced p.rpu.bulletins p.now l)[b]
  kept : q.rpu.threshold = p.rpu.threshold ∧ q.rpu.phase = p.rpu.phase ∧ q.rpu.lineResetBusy = p.rpu.lineResetBusy ∧
    q.rpu.busData = p.rpu.busData
  stores : ∀ (m : Memory) (j : List Area), k ⊆ j → m.storesOnly p.mem j → m.storesOnly q.mem j

theorem Part.Plain.pages {p q : Part} {l : Tidings} {k : List Area} (h : p.Plain q l k) : q.rpu.pages = p.rpu.pages :=
  congrArg (·.2.1) h.book

theorem Part.Plain.refl_of {p q : Part} (ht : q.mtu.time = p.mtu.time) (hr : q.rpu = p.rpu) (hm : q.mem = p.mem) :
    p.Plain q [] [] where
  time := ht
  book := by rw [hr]
  outcomes := by rw [hr]
  bulletins := fun b _ => by rw [hr]; rfl
  kept := by rw [hr]; exact ⟨rfl, rfl, rfl, rfl⟩
  stores := fun m j _ h => by rw [hm]; exact h

theorem Part.Plain.trans {p q r : Part} {l l' : Tidings} {k k' : List Area} (h : p.Plain q l k) (h' : q.Plain r l' k') :
    p.Plain r (l ++ l') (k ++ k') where
  time := h'.time.trans h.time
  book := h'.book.trans h.book
  outcomes := h'.outcomes.trans h.outcomes
  bulletins := fun b hb => by
    have hn : q.now = p.now := h.time
    rw [h'.bulletins b hb, hn, announced_get p.now l' b (h.bulletins b hb), announced_append]
  kept := ⟨h'.kept.1.trans h.kept.1, h'.kept.2.1.trans h.kept.2.1, h'.kept.2.2.1.trans h.kept.2.2.1,
    h'.kept.2.2.2.trans h.kept.2.2.2⟩
  stores := fun m j hj hm =>
    h'.stores m j (fun _ hx => hj (List.mem_append_right _ hx)) (h.stores m j (fun _ hx => hj (List.mem_append_left _ hx)) hm)

theorem Part.plain_rewrite (p : Part) (m : MirrorId) : p.Plain (p.rewrite m) [] [.mirror m] where
  time := rfl
  book := rfl
  outcomes := rfl
  bulletins := fun _ _ => rfl
  kept := ⟨rfl, rfl, rfl, rfl⟩
  stores := fun _ _ hj hm => Part.rewrite_stores _ _ (hj (by simp)) hm

theorem Part.plain_raise (p : Part) (n : News) (member : Byte) (h : n.bulletin ≠ 8 := by decide) :
    p.Plain (p.raise n member) [(n, member)] [.bulletin n.bulletin] where
  time := rfl
  book := rfl
  outcomes := announced_other _ _ (n, member) 8 h
  bulletins := fun _ _ => rfl
  kept := ⟨rfl, rfl, rfl, rfl⟩
  stores := fun _ _ hj hm => Part.raise_stores _ _ _ (hj (by simp)) hm

theorem Part.plain_report (p : Part) (k : FaultKind) (member : Byte) (seq : Word) :
    p.Plain (p.report k member seq) [(.fault k, member)] [.fault, .bulletin 9] where
  time := rfl
  book := rfl
  outcomes := announced_other _ _ (.fault k, member) 8 (by simp [News.bulletin])
  bulletins := fun _ _ => rfl
  kept := ⟨rfl, rfl, rfl, rfl⟩
  stores := fun _ _ hj hm => Part.report_stores _ _ _ _ (hj (by simp)) (hj (by simp)) hm

theorem Part.plain_markTaken (p : Part) (n : Fin 48) : p.Plain (p.markTaken n) [] [.cell n] where
  time := rfl
  book := rfl
  outcomes := rfl
  bulletins := fun _ _ => rfl
  kept := ⟨rfl, rfl, rfl, rfl⟩
  stores := fun _ _ hj hm => Part.markTaken_stores _ _ (hj (by simp)) hm

theorem Part.Settled.plain {X q : Part} {n : Fin 48} (h : X.Settled q n) : X.Plain q [] [.cell n, .mirror .odk] where
  time := congrArg Mtu.time h.mtu
  book := Rpu.of_rest h.rest Rpu.book fun _ => rfl
  outcomes := by rw [h.bulletins]
  bulletins := fun b _ => by rw [h.bulletins]; rfl
  kept := ⟨Rpu.of_rest h.rest (·.threshold) fun _ => rfl, Rpu.of_rest h.rest (·.phase) fun _ => rfl,
    Rpu.of_rest h.rest (·.lineResetBusy) fun _ => rfl, Rpu.of_rest h.rest (·.busData) fun _ => rfl⟩
  stores := fun _ _ hj hm => h.stores _ _ (hj (by simp)) (hj (by simp)) hm

theorem Part.Plain.refl (p : Part) : p.Plain p [] [] := .refl_of rfl rfl rfl

/-- Another block changes. -/
theorem Part.Plain.same {p q r : Part} {l : Tidings} {k : List Area} (h : p.Plain q l k)
    (ht : r.mtu.time = q.mtu.time) (hr : r.rpu = q.rpu) (hm : r.mem = q.mem) : p.Plain r l k := by
  simpa using h.trans (Part.Plain.refl_of ht hr hm)

theorem Part.Plain.rewrite {p q : Part} {l : Tidings} {k : List Area} (h : p.Plain q l k) (m : MirrorId) :
    p.Plain (q.rewrite m) l (k ++ [.mirror m]) := by simpa using h.trans (q.plain_rewrite m)

theorem Part.Plain.raise {p q : Part} {l : Tidings} {k : List Area} (h : p.Plain q l k) (n : News) (member : Byte)
    (hn : n.bulletin ≠ 8 := by decide) : p.Plain (q.raise n member) (l ++ [(n, member)]) (k ++ [.bulletin n.bulletin]) :=
  h.trans (q.plain_raise n member hn)

theorem Part.Plain.report {p q : Part} {l : Tidings} {k : List Area} (h : p.Plain q l k) (f : FaultKind) (member : Byte)
    (seq : Word) : p.Plain (q.report f member seq) (l ++ [(.fault f, member)]) (k ++ [.fault, .bulletin 9]) :=
  h.trans (q.plain_report f member seq)

theorem Part.Plain.markTaken {p q : Part} {l : Tidings} {k : List Area} (h : p.Plain q l k) (n : Fin 48) :
    p.Plain (q.markTaken n) l (k ++ [.cell n]) := by simpa using h.trans (q.plain_markTaken n)

theorem Part.Plain.settled {p q r : Part} {n : Fin 48} {l : Tidings} {k : List Area} (h : p.Plain q l k)
    (hs : q.Settled r n) : p.Plain r l (k ++ [.cell n, .mirror .odk]) := by simpa using h.trans hs.plain

/-! ## The record itself -/

theorem Part.fillingPage_congr {p q : Part} (h : q.rpu.pages = p.rpu.pages) : q.fillingPage = p.fillingPage := by
  unfold Part.fillingPage; rw [h]

theorem Part.outcomeAreas_congr {p q : Part} (h : q.rpu.pages = p.rpu.pages) : q.outcomeAreas = p.outcomeAreas := by
  unfold Part.outcomeAreas; rw [Part.fillingPage_congr h, h]

/-- Areas that an outcome handed over does not read back from: no record, no directory entry, not the dropped count. -/
def Area.besideRecords : Area → Prop
  | .record _ _ | .entry _ | .dropped => False
  | _ => True

theorem Area.apart_record (i : Fin 8) (k : Nat) (hk : k < 32) (x : Area) (h : ∀ j m, x ≠ .record j m) :
    recordBase i k + 32 ≤ x.base ∨ x.base + x.size ≤ recordBase i k := by
  have hi := i.isLt
  have hl : 0x1000 ≤ recordBase i k := by unfold recordBase; omega
  have hu : recordBase i k + 32 ≤ 0x3000 := by unfold recordBase; omega
  cases x with
  | cell n => right; simp only [Area.base, Area.size, cellBase]; omega
  | bulletin b => right; simp only [Area.base, Area.size, bulletinBase]; omega
  | fault => right; simp only [Area.base, Area.size]; omega
  | entry j => right; simp only [Area.base, Area.size, entryBase]; omega
  | record j m => exact absurd rfl (h j m)
  | dropped => right; simp only [Area.base, Area.size]; omega
  | mirror m => left; simp only [Area.base]; cases m <;> simp only [MirrorId.base] <;> omega

theorem Area.apart_entry (i : Fin 8) (x : Area) (h : x ≠ .entry i) :
    entryBase i + 16 ≤ x.base ∨ x.base + x.size ≤ entryBase i := by
  have hi := i.isLt
  have hb : entryBase i = 0x0E40 + 16 * i.val := rfl
  cases x with
  | cell n => right; simp only [Area.base, Area.size, cellBase]; omega
  | bulletin b => right; simp only [Area.base, Area.size, bulletinBase]; omega
  | fault => right; simp only [Area.base, Area.size]; omega
  | entry j =>
    have : j.val ≠ i.val := fun e => h (congrArg Area.entry (Fin.ext e))
    simp only [Area.base, Area.size, entryBase]; omega
  | record j m => left; simp only [Area.base, recordBase]; omega
  | dropped => right; simp only [Area.base, Area.size]; omega
  | mirror m => left; simp only [Area.base]; cases m <;> simp only [MirrorId.base] <;> omega

theorem Area.apart_dropped (x : Area) (h : x ≠ .dropped) : 0x000C + 4 ≤ x.base ∨ x.base + x.size ≤ 0x000C := by
  cases x with
  | cell n => left; simp only [Area.base, cellBase]; omega
  | bulletin b => left; simp only [Area.base, bulletinBase]; omega
  | fault => left; simp only [Area.base]; omega
  | entry j => left; simp only [Area.base, entryBase]; omega
  | record j m => left; simp only [Area.base, recordBase]; omega
  | dropped => exact absurd rfl h
  | mirror m => left; simp only [Area.base]; cases m <;> simp only [MirrorId.base] <;> omega

theorem Memory.read_record {m m' : Memory} (i : Fin 8) (k : Nat) (hk : k < 32) (l : List Area) (len : Nat)
    (hlen : len ≤ 32) (h : Memory.storesOnly m m' l) (hl : ∀ x ∈ l, ∀ j m, x ≠ .record j m) :
    Memory.read m' (recordBase i k) len = Memory.read m (recordBase i k) len :=
  Memory.read_of_storesOnly h fun x hx => by
    rcases Area.apart_record i k hk x (hl x hx) with h | h <;> omega

theorem Memory.read_entry {m m' : Memory} (i : Fin 8) (l : List Area) (h : Memory.storesOnly m m' l)
    (hl : ∀ x ∈ l, x ≠ .entry i) : Memory.read m' (entryBase i) 16 = Memory.read m (entryBase i) 16 :=
  Memory.read_of_storesOnly h fun x hx => Area.apart_entry i x (hl x hx)

theorem Memory.read_dropped {m m' : Memory} (l : List Area) (h : Memory.storesOnly m m' l) (hl : ∀ x ∈ l, x ≠ .dropped) :
    Memory.read m' 0x000C 4 = Memory.read m 0x000C 4 :=
  Memory.read_of_storesOnly h fun x hx => Area.apart_dropped x (hl x hx)

theorem Area.besideRecords.apart {x : Area} (h : x.besideRecords) :
    (∀ j m, x ≠ .record j m) ∧ (∀ i, x ≠ .entry i) ∧ x ≠ .dropped := by
  cases x <;> simp_all [Area.besideRecords]

theorem Part.handOutcome_stores {m : Memory} {l : List Area} (p : Part) (kind : Byte) (body : List Byte)
    (hb : body.length = 24) (hl : p.outcomeAreas ⊆ l) (h : m.storesOnly p.mem l) :
    m.storesOnly (p.handOutcome kind body).mem l := by
  unfold Part.handOutcome
  dsimp only
  have hf : (p.modRpu fun u => { u with outcomeNumber := u.outcomeNumber + 1 }).fillingPage = p.fillingPage :=
    Part.fillingPage_congr rfl
  rw [hf]
  unfold Part.outcomeAreas at hl
  cases hp : p.fillingPage with
  | some i =>
    rw [hp] at hl
    dsimp only at hl ⊢
    unfold Part.fillPage
    dsimp only
    have h1 : m.storesOnly ((p.modRpu fun u => { u with outcomeNumber := u.outcomeNumber + 1 }).store
        (recordBase i p.rpu.pages[i].count) ([kind, 0] ++
          leBytes 2 (((p.modRpu fun u => { u with outcomeNumber := u.outcomeNumber + 1 }).rpu.outcomeNumber).toNat % 65536) ++
          leBytes 4 (Time.low (p.modRpu fun u => { u with outcomeNumber := u.outcomeNumber + 1 }).now).toNat ++ body)).mem l := by
      simp only [Part.store_fields]
      refine Memory.storesOnly_write (.record i p.rpu.pages[i].count) (hl (by simp)) (Nat.le_refl _) ?_ h
      simp [Area.base, Area.size, hb]
    split
    · refine Part.closePage_stores _ _ _ (hl (by simp)) (hl (by simp)) (hl (by simp)) (hl (by simp)) ?_
      exact Part.storePage_stores _ _ (hl (by simp)) h1
    · refine Part.rewrite_stores _ _ (hl (by simp)) ?_
      exact Part.storePage_stores _ _ (hl (by simp)) h1
  | none =>
    rw [hp] at hl
    dsimp only at hl ⊢
    refine Part.rewrite_stores _ _ (hl (by simp)) ?_
    unfold Part.dropOutcome
    dsimp only
    have h1 : ∀ f : Rpu → Rpu, ∀ g : Rpu → Rpu, m.storesOnly (((p.modRpu f).modRpu g).storeDropped).mem l := fun f g =>
      Part.storeDropped_stores _ (hl (by simp)) h
    split
    · exact Part.raise_stores _ _ _ (hl (by simp [News.bulletin])) (h1 _ _)
    · exact h1 _ _

theorem Part.handOutcome_board (p : Part) (kind : Byte) (body : List Byte) :
    ∀ b : Fin 10, b ≠ 8 → (p.handOutcome kind body).rpu.bulletins[b] = p.rpu.bulletins[b] := by
  intro b hb
  have hr : ∀ (q : Part) (n : News) (m : Byte), n.bulletin = 8 → (q.raise n m).rpu.bulletins[b] = q.rpu.bulletins[b] :=
    fun q n m hn => by
      rw [show (q.raise n m).rpu.bulletins = announced q.rpu.bulletins q.now [(n, m)] from rfl]
      exact announced_other _ _ _ _ fun e => hb (e.symm.trans hn)
  have hc : ∀ (q : Part) (i : Fin 8) (c : CloseCause),
      (q.closePage i c).rpu.bulletins[b] = q.rpu.bulletins[b] := by
    intro q i c
    unfold Part.closePage
    dsimp only
    simp only [Part.rewrite_rpu]
    split
    · unfold Part.openPage
      simp only [Part.storePage_frame, Part.modRpu_fields, Part.storePage, Part.store_fields]
      exact hr _ _ _ rfl
    · exact hr _ _ _ rfl
  unfold Part.handOutcome
  dsimp only
  split
  · unfold Part.fillPage
    dsimp only
    split
    · rw [hc]; simp [Part.storePage]
    · simp [Part.storePage]
  · simp only [Part.rewrite_rpu]
    unfold Part.dropOutcome
    dsimp only
    split
    · exact hr _ _ _ rfl
    · simp [Part.storeDropped]

/-- R187: what a dropped outcome leaves. -/
theorem Part.handOutcome_drops (p : Part) (kind : Byte) (body : List Byte) (hp : p.fillingPage = none) :
    p.handsOver (p.handOutcome kind body) kind body := by
  obtain ⟨A, hA⟩ : ∃ A, A = ((p.modRpu fun u => { u with outcomeNumber := u.outcomeNumber + 1 }).modRpu fun u =>
    { u with dropped := inc32 u.dropped, dropping := true }).storeDropped := ⟨_, rfl⟩
  have he : p.handOutcome kind body = (if (!p.rpu.dropping) = true then A.raise .dropping else A).rewrite .rpu := by
    unfold Part.handOutcome
    dsimp only
    rw [show (p.modRpu fun u => { u with outcomeNumber := u.outcomeNumber + 1 }).fillingPage = p.fillingPage from
      Part.fillingPage_congr rfl, hp, hA]
    rfl
  have hAr : A.rpu = { p.rpu with
      outcomeNumber := p.rpu.outcomeNumber + 1, dropped := inc32 p.rpu.dropped, dropping := true } := by rw [hA]; rfl
  have hAm : Memory.read A.mem 0x000C 4 = leBytes 4 (inc32 p.rpu.dropped) := by
    rw [hA]; exact Memory.read_write _ _ _ _ (leBytes_length _ _)
  have hAn : A.now = p.now := by rw [hA]; rfl
  have hm : Memory.storesOnly A.mem (p.handOutcome kind body).mem [.bulletin 8, .mirror .rpu] := by
    rw [he]
    refine Part.rewrite_stores _ _ (by simp) ?_
    split
    · exact Part.raise_stores _ _ _ (by simp [News.bulletin]) (Memory.storesOnly_refl _ _)
    · exact Memory.storesOnly_refl _ _
  have hr : (p.handOutcome kind body).rpu.book = A.rpu.book ∧
      (p.handOutcome kind body).rpu.bulletins = announced p.rpu.bulletins p.now (if p.rpu.dropping then [] else [(.dropping, 0)]) := by
    rw [he]
    cases hd : p.rpu.dropping
    · simp only [Bool.not_false, if_true, Bool.false_eq_true, if_false]
      refine ⟨rfl, ?_⟩
      rw [← hAn, show p.rpu.bulletins = A.rpu.bulletins by rw [hAr]]
      rfl
    · simp only [Bool.not_true, if_true, Bool.false_eq_true, if_false]
      refine ⟨rfl, ?_⟩
      rw [announced_nil]
      show A.rpu.bulletins = _
      rw [hAr]
  have hn : (p.handOutcome kind body).now = p.now := by simp [Part.now]
  have hread := (Memory.read_dropped _ hm (by simp)).trans hAm
  obtain ⟨hb, hu⟩ := hr
  rw [hAr] at hb
  simp only [Rpu.book, Prod.mk.injEq] at hb
  obtain ⟨b1, b2, b3, b4, b5, b6, b7⟩ := hb
  unfold Part.handsOver
  rw [hp]
  dsimp only
  exact ⟨b1, b2, b4, b5, b6, b3, hread.trans (by rw [b3]), b7, by rw [hu, hn]⟩

/-- R186: what an outcome written into page `i` leaves. -/
theorem Part.handOutcome_fills (p : Part) (kind : Byte) (body : List Byte) (hb : body.length = 24) (i : Fin 8)
    (hp : p.fillingPage = some i) (hk : p.rpu.pages[i].count < 32) : p.handsOver (p.handOutcome kind body) kind body := by
  obtain ⟨S, hS⟩ : ∃ S, S = (p.modRpu fun u => { u with outcomeNumber := u.outcomeNumber + 1 }).store
    (recordBase i p.rpu.pages[i].count) ([kind, 0] ++ leBytes 2 ((p.rpu.outcomeNumber + 1).toNat % 65536) ++
      leBytes 4 (Time.low p.now).toNat ++ body) := ⟨_, rfl⟩
  obtain ⟨B, hB⟩ : ∃ B, B = (S.modRpu fun u =>
      { u with pages := modAt u.pages i fun g =>
                 { g with count := p.rpu.pages[i].count + 1, last := Time.low p.now
                          first := if p.rpu.pages[i].count = 0 then Time.low p.now else g.first }
               ageDeadline := if p.rpu.pages[i].count = 0 then some (p.now + 2000000) else u.ageDeadline }).storePage i :=
    ⟨_, rfl⟩
  have he : p.handOutcome kind body =
      if p.rpu.pages[i].count + 1 = 32 then B.closePage i .count else B.rewrite .rpu := by
    unfold Part.handOutcome
    dsimp only
    rw [show (p.modRpu fun u => { u with outcomeNumber := u.outcomeNumber + 1 }).fillingPage = p.fillingPage from
      Part.fillingPage_congr rfl, hp, hB, hS]
    rfl
  have hBr : B.rpu = { p.rpu with
      outcomeNumber := p.rpu.outcomeNumber + 1
      pages := p.rpu.pages.set i { p.rpu.pages[i] with
        count := p.rpu.pages[i].count + 1, last := Time.low p.now
        first := if p.rpu.pages[i].count = 0 then Time.low p.now else p.rpu.pages[i].first }
      ageDeadline := if p.rpu.pages[i].count = 0 then some (p.now + 2000000) else p.rpu.ageDeadline } := by
    rw [hB, hS]; rfl
  have hBn : B.now = p.now := by rw [hB, hS]; rfl
  have hBe : Memory.read B.mem (entryBase i) 16 = B.rpu.pages[i].bytes := by
    rw [hB]; exact Memory.read_write _ _ _ _ (Page.bytes_length _)
  have hSm : Memory.read S.mem (recordBase i p.rpu.pages[i].count) 32 =
      [kind, 0] ++ leBytes 2 ((p.rpu.outcomeNumber + 1).toNat % 65536) ++ leBytes 4 (Time.low p.now).toNat ++ body := by
    rw [hS]; exact Memory.read_write _ _ _ _ (by simp [hb])
  have hSB : Memory.storesOnly S.mem B.mem [.entry i] := by
    rw [hB]; exact Part.storePage_stores _ _ (by simp) (Memory.storesOnly_refl _ _)
  have hrec : ∀ Q : Part, Memory.storesOnly B.mem Q.mem [.entry i, .entry (i + 1), .bulletin 8, .mirror .rpu] →
      Memory.read Q.mem (recordBase i p.rpu.pages[i].count) (8 + body.length) =
        [kind, 0] ++ leBytes 2 ((p.rpu.outcomeNumber + 1).toNat % 65536) ++ leBytes 4 (Time.low p.now).toNat ++ body := by
    intro Q hQ
    rw [hb, show 8 + 24 = 32 from rfl, Memory.read_record i _ hk _ 32 (Nat.le_refl _) hQ (by simp),
      Memory.read_record i _ hk _ 32 (Nat.le_refl _) hSB (by simp), hSm]
  have hset : ∀ (v : Vector Page 8) (x y : Page), (v.set i x).set i y = v.set i y := by
    intro v x y; simp
  unfold Part.handsOver
  rw [hp]
  dsimp only
  by_cases h32 : p.rpu.pages[i].count + 1 = 32
  · rw [if_pos h32] at he
    obtain ⟨⟨c1, c2⟩, _, _, c4⟩ := Part.closePage_closes B i .count
    have hn : (B.closePage i .count).now = p.now := by simp only [Part.now, Part.closePage_frame]; exact hBn
    have hafter : B.rpu.pages[(i + 1).val] = p.rpu.pages[(i + 1).val] := by
      rw [hBr]; dsimp only; rw [Vector.getElem_set_ne _ _ fun h => page_after_ne i h.symm]
    have hin : B.rpu.pages[i] = { p.rpu.pages[i] with
        count := p.rpu.pages[i].count + 1, last := Time.low p.now
        first := if p.rpu.pages[i].count = 0 then Time.low p.now else p.rpu.pages[i].first } := by
      rw [hBr]; simp
    simp only [Fin.getElem_fin] at hin
    have hmem := hrec _ c4
    rw [he]
    simp only [Fin.getElem_fin, hafter, hin] at c1
    rw [hn] at c1
    simp only [Fin.getElem_fin] at hBr h32 hmem c2 ⊢
    rw [hn]
    have c1' : ∀ {α : Type} (f : Rpu → α), f (B.closePage i .count).rpu = f _ := fun f => congrArg f c1
    refine ⟨(c1' (·.outcomeNumber)).trans (by rw [hBr]), ?_, c2, (c1' (·.dropped)).trans (by rw [hBr]), fun h => absurd h32 h,
      fun _ => ⟨(c1' (·.pages)).trans ?_, (c1' (·.lastPageSeq)).trans (by rw [hBr]), (c1' (·.dropping)).trans (by rw [hBr]),
        c1' (·.nextPage), c1' (·.ageDeadline), (c1' (·.bulletins[8])).trans (by rw [hBr]; rfl)⟩⟩
    · rw [(c1' (·.outcomeNumber)).trans (by rw [hBr] : _ = p.rpu.outcomeNumber + 1)]; exact hmem
    · rw [hBr]; simp only [hset]
  · rw [if_neg h32] at he
    rw [he]
    have hw : (B.rewrite .rpu).rpu.book = B.rpu.book ∧ (B.rewrite .rpu).rpu.bulletins = B.rpu.bulletins := ⟨rfl, rfl⟩
    obtain ⟨hbk, hbu⟩ := hw
    have hn : (B.rewrite .rpu).now = p.now := hBn
    rw [hBr] at hbk hbu
    simp only [Rpu.book, Prod.mk.injEq] at hbk
    obtain ⟨b1, b2, b3, b4, b5, b6, b7⟩ := hbk
    have hwm : Memory.storesOnly B.mem (B.rewrite .rpu).mem [.mirror .rpu] :=
      Part.rewrite_stores _ _ (by simp) (Memory.storesOnly_refl _ _)
    rw [hn]
    refine ⟨b1, ?_, ?_, b3, fun _ => ⟨b2, b4, b7, b5, b6, by rw [hbu]; rfl⟩, fun h => absurd h h32⟩
    · rw [b1]; exact hrec _ (Memory.storesOnly_mono hwm (by simp))
    · rw [Memory.read_entry i _ hwm (by simp), hBe, hBr, b2]

/-- R186, R187: what an outcome handed over leaves. -/
theorem Part.handOutcome_hands (p : Part) (kind : Byte) (body : List Byte) (hb : body.length = 24) (hr : p.roomy) :
    p.handsOver (p.handOutcome kind body) kind body := by
  cases hp : p.fillingPage with
  | none => exact p.handOutcome_drops kind body hp
  | some i => exact p.handOutcome_fills kind body hb i hp (hr i hp)

/-- A record handed over, seen from before what goes before it and after what comes after it. -/
theorem Part.handsOver_between {p A H q : Part} {l l' : Tidings} {k k' : List Area} {kind : Byte} {body : List Byte}
    (hb : body.length = 24) (hA : p.Plain A l k) (h : A.handsOver H kind body) (hq : H.Plain q l' k') (hr : p.roomy)
    (hk : ∀ x ∈ k', x.besideRecords) : p.handsOver q kind body := by
  have hx := fun x hx => (hk x hx).apart
  have hm := hq.stores _ _ (fun _ h => h) (Memory.storesOnly_refl H.mem k')
  have hn : q.now = H.now := hq.time
  have e1 := hA.book
  have e2 := hq.book
  simp only [Rpu.book, Prod.mk.injEq] at e1 e2
  obtain ⟨a1, a2, a3, a4, a5, a6, a7⟩ := e1
  obtain ⟨b1, b2, b3, b4, b5, b6, b7⟩ := e2
  have ht : ∀ t : Tidings, (announced A.rpu.bulletins q.now t)[8] = (announced p.rpu.bulletins q.now t)[8] := fun t =>
    announced_get _ t 8 hA.outcomes
  unfold Part.handsOver at h ⊢
  rw [Part.fillingPage_congr a2] at h
  dsimp only at h ⊢
  simp only [ht, a1, a2, a3, a4, a5, a6, a7, ← b1, ← b2, ← b3, ← b4, ← b5, ← b6, ← b7, ← hq.outcomes, ← hn] at h
  refine ⟨h.1, ?_⟩
  have h2 := h.2
  cases hp : p.fillingPage with
  | none =>
    rw [hp] at h2
    obtain ⟨c1, c2, c3, c4, c5, c6, c7⟩ := h2
    exact ⟨c1, c2, c3, c4, c5, (Memory.read_dropped _ hm fun x h => (hx x h).2.2).trans c6, c7⟩
  | some i =>
    rw [hp] at h2
    obtain ⟨c1, c2, c3⟩ := h2
    exact ⟨(Memory.read_record i _ (hr i hp) _ _ (by omega) hm fun x h => (hx x h).1).trans c1,
      (Memory.read_entry i _ hm fun x h => (hx x h).2.1 i).trans c2, c3⟩

/-- A record handed over between what goes before it and what comes after. -/
theorem Part.records_of {p A q : Part} {l l' : Tidings} {k k' : List Area} (kind : Byte) (body : List Byte)
    (hb : body.length = 24) (hA : p.Plain A l k) (hq : (A.handOutcome kind body).Plain q l' k')
    (hk : ∀ x ∈ k', x.besideRecords) : p.records q kind body (l ++ l') (k ++ k') := by
  have hz : (A.handOutcome kind body).mtu.time = A.mtu.time := by simp
  have hn : q.now = p.now := hq.time.trans (hz.trans hA.time)
  have hfp := Part.fillingPage_congr hA.pages
  have hoa := Part.outcomeAreas_congr hA.pages
  refine ⟨fun hr => ?_, ⟨?_, ?_⟩, ?_⟩
  · have hrA : A.roomy := fun i hi => by rw [hA.pages]; exact hr i (hfp ▸ hi)
    exact Part.handsOver_between hb hA (A.handOutcome_hands kind body hb hrA) hq hr hk
  · intro b hb8
    have e1 := hq.bulletins b hb8
    have hzn : (A.handOutcome kind body).now = p.now := hz.trans hA.time
    rw [e1, hzn, hn, announced_get p.now l' b ((Part.handOutcome_board A kind body b hb8).trans (hA.bulletins b hb8)),
      announced_append]
  · refine ⟨?_, ?_, ?_, ?_⟩
    · rw [hq.kept.1, show (A.handOutcome kind body).rpu.threshold = A.rpu.threshold by simp, hA.kept.1]
    · rw [hq.kept.2.1, show (A.handOutcome kind body).rpu.phase = A.rpu.phase by simp, hA.kept.2.1]
    · rw [hq.kept.2.2.1, show (A.handOutcome kind body).rpu.lineResetBusy = A.rpu.lineResetBusy by simp, hA.kept.2.2.1]
    · rw [hq.kept.2.2.2, show (A.handOutcome kind body).rpu.busData = A.rpu.busData by simp, hA.kept.2.2.2]
  · refine hq.stores _ _ (fun x hx => by simp [hx]) ?_
    refine Part.handOutcome_stores A kind body hb (fun x hx => by rw [hoa] at hx; simp [hx]) ?_
    exact hA.stores _ _ (fun x hx => by simp [hx]) (Memory.storesOnly_refl _ _)

/-- The same with the changes and the areas as a statement lists them. -/
theorem Part.records_as {p A q : Part} {l l' t : Tidings} {k k' j : List Area} (kind : Byte) (body : List Byte)
    (hb : body.length = 24) (hA : p.Plain A l k) (hq : (A.handOutcome kind body).Plain q l' k')
    (hk : ∀ x ∈ k', x.besideRecords) (ht : t = l ++ l') (hj : k ++ k' ⊆ j) : p.records q kind body t j := by
  subst ht
  obtain ⟨h1, h2, h3⟩ := Part.records_of kind body hb hA hq hk
  refine ⟨h1, h2, Memory.storesOnly_mono h3 ?_⟩
  intro x hx
  rcases List.mem_append.mp hx with h | h
  · exact List.mem_append_left _ h
  · exact List.mem_append_right _ (hj h)

end Sys2Proof.Machine
end

