-- ==== Sys2Proof/Laws/Sockets.lean ====
section
/-! SUPPORT. One port changed, and every port changed one after another: hall hold and release (R130, R131), the open and
close requests of a zone (R132, R133). -/

set_option linter.unusedSimpArgs false

namespace Sys2Proof.Machine

@[simp] theorem Spm.put_get (b : Spm) (i : Fin 16) (k : Port) : (b.put i k).ports[i.val] = k := by simp [Spm.put]
@[simp] theorem Spm.put_put (b : Spm) (i : Fin 16) (k l : Port) : (b.put i k).put i l = b.put i l := by simp [Spm.put]
@[simp] theorem Spm.put_self (b : Spm) (i : Fin 16) : b.put i b.ports[i.val] = b := by simp [Spm.put]
@[simp] theorem Spm.put_hallHold (b : Spm) (i : Fin 16) (k : Port) : (b.put i k).hallHold = b.hallHold := rfl

theorem Part.modPort_spm (p : Part) (i : Fin 16) (f : Port → Port) :
    (p.modPort i f).spm = p.spm.put i (f p.spm.ports[i.val]) := rfl

/-- The ports, their mirror record and nothing else changed. -/
structure Part.PortsOnly (p q : Part) : Prop where
  mtu : q.mtu = p.mtu
  cvt : q.cvt = p.cvt
  trl : q.trl = p.trl
  rbp : q.rbp = p.rbp
  ctu : q.ctu = p.ctu
  rej : q.rej = p.rej
  sac : q.sac = p.sac
  odk : q.odk = p.odk
  syncLine : q.syncLine = p.syncLine
  lrst : q.lrst = p.lrst
  freeCount : q.freeCount = p.freeCount
  hall : q.spm.hallHold = p.spm.hallHold
  rest : q.rpu.rest = p.rpu.rest
  bulletins : q.rpu.bulletins = p.rpu.bulletins
  fault : q.rpu.fault = p.rpu.fault
  stores : ∀ (m : Memory) (l : List Area), .mirror .spm ∈ l → m.storesOnly p.mem l → m.storesOnly q.mem l

theorem Part.PortsOnly.refl (p : Part) : p.PortsOnly p :=
  ⟨rfl, rfl, rfl, rfl, rfl, rfl, rfl, rfl, rfl, rfl, rfl, rfl, rfl, rfl, rfl, fun _ _ _ h => h⟩

theorem Part.PortsOnly.trans {p q r : Part} (h : p.PortsOnly q) (k : q.PortsOnly r) : p.PortsOnly r :=
  ⟨k.mtu.trans h.mtu, k.cvt.trans h.cvt, k.trl.trans h.trl, k.rbp.trans h.rbp, k.ctu.trans h.ctu, k.rej.trans h.rej,
   k.sac.trans h.sac, k.odk.trans h.odk, k.syncLine.trans h.syncLine, k.lrst.trans h.lrst,
   k.freeCount.trans h.freeCount, k.hall.trans h.hall, k.rest.trans h.rest, k.bulletins.trans h.bulletins,
   k.fault.trans h.fault, fun m l hl hm => k.stores m l hl (h.stores m l hl hm)⟩

theorem Part.PortsOnly.rewrite {p q : Part} (h : p.PortsOnly q) : p.PortsOnly (q.rewrite .spm) :=
  h.trans ⟨rfl, rfl, rfl, rfl, rfl, rfl, rfl, rfl, rfl, rfl, rfl, rfl, rfl, rfl, rfl,
    fun _ _ hl hm => Part.rewrite_stores _ _ hl hm⟩

theorem Part.PortsOnly.modPort {p q : Part} (h : p.PortsOnly q) (i : Fin 16) (f : Port → Port) :
    p.PortsOnly (q.modPort i f) :=
  h.trans ⟨rfl, rfl, rfl, rfl, rfl, rfl, rfl, rfl, rfl, rfl, rfl, rfl, rfl, rfl, rfl, fun _ _ _ h => h⟩

theorem Part.PortsOnly.now {p q : Part} (h : p.PortsOnly q) : q.now = p.now := congrArg Mtu.time h.mtu

theorem Part.PortsOnly.plain {p q : Part} (h : p.PortsOnly q) : p.Plain q [] [.mirror .spm] where
  time := congrArg Mtu.time h.mtu
  book := Rpu.of_rest h.rest Rpu.book fun _ => rfl
  outcomes := by rw [h.bulletins]
  bulletins := fun b _ => by rw [h.bulletins]; rfl
  kept := ⟨Rpu.of_rest h.rest (·.threshold) fun _ => rfl, Rpu.of_rest h.rest (·.phase) fun _ => rfl,
    Rpu.of_rest h.rest (·.lineResetBusy) fun _ => rfl, Rpu.of_rest h.rest (·.busData) fun _ => rfl⟩
  stores := fun _ _ hj hm => h.stores _ _ (hj (by simp)) hm

/-- The port after its admission has changed to `a` (R137). -/
def Port.admitted (k : Port) (a : Admission) (now : Time) : Port :=
  if k.admission = a then k else k.supervise { k with admission := a } now

theorem Port.admitted_shut (k : Port) (now : Time) (a : Admission) (h : k.admission ≠ a) (ha : a ≠ .opened) :
    k.admitted a now = { k with admission := a, deadline := none } := by
  unfold Port.admitted Port.supervise Port.supervised
  rw [if_neg h]
  cases a <;> simp_all

theorem Port.admitted_opened (k : Port) (now : Time) (h : k.admission ≠ .opened) :
    k.admitted .opened now =
      { k with admission := .opened, deadline := if k.link then some (now + ms k.limit) else none } := by
  unfold Port.admitted Port.supervise Port.supervised
  rw [if_neg h]
  cases hl : k.link <;> simp [hl, h]

/-- The admission of one port changes. -/
theorem Part.setAdmission_spm (p : Part) (i : Fin 16) (a : Admission) :
    (p.setAdmission i a).spm = p.spm.put i (p.spm.ports[i.val].admitted a p.now) := by
  unfold Part.setAdmission Port.admitted
  simp only [Fin.getElem_fin]
  split
  · exact (Spm.put_self _ _).symm
  · rfl

theorem Part.setAdmission_only (p : Part) (i : Fin 16) (a : Admission) : p.PortsOnly (p.setAdmission i a) := by
  unfold Part.setAdmission
  split
  · exact .refl p
  · exact ((Part.PortsOnly.refl p).modPort i _).rewrite

/-! ## Every port -/

/-- A walk over the ports, each step changing its port as `g` says. -/
theorem ports_walk (g : Port → Port) (f : Part → Fin 16 → Part) (p : Part)
    (ho : ∀ q i, p.PortsOnly q → q.PortsOnly (f q i))
    (hs : ∀ q i, p.PortsOnly q → (f q i).spm = q.spm.put i (g q.spm.ports[i.val])) (l : List (Fin 16)) (hl : l.Nodup) :
    p.PortsOnly (l.foldl f p) ∧
    ∀ i : Fin 16, (l.foldl f p).spm.ports[i.val] = if i ∈ l then g p.spm.ports[i.val] else p.spm.ports[i.val] := by
  have key : ∀ (l : List (Fin 16)) (q : Part), l.Nodup → p.PortsOnly q → p.PortsOnly (l.foldl f q) ∧
      ∀ i : Fin 16, (l.foldl f q).spm.ports[i.val] = if i ∈ l then g q.spm.ports[i.val] else q.spm.ports[i.val] := by
    intro l
    induction l with
    | nil => intro q _ hq; exact ⟨hq, fun i => by simp⟩
    | cons a l ih =>
      intro q hn hq
      rw [List.foldl_cons]
      obtain ⟨ha, hn⟩ := List.nodup_cons.mp hn
      obtain ⟨h1, h2⟩ := ih (f q a) hn (hq.trans (ho q a hq))
      refine ⟨h1, fun i => ?_⟩
      rw [h2 i, hs q a hq]
      by_cases hi : i = a
      · subst hi; simp [ha]
      · have hv : a.val ≠ i.val := fun e => hi (Fin.ext e.symm)
        simp [hi, Spm.put, Vector.getElem_set, hv]
  exact key l p hl (.refl p)

/-- A walk over all sixteen ports. -/
theorem sixteens_walk (g : Port → Port) (f : Part → Fin 16 → Part) (p : Part)
    (ho : ∀ q i, p.PortsOnly q → q.PortsOnly (f q i))
    (hs : ∀ q i, p.PortsOnly q → (f q i).spm = q.spm.put i (g q.spm.ports[i.val])) :
    p.PortsOnly (sixteens.foldl f p) ∧ (sixteens.foldl f p).spm = { p.spm with ports := p.spm.ports.map g } := by
  obtain ⟨h1, h2⟩ := ports_walk g f p ho hs sixteens (by decide)
  refine ⟨h1, ?_⟩
  have hall := h1.hall
  have hp : (sixteens.foldl f p).spm.ports = p.spm.ports.map g := by
    apply Vector.ext
    intro i hi
    have := h2 ⟨i, hi⟩
    rw [if_pos ((by decide : ∀ i : Fin 16, i ∈ sixteens) _)] at this
    simpa using this
  cases hx : (sixteens.foldl f p).spm
  rw [hx] at hall hp
  simp only at hall hp
  rw [hall, hp]

/-- R133: the close request of a zone. -/
theorem Part.closeZonePorts_eq (p : Part) (z : Fin 8) :
    p.PortsOnly (p.closeZonePorts z) ∧ (p.closeZonePorts z).spm = p.spm.shut z := by
  unfold Part.closeZonePorts Spm.shut
  refine sixteens_walk _ _ p ?_ ?_
  · intro q i _
    unfold Part.closeZonePort
    split
    · split
      · exact q.setAdmission_only i _
      · exact q.setAdmission_only i _
      · exact .refl q
      · exact .refl q
    · exact .refl q
  · intro q i _
    unfold Part.closeZonePort
    simp only [Fin.getElem_fin]
    by_cases hr : q.spm.ports[i.val].role = .service z
    · rw [if_pos hr]
      cases ha : q.spm.ports[i.val].admission <;> simp only [hr, ha, true_and, reduceCtorEq, or_false, or_true, false_or,
        if_true, if_false, or_self, and_false, Spm.put_self]
      · rw [Part.setAdmission_spm, Port.admitted_shut _ _ _ (by rw [ha]; decide) (by decide), hr]
      · rw [Part.setAdmission_spm, Port.admitted_shut _ _ _ (by rw [ha]; decide) (by decide), hr]
    · rw [if_neg hr, if_neg (fun h => hr h.1)]; exact (Spm.put_self _ _).symm

/-- R132: the open request of a zone none of whose sockets is QUARANTINED. -/
theorem Part.openZonePorts_eq (p : Part) (z : Fin 8)
    (hq : ∀ i : Fin 16, p.spm.ports[i].role = .service z → p.spm.ports[i].admission ≠ .quarantined) :
    p.PortsOnly (p.openZonePorts z) ∧ (p.openZonePorts z).spm = p.spm.unlock z p.now := by
  -- the walk does not quarantine a port: it is enough to look at what each step finds
  let f : Part → Fin 16 → Part := fun q i =>
    if q.spm.ports[i].role = .service z then
      match q.spm.ports[i].admission with
      | .closed => q.setAdmission i (q.opening i)
      | _ => q
    else q
  have hw : p.PortsOnly (sixteens.foldl f p) ∧ (sixteens.foldl f p).spm = p.spm.unlock z p.now := by
    unfold Spm.unlock
    refine sixteens_walk _ _ p ?_ ?_
    · intro q i _
      simp only [f]
      split
      · split
        · exact q.setAdmission_only i _
        · exact .refl q
      · exact .refl q
    · intro q i hpq
      simp only [f, Fin.getElem_fin]
      by_cases hr : q.spm.ports[i.val].role = .service z
      · rw [if_pos hr]
        cases ha : q.spm.ports[i.val].admission <;> simp only [hr, ha, true_and, reduceCtorEq, if_true, if_false, Spm.put_self]
        rw [Part.setAdmission_spm]
        unfold Part.opening
        rw [hpq.hall, hpq.now, Fin.getElem_fin, hr]
        cases hh : p.spm.hallHold
        · simp only [Bool.false_and, Bool.false_eq_true, if_false]
          rw [Port.admitted_opened _ _ (by rw [ha]; decide), hr]
        · simp only [Bool.true_and, if_true]
          rw [if_pos (by simp), Port.admitted_shut _ _ _ (by rw [ha]; decide) (by decide), hr]
      · rw [if_neg hr, if_neg (fun h => hr h.1)]; exact (Spm.put_self _ _).symm
  have hgen : ∀ (l : List (Fin 16)) (q : Part),
      (∀ i : Fin 16, q.spm.ports[i].role = .service z → q.spm.ports[i].admission ≠ .quarantined) →
      l.foldl (fun p i => p.openZonePort z i) q = l.foldl f q := by
    intro l
    induction l with
    | nil => intro q _; rfl
    | cons a l ih =>
      intro q hq
      rw [List.foldl_cons, List.foldl_cons]
      have h1 : q.openZonePort z a = f q a := by
        unfold Part.openZonePort
        simp only [f]
        split
        · rename_i hr
          have := hq a hr
          cases ha : q.spm.ports[a].admission <;> first | rfl | exact absurd ha this
        · rfl
      rw [h1]
      apply ih
      intro i
      have hf : f q a = q ∨ f q a = q.setAdmission a (q.opening a) := by
        simp only [f]
        split
        · split
          · exact Or.inr rfl
          · exact Or.inl rfl
        · exact Or.inl rfl
      have hfs : (f q a).spm.ports[i.val].role = q.spm.ports[i.val].role ∧
          ((f q a).spm.ports[i.val].admission = .quarantined → q.spm.ports[i.val].admission = .quarantined) := by
        rcases hf with hf | hf
        · rw [hf]; exact ⟨rfl, id⟩
        · rw [hf, Part.setAdmission_spm]
          by_cases hi : a = i
          · subst hi
            have hne : q.opening a ≠ .quarantined := by unfold Part.opening; split <;> decide
            simp only [Spm.put_get]
            unfold Port.admitted Port.supervise
            split
            · exact ⟨rfl, id⟩
            · split
              · split
                · exact ⟨rfl, fun h => absurd h hne⟩
                · exact ⟨rfl, fun h => absurd h hne⟩
              · exact ⟨rfl, fun h => absurd h hne⟩
          · have hv : a.val ≠ i.val := fun e => hi (Fin.ext e)
            simp [Spm.put, Vector.getElem_set, hv]
      exact fun hr hq2 => hq i (hfs.1.symm.trans hr) (hfs.2 hq2)
  have : p.openZonePorts z = sixteens.foldl f p := hgen sixteens p hq
  rw [this]; exact hw

end Sys2Proof.Machine
end

