-- ==== Sys2Proof/Laws/Granting.lean ====
section
/-! SUPPORT. What a zone's grant, sealing and refusal do (R146 to R158): the cameras' service flags, DOOR_REL, the
sockets, the outcome record. -/

set_option linter.unusedSimpArgs false

namespace Sys2Proof.Machine

/-! ## The service flag of a camera changes only where it is asked -/

theorem fold_zoneService {α : Type} (l : List α) (f : Part → α → Part) (p : Part) (k : Fin 6)
    (h : ∀ p a, (f p a).ctu.cameras[k.val].zoneService = p.ctu.cameras[k.val].zoneService) :
    (l.foldl f p).ctu.cameras[k.val].zoneService = p.ctu.cameras[k.val].zoneService :=
  fold_keep (fun p => p.ctu.cameras[k.val].zoneService) l f p h

@[simp] theorem Part.noVerdict_zoneService (p : Part) (seq : Word) (c k : Fin 6) :
    (p.noVerdict seq c).ctu.cameras[k.val].zoneService = p.ctu.cameras[k.val].zoneService := by
  unfold Part.noVerdict Part.countCamera; simp

@[simp] theorem Part.emptyAwaiting_zoneService (p : Part) (c k : Fin 6) :
    (p.emptyAwaiting c).ctu.cameras[k.val].zoneService = p.ctu.cameras[k.val].zoneService := by
  unfold Part.emptyAwaiting; dsimp only; rw [fold_zoneService _ _ _ _ (fun _ _ => by simp)]; simp

@[simp] theorem Part.gainMissed_zoneService (p : Part) (c k : Fin 6) :
    (p.gainMissed c).ctu.cameras[k.val].zoneService = p.ctu.cameras[k.val].zoneService := by
  unfold Part.gainMissed Part.degrade; dsimp only; (repeat' split) <;> simp

theorem Part.makeRoom_keep {β : Type} (π : Part → β) (c : Fin 6) (seq : Word)
    (h : ∀ p l, π (p.modCamera c fun k => { k with awaiting := l }) = π p) (hv : ∀ p s, π (Part.noVerdict p s c) = π p)
    (hr : ∀ p : Part, π (p.raise .awaitFull (BitVec.ofNat 8 c.val)) = π p) (hg : ∀ p : Part, π (p.gainMissed c) = π p)
    (n : Nat) (first : Bool) (p : Part) : π (Part.makeRoom n first p c seq) = π p := by
  induction n generalizing first p with
  | zero => rfl
  | succ n ih => unfold Part.makeRoom; dsimp only; (repeat' split) <;> simp [ih, h, hv, hr, hg]

@[simp] theorem Part.makeRoom_zoneService (n : Nat) (first : Bool) (p : Part) (c : Fin 6) (seq : Word) (k : Fin 6) :
    (Part.makeRoom n first p c seq).ctu.cameras[k.val].zoneService = p.ctu.cameras[k.val].zoneService :=
  Part.makeRoom_keep (fun p => p.ctu.cameras[k.val].zoneService) c seq (fun _ _ => by simp) (fun _ _ => by simp)
    (fun _ => by simp) (fun _ => by simp) n first p

@[simp] theorem Part.happen_zoneService (p : Part) (c k : Fin 6) :
    (p.happen c).ctu.cameras[k.val].zoneService = p.ctu.cameras[k.val].zoneService := by
  unfold Part.happen Part.joinAwaiting; dsimp only; (repeat' split) <;> simp

@[simp] theorem Part.takeFire_zoneService (p : Part) (c : Fin 6) (seq : Word) (k : Fin 6) :
    (p.takeFire c seq).ctu.cameras[k.val].zoneService = p.ctu.cameras[k.val].zoneService := by
  unfold Part.takeFire Part.fallDue Part.setFireTime; dsimp only; (repeat' split) <;> simp

@[simp] theorem Part.cameraChanged_zoneService (p : Part) (c : Fin 6) (before : CameraState) (k : Fin 6) :
    (p.cameraChanged c before).ctu.cameras[k.val].zoneService = p.ctu.cameras[k.val].zoneService := by
  unfold Part.cameraChanged; dsimp only
  (repeat' split) <;> (try rw [fold_zoneService _ _ _ _ (fun _ _ => by simp)]) <;> simp

theorem Part.zoneService_flag (p : Part) (c : Fin 6) (on : Bool) (k : Fin 6) :
    (p.zoneService c on).ctu.cameras[k.val].zoneService =
      if k = c ∧ p.cameraState c ≠ .off then on else p.ctu.cameras[k.val].zoneService := by
  unfold Part.zoneService Part.setCameraFlags
  by_cases ho : p.cameraState c = .off
  · simp [ho]
  · by_cases hs : p.ctu.cameras[c].zoneService = on
    · rw [if_pos (Or.inr hs)]
      split
      · rename_i h; rw [h.1]; exact hs
      · rfl
    · rw [if_neg (by simp only [ho, hs, or_self, not_false_eq_true])]
      dsimp only
      simp only [Part.rewrite_frame, Part.cameraChanged_zoneService]
      by_cases hk : k = c
      · subst hk; simp [ho]
      · have : c.val ≠ k.val := fun e => hk (Fin.ext e.symm)
        simp [hk, Part.modCamera, Part.modCtu, modAt, this]

theorem Part.cameraState_off (p : Part) (c : Fin 6) : p.cameraState c = .off ↔ p.cameraPresent c = false := by
  unfold Part.cameraState; (repeat' split) <;> simp_all

theorem Part.cameraState_off_congr {p q : Part} (h : q.cvt = p.cvt) (c : Fin 6) :
    q.cameraState c = .off ↔ p.cameraState c = .off := by
  rw [Part.cameraState_off, Part.cameraState_off]; unfold Part.cameraPresent Part.cameraSettings; rw [h]

theorem Part.zoneHasCamera_congr {p q : Part} (h : q.cvt = p.cvt) (z : Fin 8) (c : Fin 6) :
    q.zoneHasCamera z c = p.zoneHasCamera z c := by
  unfold Part.zoneHasCamera Part.zoneMap; rw [h]

theorem Part.zoneServiceMember_flag (p : Part) (z : Fin 8) (on : Bool) (c k : Fin 6) :
    (p.zoneServiceMember z on c).ctu.cameras[k.val].zoneService =
      if k = c ∧ p.zoneHasCamera z c = true ∧ p.cameraState c ≠ .off then on
      else p.ctu.cameras[k.val].zoneService := by
  unfold Part.zoneServiceMember
  split
  · rename_i h; rw [Part.zoneService_flag]; simp [h]
  · rename_i h; simp [h]

theorem mem_sixes (c : Fin 6) : c ∈ sixes := by revert c; decide

/-- R146, R147: the request sets the flag of every member that is not OFF. -/
theorem Part.zoneServiceAll_sets (p : Part) (z : Fin 8) (on : Bool) : (p.zoneServiceAll z on).camerasAre z on := by
  intro c hm ho
  have hw : ∀ (l : List (Fin 6)) (q : Part), q.cvt = p.cvt →
      (c ∈ l ∨ q.ctu.cameras[c.val].zoneService = on) →
      (l.foldl (fun q c => q.zoneServiceMember z on c) q).ctu.cameras[c.val].zoneService = on := by
    intro l
    induction l with
    | nil => intro q _ h; simpa using h
    | cons a l ih =>
      intro q hq h
      rw [List.foldl_cons]
      apply ih _ (by simp [hq])
      rw [Part.zoneServiceMember_flag]
      by_cases ha : c = a
      · right
        subst ha
        rw [if_pos]
        refine ⟨rfl, ?_, ?_⟩
        · rw [Part.zoneHasCamera_congr hq, ← hm]; exact (Part.zoneHasCamera_congr (by simp) _ _).symm
        · rw [ne_eq, Part.cameraState_off_congr hq]
          rw [ne_eq, Part.cameraState_off_congr (q := p.zoneServiceAll z on) (p := p) (by simp)] at ho; exact ho
      · rcases h with h | h
        · rcases List.mem_cons.mp h with h | h
          · exact absurd h ha
          · left; exact h
        · right; rw [if_neg (fun e => ha e.1)]; exact h
  exact hw sixes p rfl (Or.inl (mem_sixes c))

/-- R146, R147: a request that finds every flag as asked changes nothing. -/
theorem Part.zoneServiceAll_same (p : Part) (z : Fin 8) (on : Bool) (h : p.camerasAre z on) :
    p.zoneServiceAll z on = p := by
  unfold Part.zoneServiceAll
  apply fold_fix
  intro c
  unfold Part.zoneServiceMember Part.zoneService
  split
  · rename_i hm
    rw [if_pos]
    by_cases ho : p.cameraState c = .off
    · exact Or.inl ho
    · exact Or.inr (h c hm ho)
  · rfl

/-! ## Sockets, zones and their mirror records -/

/-- The sockets, the zones, their mirror records and nothing else changed. -/
structure Part.AccessOnly (p q : Part) : Prop where
  mtu : q.mtu = p.mtu
  cvt : q.cvt = p.cvt
  trl : q.trl = p.trl
  rbp : q.rbp = p.rbp
  ctu : q.ctu = p.ctu
  rej : q.rej = p.rej
  odk : q.odk = p.odk
  syncLine : q.syncLine = p.syncLine
  lrst : q.lrst = p.lrst
  freeCount : q.freeCount = p.freeCount
  rest : q.rpu.rest = p.rpu.rest
  bulletins : q.rpu.bulletins = p.rpu.bulletins
  fault : q.rpu.fault = p.rpu.fault
  stores : ∀ (m : Memory) (l : List Area), .mirror .spm ∈ l → .mirror .sac ∈ l → m.storesOnly p.mem l → m.storesOnly q.mem l

theorem Part.AccessOnly.refl (p : Part) : p.AccessOnly p :=
  ⟨rfl, rfl, rfl, rfl, rfl, rfl, rfl, rfl, rfl, rfl, rfl, rfl, rfl, fun _ _ _ _ h => h⟩

theorem Part.AccessOnly.trans {p q r : Part} (h : p.AccessOnly q) (k : q.AccessOnly r) : p.AccessOnly r :=
  ⟨k.mtu.trans h.mtu, k.cvt.trans h.cvt, k.trl.trans h.trl, k.rbp.trans h.rbp, k.ctu.trans h.ctu, k.rej.trans h.rej,
   k.odk.trans h.odk, k.syncLine.trans h.syncLine, k.lrst.trans h.lrst,
   k.freeCount.trans h.freeCount, k.rest.trans h.rest, k.bulletins.trans h.bulletins,
   k.fault.trans h.fault, fun m l hl hs hm => k.stores m l hl hs (h.stores m l hl hs hm)⟩

theorem Part.AccessOnly.rewrite {p q : Part} (h : p.AccessOnly q) : p.AccessOnly (q.rewrite .sac) :=
  h.trans ⟨rfl, rfl, rfl, rfl, rfl, rfl, rfl, rfl, rfl, rfl, rfl, rfl, rfl,
    fun _ _ _ hs hm => Part.rewrite_stores _ _ hs hm⟩

theorem Part.AccessOnly.modZone {p q : Part} (h : p.AccessOnly q) (z : Fin 8) (f : Zone → Zone) :
    p.AccessOnly (q.modZone z f) :=
  h.trans ⟨rfl, rfl, rfl, rfl, rfl, rfl, rfl, rfl, rfl, rfl, rfl, rfl, rfl, fun _ _ _ _ h => h⟩

theorem Part.PortsOnly.access {p q : Part} (h : p.PortsOnly q) : p.AccessOnly q :=
  ⟨h.mtu, h.cvt, h.trl, h.rbp, h.ctu, h.rej, h.odk, h.syncLine, h.lrst, h.freeCount, h.rest, h.bulletins, h.fault,
   fun m l hl _ hm => h.stores m l hl hm⟩

theorem Part.AccessOnly.now {p q : Part} (h : p.AccessOnly q) : q.now = p.now := congrArg Mtu.time h.mtu

theorem Part.AccessOnly.plain {p q : Part} (h : p.AccessOnly q) : p.Plain q [] [.mirror .spm, .mirror .sac] where
  time := congrArg Mtu.time h.mtu
  book := Rpu.of_rest h.rest Rpu.book fun _ => rfl
  outcomes := by rw [h.bulletins]
  bulletins := fun b _ => by rw [h.bulletins]; rfl
  kept := ⟨Rpu.of_rest h.rest (·.threshold) fun _ => rfl, Rpu.of_rest h.rest (·.phase) fun _ => rfl,
    Rpu.of_rest h.rest (·.lineResetBusy) fun _ => rfl, Rpu.of_rest h.rest (·.busData) fun _ => rfl⟩
  stores := fun _ _ hj hm => h.stores _ _ (hj (by simp)) (hj (by simp)) hm

/-! ## One zone -/

@[simp] theorem Sac.put_get (b : Sac) (z : Fin 8) (k : Zone) : (b.put z k).zones[z.val] = k := by simp [Sac.put]
@[simp] theorem Sac.put_put (b : Sac) (z : Fin 8) (k l : Zone) : (b.put z k).put z l = b.put z l := by simp [Sac.put]
@[simp] theorem Sac.put_self (b : Sac) (z : Fin 8) : b.put z b.zones[z.val] = b := by simp [Sac.put]
theorem Sac.put_ne (b : Sac) (z y : Fin 8) (k : Zone) (h : y ≠ z) : (b.put z k).zones[y.val] = b.zones[y.val] := by
  have : z.val ≠ y.val := fun e => h (Fin.ext e.symm)
  simp [Sac.put, this]

theorem Part.modZone_sac (p : Part) (z : Fin 8) (f : Zone → Zone) :
    (p.modZone z f).sac = p.sac.put z (f p.sac.zones[z.val]) := rfl

theorem Part.evalDoorRel_only (p : Part) (z : Fin 8) : p.AccessOnly (p.evalDoorRel z) := by
  unfold Part.evalDoorRel; split
  · exact .refl p
  · exact ((Part.AccessOnly.refl p).modZone z _).rewrite

theorem Part.evalDoorRel_sac (p : Part) (z : Fin 8) :
    (p.evalDoorRel z).sac = p.sac.put z { p.sac.zones[z.val] with doorRel := p.doorRelCondition z } := by
  unfold Part.evalDoorRel; split
  · rename_i h
    rw [← h]; exact (Sac.put_self _ _).symm
  · rfl

@[simp] theorem Part.evalDoorRel_spm (p : Part) (z : Fin 8) : (p.evalDoorRel z).spm = p.spm := by
  unfold Part.evalDoorRel; split <;> rfl

theorem Part.doorRelCondition_congr {p q : Part} (hc : q.cvt = p.cvt) (hr : q.rbp = p.rbp) (z : Fin 8)
    (hz : q.sac.zones[z.val].state = p.sac.zones[z.val].state) (hl : q.sac.zones[z.val].level = p.sac.zones[z.val].level) :
    q.doorRelCondition z = p.doorRelCondition z := by
  unfold Part.doorRelCondition Part.hasDoor Part.membersSafe Part.zoneHasRobot Part.zoneMap
  simp only [Fin.getElem_fin, hc, hr, hz, hl]

theorem Part.membersSafe_congr {p q : Part} (hc : q.cvt = p.cvt) (hr : q.rbp = p.rbp) (z : Fin 8) :
    q.membersSafe z = p.membersSafe z := by
  unfold Part.membersSafe Part.zoneHasRobot Part.zoneMap; rw [hc, hr]

theorem Part.hasDoor_congr {p q : Part} (hc : q.cvt = p.cvt) (z : Fin 8) : q.hasDoor z = p.hasDoor z := by
  unfold Part.hasDoor Part.zoneMap; rw [hc]

/-! ## A grant -/

/-- Nothing but zone `z`, the sockets and the desk changed from `p` to `B`; the zone stands as `k`. -/
structure Part.Near (p B : Part) (z : Fin 8) (k : Zone) (spm : Spm) (told : Tidings) (areas : List Area) : Prop where
  mtu : B.mtu = p.mtu
  cvt : B.cvt = p.cvt
  trl : B.trl = p.trl
  rbp : B.rbp = p.rbp
  ctu : B.ctu = p.ctu
  rej : B.rej = p.rej
  syncLine : B.syncLine = p.syncLine
  lrst : B.lrst = p.lrst
  freeCount : B.freeCount = p.freeCount
  fault : B.rpu.fault = p.rpu.fault
  sac : B.sac = p.sac.put z k
  spm : B.spm = spm
  plain : p.Plain B told areas

/-- As `Near`, with the member cameras taken into service where `asks`. -/
structure Part.Ready (p A : Part) (z : Fin 8) (k : Zone) (spm : Spm) (asks : Prop) (told : Tidings) (areas : List Area) :
    Prop where
  mtu : A.mtu = p.mtu
  cvt : A.cvt = p.cvt
  rbp : A.rbp = p.rbp
  rej : A.rej = p.rej
  syncLine : A.syncLine = p.syncLine
  lrst : A.lrst = p.lrst
  freeCount : A.freeCount = p.freeCount
  fault : A.rpu.fault = p.rpu.fault
  sac : A.sac = p.sac.put z k
  spm : A.spm = spm
  cams : asks → A.camerasAre z true
  rest : (asks → p.camerasAre z true) → A.ctu = p.ctu ∧ A.trl = p.trl ∧ p.Plain A told areas

theorem Part.camerasAre_congr {p q : Part} (hc : q.cvt = p.cvt) (ht : q.ctu = p.ctu) {z : Fin 8} {on : Bool}
    (h : p.camerasAre z on) : q.camerasAre z on := by
  intro c hm ho
  rw [ht]
  refine h c ((Part.zoneHasCamera_congr hc z c).symm.trans hm) ?_
  rw [ne_eq, Part.cameraState_off_congr hc] at ho; exact ho

theorem Part.clearSockets_congr {p q : Part} (h : q.spm = p.spm) {z : Fin 8} (hc : p.clearSockets z) : q.clearSockets z := by
  unfold Part.clearSockets; rw [h]; exact hc

theorem Part.grantApply_ready {p B : Part} {z : Fin 8} {k : Zone} {spm : Spm} {told : Tidings} {areas : List Area}
    (h : p.Near B z k spm told areas) (level : AccessLevel) (origin : ZoneOrigin) (n : Nat) (badge : Half)
    (hl : level ≠ .none) (hc : k.state = .sealed → B.clearSockets z) :
    p.Ready (B.grantApply z level origin n badge) z
      { k with state := .opened, level := level, origin := origin, badge := badge
               expiry := some (p.now + BitVec.ofNat 48 (60000000 * n)) }
      (if k.state = .sealed then spm.unlock z p.now else spm) (level ≠ .observe ∧ k.level.code < level.code) told
      (areas ++ [.mirror .spm, .mirror .sac]) := by
  have hBn : B.now = p.now := congrArg Mtu.time h.mtu
  have hBz : B.sac.zones[z.val] = k := by rw [h.sac]; simp
  obtain ⟨C, hCd⟩ : ∃ C, C = B.modZone z fun k =>
      { k with state := .opened, level := level, origin := origin, badge := badge, expiry := some (B.now + minutes n) } := ⟨_, rfl⟩
  obtain ⟨D, hDd⟩ : ∃ D, D = if k.state = .sealed then C.openZonePorts z else C := ⟨_, rfl⟩
  have hC : B.AccessOnly C := hCd ▸ (Part.AccessOnly.refl B).modZone z _
  have hCs : C.spm = spm := by rw [hCd, ← h.spm]; rfl
  have hCn : C.now = p.now := hC.now.trans hBn
  have hCc : k.state = .sealed → C.clearSockets z := fun e => Part.clearSockets_congr (hCs.trans h.spm.symm) (hc e)
  have hD : B.AccessOnly D ∧ D.spm = (if k.state = .sealed then spm.unlock z p.now else spm) ∧ D.sac = C.sac := by
    rw [hDd]
    split
    · rename_i he
      obtain ⟨a, b⟩ := Part.openZonePorts_eq C z (hCc he)
      exact ⟨hC.trans a.access, by rw [b, hCs, hCn], by simp⟩
    · exact ⟨hC, hCs, rfl⟩
  have hsac : D.sac = p.sac.put z
      { k with state := .opened, level := level, origin := origin, badge := badge
               expiry := some (p.now + BitVec.ofNat 48 (60000000 * n)) } := by
    rw [hD.2.2, hCd, Part.modZone_sac, h.sac, hBn]; simp [minutes]
  have hDp : p.Plain D told (areas ++ [.mirror .spm, .mirror .sac]) := by
    simpa using h.plain.trans hD.1.plain
  have hG : B.grantApply z level origin n badge =
      if (level = .adjust ∨ level = .maintain) ∧ k.level.code < level.code then D.zoneServiceAll z true else D := by
    unfold Part.grantApply
    dsimp only
    simp only [Fin.getElem_fin, hBz]
    rw [hDd, hCd]
  have hasks : ((level = .adjust ∨ level = .maintain) ∧ k.level.code < level.code) ↔
      (level ≠ .observe ∧ k.level.code < level.code) := by
    cases level <;> simp_all
  rw [hG]
  simp only [hasks]
  split
  · rename_i ha
    refine ⟨?_, ?_, ?_, ?_, ?_, ?_, ?_, ?_, ?_, ?_, fun _ => Part.zoneServiceAll_sets _ _ _, ?_⟩
    · simpa using hD.1.mtu.trans h.mtu
    · simpa using hD.1.cvt.trans h.cvt
    · simpa using hD.1.rbp.trans h.rbp
    · simpa using hD.1.rej.trans h.rej
    · simpa using hD.1.syncLine.trans h.syncLine
    · simpa using hD.1.lrst.trans h.lrst
    · simpa using hD.1.freeCount.trans h.freeCount
    · simpa using hD.1.fault.trans h.fault
    · simpa using hsac
    · simpa using hD.2.1
    · intro hp
      have hDc : D.camerasAre z true := Part.camerasAre_congr (hD.1.cvt.trans h.cvt) (hD.1.ctu.trans h.ctu) (hp ha)
      rw [Part.zoneServiceAll_same _ _ _ hDc]
      exact ⟨hD.1.ctu.trans h.ctu, hD.1.trl.trans h.trl, hDp⟩
  · rename_i ha
    exact ⟨hD.1.mtu.trans h.mtu, hD.1.cvt.trans h.cvt, hD.1.rbp.trans h.rbp, hD.1.rej.trans h.rej,
      hD.1.syncLine.trans h.syncLine, hD.1.lrst.trans h.lrst, hD.1.freeCount.trans h.freeCount, hD.1.fault.trans h.fault,
      hsac, hD.2.1, fun hr => absurd hr ha, fun _ => ⟨hD.1.ctu.trans h.ctu, hD.1.trl.trans h.trl, hDp⟩⟩

theorem Part.Ready.evalDoorRel {p A : Part} {z : Fin 8} {k : Zone} {spm : Spm} {asks : Prop} {told : Tidings}
    {areas : List Area} (h : p.Ready A z k spm asks told areas) :
    p.Ready (A.evalDoorRel z) z { k with doorRel := A.doorRelCondition z } spm asks told
      (areas ++ [.mirror .spm, .mirror .sac]) := by
  have ho := Part.evalDoorRel_only A z
  refine ⟨ho.mtu.trans h.mtu, ho.cvt.trans h.cvt, ho.rbp.trans h.rbp, ho.rej.trans h.rej, ho.syncLine.trans h.syncLine,
    ho.lrst.trans h.lrst, ho.freeCount.trans h.freeCount, ho.fault.trans h.fault, ?_, ?_, ?_, ?_⟩
  · rw [Part.evalDoorRel_sac, h.sac]; simp
  · simpa using h.spm
  · intro ha; exact Part.camerasAre_congr ho.cvt ho.ctu (h.cams ha)
  · intro hp
    obtain ⟨a, b, c⟩ := h.rest hp
    exact ⟨ho.ctu.trans a, ho.trl.trans b, by simpa using c.trans ho.plain⟩

theorem Part.handOutcome_cell (p : Part) (kind : Byte) (body : List Byte) (hb : body.length = 24) (n : Fin 48) :
    Memory.read (p.handOutcome kind body).mem (cellBase n) 12 = Memory.read p.mem (cellBase n) 12 := by
  refine Memory.read_cell_of n p.outcomeAreas (Part.handOutcome_stores p kind body hb (fun _ h => h) (Memory.storesOnly_refl _ _)) ?_
  unfold Part.outcomeAreas
  cases p.fillingPage <;> simp

/-- Nothing but zone `z` and the desk's order of it changed: the frame of a grant, where no camera was asked. -/
theorem Part.Ready.frame {p A q : Part} {z : Fin 8} {k : Zone} {spm : Spm} {asks : Prop} {told : Tidings}
    {areas : List Area} (h : p.Ready A z k spm asks told areas) (hp : asks → p.camerasAre z true)
    (h1 : q.mtu = A.mtu) (h2 : q.cvt = A.cvt) (h3 : q.trl = A.trl) (h4 : q.rbp = A.rbp) (h5 : q.ctu = A.ctu)
    (h6 : q.rej = A.rej) (h7 : q.syncLine = A.syncLine) (h8 : q.lrst = A.lrst) (h9 : q.freeCount = A.freeCount) :
    q = { p with spm := q.spm, sac := q.sac, odk := q.odk, rpu := q.rpu, mem := q.mem } :=
  Part.eq_of_fields (h1.trans h.mtu) (h2.trans h.cvt) (h3.trans (h.rest hp).2.1) (h4.trans h.rbp)
    (h5.trans (h.rest hp).1) (h6.trans h.rej) rfl rfl rfl rfl (h7.trans h.syncLine) (h8.trans h.lrst) rfl
    (h9.trans h.freeCount)

/-- R148: the second half of a grant that completes the order of the take. -/
theorem Part.grants_at_take {p A : Part} {n : Fin 48} {o : Order} (h : p.canTake n o) {z : Fin 8} {k : Zone}
    {told : Tidings} {areas : List Area} {asks : Prop}
    (hR : p.Ready A z k (if p.sac.zones[z].state = .sealed then p.spm.unlock z p.now else p.spm) asks told areas)
    (hasks : asks ↔ (k.level ≠ .observe ∧ p.sac.zones[z].level.code < k.level.code))
    (hodk : A.odk = p.takingOdk n p.odk.inflight) (hk : k.accessOrder = some (p.nextRef n)) (r : Result)
    (hper : (p.markTaken n).perform (p.nextRef n) o = A.grantClose z r)
    (hj : areas ⊆ [.cell n, .mirror .odk, .bulletin 6, .mirror .spm, .mirror .sac]) :
    p.grants (p.takeAs n o) z { k with accessOrder := none, request := none } told [.cell n, .mirror .odk] ∧
      p.answers (p.takeAs n o) n r := by
  have hz : A.sac.zones[z.val] = k := by rw [hR.sac]; simp
  obtain ⟨C, hCd⟩ : ∃ C, C = A.complete (p.nextRef n) r 0 := ⟨_, rfl⟩
  obtain ⟨hC1, hC2, hC3⟩ := p.completed_of n A r 0 _ (Part.canTake_fresh h) hodk
  rw [← hCd] at hC1 hC2 hC3
  let k' : Zone := { k with accessOrder := none, request := none }
  obtain ⟨E, hEd⟩ : ∃ E, E = C.modZone z fun k => { k with accessOrder := none, request := none } := ⟨_, rfl⟩
  have hEs : E.sac = p.sac.put z k' := by
    rw [hEd, Part.modZone_sac, hC3.sac, hR.sac]; simp [k']
  have hEz : E.sac.zones[z.val] = k' := by rw [hEs]; simp
  let body := k'.outcome (zoneMember z) .granted k.badge ⟨.ok, 0⟩ 255
  obtain ⟨Z, hZd⟩ : ∃ Z, Z = ((E.handOutcome 2 body).raise .granted (zoneMember z)).rewrite .sac := ⟨_, rfl⟩
  have hER : A.endRequest z r = E := by
    have hx : A.sac.zones[z].accessOrder = some (p.nextRef n) := by rw [Fin.getElem_fin, hz, hk]
    unfold Part.endRequest
    rw [hx, hEd, hCd]
    rfl
  have hgc : A.grantClose z r = Z := by
    unfold Part.grantClose Part.accessOutcome
    rw [hER, Fin.getElem_fin, hEz, hZd]
  obtain ⟨ha, hs⟩ := Part.done_of h A Z r 0 hodk (by rw [hZd, ← hCd]; simp [hEd])
    (by rw [hZd]; simp [hEd, hC3.mtu]) (by
      rw [hZd, Part.rewrite_cell, Part.raise_cell, Part.handOutcome_cell _ _ _ (Zone.outcome_length _ _ _ _ _ _), ← hCd, hEd]
      simp)
  have hq : p.takeAs n o = Z.endTake (p.nextRef n) := by rw [Part.takeAs_eq h, hper, hgc]
  rw [hq]
  refine ⟨⟨?_, ?_, ?_, ?_, ?_, ?_⟩, ha⟩
  · rw [hs.sac, hZd]; simp [hEs, k']
  · exact hs.mirrored .sac (by decide) (by rw [hZd]; exact Part.rewrite_mirrored _ _)
  · rw [hs.fault, hZd]; simp [hEd, hC3.fault, hR.fault]
  · rw [hs.spm, hZd]; simp [hEd, hC3.spm, hR.spm]
  · intro ha
    refine Part.camerasAre_congr (p := A) ?_ ?_ (hR.cams (hasks.mpr ha))
    · rw [hs.cvt, hZd]; simp [hEd, hC3.cvt]
    · rw [hs.ctu, hZd]; simp [hEd, hC3.ctu]
  · intro hp
    have hp' : asks → p.camerasAre z true := fun a => hp (hasks.mp a)
    refine ⟨hR.frame hp' ?_ ?_ ?_ ?_ ?_ ?_ ?_ ?_ ?_, ?_⟩
    · rw [hs.mtu, hZd]; simp [hEd, hC3.mtu]
    · rw [hs.cvt, hZd]; simp [hEd, hC3.cvt]
    · rw [hs.trl, hZd]; simp [hEd, hC3.trl]
    · rw [hs.rbp, hZd]; simp [hEd, hC3.rbp]
    · rw [hs.ctu, hZd]; simp [hEd, hC3.ctu]
    · rw [hs.rej, hZd]; simp [hEd, hC3.rej]
    · rw [hs.syncLine, hZd]; simp [hEd, hC3.syncLine]
    · rw [hs.lrst, hZd]; simp [hEd, hC3.lrst]
    · rw [hs.freeCount, hZd]; simp [hEd, hC3.freeCount]
    · have hE : C.Plain E [] [] := by rw [hEd]; exact Part.Plain.refl_of rfl rfl rfl
      have hA := ((hR.rest hp').2.2.trans hC3.plain).trans hE
      have hZ : (E.handOutcome 2 body).Plain (Z.endTake (p.nextRef n)) [(.granted, zoneMember z)]
          [.bulletin 6, .mirror .sac, .cell n, .mirror .odk] := by
        have hZ0 : (E.handOutcome 2 body).Plain Z [(.granted, zoneMember z)] [.bulletin 6, .mirror .sac] := by
          rw [hZd]; exact ((Part.Plain.refl _).raise .granted (zoneMember z)).rewrite .sac
        exact hZ0.settled hs
      refine Part.records_as 2 _ (Zone.outcome_length _ _ _ _ _ _) hA hZ (by simp [Area.besideRecords]) (by simp) ?_
      refine List.append_subset.mpr ⟨List.append_subset.mpr ⟨List.append_subset.mpr ⟨?_, by simp⟩, by simp⟩, by simp⟩
      intro x hx
      have := hj hx
      simp only [List.mem_cons, List.not_mem_nil, or_false] at this
      simp; tauto

/-! ## A report on a robot of one zone (R74) -/

theorem Part.settleResume_idle (X : Part) (z : Fin 8) (r : Fin 6) (h : X.sac.zones[z].resumeSet[r] ≠ .waiting) :
    X.settleResume z r = X := by
  unfold Part.settleResume; rw [if_neg h]

theorem Part.report_elsewhere {X : Part} {z : Fin 8} {r : Fin 6} (h : X.ofOnly z r) (y : Fin 8) (hy : y ≠ z) :
    (X.hearRobot r y).settleResume y r = X := by
  have hh : X.hearRobot r y = X := by unfold Part.hearRobot; rw [h.2.1 y hy]; rfl
  rw [hh, Part.settleResume_idle _ _ _ (h.2.2 y)]

theorem Part.reportRobot_only {X : Part} {z : Fin 8} {r : Fin 6} (h : X.ofOnly z r) (hQ : (X.hearRobot r z).ofOnly z r) :
    X.reportRobot r = X.hearRobot r z := by
  have hw : ∀ (l : List (Fin 8)) (Y : Part), Y.ofOnly z r → z ∉ l →
      l.foldl (fun p z => (p.hearRobot r z).settleResume z r) Y = Y := by
    intro l
    induction l with
    | nil => intros; rfl
    | cons a l ih =>
      intro Y hY hz
      rw [List.foldl_cons, Part.report_elsewhere hY a (fun e => hz (by simp [e])), ih Y hY (fun e => hz (by simp [e]))]
  have he : ∀ z : Fin 8, eights = eights.take z.val ++ z :: eights.drop (z.val + 1) := by decide
  have ha : ∀ z : Fin 8, z ∉ eights.take z.val := by decide
  have hb : ∀ z : Fin 8, z ∉ eights.drop (z.val + 1) := by decide
  unfold Part.reportRobot
  rw [he z, List.foldl_append, List.foldl_cons, hw _ X h (ha z), Part.settleResume_idle _ _ _ (hQ.2.2 z), hw _ _ hQ (hb z)]

/-! ## Operands -/

theorem eight_of (b : Byte) (r : Fin 8) (h : b.toNat = r.val) : eight b = some r := by
  unfold eight; rw [dif_pos (by omega)]; simp [h]
theorem eight_none (b : Byte) (h : 8 ≤ b.toNat) : eight b = none := by
  unfold eight; rw [dif_neg (by omega)]
theorem clampMinutes_eq (n : Nat) : clampMinutes n = max 1 (min 240 n) := by
  unfold clampMinutes; split <;> omega
theorem levelOf_none (b : Byte) (h : b.toNat = 0 ∨ 4 ≤ b.toNat) : levelOf b = none := by
  unfold levelOf
  have h1 : b ≠ 1 := by rintro rfl; simp at h
  have h2 : b ≠ 2 := by rintro rfl; simp at h
  have h3 : b ≠ 3 := by rintro rfl; simp at h
  rw [if_neg h1, if_neg h2, if_neg h3]
theorem levelOf_some (b : Byte) (l : AccessLevel) (hl : l ≠ .none) (h : b.toNat = l.code) : levelOf b = some l := by
  have hb : b = BitVec.ofNat 8 l.code := by rw [← h]; simp
  subst hb
  cases l <;> first | exact absurd rfl hl | rfl

theorem clampedIf_min (n m : Nat) : Result.clampedIf (decide (n ≠ m)) = if m = n then .ok else .clamped := by
  unfold Result.clampedIf
  by_cases h : m = n
  · subst h; simp
  · rw [if_neg h, if_pos (by simpa using fun e => h e.symm)]

/-! ## Halting, judging, failing -/

theorem Part.Near.access {p B C : Part} {z : Fin 8} {k k' : Zone} {s s' : Spm} {told : Tidings} {areas : List Area}
    (h : p.Near B z k s told areas) (hC : B.AccessOnly C) (hs : C.sac = p.sac.put z k') (hp : C.spm = s') :
    p.Near C z k' s' told (areas ++ [.mirror .spm, .mirror .sac]) :=
  ⟨hC.mtu.trans h.mtu, hC.cvt.trans h.cvt, hC.trl.trans h.trl, hC.rbp.trans h.rbp, hC.ctu.trans h.ctu, hC.rej.trans h.rej,
   hC.syncLine.trans h.syncLine, hC.lrst.trans h.lrst, hC.freeCount.trans h.freeCount, hC.fault.trans h.fault, hs, hp,
   by simpa using h.plain.trans hC.plain⟩

theorem Part.Near.raise {p B : Part} {z : Fin 8} {k : Zone} {s : Spm} {told : Tidings} {areas : List Area}
    (h : p.Near B z k s told areas) (n : News) (m : Byte) (hn : n.bulletin ≠ 8 := by decide) :
    p.Near (B.raise n m) z k s (told ++ [(n, m)]) (areas ++ [.bulletin n.bulletin]) :=
  ⟨by simpa using h.mtu, by simpa using h.cvt, by simpa using h.trl, by simpa using h.rbp, by simpa using h.ctu, by simpa using h.rej,
   by simpa using h.syncLine, by simpa using h.lrst, by simpa using h.freeCount, by simpa using h.fault, by simpa using h.sac, by simpa using h.spm,
   h.plain.raise n m hn⟩

theorem haltMembers_idle (B : Part) (z : Fin 8) (h : B.activeMembers z = []) :
    B.haltMembers z = (B.modZone z fun k => { k with haltedByZone := k.haltedByZone ||| robotMask [] }).rewrite .sac := by
  unfold Part.haltMembers; rw [h]; rfl

theorem activeMembers_none (B : Part) (z : Fin 8) (h : ∀ r : Fin 6, B.zoneHasRobot z r = true → B.rbp.robots[r].active = false) :
    B.activeMembers z = [] := by
  unfold Part.activeMembers
  rw [List.filter_eq_nil_iff]
  intro r _
  simp only [Bool.and_eq_true, not_and]
  intro hm; rw [h r hm]; simp

theorem unlockIf {p B : Part} {z : Fin 8} {k : Zone} {s : Spm} {told : Tidings} {areas : List Area}
    (h : p.Near B z k s told areas) (hc : k.state = .sealed → B.clearSockets z) :
    p.Near (if B.sac.zones[z].state = .sealed then B.openZonePorts z else B) z k
      (if k.state = .sealed then s.unlock z p.now else s) told (areas ++ [.mirror .spm, .mirror .sac]) := by
  have hz : B.sac.zones[z].state = k.state := by rw [h.sac]; simp
  have hn : B.now = p.now := congrArg Mtu.time h.mtu
  rw [hz]
  split
  · rename_i he
    obtain ⟨a, b⟩ := Part.openZonePorts_eq B z (hc he)
    exact Part.Near.access h a.access (by simpa using h.sac) (by rw [b, h.spm, hn])
  · exact Part.Near.access h (.refl _) h.sac h.spm

theorem enterHalting_idle {p B : Part} {z : Fin 8} {k : Zone} {s : Spm} {told : Tidings} {areas : List Area}
    (h : p.Near B z k s told areas) (hc : k.state = .sealed → B.clearSockets z)
    (ha : ∀ r : Fin 6, p.zoneHasRobot z r = true → p.rbp.robots[r].active = false) (q : ZoneRequest) (ref : Option OrderRef) :
    ∃ C, B.enterHalting z q ref = C.judgeHalting z ∧
      p.Near C z { k with state := .halting, request := some q, accessOrder := ref } (if k.state = .sealed then s.unlock z p.now else s)
        (told ++ [(.halting, zoneMember z)]) (areas ++ [.mirror .spm, .mirror .sac, .mirror .spm, .mirror .sac, .bulletin 6, .mirror .spm, .mirror .sac]) ∧
      C.odk = B.odk := by
  have hU := unlockIf h hc
  obtain ⟨U, hUd⟩ : ∃ U, U = if B.sac.zones[z].state = .sealed then B.openZonePorts z else B := ⟨_, rfl⟩
  have hUo : U.odk = B.odk := by rw [hUd]; split <;> simp
  have hEH : B.enterHalting z q ref = (((((U.haltMembers z).modZone z fun k => { k with state := .halting, request := some q, accessOrder := ref }).raise .halting (zoneMember z)).rewrite .sac).judgeHalting z) := by
    unfold Part.enterHalting; rw [← hUd]
  rw [← hUd] at hU
  have hact : U.activeMembers z = [] := by
    apply activeMembers_none
    intro r hr
    rw [hU.rbp]; exact ha r (by rw [← hr]; exact (Part.zoneHasRobot_congr (congrArg Cvt.profile hU.cvt) z r).symm)
  refine ⟨_, hEH, ?_, by rw [haltMembers_idle _ _ hact]; simp [hUo]⟩
  rw [haltMembers_idle _ _ hact]
  have h1 : p.Near ((((U.modZone z fun k => { k with haltedByZone := k.haltedByZone ||| robotMask [] }).rewrite .sac).modZone z fun k => { k with state := .halting, request := some q, accessOrder := ref })) z
      { k with state := .halting, request := some q, accessOrder := ref } (if k.state = .sealed then s.unlock z p.now else s) told _ :=
    Part.Near.access hU ((((Part.AccessOnly.refl U).modZone z _).rewrite).modZone z _) (by
      have hs1 : ((U.modZone z fun k => { k with haltedByZone := k.haltedByZone ||| robotMask [] }).rewrite .sac).sac = p.sac.put z k := by
        simp only [Part.rewrite_frame]
        rw [Part.modZone_sac, hU.sac]; simp [robotMask]
      rw [Part.modZone_sac, hs1]; simp) hU.spm
  have h2 := Part.Near.raise h1 .halting (zoneMember z)
  have h3 := Part.Near.access h2 (((Part.AccessOnly.refl _).rewrite)) (by simpa using h2.sac) (by simpa using h2.spm)
  simpa [News.bulletin] using h3

theorem safe_idle {p : Part} {z : Fin 8} (h : ∀ r : Fin 6, p.zoneHasRobot z r = true → p.rbp.robots[r].safe = true) :
    p.membersSafe z = true ∧ ∀ r : Fin 6, p.zoneHasRobot z r = true → p.rbp.robots[r].active = false := by
  constructor
  · unfold Part.membersSafe
    rw [List.all_eq_true]
    intro r _
    cases hr : p.zoneHasRobot z r
    · rfl
    · simpa using h r hr
  · intro r hr
    have := h r hr
    revert this
    unfold Robot.safe Robot.active
    cases p.rbp.robots[r].state <;> simp

/-- A HALTING zone whose robots are all safe is granted. -/
theorem judge_grants {p C : Part} {z : Fin 8} {k : Zone} {s : Spm} {told : Tidings} {areas : List Area} {x : ZoneRequest}
    (h : p.Near C z k s told areas) (hs : k.state = .halting) (hq : k.request = some x) (hm : C.membersSafe z = true) :
    ∃ A, C.judgeHalting z = A.grantClose z (.clampedIf x.clamped) ∧ A.odk = C.odk ∧
      p.Ready A z { k with state := .opened, level := .maintain, origin := x.origin, badge := x.badge
                           expiry := some (p.now + BitVec.ofNat 48 (60000000 * x.minutes)), doorRel := C.hasDoor z } s
        (AccessLevel.maintain ≠ .observe ∧ k.level.code < AccessLevel.maintain.code) told
        (areas ++ [.mirror .spm, .mirror .sac] ++ [.mirror .spm, .mirror .sac]) := by
  have hz : C.sac.zones[z.val] = k := by rw [h.sac]; simp
  have hg := Part.grantApply_ready h .maintain x.origin x.minutes x.badge (by decide) (by rw [hs]; intro e; cases e)
  rw [if_neg (by rw [hs]; decide)] at hg
  refine ⟨(C.grantApply z .maintain x.origin x.minutes x.badge).evalDoorRel z, ?_, by simp, ?_⟩
  · unfold Part.judgeHalting
    simp only [Fin.getElem_fin, hz, hs, hq, hm, if_true]
  · have hr := hg.evalDoorRel
    have hd : (C.grantApply z .maintain x.origin x.minutes x.badge).doorRelCondition z = C.hasDoor z := by
      unfold Part.doorRelCondition
      have hz1 : (C.grantApply z .maintain x.origin x.minutes x.badge).sac.zones[z].state = .opened := by rw [Fin.getElem_fin, hg.sac, Sac.put_get]
      have hz2 : (C.grantApply z .maintain x.origin x.minutes x.badge).sac.zones[z].level = .maintain := by rw [Fin.getElem_fin, hg.sac, Sac.put_get]
      rw [hz1, hz2, Part.membersSafe_congr (p := C) (hg.cvt.trans h.cvt.symm) (hg.rbp.trans h.rbp.symm), hm, Part.hasDoor_congr (p := C) (hg.cvt.trans h.cvt.symm)]
      simp
    rw [hd] at hr
    exact hr

/-- A record at a take, after the order completed. -/
theorem record_at_take {p A E : Part} {n : Fin 48} {o : Order} (h : p.canTake n o) (r : Result) (d : Byte)
    {told : Tidings} {areas : List Area} (hA : p.Plain A told areas) (hodk : A.odk = p.takingOdk n p.odk.inflight)
    (hE : (A.complete (p.nextRef n) r d).AccessOnly E) (body : List Byte) (hb : body.length = 24) (news : News) (m : Byte)
    (hnews : news.bulletin = 6)
    (hper : (p.markTaken n).perform (p.nextRef n) o = ((E.handOutcome 2 body).raise news m).rewrite .sac)
    (hj : areas ⊆ [.cell n, .mirror .odk, .bulletin 6, .mirror .spm, .mirror .sac]) :
    p.answers (p.takeAs n o) n r d ∧ (((E.handOutcome 2 body).raise news m).rewrite .sac).Settled (p.takeAs n o) n ∧
      p.records (p.takeAs n o) 2 body (told ++ [(news, m)]) [.cell n, .bulletin 6, .mirror .spm, .mirror .sac, .mirror .odk] := by
  obtain ⟨hC1, hC2, hC3⟩ := p.completed_of n A r d _ (Part.canTake_fresh h) hodk
  obtain ⟨Z, hZd⟩ : ∃ Z, Z = ((E.handOutcome 2 body).raise news m).rewrite .sac := ⟨_, rfl⟩
  rw [← hZd] at hper ⊢
  obtain ⟨ha, hs⟩ := Part.done_of h A Z r d hodk (by rw [hZd]; simp [hE.odk])
    (by rw [hZd]; simp [hE.mtu, hC3.mtu]) (by
      rw [hZd, Part.rewrite_cell, Part.raise_cell, Part.handOutcome_cell _ _ _ hb]
      exact Memory.read_cell_of n [.mirror .spm, .mirror .sac] (hE.stores _ _ (by simp) (by simp) (Memory.storesOnly_refl _ _)) (by simp))
  have hq : p.takeAs n o = Z.endTake (p.nextRef n) := by rw [Part.takeAs_eq h, hper]
  rw [hq]
  refine ⟨ha, hs, ?_⟩
  have hZ : (E.handOutcome 2 body).Plain (Z.endTake (p.nextRef n)) [(news, m)]
      [.bulletin 6, .mirror .sac, .cell n, .mirror .odk] := by
    have hZ0 : (E.handOutcome 2 body).Plain Z [(news, m)] [.bulletin 6, .mirror .sac] := by
      rw [hZd, ← hnews]; exact ((Part.Plain.refl _).raise news m (by rw [hnews]; decide)).rewrite .sac
    exact hZ0.settled hs
  refine Part.records_as 2 body hb ((hA.trans hC3.plain).trans hE.plain) hZ (by simp [Area.besideRecords]) (by simp) ?_
  refine List.append_subset.mpr ⟨List.append_subset.mpr ⟨List.append_subset.mpr ⟨?_, by simp⟩, by simp⟩, by simp⟩
  intro x hx
  have := hj hx
  simp only [List.mem_cons, List.not_mem_nil, or_false] at this
  simp; tauto

theorem failingMember_congr {p q : Part} (hc : q.cvt = p.cvt) (hr : q.rbp = p.rbp) (z : Fin 8) : q.failingMember z = p.failingMember z := by
  unfold Part.failingMember Part.zoneHasRobot Part.zoneMap; rw [hc, hr]

theorem failing_notsafe {p : Part} {z : Fin 8} {r : Fin 6} (h : p.failingMember z = some r) : p.membersSafe z = false := by
  unfold Part.failingMember at h
  have h1 := List.find?_some h
  unfold Part.membersSafe
  rw [List.all_eq_false]
  refine ⟨r, mem_sixes r, ?_⟩
  simp only [Bool.and_eq_true] at h1
  obtain ⟨a, b, c⟩ := h1
  simp only [a, Bool.not_true, Bool.false_or, Robot.safe]
  simp only [beq_iff_eq, Bool.not_eq_true'] at b c
  rw [b, c]; decide

theorem judge_fails {C : Part} {z : Fin 8} {r : Fin 6} {k : Zone} {x : ZoneRequest} (hz : C.sac.zones[z.val] = k)
    (hs : k.state = .halting) (hq : k.request = some x) (hf : C.failingMember z = some r) :
    C.judgeHalting z = C.failRequest z r := by
  unfold Part.judgeHalting
  simp only [Fin.getElem_fin, hz, hs, hq, failing_notsafe hf, hf, Bool.false_eq_true, if_false]

theorem failRequest_as (C : Part) (z : Fin 8) (r : Fin 6) (detail : Byte)
    (h : (match C.rbp.robots[r].faultCause with | some f => f.code | none => 0) = detail) :
    C.failRequest z r =
      if (C.endRequest z .failedTimeout detail).sac.zones[z].level = .none then
        (C.endRequest z .failedTimeout detail).sealZone z .failed ⟨.failedTimeout, detail⟩ (robotMember r)
      else
        let p := ((C.endRequest z .failedTimeout detail).modZone z fun k => { k with state := .opened }).evalDoorRel z
        let k := p.sac.zones[z]
        let p := p.handOutcome 2 (k.outcome (zoneMember z) .failed k.badge ⟨.failedTimeout, detail⟩ (robotMember r))
        (p.raise .failed (zoneMember z)).rewrite .sac := by subst h; rfl

theorem filter_sole (r : Fin 6) : sixes.filter (fun x => x == r) = [r] := by revert r; decide

theorem activeMembers_sole (U : Part) (z : Fin 8) (r : Fin 6) (hm : U.zoneHasRobot z r = true) (ha : U.rbp.robots[r].active = true)
    (ho : ∀ x : Fin 6, U.zoneHasRobot z x = true → x ≠ r → U.rbp.robots[x].safe = true) : U.activeMembers z = [r] := by
  unfold Part.activeMembers
  rw [← filter_sole r]
  apply List.filter_congr
  intro x _
  by_cases hx : x = r
  · subst hx; simp only [hm, ha]; simp
  · have : (x == r) = false := by simpa using hx
    rw [this]
    cases hzx : U.zoneHasRobot z x
    · rfl
    · have := ho x hzx hx
      revert this; unfold Robot.safe Robot.active
      cases U.rbp.robots[x].state <;> simp

theorem Rbp.put_get' (b : Rbp) (r : Fin 6) (k : Robot) : (b.put r k).robots[r.val] = k := by simp [Rbp.put]
theorem Rbp.put_other (b : Rbp) (r x : Fin 6) (k : Robot) (h : x ≠ r) : (b.put r k).robots[x.val] = b.robots[x.val] := by
  have : r.val ≠ x.val := fun e => h (Fin.ext e.symm)
  simp [Rbp.put, this]

/-- A member STARTING or RUNNING is asked to halt for its zone. -/
theorem requestHalt_member (H : Part) (z : Fin 8) (r : Fin 6) (hof : H.ofOnly z r)
    (hst : H.rbp.robots[r].state = .starting ∨ (H.rbp.robots[r].state = .running ∧ H.rbp.robots[r].pendingWindow = none))
    (hh : H.rbp.robots[r].pins.haltAck = false) (ho : H.rbp.robots[r].order = none) (hz : H.sac.zones[z].state ≠ .halting)
    (hl : H.sac.zones[z].state = .sealed ∨ H.sac.zones[z].level ≠ .maintain) :
    let b := H.rbp.robots[r]
    ∃ Q, H.requestHalt r (.zone z) = Q ∧ Q.rbp = H.rbp.put r { b with
        state := .halting, haltOrigin := some (.zone z), deadline := some (H.haltDeadline r), order := none
        openWindows := if b.state = .running then [] else b.openWindows } ∧
      Q.sac = H.sac.put z { H.sac.zones[z] with doorRel := false } ∧
      Q = { H with rbp := Q.rbp, sac := Q.sac, rpu := Q.rpu, mem := Q.mem } ∧ Q.rpu.rest = H.rpu.rest ∧
      Q.rpu.bulletins = H.rpu.bulletins ∧ Q.rpu.fault = H.rpu.fault ∧
      (∀ (m : Memory) (l : List Area), .mirror .rbp ∈ l → .mirror .sac ∈ l → m.storesOnly H.mem l → m.storesOnly Q.mem l) := by
  intro b
  obtain ⟨hb⟩ : ∃ _ : b = H.rbp.robots[r], True := ⟨rfl, trivial⟩
  clear_value b
  have hact : H.rbp.robots[r].active = true := by
    unfold Robot.active; rcases hst with h | ⟨h, _⟩ <;> rw [h] <;> rfl
  obtain ⟨A, hAd⟩ : ∃ A, A = H.modRobot r fun k => { k with state := .halting, haltOrigin := some (.zone z), order := none, deadline := some (H.haltDeadline r) } := ⟨_, rfl⟩
  have hA : A.rbp.robots[r] = { b with state := .halting, haltOrigin := some (.zone z), order := none, deadline := some (H.haltDeadline r) } := by
    rw [hAd, hb]; simp
  obtain ⟨G, hGd⟩ : ∃ G, G = (A.modRobot r fun k => { k with openWindows := if b.state = .running then [] else k.openWindows }).rewrite .rbp := ⟨_, rfl⟩
  have hRC : A.robotChanged r b.state = G.reportRobot r := by
    rw [hGd]
    apply Part.robotChanged_eq
    · rw [hA, hb]; rcases hst with h | ⟨h, _⟩ <;> rw [h] <;> simp
    · intro hr; rw [hA, hb]; rcases hst with h | ⟨_, h⟩
      · rw [hb, h] at hr; cases hr
      · exact h
  have hGf : G = { H with rbp := G.rbp, rpu := G.rpu, mem := G.mem } := by
    rw [hGd, hAd]
    refine Part.eq_of_fields ?_ ?_ ?_ ?_ ?_ ?_ ?_ ?_ ?_ ?_ ?_ ?_ ?_ ?_ <;> first | with_reducible rfl | simp
  have hGr : G.rbp = H.rbp.put r { b with
        state := .halting, haltOrigin := some (.zone z), deadline := some (H.haltDeadline r), order := none
        openWindows := if b.state = .running then [] else b.openWindows } := by
    rw [hGd, hAd, hb]; simp [Rbp.put, modAt_eq_set]
  have hGs : G.sac = H.sac := by rw [hGf]
  have hGc : G.cvt = H.cvt := by rw [hGf]
  have hGo : G.ofOnly z r := by
    obtain ⟨o1, o2, o3⟩ := hof
    refine ⟨?_, fun y hy => ?_, fun y => ?_⟩
    · rw [← o1]; exact Part.zoneHasRobot_congr (congrArg Cvt.profile hGc) z r
    · rw [← o2 y hy]; exact Part.zoneHasRobot_congr (congrArg Cvt.profile hGc) y r
    · rw [hGs]; exact o3 y
  have hear : G.hearRobot r z = G.evalDoorRel z := by
    unfold Part.hearRobot; rw [hGo.1, if_pos rfl, if_neg (by rw [hGs]; exact hz)]
  have hdr : G.doorRelCondition z = false := by
    unfold Part.doorRelCondition
    rw [hGs]
    rcases hl with hl | hl
    · rw [hl]; simp
    · have : (H.sac.zones[z].level == AccessLevel.maintain) = false := beq_eq_false_iff_ne.mpr hl
      rw [this]; simp
  have hEs := Part.evalDoorRel_sac G z
  rw [hdr, hGs] at hEs
  have heo := Part.evalDoorRel_only G z
  have hEo : (G.evalDoorRel z).ofOnly z r := by
    obtain ⟨o1, o2, o3⟩ := hGo
    refine ⟨?_, fun y hy => ?_, fun y => ?_⟩
    · rw [← o1]; exact Part.zoneHasRobot_congr (congrArg Cvt.profile heo.cvt) z r
    · rw [← o2 y hy]; exact Part.zoneHasRobot_congr (congrArg Cvt.profile heo.cvt) y r
    · by_cases hy : y = z
      · subst hy
        show (G.evalDoorRel y).sac.zones[y.val].resumeSet[r] ≠ _
        rw [hEs, Sac.put_get]; exact hof.2.2 y
      · show (G.evalDoorRel z).sac.zones[y.val].resumeSet[r] ≠ _
        rw [hEs, Sac.put_ne _ _ _ _ hy]; exact hof.2.2 y
  have hrep : G.reportRobot r = G.evalDoorRel z := (Part.reportRobot_only hGo (by rw [hear]; exact hEo)).trans hear
  refine ⟨_, rfl, ?_⟩
  have hfin : H.requestHalt r (.zone z) = G.evalDoorRel z := by
    unfold Part.requestHalt
    rw [if_pos hact, ho]
    show H.beginHalt r (.zone z) none = _
    rw [Part.beginHalt_of (B := G.evalDoorRel z)]
    · rw [if_neg]
      rintro ⟨e, _⟩
      rw [heo.rbp, hGr, Fin.getElem_fin, Rbp.put_get', hb, hh] at e
      cases e
    · rw [← hAd, ← hb, hRC, hrep]
  rw [hfin]
  refine ⟨heo.rbp.trans hGr, hEs, ?_, ?_, ?_, ?_, ?_⟩
  · have g1 := hGf
    refine Part.eq_of_fields ?_ ?_ ?_ rfl ?_ ?_ ?_ rfl ?_ rfl ?_ ?_ rfl ?_
    · rw [heo.mtu, g1]
    · rw [heo.cvt, g1]
    · rw [heo.trl, g1]
    · rw [heo.ctu, g1]
    · rw [heo.rej, g1]
    · rw [Part.evalDoorRel_spm, g1]
    · rw [heo.odk, g1]
    · rw [heo.syncLine, g1]
    · rw [heo.lrst, g1]
    · rw [heo.freeCount, g1]
  · rw [heo.rest, hGd, hAd]; simp
  · rw [heo.bulletins, hGd, hAd]; simp
  · rw [heo.fault, hGd, hAd]; simp
  · intro m l h1 h2 hm
    have : m.storesOnly G.mem l := by rw [hGd, hAd]; exact Part.rewrite_stores _ _ h1 (by simpa using hm)
    unfold Part.evalDoorRel
    split
    · exact this
    · exact Part.rewrite_stores _ _ h2 (by simpa using this)

theorem Sac.get_of {a b : Sac} {z : Fin 8} {k : Zone} (h : a = b.put z k) : a.zones[z.val] = k := by
  subst h; exact Sac.put_get _ _ _

/-! ## A sealing -/

/-- What a sealing of zone `z`, which stood as `k`, leaves (R147). -/
structure Part.Sealing (p X Z : Part) (z : Fin 8) (k : Zone) (event : AccessEvent) (c : Completion) (failing : Byte)
    (told : Tidings) (areas : List Area) : Prop where
  mtu : Z.mtu = p.mtu
  cvt : Z.cvt = p.cvt
  rbp : Z.rbp = p.rbp
  rej : Z.rej = p.rej
  odk : Z.odk = X.odk
  syncLine : Z.syncLine = p.syncLine
  lrst : Z.lrst = p.lrst
  freeCount : Z.freeCount = p.freeCount
  fault : Z.rpu.fault = p.rpu.fault
  sac : Z.sac = p.sac.put z k.shut
  shown : Z.mirrored .sac
  spm : Z.spm = p.spm.shut z
  cams : Z.camerasAre z false
  rest : p.camerasAre z false → Z.ctu = p.ctu ∧ Z.trl = p.trl ∧ ∃ E : Part,
    p.Plain E told (areas ++ [.mirror .spm, .mirror .sac]) ∧
    (E.handOutcome 2 (k.shut.outcome (zoneMember z) event 0 c failing)).Plain Z [(event.sealNews, zoneMember z)]
      [.bulletin 6, .mirror .sac]

theorem AccessEvent.sealNews_bulletin (e : AccessEvent) : e.sealNews.bulletin = 6 := by cases e <;> rfl

theorem Part.sealZone_seals {p X : Part} {z : Fin 8} {k : Zone} {told : Tidings} {areas : List Area}
    (h : p.Near X z k p.spm told areas) (event : AccessEvent) (c : Completion) (failing : Byte) :
    p.Sealing X (X.sealZone z event c failing) z k event c failing told areas := by
  obtain ⟨F, hFd⟩ : ∃ F, F = X.modZone z fun k =>
    { k with state := .sealed, level := .none, origin := .none, badge := 0, expiry := none, doorRel := false } := ⟨_, rfl⟩
  have hF : X.AccessOnly F := hFd ▸ (Part.AccessOnly.refl X).modZone z _
  have hFs : F.sac = p.sac.put z k.shut := by rw [hFd, Part.modZone_sac, h.sac]; simp [Zone.shut]
  obtain ⟨G, hGd⟩ : ∃ G, G = F.zoneServiceAll z false := ⟨_, rfl⟩
  have hGf : G.mtu = F.mtu ∧ G.cvt = F.cvt ∧ G.rbp = F.rbp ∧ G.rej = F.rej ∧ G.spm = F.spm ∧ G.sac = F.sac ∧ G.odk = F.odk ∧
      G.syncLine = F.syncLine ∧ G.lrst = F.lrst ∧ G.freeCount = F.freeCount ∧ G.rpu.fault = F.rpu.fault := by
    rw [hGd]; simp
  obtain ⟨g1, g2, g3, g4, g5, g6, g7, g8, g9, g10, g11⟩ := hGf
  have hGc : G.camerasAre z false := hGd ▸ Part.zoneServiceAll_sets F z false
  obtain ⟨c1, c2⟩ := Part.closeZonePorts_eq G z
  obtain ⟨E, hEd⟩ : ∃ E, E = G.closeZonePorts z := ⟨_, rfl⟩
  rw [← hEd] at c1 c2
  have hEs : E.sac = p.sac.put z k.shut := c1.sac.trans (g6.trans hFs)
  let body := k.shut.outcome (zoneMember z) event 0 c failing
  obtain ⟨Z, hZd⟩ : ∃ Z, Z = ((E.handOutcome 2 body).raise event.sealNews (zoneMember z)).rewrite .sac := ⟨_, rfl⟩
  have hZ : X.sealZone z event c failing = Z := by
    unfold Part.sealZone
    dsimp only
    rw [← hFd, ← hGd, ← hEd, show E.sac.zones[z] = k.shut from Sac.get_of hEs, hZd]
  rw [hZ]
  have hZf : Z.mtu = E.mtu ∧ Z.cvt = E.cvt ∧ Z.rbp = E.rbp ∧ Z.rej = E.rej ∧ Z.spm = E.spm ∧ Z.sac = E.sac ∧ Z.odk = E.odk ∧
      Z.syncLine = E.syncLine ∧ Z.lrst = E.lrst ∧ Z.freeCount = E.freeCount ∧ Z.rpu.fault = E.rpu.fault ∧ Z.ctu = E.ctu ∧ Z.trl = E.trl := by
    rw [hZd]; simp
  obtain ⟨z1, z2, z3, z4, z5, z6, z7, z8, z9, z10, z11, z12, z13⟩ := hZf
  have hXF := hF
  refine ⟨?_, ?_, ?_, ?_, ?_, ?_, ?_, ?_, ?_, z6.trans hEs, by rw [hZd]; exact Part.rewrite_mirrored _ _, ?_, ?_, ?_⟩
  · exact z1.trans (c1.mtu.trans (g1.trans (hF.mtu.trans h.mtu)))
  · exact z2.trans (c1.cvt.trans (g2.trans (hF.cvt.trans h.cvt)))
  · exact z3.trans (c1.rbp.trans (g3.trans (hF.rbp.trans h.rbp)))
  · exact z4.trans (c1.rej.trans (g4.trans (hF.rej.trans h.rej)))
  · exact z7.trans (c1.odk.trans (g7.trans hF.odk))
  · exact z8.trans (c1.syncLine.trans (g8.trans (hF.syncLine.trans h.syncLine)))
  · exact z9.trans (c1.lrst.trans (g9.trans (hF.lrst.trans h.lrst)))
  · exact z10.trans (c1.freeCount.trans (g10.trans (hF.freeCount.trans h.freeCount)))
  · exact z11.trans (c1.fault.trans (g11.trans (hF.fault.trans h.fault)))
  · rw [z5, c2, g5, show F.spm = X.spm by rw [hFd]; rfl, h.spm]
  · exact Part.camerasAre_congr (z2.trans c1.cvt) (z12.trans c1.ctu) hGc
  · intro hp
    have hGF : G = F := hGd.trans (Part.zoneServiceAll_same _ _ _
      (Part.camerasAre_congr (hF.cvt.trans h.cvt) (hF.ctu.trans h.ctu) hp))
    subst hGF
    refine ⟨z12.trans (c1.ctu.trans (hF.ctu.trans h.ctu)), z13.trans (c1.trl.trans (hF.trl.trans h.trl)), E, ?_, ?_⟩
    · have := h.plain.trans (hF.trans c1.access).plain
      simpa using this
    · rw [hZd, ← event.sealNews_bulletin]
      exact ((Part.Plain.refl _).raise event.sealNews (zoneMember z) (by rw [event.sealNews_bulletin]; decide)).rewrite .sac

/-- A sealing, as a statement lists it. -/
theorem Part.Sealing.seals {p X Z : Part} {z : Fin 8} {k : Zone} {event : AccessEvent} {told : Tidings} {areas as : List Area}
    (h : p.Sealing X Z z k event ⟨.ok, 0⟩ 255 told areas) (hj : areas ⊆ as ++ [.bulletin 6, .mirror .spm, .mirror .sac]) :
    p.seals Z z k.shut event told as := by
  refine ⟨h.sac, h.shown, h.fault, h.spm, h.cams, fun hp => ?_⟩
  obtain ⟨a, b, E, hE, hZ⟩ := h.rest hp
  refine ⟨Part.eq_of_fields h.mtu h.cvt b h.rbp a h.rej rfl rfl rfl rfl h.syncLine h.lrst rfl h.freeCount, ?_⟩
  refine Part.records_as 2 _ (Zone.outcome_length _ _ _ _ _ _) hE hZ (by simp [Area.besideRecords]) rfl ?_
  refine List.append_subset.mpr ⟨List.append_subset.mpr ⟨hj, by simp⟩, by simp⟩

/-- The same where the desk then completed the order of the take. -/
theorem Part.Sealing.seals_settled {p X Z q : Part} {n : Fin 48} {z : Fin 8} {k : Zone} {event : AccessEvent} {told : Tidings}
    {areas as : List Area} (h : p.Sealing X Z z k event ⟨.ok, 0⟩ 255 told areas) (hs : Z.Settled q n)
    (hj : areas ⊆ as ++ [.bulletin 6, .mirror .spm, .mirror .sac]) (hc : .cell n ∈ as) (ho : .mirror .odk ∈ as) :
    p.seals q z k.shut event told as := by
  refine ⟨hs.sac.trans h.sac, hs.mirrored .sac (by decide) h.shown, hs.fault.trans h.fault, hs.spm.trans h.spm,
    Part.camerasAre_congr hs.cvt hs.ctu h.cams, fun hp => ?_⟩
  obtain ⟨a, b, E, hE, hZ⟩ := h.rest hp
  refine ⟨Part.eq_of_fields (hs.mtu.trans h.mtu) (hs.cvt.trans h.cvt) (hs.trl.trans b) (hs.rbp.trans h.rbp) (hs.ctu.trans a)
    (hs.rej.trans h.rej) rfl rfl rfl rfl (hs.syncLine.trans h.syncLine) (hs.lrst.trans h.lrst) rfl
    (hs.freeCount.trans h.freeCount), ?_⟩
  refine Part.records_as 2 _ (Zone.outcome_length _ _ _ _ _ _) hE (hZ.settled hs) (by simp [Area.besideRecords]) rfl ?_
  refine List.append_subset.mpr ⟨List.append_subset.mpr ⟨hj, by simp⟩, ?_⟩
  intro x hx
  simp only [List.mem_append, List.mem_cons, List.not_mem_nil, or_false] at hx
  rcases hx with (hx | hx) | hx | hx <;> subst hx <;> simp [hc, ho]

end Sys2Proof.Machine
end

