-- ==== Sys2Proof/Laws/Cells.lean ====
section
/-! SUPPORT. The cells of orders (R175): what the cameras, the sockets and the zones do stores to none of them. -/

namespace Sys2Proof.Machine

theorem fold_cell {α : Type} (l : List α) (f : Part → α → Part) (p : Part) (n : Fin 48)
    (h : ∀ p a, Memory.read (f p a).mem (cellBase n) 12 = Memory.read p.mem (cellBase n) 12) :
    Memory.read (l.foldl f p).mem (cellBase n) 12 = Memory.read p.mem (cellBase n) 12 :=
  fold_keep (fun p => Memory.read p.mem (cellBase n) 12) l f p h

@[simp] theorem Part.setVerdict_cell (p : Part) (seq : Word) (c : Fin 6) (v : Verdict) (n : Fin 48) :
    Memory.read (p.setVerdict seq c v).mem (cellBase n) 12 = Memory.read p.mem (cellBase n) 12 := by
  unfold Part.setVerdict Part.evidence; simp

@[simp] theorem Part.setTrigger_cell (p : Part) (seq : Word) (c : Fin 6) (t : Time) (n : Fin 48) :
    Memory.read (p.setTrigger seq c t).mem (cellBase n) 12 = Memory.read p.mem (cellBase n) 12 := by
  unfold Part.setTrigger Part.evidence; simp

@[simp] theorem Part.noVerdict_cell (p : Part) (seq : Word) (c : Fin 6) (n : Fin 48) :
    Memory.read (p.noVerdict seq c).mem (cellBase n) 12 = Memory.read p.mem (cellBase n) 12 := by
  unfold Part.noVerdict Part.countCamera; simp

@[simp] theorem Part.emptyAwaiting_cell (p : Part) (c : Fin 6) (n : Fin 48) :
    Memory.read (p.emptyAwaiting c).mem (cellBase n) 12 = Memory.read p.mem (cellBase n) 12 := by
  unfold Part.emptyAwaiting; dsimp only; rw [fold_cell _ _ _ _ (fun _ _ => by simp)]; simp

@[simp] theorem Part.degrade_cell (p : Part) (c : Fin 6) (cause : DegradeCause) (n : Fin 48) :
    Memory.read (p.degrade c cause).mem (cellBase n) 12 = Memory.read p.mem (cellBase n) 12 := by
  unfold Part.degrade; dsimp only; (repeat' split) <;> simp

@[simp] theorem Part.gainMissed_cell (p : Part) (c : Fin 6) (n : Fin 48) :
    Memory.read (p.gainMissed c).mem (cellBase n) 12 = Memory.read p.mem (cellBase n) 12 := by
  unfold Part.gainMissed; dsimp only; (repeat' split) <;> simp

@[simp] theorem Part.makeRoom_cell (k : Nat) (first : Bool) (p : Part) (c : Fin 6) (seq : Word) (n : Fin 48) :
    Memory.read (Part.makeRoom k first p c seq).mem (cellBase n) 12 = Memory.read p.mem (cellBase n) 12 :=
  Part.makeRoom_keep (fun p => Memory.read p.mem (cellBase n) 12) c seq (fun _ _ => by simp) (fun _ _ => by simp)
    (fun _ => by simp) (fun _ => by simp) k first p

@[simp] theorem Part.happen_cell (p : Part) (c : Fin 6) (n : Fin 48) :
    Memory.read (p.happen c).mem (cellBase n) 12 = Memory.read p.mem (cellBase n) 12 := by
  unfold Part.happen Part.joinAwaiting; dsimp only; (repeat' split) <;> simp

@[simp] theorem Part.takeFire_cell (p : Part) (c : Fin 6) (seq : Word) (n : Fin 48) :
    Memory.read (p.takeFire c seq).mem (cellBase n) 12 = Memory.read p.mem (cellBase n) 12 := by
  unfold Part.takeFire Part.fallDue Part.setFireTime; dsimp only; (repeat' split) <;> simp

@[simp] theorem Part.cameraChanged_cell (p : Part) (c : Fin 6) (before : CameraState) (n : Fin 48) :
    Memory.read (p.cameraChanged c before).mem (cellBase n) 12 = Memory.read p.mem (cellBase n) 12 := by
  unfold Part.cameraChanged; dsimp only
  (repeat' split) <;> (try rw [fold_cell _ _ _ _ (fun _ _ => by simp)]) <;> simp

@[simp] theorem Part.zoneService_cell (p : Part) (c : Fin 6) (on : Bool) (n : Fin 48) :
    Memory.read (p.zoneService c on).mem (cellBase n) 12 = Memory.read p.mem (cellBase n) 12 := by
  unfold Part.zoneService Part.setCameraFlags; dsimp only; split <;> simp

@[simp] theorem Part.zoneServiceAll_cell (p : Part) (z : Fin 8) (on : Bool) (n : Fin 48) :
    Memory.read (p.zoneServiceAll z on).mem (cellBase n) 12 = Memory.read p.mem (cellBase n) 12 := by
  unfold Part.zoneServiceAll
  exact fold_cell _ _ _ _ fun p c => by unfold Part.zoneServiceMember; split <;> simp

theorem Part.AccessOnly.cell {p q : Part} (h : p.AccessOnly q) (n : Fin 48) :
    Memory.read q.mem (cellBase n) 12 = Memory.read p.mem (cellBase n) 12 :=
  Memory.read_cell_of n [.mirror .spm, .mirror .sac]
    (h.stores _ _ (by simp) (by simp) (Memory.storesOnly_refl _ _)) (by simp)

@[simp] theorem Part.closeZonePorts_cell (p : Part) (z : Fin 8) (n : Fin 48) :
    Memory.read (p.closeZonePorts z).mem (cellBase n) 12 = Memory.read p.mem (cellBase n) 12 :=
  (Part.closeZonePorts_eq p z).1.access.cell n

@[simp] theorem Part.evalDoorRel_cell (p : Part) (z : Fin 8) (n : Fin 48) :
    Memory.read (p.evalDoorRel z).mem (cellBase n) 12 = Memory.read p.mem (cellBase n) 12 :=
  (Part.evalDoorRel_only p z).cell n

/-- R147: a sealing stores to no cell. -/
@[simp] theorem Part.sealZone_cell (p : Part) (z : Fin 8) (event : AccessEvent) (c : Completion) (failing : Byte)
    (n : Fin 48) :
    Memory.read (p.sealZone z event c failing).mem (cellBase n) 12 = Memory.read p.mem (cellBase n) 12 := by
  unfold Part.sealZone
  dsimp only
  rw [Part.rewrite_cell, Part.raise_cell, Part.handOutcome_cell _ _ _ (Zone.outcome_length _ _ _ _ _ _)]
  simp

@[simp] theorem Part.accessOutcome_cell (p : Part) (z : Fin 8) (event : AccessEvent) (n : Fin 48) :
    Memory.read (p.accessOutcome z event).mem (cellBase n) 12 = Memory.read p.mem (cellBase n) 12 :=
  Part.handOutcome_cell _ _ _ (Zone.outcome_length _ _ _ _ _ _) n

end Sys2Proof.Machine
end

