-- ==== Sys2Proof/Laws/Apart.lean ====
section
/-! SUPPORT. What happens to one zone leaves the others alone (R146 to R160), and a zone that is OPEN keeps its state, its
level and its origin while robots report (R74) and are asked to halt (R68, R69). -/

namespace Sys2Proof.Machine

/-! ## One zone at a time -/

theorem Part.modZone_apart (p : Part) (y z : Fin 8) (f : Zone → Zone) (h : z ≠ y) :
    (p.modZone y f).sac.zones[z.val] = p.sac.zones[z.val] := Sac.put_ne _ _ _ _ h

theorem Part.endRequest_apart (p : Part) (y z : Fin 8) (r : Result) (d : Byte) (h : z ≠ y) :
    (p.endRequest y r d).sac.zones[z.val] = p.sac.zones[z.val] := by
  unfold Part.endRequest; rw [Part.modZone_apart _ _ _ _ h]; simp

theorem Part.evalDoorRel_apart (p : Part) (y z : Fin 8) (h : z ≠ y) :
    (p.evalDoorRel y).sac.zones[z.val] = p.sac.zones[z.val] := by
  rw [Part.evalDoorRel_sac]; exact Sac.put_ne _ _ _ _ h

theorem Part.grantApply_apart (p : Part) (y z : Fin 8) (l : AccessLevel) (o : ZoneOrigin) (n : Nat) (b : Half) (h : z ≠ y) :
    (p.grantApply y l o n b).sac.zones[z.val] = p.sac.zones[z.val] := by
  unfold Part.grantApply; dsimp only
  (repeat' split) <;> (try simp only [Part.zoneServiceAll_frame, Part.openZonePorts_frame]) <;>
    exact Part.modZone_apart _ _ _ _ h

theorem Part.grantClose_apart (p : Part) (y z : Fin 8) (r : Result) (h : z ≠ y) :
    (p.grantClose y r).sac.zones[z.val] = p.sac.zones[z.val] := by
  unfold Part.grantClose
  simp only [Part.rewrite_frame, Part.raise_frame, Part.accessOutcome_frame]
  exact Part.endRequest_apart _ _ _ _ _ h

theorem Part.sealZone_apart (p : Part) (y z : Fin 8) (e : AccessEvent) (c : Completion) (f : Byte) (h : z ≠ y) :
    (p.sealZone y e c f).sac.zones[z.val] = p.sac.zones[z.val] := by
  unfold Part.sealZone; dsimp only
  simp only [Part.rewrite_frame, Part.raise_frame, Part.handOutcome_frame, Part.closeZonePorts_frame,
    Part.zoneServiceAll_frame]
  exact Part.modZone_apart _ _ _ _ h

theorem Part.failRequest_apart (p : Part) (y z : Fin 8) (r : Fin 6) (h : z ≠ y) :
    (p.failRequest y r).sac.zones[z.val] = p.sac.zones[z.val] := by
  unfold Part.failRequest
  dsimp only
  split <;> split <;>
    first
    | rw [Part.sealZone_apart _ _ _ _ _ _ h, Part.endRequest_apart _ _ _ _ _ h]
    | (simp only [Part.rewrite_frame, Part.raise_frame, Part.handOutcome_frame]
       rw [Part.evalDoorRel_apart _ _ _ h, Part.modZone_apart _ _ _ _ h, Part.endRequest_apart _ _ _ _ _ h])

theorem Part.judgeHalting_apart (p : Part) (y z : Fin 8) (h : z ≠ y) :
    (p.judgeHalting y).sac.zones[z.val] = p.sac.zones[z.val] := by
  unfold Part.judgeHalting
  split
  · split
    · rw [Part.grantClose_apart _ _ _ _ h, Part.evalDoorRel_apart _ _ _ h, Part.grantApply_apart _ _ _ _ _ _ _ h]
    · split
      · exact Part.failRequest_apart _ _ _ _ h
      · rfl
  · rfl

theorem Part.hearRobot_apart (p : Part) (r : Fin 6) (y z : Fin 8) (h : z ≠ y) :
    (p.hearRobot r y).sac.zones[z.val] = p.sac.zones[z.val] := by
  unfold Part.hearRobot
  (repeat' split)
  · exact Part.judgeHalting_apart _ _ _ h
  · exact Part.evalDoorRel_apart _ _ _ h
  · rfl

/-! ## A zone that is OPEN stays so -/

/-- The zone is as it was in state, level and origin, and is not HALTING. -/
def Part.steady (p q : Part) (z : Fin 8) : Prop :=
  p.sac.zones[z.val].state ≠ .halting → q.sac.zones[z.val].state = p.sac.zones[z.val].state ∧
    q.sac.zones[z.val].level = p.sac.zones[z.val].level ∧ q.sac.zones[z.val].origin = p.sac.zones[z.val].origin

theorem Part.steady.trans {p q r : Part} {z : Fin 8} (h : p.steady q z) (k : q.steady r z) : p.steady r z := by
  intro hp
  obtain ⟨a, b, c⟩ := h hp
  obtain ⟨d, e, f⟩ := k (a ▸ hp)
  exact ⟨d.trans a, e.trans b, f.trans c⟩

theorem Part.steady.of_sac {p q : Part} {z : Fin 8} (h : q.sac = p.sac) : p.steady q z := fun _ => by rw [h]; simp

theorem Part.steady_fold {α : Type} (z : Fin 8) (f : Part → α → Part) (h : ∀ p a, Part.steady p (f p a) z) (l : List α)
    (p : Part) : p.steady (l.foldl f p) z := by
  induction l generalizing p with
  | nil => exact .of_sac rfl
  | cons a l ih => exact (h p a).trans (ih _)

theorem Part.hearRobot_steady (p : Part) (r : Fin 6) (y z : Fin 8) : p.steady (p.hearRobot r y) z := by
  intro hp
  by_cases h : z = y
  · subst h
    unfold Part.hearRobot
    split
    · rw [if_neg (show ¬ p.sac.zones[z].state = .halting from hp)]; simp
    · simp
  · rw [Part.hearRobot_apart _ _ _ _ h]; simp

theorem Part.reportRobot_steady (p : Part) (r : Fin 6) (z : Fin 8) : p.steady (p.reportRobot r) z :=
  Part.steady_fold z _ (fun p y => (p.hearRobot_steady r y z).trans fun _ => by simp) _ _

theorem Part.robotChanged_steady (p : Part) (r : Fin 6) (b : RobotState) (z : Fin 8) : p.steady (p.robotChanged r b) z := by
  unfold Part.robotChanged
  dsimp only
  split
  · exact .of_sac (by simp)
  · split
    · exact (Part.steady.of_sac (by simp)).trans (Part.reportRobot_steady _ _ _)
    · exact (Part.steady.of_sac (by simp)).trans (Part.reportRobot_steady _ _ _)

theorem Part.finishHalt_steady (p : Part) (r : Fin 6) (z : Fin 8) : p.steady (p.finishHalt r) z := by
  unfold Part.finishHalt; dsimp only
  exact (Part.steady.of_sac (by simp)).trans (Part.robotChanged_steady _ _ _ _)

theorem Part.beginHalt_steady (p : Part) (r : Fin 6) (o : HaltOrigin) (ref : Option OrderRef) (z : Fin 8) :
    p.steady (p.beginHalt r o ref) z := by
  have h : p.steady ((p.modRobot r fun k => { k with
      state := .halting, haltOrigin := some o, order := ref, deadline := some (p.haltDeadline r) }).robotChanged r
        p.rbp.robots[r].state) z :=
    (Part.steady.of_sac (by simp)).trans (Part.robotChanged_steady _ _ _ _)
  unfold Part.beginHalt
  dsimp only
  split
  · exact h.trans (Part.finishHalt_steady _ _ _)
  · exact h

theorem Part.requestHalt_steady (p : Part) (r : Fin 6) (o : HaltOrigin) (z : Fin 8) : p.steady (p.requestHalt r o) z := by
  unfold Part.requestHalt; dsimp only
  split
  · exact (Part.steady.of_sac (by simp)).trans (Part.beginHalt_steady _ _ _ _ _)
  · exact .of_sac rfl

/-- R146: a zone's own halt requests leave its state, level and origin. -/
theorem Part.haltMembers_steady (p : Part) (y z : Fin 8) : p.steady (p.haltMembers y) z := by
  unfold Part.haltMembers; dsimp only
  refine Part.steady.trans ?_ (Part.steady_fold z _ (fun p r => p.requestHalt_steady r _ z) _ _)
  intro _
  by_cases h : z = y
  · subst h; simp
  · simp only [Part.rewrite_frame]; rw [Part.modZone_apart _ _ _ _ h]; simp

/-! ## A robot asked to halt has no run request (R64) -/

@[simp] theorem Part.reportRobot_states (p : Part) (r : Fin 6) : (p.reportRobot r).rbp = p.rbp := by simp

theorem Part.beginHalt_runReq (p : Part) (r k : Fin 6) (o : HaltOrigin) (ref : Option OrderRef) :
    (p.beginHalt r o ref).rbp.robots[k.val].runReq = if k = r then false else p.rbp.robots[k.val].runReq := by
  have hr : ∀ x y : Robot, x.state = y.state → x.runReq = y.runReq := fun x y h => by unfold Robot.runReq; rw [h]
  have hm : ∀ (q : Part) (f : Robot → Robot) (k : Fin 6), k ≠ r → (q.modRobot r f).rbp.robots[k.val] = q.rbp.robots[k.val] := by
    intro q f k hk
    have : r.val ≠ k.val := fun e => hk (Fin.ext e.symm)
    simp [modAt, this]
  let A := (p.modRobot r fun k => { k with
      state := .halting, haltOrigin := some o, order := ref, deadline := some (p.haltDeadline r) }).robotChanged r p.rbp.robots[r].state
  have hA : A.rbp.robots[k.val].runReq = if k = r then false else p.rbp.robots[k.val].runReq := by
    by_cases h : k = r
    · subst h
      rw [if_pos rfl]
      rw [hr _ _ (((p.modRobot k fun k' => { k' with
        state := .halting, haltOrigin := some o, order := ref, deadline := some (p.haltDeadline k) }).robotChanged_frame k
          p.rbp.robots[k].state).2.2.2.2.2.2.2.2.2.2.2.2.2.2.1 k)]
      simp [Robot.runReq]
    · rw [if_neg h]
      refine (hr _ _ (((p.modRobot r fun k' => { k' with
        state := .halting, haltOrigin := some o, order := ref, deadline := some (p.haltDeadline r) }).robotChanged_frame r
          p.rbp.robots[r].state).2.2.2.2.2.2.2.2.2.2.2.2.2.2.1 k)).trans ?_
      rw [hm _ _ _ h]
  show (if A.rbp.robots[r].pins.haltAck = true ∧ A.rbp.robots[r].state = .halting then A.finishHalt r else A).rbp.robots[k.val].runReq = _
  split
  · unfold Part.finishHalt; dsimp only
    by_cases h : k = r
    · subst h
      rw [if_pos rfl, hr _ { A.rbp.robots[k.val] with state := .halted } (by simp)]; rfl
    · rw [if_neg h]
      rw [if_neg h] at hA
      rw [hr _ A.rbp.robots[k.val] (by simp only [Part.robotChanged_frame, Part.raise_frame, Part.completeIf_frame]; rw [hm _ _ _ h]), hA]
  · exact hA

end Sys2Proof.Machine
end

