-- ==== Sys2Proof/Laws/Depth.lean ====
section
/-! SUPPORT. High-water stays ahead of position by the depth (R20): what each operation that moves one of the three does
to it. -/

namespace Sys2Proof.Machine

theorem Part.depthHolds_of {p q : Part} (h : p.depthHolds) (h1 : q.cvt.position = p.cvt.position) (h2 : q.cvt.highWater = p.cvt.highWater) (h3 : q.cvt.depth = p.cvt.depth) : q.depthHolds := by
  unfold Part.depthHolds at *; rw [h1, h2, h3, h]

theorem Part.travel_depthHolds (n : Nat) : ∀ (choices : List Nat) (a b : Bool) (p : Part) (f : Profile), p.depthHolds → (Part.travel n choices a b p f).depthHolds := by
  intro choices a b p f h
  exact Part.depthHolds_of h (by simp) (by simp) (by simp)

theorem Part.forward_depthHolds (p : Part) (c : List Nat) (h : p.depthHolds) : (p.forward c).depthHolds := by
  unfold Part.forward
  split
  · rename_i hd
    unfold Part.advance
    have : (p.modCvt fun c => { c with position := c.position + 1, highWater := c.highWater + 1 }).depthHolds := by
      unfold Part.depthHolds at *; simp only [Part.modCvt_fields]; rw [h, hd]; simp [counts]
    dsimp only
    split
    · exact this
    · exact Part.travel_depthHolds _ _ _ _ _ _ (Part.depthHolds_of this rfl rfl rfl)
  · rename_i d hd
    have : (p.modCvt fun c => { c with position := c.position + 1, depth := d }).depthHolds := by
      unfold Part.depthHolds at *; simp only [Part.modCvt_fields]; rw [h, hd]; unfold counts
      rw [show (BitVec.ofNat 32 (d + 1)) = BitVec.ofNat 32 d + 1 from by simp [BitVec.ofNat_add]]
      grind
    dsimp only
    split
    · exact Part.depthHolds_of this (by simp [Part.endExcursion]) (by simp [Part.endExcursion]) (by simp [Part.endExcursion])
    · exact this

theorem Part.backward_depthHolds (p : Part) (h : p.depthHolds) : p.backward.depthHolds := by
  unfold Part.backward
  have : (p.modCvt fun c =>
    if c.depth < 2147483647 then { c with position := c.position - 1, depth := c.depth + 1 }
    else { c with position := c.position - 1, highWater := c.highWater - 1 }).depthHolds := by
    unfold Part.depthHolds at *; simp only [Part.modCvt_fields]
    split
    · dsimp only; rw [h]; unfold counts; rw [show (BitVec.ofNat 32 (p.cvt.depth + 1)) = BitVec.ofNat 32 p.cvt.depth + 1 from by simp [BitVec.ofNat_add]]
      grind
    · dsimp only; rw [h]; grind
  dsimp only
  split
  · exact Part.depthHolds_of this (by simp [Part.beginExcursion]) (by simp [Part.beginExcursion]) (by simp [Part.beginExcursion])
  · exact this

theorem Part.encoderPair_depthHolds (p : Part) (pair : Bool × Bool) (i : Bool) (c : List Nat) (h : p.depthHolds) : (p.encoderPair pair i c).depthHolds := by
  unfold Part.encoderPair
  have h' : (p.modCvt fun c => { c with decoder := some pair, infeed := i }).depthHolds := h
  dsimp only
  (repeat' split)
  · exact h'
  · exact h'
  · exact Part.forward_depthHolds _ _ h'
  · exact Part.backward_depthHolds _ h'
  · exact Part.depthHolds_of h' (by simp [Part.encoderError]) (by simp [Part.encoderError]) (by simp [Part.encoderError])
theorem Part.beginLineReset_depthHolds (p : Part) : p.beginLineReset.depthHolds := by
  unfold Part.beginLineReset; dsimp only
  have : ∀ p : Part, p.trackerLineReset.depthHolds := by
    intro p; unfold Part.trackerLineReset Part.depthHolds; dsimp only
    split <;> simp [counts]
  generalize ((p.modRpu _).modOdk _).zonesDropOrders.timeLineReset = Y
  have hY := this Y
  generalize Y.trackerLineReset = Z at hY ⊢
  exact Part.depthHolds_of hY (by simp) (by simp) (by simp)
theorem Part.adopt_depthHolds (p : Part) (ref) (f) : (p.adopt ref f).depthHolds := by
  unfold Part.adopt; dsimp only
  have h2 : ∀ p : Part, p.trackerAdopt.depthHolds := by
    intro p; unfold Part.trackerAdopt Part.depthHolds; dsimp only; simp [counts]
  have : (p.takeParts f).depthHolds := by
    unfold Part.takeParts; dsimp only
    generalize (p.modCvt _).syncAdopt f.syncMode = Y
    have hY := h2 Y
    generalize Y.trackerAdopt = Z at hY ⊢
    exact Part.depthHolds_of hY (by simp) (by simp) (by simp)
  exact Part.depthHolds_of this (by simp) (by simp) (by simp)
theorem Part.judgeCandidate_depthHolds (p : Part) (ref) (m) (h : p.depthHolds) : (p.judgeCandidate ref m).depthHolds := by
  unfold Part.judgeCandidate
  (repeat' split)
  · exact Part.depthHolds_of h (by simp) (by simp) (by simp)
  · exact Part.depthHolds_of h (by simp) (by simp) (by simp)
  · exact Part.adopt_depthHolds _ _ _


end Sys2Proof.Machine
end

