-- ==== Sys2Proof/Laws/Evidence.lean ====
section
/-! SUPPORT. Cameras: the evidence they write (R46), the awaiting list given up (R93), and a fire that happens (R97), as
the statements say it. -/

set_option linter.unusedSimpArgs false

namespace Sys2Proof.Machine

theorem up_eq (n : Nat) : inc32 n = up n := inc32_eq n

theorem Part.cameraState_congr {p q : Part} (c : Fin 6) (h : q.cvt.profile = p.cvt.profile)
    (h1 : q.ctu.cameras[c].hostService = p.ctu.cameras[c].hostService)
    (h2 : q.ctu.cameras[c].zoneService = p.ctu.cameras[c].zoneService)
    (h3 : q.ctu.cameras[c].degraded = p.ctu.cameras[c].degraded) : q.cameraState c = p.cameraState c := by
  unfold Part.cameraState Part.cameraPresent Part.cameraSettings
  rw [h, h1, h2, h3]

theorem Part.cameraSettings_congr {p q : Part} (c : Fin 6) (h : q.cvt.profile = p.cvt.profile) :
    q.cameraSettings c = p.cameraSettings c := by
  unfold Part.cameraSettings; rw [h]

theorem Part.missedThreshold_congr {p q : Part} (c : Fin 6) (h : q.cvt.profile = p.cvt.profile) :
    q.missedThreshold c = p.missedThreshold c := by
  unfold Part.missedThreshold; rw [Part.cameraSettings_congr c h]

@[simp] theorem Ctu.put_get (b : Ctu) (c : Fin 6) (k : Camera) : (b.put c k).cameras[c.val] = k := by simp [Ctu.put]
@[simp] theorem Ctu.put_put (b : Ctu) (c : Fin 6) (k l : Camera) : (b.put c k).put c l = b.put c l := by
  simp [Ctu.put]
@[simp] theorem Ctu.put_self (b : Ctu) (c : Fin 6) : b.put c b.cameras[c.val] = b := by simp [Ctu.put]

theorem Part.modCamera_ctu (p : Part) (c : Fin 6) (f : Camera → Camera) :
    (p.modCamera c f).ctu = p.ctu.put c (f p.ctu.cameras[c.val]) := rfl

theorem Part.countCamera_ctu (p : Part) (c : Fin 6) (f : CameraCounters → CameraCounters) :
    (p.countCamera c f).ctu =
      p.ctu.put c { p.ctu.cameras[c.val] with counters := f p.ctu.cameras[c.val].counters } := rfl

@[simp] theorem Trl.each_each (t : Trl) (f g : Record → Record) : (t.each f).each g = t.each fun x => g (f x) := by
  simp [Trl.each, Function.comp_def]

theorem Trl.each_congr (t : Trl) {f g : Record → Record} (h : ∀ x, f x = g x) : t.each f = t.each g := by
  have : f = g := funext h
  rw [this]

@[simp] theorem Record.judged_seq (x : Record) (seq : Word) (c : Fin 6) (v : Verdict) : (x.judged seq c v).seq = x.seq := by
  unfold Record.judged; split <;> rfl
@[simp] theorem Record.judged_decision (x : Record) (seq : Word) (c : Fin 6) (v : Verdict) :
    (x.judged seq c v).decision = x.decision := by
  unfold Record.judged; split <;> rfl

theorem Part.setVerdict_trl (p : Part) (seq : Word) (c : Fin 6) (v : Verdict) :
    (p.setVerdict seq c v).trl = p.trl.each (·.judged seq c v) := by
  unfold Part.setVerdict Part.evidence
  simp only [Part.modRecord_fields, Trl.each]
  congr 1
  apply List.map_congr_left
  intro x _
  unfold Record.judged
  by_cases h1 : x.seq = seq <;> by_cases h2 : x.decision = .undecided
  · rw [if_pos h1, if_pos h2, if_pos ⟨h1, h2⟩]
    congr 1
    unfold modAt
    congr 1
    cases x.views[c] with
    | none => rfl
    | some w =>
      simp only [Option.map_some, CameraView.judge]
      cases hv : w.verdict <;> simp
      all_goals (cases w; simp at hv ⊢; exact hv)
  · rw [if_pos h1, if_neg h2, if_neg (fun h => h2 h.2)]
  · rw [if_neg h1, if_neg (fun h => h1 h.1)]
  · rw [if_neg h1, if_neg (fun h => h1 h.1)]

theorem Part.setTrigger_trl (p : Part) (seq : Word) (c : Fin 6) (t : Time) :
    (p.setTrigger seq c t).trl = p.trl.each (·.fired seq c t false) := by
  unfold Part.setTrigger Part.evidence
  simp only [Part.modRecord_fields, Trl.each]
  congr 1
  apply List.map_congr_left
  intro x _
  unfold Record.fired
  by_cases h1 : x.seq = seq <;> by_cases h2 : x.decision = .undecided
  · rw [if_pos h1, if_pos h2, if_pos ⟨h1, h2⟩]
    congr 1
    unfold modAt
    congr 1
    cases x.views[c] with
    | none => rfl
    | some w => cases w with | mk v tr => cases tr <;> simp
  · rw [if_pos h1, if_neg h2, if_neg (fun h => h2 h.2)]
  · rw [if_neg h1, if_neg (fun h => h1 h.1)]
  · rw [if_neg h1, if_neg (fun h => h1 h.1)]

theorem Record.fired_triggered (x : Record) (seq : Word) (c : Fin 6) (t : Time) :
    (x.fired seq c t false).judged seq c .triggered = x.fired seq c t true := by
  unfold Record.fired
  by_cases h : x.seq = seq ∧ x.decision = .undecided
  · rw [if_pos h, if_pos h]
    unfold Record.judged
    rw [if_pos h]
    simp only [Fin.getElem_fin, Vector.getElem_set_self, Vector.set_set]
    congr 2
    cases x.views[c.val] with
    | none => rfl
    | some w => simp
  · rw [if_neg h, if_neg h]
    unfold Record.judged
    rw [if_neg h]

/-! ## NO_VERDICT -/

theorem Part.noVerdict_ctu (p : Part) (seq : Word) (c : Fin 6) : (p.noVerdict seq c).ctu =
    p.ctu.put c { p.ctu.cameras[c.val] with
      counters := { p.ctu.cameras[c.val].counters with noVerdict := up p.ctu.cameras[c.val].counters.noVerdict } } := by
  unfold Part.noVerdict
  simp only [Part.rewrite_frame, Part.countCamera_ctu, up_eq]
  simp [Part.setVerdict, Part.evidence]

theorem Part.noVerdict_trl (p : Part) (seq : Word) (c : Fin 6) :
    (p.noVerdict seq c).trl = p.trl.each (·.judged seq c .noVerdict) := by
  unfold Part.noVerdict
  simp only [Part.rewrite_frame, Part.countCamera_frame, Part.setVerdict_trl]

theorem Part.noVerdict_rpu (p : Part) (seq : Word) (c : Fin 6) :
    (p.noVerdict seq c).rpu.bulletins = p.rpu.bulletins ∧ (p.noVerdict seq c).rpu.rest = p.rpu.rest := by
  unfold Part.noVerdict
  simp [Part.setVerdict, Part.evidence]

theorem Part.noVerdict_stores {m : Memory} {l : List Area} (p : Part) (seq : Word) (c : Fin 6) (hx : .mirror .ctu ∈ l)
    (h : m.storesOnly p.mem l) : m.storesOnly (p.noVerdict seq c).mem l := by
  unfold Part.noVerdict
  refine Part.rewrite_stores _ _ hx ?_
  simpa [Part.setVerdict, Part.evidence] using h

/-! ## The awaiting list given up (R93) -/

theorem Record.judged_judged (x : Record) (a b : Word) (c : Fin 6) :
    (x.judged a c .noVerdict).judged b c .noVerdict =
      if x.seq = a ∨ x.seq = b then x.judged x.seq c .noVerdict else x := by
  by_cases hu : x.decision = .undecided
  · by_cases h1 : x.seq = a <;> by_cases h2 : x.seq = b
    · subst h1
      subst h2
      rw [if_pos (Or.inl rfl)]
      unfold Record.judged
      simp only [hu, and_self, if_true, Fin.getElem_fin, Vector.getElem_set_self, Vector.set_set]
      congr 2
      cases x.views[c.val] with
      | none => rfl
      | some w => cases w with | mk v t => cases v <;> simp
    · subst h1
      rw [if_pos (Or.inl rfl)]
      unfold Record.judged
      simp [hu, h2]
    · subst h2
      rw [if_pos (Or.inr rfl)]
      unfold Record.judged
      simp [hu, h1]
    · rw [if_neg (by simp [h1, h2])]
      unfold Record.judged
      simp [h1, h2]
  · have : ∀ (y : Record) s, y.decision ≠ .undecided → y.judged s c .noVerdict = y := by
      intro y s hy; unfold Record.judged; rw [if_neg (fun h => hy h.2)]
    rw [this x a hu, this x b hu, this x x.seq hu]; simp

theorem Part.noVerdicts_trl (seqs : List Word) (p : Part) (c : Fin 6) :
    (seqs.foldl (fun p seq => p.noVerdict seq c) p).trl =
      p.trl.each fun x => if x.seq ∈ seqs then x.judged x.seq c .noVerdict else x := by
  induction seqs generalizing p with
  | nil => simp [Trl.each]
  | cons a l ih =>
    rw [List.foldl_cons, ih, Part.noVerdict_trl, Trl.each_each]
    refine Trl.each_congr _ fun x => ?_
    simp only [Record.judged_seq, List.mem_cons]
    by_cases h1 : x.seq ∈ l
    · rw [if_pos h1, if_pos (Or.inr h1), Record.judged_judged, if_pos (Or.inr rfl)]
    · rw [if_neg h1]
      by_cases h2 : x.seq = a
      · rw [if_pos (Or.inl h2)]; subst h2; rfl
      · rw [if_neg (by simp [h1, h2])]
        unfold Record.judged; rw [if_neg (fun h => h2 h.1)]

theorem Part.noVerdicts_ctu (seqs : List Word) (p : Part) (c : Fin 6) :
    (seqs.foldl (fun p seq => p.noVerdict seq c) p).ctu = p.ctu.put c { p.ctu.cameras[c.val] with
      counters := { p.ctu.cameras[c.val].counters with
        noVerdict := if seqs = [] then p.ctu.cameras[c.val].counters.noVerdict
          else min 4294967295 (p.ctu.cameras[c.val].counters.noVerdict + seqs.length) } } := by
  induction seqs generalizing p with
  | nil =>
    rw [List.foldl_nil, if_pos rfl]
    exact (Ctu.put_self p.ctu c).symm
  | cons a l ih =>
    rw [List.foldl_cons, ih, Part.noVerdict_ctu]
    simp only [Ctu.put_get, Ctu.put_put, List.length_cons, up]
    congr 3
    by_cases hl : l = []
    · subst hl; simp
    · simp only [hl, if_false, reduceCtorEq]; omega

theorem Part.noVerdicts_rpu (seqs : List Word) (p : Part) (c : Fin 6) :
    (seqs.foldl (fun p seq => p.noVerdict seq c) p).rpu.bulletins = p.rpu.bulletins ∧
    (seqs.foldl (fun p seq => p.noVerdict seq c) p).rpu.rest = p.rpu.rest := by
  induction seqs generalizing p with
  | nil => exact ⟨rfl, rfl⟩
  | cons a l ih =>
    rw [List.foldl_cons]
    obtain ⟨h1, h2⟩ := ih (p.noVerdict a c)
    obtain ⟨h3, h4⟩ := p.noVerdict_rpu a c
    exact ⟨h1.trans h3, h2.trans h4⟩

theorem Part.noVerdicts_stores {m : Memory} {l : List Area} (seqs : List Word) (p : Part) (c : Fin 6)
    (hx : .mirror .ctu ∈ l) (h : m.storesOnly p.mem l) :
    m.storesOnly (seqs.foldl (fun p seq => p.noVerdict seq c) p).mem l := by
  induction seqs generalizing p with
  | nil => exact h
  | cons a s ih => rw [List.foldl_cons]; exact ih _ (Part.noVerdict_stores p a c hx h)

/-- R93: the awaiting list of camera `c` given up. -/
theorem Part.emptyAwaiting_effects (p : Part) (c : Fin 6) :
    (p.emptyAwaiting c).trl = p.trl.each (fun x =>
      if x.seq ∈ p.ctu.cameras[c.val].awaiting then x.judged x.seq c .noVerdict else x) ∧
    (p.emptyAwaiting c).ctu = p.ctu.put c { p.ctu.cameras[c.val] with
      awaiting := []
      counters := { p.ctu.cameras[c.val].counters with
        noVerdict := if p.ctu.cameras[c.val].awaiting = [] then p.ctu.cameras[c.val].counters.noVerdict
          else min 4294967295 (p.ctu.cameras[c.val].counters.noVerdict + p.ctu.cameras[c.val].awaiting.length) } } ∧
    (p.emptyAwaiting c).rpu.bulletins = p.rpu.bulletins ∧ (p.emptyAwaiting c).rpu.rest = p.rpu.rest ∧
    ∀ (m : Memory) (l : List Area), .mirror .ctu ∈ l → m.storesOnly p.mem l →
      m.storesOnly (p.emptyAwaiting c).mem l := by
  unfold Part.emptyAwaiting
  dsimp only
  simp only [Fin.getElem_fin]
  refine ⟨?_, ?_, ?_, ?_, ?_⟩
  · rw [Part.noVerdicts_trl]; simp
  · rw [Part.noVerdicts_ctu, Part.modCamera_ctu]; simp
  · rw [(Part.noVerdicts_rpu _ _ _).1]; simp
  · rw [(Part.noVerdicts_rpu _ _ _).2]; simp
  · intro m l hx h
    exact Part.noVerdicts_stores _ _ _ hx (by simpa using h)

end Sys2Proof.Machine
end

