-- ==== Sys2Proof/Laws/Leaving.lean ====
section
/-! SUPPORT. A REJECT record leaves the list (R53, R56), and the members of a pulse are fired (R117). -/

set_option linter.unusedSimpArgs false

namespace Sys2Proof.Machine

theorem Part.record_seq {p : Part} {seq : Word} {r : Record} (h : p.record seq = some r) : r.seq = seq := by
  unfold Part.record at h
  simpa using List.find?_some h

theorem find_map_seq (l : List Record) (seq : Word) (f : Record → Record) (hf : ∀ r, (f r).seq = r.seq) :
    (l.map f).find? (fun r => r.seq == seq) = (l.find? fun r => r.seq == seq).map f := by
  induction l with
  | nil => rfl
  | cons a l ih =>
    simp only [List.map_cons, List.find?_cons, hf]
    split
    · rfl
    · exact ih

theorem Part.setEject_record (p : Part) (seq : Word) (e : EjectState) (r : Record) (h : p.record seq = some r) :
    (p.setEject seq e).record seq = some { r with eject := e } := by
  have hs := Part.record_seq h
  unfold Part.record at h ⊢
  simp only [Part.setEject, Part.modRecord_fields]
  rw [find_map_seq _ _ _ (by intro x; split <;> rfl), h]
  simp [hs]

theorem filter_eject (l : List Record) (seq : Word) (e : EjectState) :
    (l.map fun r => if r.seq = seq then { r with eject := e } else r).filter (fun x => x.seq != seq) =
      l.filter fun x => x.seq != seq := by
  induction l with
  | nil => rfl
  | cons a l ih =>
    simp only [List.map_cons, List.filter_cons]
    by_cases h : a.seq = seq <;> simp [h, ih]

/-- A REJECT record leaves the list, its eject state written; the line not draining. -/
theorem Part.leave_eq (A : Part) (seq : Word) (r : Record) (e : EjectState) (h : A.record seq = some r)
    (hd : r.decision = .reject) :
    (A.setEject seq e).remove seq =
      (if A.trl.records.filter (fun x => x.seq != seq) = [] then Part.listEmptied else id)
      ((((((A.setEject seq e).modTrl fun t => { t with records := t.records.filter fun x => x.seq != seq }).handOutcome 1
        { r with eject := e }.outcome).modTrl fun t => t.countRemoval { r with eject := e }).rewrite .trl)) := by
  unfold Part.remove
  rw [Part.setEject_record A seq e r h]
  dsimp only
  have hrec : ∀ (X : Part), X.trl.records = A.trl.records.filter (fun x => x.seq != seq) →
      (if X.trl.records.isEmpty then X.listEmptied else X) =
        (if A.trl.records.filter (fun x => x.seq != seq) = [] then Part.listEmptied else id) X := by
    intro X hX
    rw [hX]
    by_cases he : A.trl.records.filter (fun x => x.seq != seq) = []
    · rw [he]; rfl
    · rw [if_neg he]
      cases hl : A.trl.records.filter (fun x => x.seq != seq) with
      | nil => exact absurd hl he
      | cons a l => rfl
  refine hrec _ ?_
  simp only [Part.rewrite_frame, Part.modTrl_fields, Part.handOutcome_frame, Trl.countRemoval, hd]
  simp only [Part.setEject, Part.modRecord_fields]
  exact filter_eject _ _ _

theorem Part.listEmptied_idle (p : Part) (h : p.cvt.tracker ≠ .draining) : p.listEmptied = p := by
  unfold Part.listEmptied; rw [if_neg h]

/-- The same where the line is not draining: nothing but the list, the pages and the record changes. -/
theorem Part.leave_of (A : Part) (seq : Word) (r : Record) (e : EjectState) (h : A.record seq = some r)
    (hd : r.decision = .reject) (ht : A.cvt.tracker ≠ .draining) :
    ∃ B : Part, A.Plain B [] [] ∧ (A.setEject seq e).remove seq =
      ((B.handOutcome 1 { r with eject := e }.outcome).modTrl fun t => t.countRemoval { r with eject := e }).rewrite .trl ∧
      ((A.setEject seq e).remove seq).trl = A.trl.without { r with eject := e } ∧
      B = { A with trl := B.trl } := by
  refine ⟨(A.setEject seq e).modTrl fun t => { t with records := t.records.filter fun x => x.seq != seq },
    Part.Plain.refl_of rfl rfl rfl, ?_, ?_, rfl⟩
  · rw [Part.leave_eq A seq r e h hd]
    split
    · rw [Part.listEmptied_idle]; simpa [Part.setEject] using ht
    · rfl
  · rw [Part.leave_eq A seq r e h hd]
    have hs := Part.record_seq h
    have key : ((((A.setEject seq e).modTrl fun t => { t with records := t.records.filter fun x => x.seq != seq }).handOutcome
        1 { r with eject := e }.outcome).modTrl fun t => t.countRemoval { r with eject := e }).trl =
        A.trl.without { r with eject := e } := by
      simp only [Part.modTrl_fields, Part.handOutcome_frame, Trl.countRemoval, hd, Trl.without, Part.setEject,
        Part.modRecord_fields, hs]
      congr 1
      · exact filter_eject _ _ _
      · exact inc32_eq _
    split
    · rw [Part.listEmptied_idle _ (by simpa [Part.setEject] using ht)]; exact key
    · exact key

/-! ## Firing -/

/-- R117: members fired one after another, the confirm list with room for all of them. -/
theorem Part.fireMembers_confirming (seqs : List Word) (p : Part) (hc : p.confirming = true)
    (hl : p.rej.confirm.length + seqs.length ≤ 8) :
    p.fireMembers seqs = { p with
      trl := p.trl.each (fun x => if x.seq ∈ seqs then { x with eject := .fired } else x)
      rej := { p.rej with confirm := p.rej.confirm ++ seqs } } := by
  unfold Part.fireMembers
  induction seqs generalizing p with
  | nil => simp [Trl.each]
  | cons a l ih =>
    rw [List.foldl_cons]
    have h1 : p.fireMember a = { p with
        trl := p.trl.each (fun x => if x.seq = a then { x with eject := .fired } else x)
        rej := { p.rej with confirm := p.rej.confirm ++ [a] } } := by
      unfold Part.fireMember
      have hc' : (p.setEject a .fired).confirming = true := hc
      dsimp only
      rw [if_pos hc']
      have hp : (p.setEject a .fired).pushOut = p.setEject a .fired := by
        unfold Part.pushOut
        have hr : (p.setEject a .fired).rej = p.rej := rfl
        rw [hr]
        split
        · rw [if_neg]; simp only [List.length_cons] at hl; omega
        · rfl
      rw [hp]; rfl
    rw [h1, ih]
    · simp only [List.append_assoc, List.singleton_append]
      refine Part.eq_of_fields rfl rfl ?_ rfl rfl rfl rfl rfl rfl rfl rfl rfl rfl rfl
      simp only [Trl.each, List.map_map, Function.comp_def]
      congr 2
      funext x
      by_cases h1 : x.seq = a <;> by_cases h2 : x.seq ∈ l <;> simp [h1, h2]
    · exact hc
    · simp only [List.length_append, List.length_cons, List.length_nil] at hl ⊢; omega

end Sys2Proof.Machine
end

