-- ==== Sys2Proof/Laws/Tidy.lean ====
section
/-! SUPPORT. What every writer of the exchange memory keeps: the canonical form, even update counts, one FILLING page
with room (Part.tidy), and the staging area as it stood. First the shared operations. -/

namespace Sys2Proof.Machine

/-! ## Changes that reach none of it -/

theorem Part.tidy_of_eq {p q : Part} (h : p.tidy) (hm : q.mem = p.mem) (hc : q.rpu.updateCounts = p.rpu.updateCounts)
    (hp : q.rpu.pages = p.rpu.pages) : q.tidy := by
  unfold Part.tidy at *; rw [hm, hc, hp]; exact h

theorem Part.staging_of_mem {p q : Part} (hm : q.mem = p.mem) : q.staging = p.staging := by
  unfold Part.staging; rw [hm]

@[simp] theorem Part.modMtu_tidy (p : Part) (f) : ((p.modMtu f).tidy ↔ p.tidy) ∧ (p.modMtu f).staging = p.staging :=
  ⟨Iff.rfl, rfl⟩
@[simp] theorem Part.modCvt_tidy (p : Part) (f) : ((p.modCvt f).tidy ↔ p.tidy) ∧ (p.modCvt f).staging = p.staging :=
  ⟨Iff.rfl, rfl⟩
@[simp] theorem Part.modTrl_tidy (p : Part) (f) : ((p.modTrl f).tidy ↔ p.tidy) ∧ (p.modTrl f).staging = p.staging :=
  ⟨Iff.rfl, rfl⟩
@[simp] theorem Part.modRbp_tidy (p : Part) (f) : ((p.modRbp f).tidy ↔ p.tidy) ∧ (p.modRbp f).staging = p.staging :=
  ⟨Iff.rfl, rfl⟩
@[simp] theorem Part.modCtu_tidy (p : Part) (f) : ((p.modCtu f).tidy ↔ p.tidy) ∧ (p.modCtu f).staging = p.staging :=
  ⟨Iff.rfl, rfl⟩
@[simp] theorem Part.modRej_tidy (p : Part) (f) : ((p.modRej f).tidy ↔ p.tidy) ∧ (p.modRej f).staging = p.staging :=
  ⟨Iff.rfl, rfl⟩
@[simp] theorem Part.modSpm_tidy (p : Part) (f) : ((p.modSpm f).tidy ↔ p.tidy) ∧ (p.modSpm f).staging = p.staging :=
  ⟨Iff.rfl, rfl⟩
@[simp] theorem Part.modSac_tidy (p : Part) (f) : ((p.modSac f).tidy ↔ p.tidy) ∧ (p.modSac f).staging = p.staging :=
  ⟨Iff.rfl, rfl⟩
@[simp] theorem Part.modOdk_tidy (p : Part) (f) : ((p.modOdk f).tidy ↔ p.tidy) ∧ (p.modOdk f).staging = p.staging :=
  ⟨Iff.rfl, rfl⟩
@[simp] theorem Part.modRobot_tidy (p : Part) (r f) :
    ((p.modRobot r f).tidy ↔ p.tidy) ∧ (p.modRobot r f).staging = p.staging := ⟨Iff.rfl, rfl⟩
@[simp] theorem Part.modCamera_tidy (p : Part) (c f) :
    ((p.modCamera c f).tidy ↔ p.tidy) ∧ (p.modCamera c f).staging = p.staging := ⟨Iff.rfl, rfl⟩
@[simp] theorem Part.modPort_tidy (p : Part) (i f) :
    ((p.modPort i f).tidy ↔ p.tidy) ∧ (p.modPort i f).staging = p.staging := ⟨Iff.rfl, rfl⟩
@[simp] theorem Part.modZone_tidy (p : Part) (z f) :
    ((p.modZone z f).tidy ↔ p.tidy) ∧ (p.modZone z f).staging = p.staging := ⟨Iff.rfl, rfl⟩
@[simp] theorem Part.modRecord_tidy (p : Part) (seq f) :
    ((p.modRecord seq f).tidy ↔ p.tidy) ∧ (p.modRecord seq f).staging = p.staging := ⟨Iff.rfl, rfl⟩
@[simp] theorem Part.setSyncLine_tidy (p : Part) (level : Bool) :
    ((p.setSyncLine level).tidy ↔ p.tidy) ∧ (p.setSyncLine level).staging = p.staging := ⟨Iff.rfl, rfl⟩
@[simp] theorem Part.setLrst_tidy (p : Part) (level : Bool) :
    ((p.setLrst level).tidy ↔ p.tidy) ∧ (p.setLrst level).staging = p.staging := ⟨Iff.rfl, rfl⟩
@[simp] theorem Part.spendFree_tidy (p : Part) :
    (p.spendFree.tidy ↔ p.tidy) ∧ p.spendFree.staging = p.staging := ⟨Iff.rfl, rfl⟩
@[simp] theorem Part.shift_tidy (p : Part) (o : Time) :
    ((p.shift o).tidy ↔ p.tidy) ∧ (p.shift o).staging = p.staging := ⟨Iff.rfl, rfl⟩
@[simp] theorem Part.modRpu_staging (p : Part) (f) : (p.modRpu f).staging = p.staging := rfl

/-- A change of the Report Unit that leaves its update counts and its pages alone. -/
@[simp] theorem Part.modRpu_tidy (p : Part) (f : Rpu → Rpu) (hc : ∀ u, (f u).updateCounts = u.updateCounts)
    (hp : ∀ u, (f u).pages = u.pages) : (p.modRpu f).tidy ↔ p.tidy := by
  unfold Part.tidy; simp [hc, hp]

/-- What every step of a fold keeps, the fold keeps. -/
theorem Part.fold_tidy {α : Type} (l : List α) (f : Part → α → Part) (p : Part)
    (h : ∀ q a, q.tidy → (f q a).tidy ∧ (f q a).staging = q.staging) (hp : p.tidy) :
    (l.foldl f p).tidy ∧ (l.foldl f p).staging = p.staging := by
  induction l generalizing p with
  | nil => exact ⟨hp, rfl⟩
  | cons a l ih =>
    obtain ⟨h1, h2⟩ := h p a hp
    obtain ⟨h3, h4⟩ := ih (f p a) h1
    exact ⟨h3, h4.trans h2⟩

/-! ## Writes -/

/-- A write below the staging area. -/
@[simp] theorem Part.store_tidy (p : Part) (base : Nat) (bytes : List Byte) (h : p.tidy) :
    (p.store base bytes).tidy :=
  ⟨Memory.write_wf _ _ _ h.1, h.2⟩

@[simp] theorem Part.store_staging (p : Part) (base : Nat) (bytes : List Byte)
    (hb : base + bytes.length ≤ stagingBase) : (p.store base bytes).staging = p.staging :=
  Memory.span_write _ _ _ _ _ (.inl hb)

/-! Where the part's own writes end. -/

theorem MirrorId.bound (m : MirrorId) : m.base + m.size ≤ stagingBase := by cases m <;> decide
theorem bulletinBase_bound (b : Fin 10) : bulletinBase b + 16 ≤ stagingBase := by
  unfold bulletinBase stagingBase; omega
theorem entryBase_bound (i : Fin 8) : entryBase i + 16 ≤ stagingBase := by unfold entryBase stagingBase; omega
theorem cellBase_bound (n : Fin 48) : cellBase n + 64 ≤ stagingBase := by unfold cellBase stagingBase; omega
theorem recordBase_bound (i : Fin 8) (k : Nat) (h : k < 32) : recordBase i k + 32 ≤ stagingBase := by
  unfold recordBase stagingBase; omega

theorem evenCounts_raise (counts : Vector Half 11) (i : Fin 11) (h : evenCounts counts = true) :
    evenCounts (modAt counts i (· + 2)) = true := by
  have key : ∀ c : Half, (c + 2).getLsbD 0 = c.getLsbD 0 := by
    intro c
    have e : ∀ b : Half, b.getLsbD 0 = decide (b.toNat % 2 = 1) := fun b => by
      rw [BitVec.getLsbD]; simp [Nat.testBit_zero]
    rw [e, e, BitVec.toNat_add]
    have : (2 : Half).toNat = 2 := rfl
    congr 1
    rw [this]
    apply propext
    omega
  simp only [evenCounts, List.all_eq_true, Vector.mem_toList_iff, Vector.mem_iff_getElem] at h ⊢
  rintro c ⟨j, hj, e⟩
  rw [← e]
  rw [show (modAt counts i (· + 2))[j] = _ from modAt_get counts i ⟨j, hj⟩ (· + 2)]
  split
  · rw [key]; exact h _ ⟨j, hj, rfl⟩
  · exact h _ ⟨j, hj, rfl⟩

@[simp] theorem Part.rewrite_tidy (p : Part) (m : MirrorId) (h : p.tidy) :
    (p.rewrite m).tidy ∧ (p.rewrite m).staging = p.staging := by
  unfold Part.rewrite
  refine ⟨Part.store_tidy _ _ _ ⟨h.1, evenCounts_raise _ _ h.2.1, h.2.2⟩, ?_⟩
  rw [Part.store_staging _ _ _ (by rw [mirrorBytes_length]; exact m.bound)]
  rfl

@[simp] theorem Part.storeBulletin_tidy (p : Part) (b : Fin 10) (h : p.tidy) :
    (p.storeBulletin b).tidy ∧ (p.storeBulletin b).staging = p.staging :=
  ⟨Part.store_tidy _ _ _ h, Part.store_staging _ _ _ (by rw [Bulletin.bytes_length]; exact bulletinBase_bound b)⟩

@[simp] theorem Part.raise_tidy (p : Part) (n : News) (member : Byte) (h : p.tidy) :
    (p.raise n member).tidy ∧ (p.raise n member).staging = p.staging := by
  unfold Part.raise; simp (maxDischargeDepth := 9) [h]

@[simp] theorem Part.storeFault_tidy (p : Part) (h : p.tidy) :
    p.storeFault.tidy ∧ p.storeFault.staging = p.staging :=
  ⟨Part.store_tidy _ _ _ h, Part.store_staging _ _ _ (by rw [FaultRecord.bytes_length]; decide)⟩

@[simp] theorem Part.report_tidy (p : Part) (k : FaultKind) (member : Byte) (seq : Word) (h : p.tidy) :
    (p.report k member seq).tidy ∧ (p.report k member seq).staging = p.staging := by
  unfold Part.report; simp (maxDischargeDepth := 9) [h]

@[simp] theorem Part.storePage_tidy (p : Part) (i : Fin 8) (h : p.tidy) :
    (p.storePage i).tidy ∧ (p.storePage i).staging = p.staging :=
  ⟨Part.store_tidy _ _ _ h, Part.store_staging _ _ _ (by rw [Page.bytes_length]; exact entryBase_bound i)⟩

@[simp] theorem Part.storeDropped_tidy (p : Part) (h : p.tidy) :
    p.storeDropped.tidy ∧ p.storeDropped.staging = p.staging :=
  ⟨Part.store_tidy _ _ _ h, Part.store_staging _ _ _ (by rw [leBytes_length]; decide)⟩

@[simp] theorem Part.writeResult_tidy (p : Part) (n : Fin 48) (kind tag t : Nat) (c : Completion) (h : p.tidy) :
    (p.writeResult n kind tag t c).tidy ∧ (p.writeResult n kind tag t c).staging = p.staging :=
  ⟨Part.store_tidy _ _ _ h, Part.store_staging _ _ _ (by simp; have := cellBase_bound n; omega)⟩

/-! ## Pages -/

theorem oneFilling_iff (pages : Vector Page 8) :
    oneFilling pages = true ↔ ∀ i j : Fin 8, pages[i.val].state = .filling → pages[j.val].state = .filling → i = j := by
  simp only [oneFilling, List.all_eq_true, Bool.or_eq_true, Bool.not_eq_true', Bool.and_eq_false_iff, beq_iff_eq,
    beq_eq_false_iff_ne, Fin.getElem_fin]
  refine ⟨fun h i j hi hj => ?_, fun h i _ j _ => ?_⟩
  · rcases h i (by fin_cases i <;> decide) j (by fin_cases j <;> decide) with e | e | e
    · exact e
    · exact absurd hi e
    · exact absurd hj e
  · by_cases hi : pages[i.val].state = .filling
    · by_cases hj : pages[j.val].state = .filling
      · exact .inl (h i j hi hj)
      · exact .inr (.inr hj)
    · exact .inr (.inl hi)

theorem fillingRoom_iff (pages : Vector Page 8) :
    fillingRoom pages = true ↔ ∀ i : Fin 8, pages[i.val].state = .filling → pages[i.val].count < 32 := by
  simp only [fillingRoom, List.all_eq_true, Bool.or_eq_true, Bool.not_eq_true', beq_eq_false_iff_ne,
    decide_eq_true_eq, Fin.getElem_fin]
  refine ⟨fun h i hi => ?_, fun h i _ => ?_⟩
  · exact (h i (by fin_cases i <;> decide)).resolve_left (fun e => e hi)
  · by_cases hi : pages[i.val].state = .filling
    · exact .inr (h i hi)
    · exact .inl hi

/-- The pages after one of them has become FILLING with room, when none was or when it was the one. -/
theorem pages_fill (pages : Vector Page 8) (i : Fin 8) (f : Page → Page)
    (hc : (f pages[i.val]).count < 32) (ho : ∀ j : Fin 8, pages[j.val].state = .filling → j = i) :
    oneFilling (modAt pages i f) = true ∧ fillingRoom (modAt pages i f) = true := by
  rw [oneFilling_iff, fillingRoom_iff]
  have g : ∀ j : Fin 8, (modAt pages i f)[j.val].state = .filling → j = i := fun j hj => by
    by_contra hn
    rw [modAt_other _ _ hn] at hj
    exact hn (ho j hj)
  refine ⟨fun a b ha hb => (g a ha).trans (g b hb).symm, fun a ha => ?_⟩
  rw [g a ha, modAt_same]; exact hc

/-- The pages after one of them has stopped being FILLING. -/
theorem pages_stop (pages : Vector Page 8) (i : Fin 8) (f : Page → Page) (ho : oneFilling pages = true)
    (hr : fillingRoom pages = true) (hs : (f pages[i.val]).state ≠ .filling) :
    oneFilling (modAt pages i f) = true ∧ fillingRoom (modAt pages i f) = true := by
  rw [oneFilling_iff, fillingRoom_iff] at *
  have g : ∀ j : Fin 8, (modAt pages i f)[j.val].state = .filling →
      (modAt pages i f)[j.val] = pages[j.val] := fun j hj => by
    by_cases hn : j = i
    · subst hn; rw [modAt_same] at hj; exact absurd hj hs
    · exact modAt_other _ _ hn
  refine ⟨fun a b ha hb => ho a b ?_ ?_, fun a ha => ?_⟩
  · rw [← g a ha]; exact ha
  · rw [← g b hb]; exact hb
  · rw [g a ha]; rw [g a ha] at ha; exact hr a ha

theorem Part.fillingPage_some (p : Part) (i : Fin 8) (h : p.fillingPage = some i) :
    p.rpu.pages[i.val].state = .filling := by
  have := List.find?_some h
  simpa using this

theorem Part.fillingPage_none (p : Part) (h : p.fillingPage = none) (i : Fin 8) :
    p.rpu.pages[i.val].state ≠ .filling := by
  have := List.find?_eq_none.mp h i (by fin_cases i <;> decide)
  simpa using this

theorem Part.openPage_tidy (p : Part) (i : Fin 8) (h : p.tidy)
    (hn : ∀ j : Fin 8, p.rpu.pages[j.val].state ≠ .filling) :
    (p.openPage i).tidy ∧ (p.openPage i).staging = p.staging := by
  have k := pages_fill p.rpu.pages i
    (fun _ => { Page.cleared with state := .filling, sequence := nextPageSequence p.rpu.lastPageSeq })
    (by simp [Page.cleared]) (fun j hj => absurd hj (hn j))
  unfold Part.openPage
  have t := Part.storePage_tidy (p.modRpu fun u =>
    { u with pages := modAt u.pages i fun _ =>
               { Page.cleared with state := .filling, sequence := nextPageSequence p.rpu.lastPageSeq }
             lastPageSeq := nextPageSequence p.rpu.lastPageSeq
             dropping := false }) i ⟨h.1, h.2.1, k.1, k.2⟩
  exact ⟨t.1, t.2⟩

theorem Part.raise_pages (p : Part) (n : News) (member : Byte) : (p.raise n member).rpu.pages = p.rpu.pages := rfl
theorem Part.storePage_pages (p : Part) (i : Fin 8) : (p.storePage i).rpu = p.rpu := rfl

/-- With no page FILLING, what is asked of the pages holds. -/
theorem pages_idle (pages : Vector Page 8) (h : ∀ j : Fin 8, pages[j.val].state ≠ .filling) :
    oneFilling pages = true ∧ fillingRoom pages = true := by
  rw [oneFilling_iff, fillingRoom_iff]
  exact ⟨fun a _ ha => absurd ha (h a), fun a ha => absurd ha (h a)⟩

/-- The FILLING page closes; it may be full. -/
theorem Part.closePage_tidy (p : Part) (i : Fin 8) (cause : CloseCause) (hw : Memory.wf p.mem = true)
    (he : evenCounts p.rpu.updateCounts = true) (ho : oneFilling p.rpu.pages = true)
    (hf : p.rpu.pages[i.val].state = .filling) :
    (p.closePage i cause).tidy ∧ (p.closePage i cause).staging = p.staging := by
  unfold Part.closePage
  simp only
  set q := p.modRpu fun u =>
    { u with pages := modAt u.pages i fun g => { g with state := .full, cause := cause }
             ageDeadline := none
             nextPage := i + 1 } with hq
  have idle : ∀ j : Fin 8, q.rpu.pages[j.val].state ≠ .filling := fun j hj => by
    rw [hq, (Part.modRpu_fields _ _).1] at hj
    simp only at hj
    by_cases e : j = i
    · subst e; rw [modAt_same] at hj; simp at hj
    · rw [modAt_other _ _ e] at hj
      exact e ((oneFilling_iff _).mp ho j i hj hf)
  have k := pages_idle q.rpu.pages idle
  obtain ⟨t1, s1⟩ := Part.storePage_tidy q i ⟨hw, he, k.1, k.2⟩
  obtain ⟨t2, s2⟩ := Part.raise_tidy (q.storePage i) .pageFull (BitVec.ofNat 8 i.val) t1
  have sq : q.staging = p.staging := rfl
  split
  · obtain ⟨t3, s3⟩ := Part.openPage_tidy ((q.storePage i).raise .pageFull (BitVec.ofNat 8 i.val)) (i + 1) t2 idle
    obtain ⟨t4, s4⟩ := Part.rewrite_tidy _ .rpu t3
    exact ⟨t4, by rw [s4, s3, s2, s1, sq]⟩
  · obtain ⟨t4, s4⟩ := Part.rewrite_tidy _ .rpu t2
    exact ⟨t4, by rw [s4, s2, s1, sq]⟩

@[simp] theorem Part.dropOutcome_tidy (p : Part) (h : p.tidy) :
    p.dropOutcome.tidy ∧ p.dropOutcome.staging = p.staging := by
  unfold Part.dropOutcome; dsimp only; split <;> simp (maxDischargeDepth := 9) [h]

/-- A record of at most 32 bytes is written into the FILLING page. -/
theorem Part.fillPage_tidy (p : Part) (i : Fin 8) (bytes : List Byte) (h : p.tidy)
    (hf : p.rpu.pages[i.val].state = .filling) (hb : bytes.length ≤ 32) :
    (p.fillPage i bytes).tidy ∧ (p.fillPage i bytes).staging = p.staging := by
  have room := (fillingRoom_iff _).mp h.2.2.2 i hf
  unfold Part.fillPage
  simp only [Fin.getElem_fin]
  set q := (p.store (recordBase i p.rpu.pages[i.val].count) bytes).modRpu fun u =>
    { u with pages := modAt u.pages i fun g =>
               { g with count := p.rpu.pages[i.val].count + 1, last := Time.low p.now
                        first := if p.rpu.pages[i.val].count = 0 then Time.low p.now else g.first }
             ageDeadline := if p.rpu.pages[i.val].count = 0 then
               some ((p.store (recordBase i p.rpu.pages[i.val].count) bytes).now + 2000000)
               else u.ageDeadline } with hq
  have sq : q.staging = p.staging :=
    Part.store_staging _ _ _ (by have := recordBase_bound i p.rpu.pages[i.val].count room; omega)
  have st : q.rpu.pages[i.val].state = .filling := by
    rw [hq, (Part.modRpu_fields _ _).1]; simp only [modAt_same]; exact hf
  have one : oneFilling q.rpu.pages = true := by
    rw [oneFilling_iff]
    intro a b ha hb
    have back : ∀ j : Fin 8, q.rpu.pages[j.val].state = .filling → p.rpu.pages[j.val].state = .filling := fun j hj => by
      rw [hq, (Part.modRpu_fields _ _).1] at hj
      simp only at hj
      by_cases e : j = i
      · subst e; exact hf
      · rw [modAt_other _ _ e] at hj; exact hj
    exact (oneFilling_iff _).mp h.2.2.1 a b (back a ha) (back b hb)
  have wfq : Memory.wf q.mem = true := Memory.write_wf _ _ _ h.1
  by_cases e : p.rpu.pages[i.val].count + 1 = 32
  · rw [if_pos e]
    obtain ⟨t1, s1⟩ := Part.closePage_tidy (q.storePage i) i .count (Memory.write_wf _ _ _ wfq) h.2.1 one st
    refine ⟨t1, ?_⟩
    rw [s1, Part.storePage, Part.store_staging _ _ _ (by rw [Page.bytes_length]; exact entryBase_bound i), sq]
  · rw [if_neg e]
    have room' : fillingRoom q.rpu.pages = true := by
      rw [fillingRoom_iff]
      intro a ha
      have ea := (oneFilling_iff _).mp one a i ha st
      subst ea
      rw [hq, (Part.modRpu_fields _ _).1]; simp only [modAt_same]; omega
    obtain ⟨t1, s1⟩ := Part.storePage_tidy q i ⟨wfq, h.2.1, one, room'⟩
    obtain ⟨t2, s2⟩ := Part.rewrite_tidy _ .rpu t1
    exact ⟨t2, by rw [s2, s1, sq]⟩

@[simp] theorem Part.handOutcome_tidy (p : Part) (kind : Byte) (body : List Byte) (h : p.tidy)
    (hb : body.length = 24) : (p.handOutcome kind body).tidy ∧ (p.handOutcome kind body).staging = p.staging := by
  unfold Part.handOutcome
  simp only
  have t : (p.modRpu fun u => { u with outcomeNumber := u.outcomeNumber + 1 }).tidy := h
  split
  · rename_i i hi
    exact Part.fillPage_tidy _ i _ t (Part.fillingPage_some _ i hi) (by simp [hb])
  · simp (maxDischargeDepth := 9) [h]

end Sys2Proof.Machine
end

