-- ==== Sys2Proof/Laws/Merges.lean ====
section
/-! SUPPORT. MERGES stays within its 32 bits: what each operation that moves the ejector's counters does to it. Every
other operation leaves the Reject Ejector alone, as its frame says. -/

namespace Sys2Proof.Machine

theorem Part.mergesFit_of {p q : Part} (h : p.mergesFit) (e : q.rej.counters.merges = p.rej.counters.merges) :
    q.mergesFit := by unfold Part.mergesFit at *; rw [e]; exact h

theorem inc32_fits {n : Nat} (h : n ≤ 4294967295) : inc32 n ≤ 4294967295 := by unfold inc32 saturate; split <;> omega

/-! ## Firing does not merge -/

@[simp] theorem Part.unconfirm_merges (p : Part) (seq : Word) (news : News) :
    (p.unconfirm seq news).rej.counters.merges = p.rej.counters.merges := by unfold Part.unconfirm; simp

@[simp] theorem Part.pushOut_merges (p : Part) : p.pushOut.rej.counters.merges = p.rej.counters.merges := by
  unfold Part.pushOut; (repeat' split) <;> simp

@[simp] theorem Part.fireMember_merges (p : Part) (seq : Word) :
    (p.fireMember seq).rej.counters.merges = p.rej.counters.merges := by
  unfold Part.fireMember; dsimp only; split <;> simp

@[simp] theorem Part.fireMembers_merges (p : Part) (seqs : List Word) :
    (p.fireMembers seqs).rej.counters.merges = p.rej.counters.merges := by
  unfold Part.fireMembers
  exact fold_keep (fun q => q.rej.counters.merges) _ _ _ fun q a => q.fireMember_merges a

/-! ## Pulses -/

theorem Part.drive_mergesFit (p : Part) (ending : Time) (h : p.mergesFit) : (p.drive ending).mergesFit := by
  unfold Part.drive; split
  · exact h
  · exact inc32_fits h

theorem Part.startPulse_mergesFit (p : Part) (q : Pulse) (ending : Time) (h : p.mergesFit) :
    (p.startPulse q ending).mergesFit := by
  unfold Part.startPulse
  exact Part.mergesFit_of (Part.drive_mergesFit (p.modRej fun e => { e with schedule := e.schedule.filter fun x => x != q })
    ending h) (by simp)

theorem Part.startByTime_mergesFit (p : Part) (q : Pulse) (h : p.mergesFit) : (p.startByTime q).mergesFit := by
  unfold Part.startByTime; split
  · exact Part.startPulse_mergesFit _ _ _ h
  · exact h

theorem Part.scheduleTimed_mergesFit (p : Part) (seq : Word) (s : Time) (h : p.mergesFit) :
    (p.scheduleTimed seq s).mergesFit := by
  unfold Part.scheduleTimed
  dsimp only
  (repeat' split) <;>
    first
    | exact h
    | exact inc32_fits h
    | exact Part.startPulse_mergesFit _ _ _ h
    | exact Part.mergesFit_of (Part.drive_mergesFit p (s + p.ejectWidth) h) (by simp)

theorem Part.takeReject_mergesFit (p : Part) (seq : Word) (h : p.mergesFit) : (p.takeReject seq).mergesFit := by
  unfold Part.takeReject; dsimp only; split
  · exact Part.scheduleTimed_mergesFit (p.setEject seq .scheduled) _ _ h
  · exact h

theorem Part.ejectorNewPace_mergesFit (p : Part) : p.ejectorNewPace.mergesFit := by
  have hf : ∀ (l : List Pulse) (q : Part), q.mergesFit → (l.foldl (fun q x => q.startByTime x) q).mergesFit := by
    intro l
    induction l with
    | nil => exact fun q h => h
    | cons a l ih => exact fun q h => ih _ (Part.startByTime_mergesFit _ _ h)
  unfold Part.ejectorNewPace; dsimp only
  generalize (p.rej.schedule.map p.repacePulse).foldl Walk.step
    { output := p.rej.output.map (·.ending), joined := [], merges := 0, pulses := [] } = w
  refine Part.mergesFit_of (hf _ _ ?_) (by simp; rfl)
  unfold Part.mergesFit
  rw [Part.fireMembers_merges]
  exact Nat.min_le_left _ _

theorem Part.ejectorPaceLost_mergesFit (p : Part) (h : p.mergesFit) : p.ejectorPaceLost.mergesFit := h

theorem Part.ejectorArrival_mergesFit (p : Part) (seq : Word) (h : p.mergesFit) : (p.ejectorArrival seq).mergesFit := by
  unfold Part.ejectorArrival; split
  · exact h
  · dsimp only; split
    · exact Part.startPulse_mergesFit _ _ _ h
    · exact Part.startPulse_mergesFit (p.countEject _) _ _ h

theorem Part.ejectPulseStart_mergesFit (p : Part) (h : p.mergesFit) : p.ejectPulseStart.mergesFit := by
  unfold Part.ejectPulseStart; split
  · exact Part.startByTime_mergesFit _ _ h
  · exact h

theorem Part.confirmEnd_mergesFit (p : Part) (seq : Word) (h : p.mergesFit) : (p.confirmEnd seq).mergesFit := by
  unfold Part.confirmEnd; split
  · exact Part.mergesFit_of h (by simp)
  · exact h

theorem Part.confirmLine_mergesFit (p : Part) (level : Bool) (h : p.mergesFit) : (p.confirmLine level).mergesFit := by
  unfold Part.confirmLine Part.confirmation; dsimp only
  (repeat' split) <;> exact Part.mergesFit_of h (by simp [Part.countEject])

theorem Part.ejectTestOrder_mergesFit (p : Part) (ref : OrderRef) (h : p.mergesFit) :
    (p.ejectTestOrder ref).mergesFit := by
  unfold Part.ejectTestOrder; split <;> exact Part.mergesFit_of h (by simp)

theorem Part.clearCounts_mergesFit (p : Part) : p.clearCounts.mergesFit := Nat.zero_le _

/-! ## The advance -/

theorem Part.enterCrawl_mergesFit (p : Part) (h : p.mergesFit) : p.enterCrawl.mergesFit := by
  unfold Part.enterCrawl; dsimp only
  split <;> exact Part.mergesFit_of h (by simp [Part.ejectorPaceLost])

theorem Part.mark_mergesFit (p : Part) (f : Profile) (h : p.mergesFit) : (p.mark f).mergesFit := by
  have hj : ∀ q : Part, q.mergesFit → (q.judgePace f).mergesFit := by
    intro q hq
    unfold Part.judgePace; split
    · exact Part.enterCrawl_mergesFit _ hq
    · dsimp only; unfold Part.handPace
      exact Part.ejectorNewPace_mergesFit _
  unfold Part.mark; dsimp only
  split
  · exact h
  · split
    · exact h
    · exact hj _ h
  · exact hj _ h

theorem Part.settle_mergesFit (p : Part) (seq : Word) (h : p.mergesFit) : (p.settle seq).mergesFit := by
  unfold Part.settle; dsimp only
  (repeat' split) <;> first | exact Part.mergesFit_of h (by simp) | exact Part.takeReject_mergesFit _ _ (Part.mergesFit_of h (by simp))

theorem Part.ejectorStation_mergesFit (p : Part) (seq : Word) (h : p.mergesFit) : (p.ejectorStation seq).mergesFit := by
  unfold Part.ejectorStation
  (repeat' split) <;> first | exact h | exact Part.ejectorArrival_mergesFit _ _ h | exact Part.mergesFit_of h (by simp)

theorem Part.raisePending_mergesFit (p : Part) (f : Profile) (e : Pending) (h : p.mergesFit) :
    (p.raisePending f e).mergesFit := by
  unfold Part.raisePending Part.arrive
  (repeat' split) <;>
    first
    | exact Part.mergesFit_of h (by simp)
    | exact Part.settle_mergesFit _ _ h
    | exact Part.ejectorStation_mergesFit _ _ h
    | exact Part.confirmEnd_mergesFit _ _ h
    | exact Part.mark_mergesFit _ _ h

theorem Part.travel_mergesFit (n : Nat) : ∀ (choices : List Nat) (sample mark : Bool) (p : Part) (f : Profile),
    p.mergesFit → (Part.travel n choices sample mark p f).mergesFit := by
  induction n with
  | zero => exact fun _ _ _ _ _ h => h
  | succ n ih =>
    intro choices sample mark p f h
    unfold Part.travel; dsimp only; split
    · exact h
    · exact ih _ _ _ _ _ (Part.raisePending_mergesFit _ _ _ h)

/-- ENCODER_COUNT keeps MERGES within its width. -/
theorem Part.encoderPair_mergesFit (p : Part) (pair : Bool × Bool) (infeed : Bool) (choices : List Nat)
    (h : p.mergesFit) : (p.encoderPair pair infeed choices).mergesFit := by
  unfold Part.encoderPair Part.forward Part.advance Part.backward Part.encoderError Part.endExcursion
    Part.beginExcursion
  dsimp only
  (repeat' split) <;>
    first
    | exact h
    | exact Part.travel_mergesFit _ _ _ _ _ _ h
    | exact Part.enterCrawl_mergesFit _ (Part.mergesFit_of h (by simp))

end Sys2Proof.Machine
end

