-- ==== Sys2Proof/Laws/PerInstr.lean ====
section
/-! SUPPORT. A law of every command as syntax, one lemma per constructor: what can make it ill formed. -/

namespace Sys2Proof.Laws.WellFormedness

/-- A command that is ill formed is a ROTATION_SET without its twelve entries, a HOST_MEMORY_WRITE that is not to an
unwatched word, or a REGISTER_WRITE_DISCARDED the part does not discard. -/
def Statement (i : Instr) : Prop :=
  i.wf = true ∨ (∃ cell count skip entries, i = .rotationSet cell count skip entries ∧ entries.length ≠ 12) ∨
    (∃ offset value progress, i = .hostMemoryWrite offset value progress ∧
      (wordOffset offset = false ∨ watchedOffset offset = true)) ∨
    ∃ register value, i = .registerWriteDiscarded register value ∧ discardedWrite register value = false

theorem powerOn (pins : Pins) : Statement (.powerOn pins) := .inl rfl
theorem startupComplete : Statement (.startupComplete) := .inl rfl
theorem machineTimeCarry : Statement (.machineTimeCarry) := .inl rfl
theorem timeTrim (cell : Fin 48) (ppb : Word) : Statement (.timeTrim cell ppb) := .inl rfl
theorem timeStep (cell : Fin 48) (offset : Word) : Statement (.timeStep cell offset) := .inl rfl
theorem syncPulse (level : Bool) : Statement (.syncPulse level) := .inl rfl
theorem syncLost : Statement (.syncLost) := .inl rfl
theorem timeSnapshotRead : Statement (.timeSnapshotRead) := .inl rfl
theorem encoderCount (a b infeed : Bool) (choices : List Nat) : Statement (.encoderCount a b infeed choices) :=
  .inl rfl
theorem markTimeout : Statement (.markTimeout) := .inl rfl
theorem lineStart (cell : Fin 48) : Statement (.lineStart cell) := .inl rfl
theorem lineStop (cell : Fin 48) : Statement (.lineStop cell) := .inl rfl
theorem markReject (cell : Fin 48) (seq : Word) : Statement (.markReject cell seq) := .inl rfl
theorem countersClear (cell : Fin 48) : Statement (.countersClear cell) := .inl rfl
theorem robotRun (cell : Fin 48) (robot : Byte) : Statement (.robotRun cell robot) := .inl rfl
theorem robotHalt (cell : Fin 48) (robot : Byte) : Statement (.robotHalt cell robot) := .inl rfl
theorem runAck (robot : Fin 6) (level : Bool) : Statement (.runAck robot level) := .inl rfl
theorem haltAck (robot : Fin 6) (level : Bool) : Statement (.haltAck robot level) := .inl rfl
theorem runTimeout (robot : Fin 6) : Statement (.runTimeout robot) := .inl rfl
theorem haltTimeout (robot : Fin 6) : Statement (.haltTimeout robot) := .inl rfl
theorem robotFault (robot : Fin 6) : Statement (.robotFault robot) := .inl rfl
theorem robotClear (cell : Fin 48) (robot : Byte) : Statement (.robotClear cell robot) := .inl rfl
theorem rotationSet (cell : Fin 48) (count skip : Byte) (entries : List Byte) : Statement (.rotationSet cell count skip entries) := by
  by_cases h : entries.length = 12
  · exact .inl (by simp [Instr.wf, h])
  · exact .inr (.inl ⟨_, _, _, _, rfl, h⟩)
theorem windowSet (cell : Fin 48) (robot : Byte) (opening closing : Half) : Statement (.windowSet cell robot opening closing) :=
  .inl rfl
theorem fillStrobe (robot : Fin 6) (ok short : Bool) : Statement (.fillStrobe robot ok short) := .inl rfl
theorem cameraService (cell : Fin 48) (camera out : Byte) : Statement (.cameraService cell camera out) := .inl rfl
theorem cameraFireTime (camera : Fin 6) : Statement (.cameraFireTime camera) := .inl rfl
theorem triggerPulseEnd (camera : Fin 6) : Statement (.triggerPulseEnd camera) := .inl rfl
theorem verdictStrobe (camera : Fin 6) (pass fail : Bool) (tag : BitVec 5) : Statement (.verdictStrobe camera pass fail tag) :=
  .inl rfl
theorem verdict (cell : Fin 48) (camera verdict : Byte) (seq : Word) : Statement (.verdict cell camera verdict seq) :=
  .inl rfl
theorem cameraRestore (cell : Fin 48) (camera : Byte) : Statement (.cameraRestore cell camera) := .inl rfl
theorem ejectPulseStart : Statement (.ejectPulseStart) := .inl rfl
theorem ejectOutputEnd : Statement (.ejectOutputEnd) := .inl rfl
theorem ejectTest (cell : Fin 48) : Statement (.ejectTest cell) := .inl rfl
theorem confirm (level : Bool) : Statement (.confirm level) := .inl rfl
theorem portAdmit (cell : Fin 48) (port opening : Byte) : Statement (.portAdmit cell port opening) := .inl rfl
theorem hallHold (cell : Fin 48) : Statement (.hallHold cell) := .inl rfl
theorem hallRelease (cell : Fin 48) : Statement (.hallRelease cell) := .inl rfl
theorem linkEvent (port : Fin 16) (level : Bool) : Statement (.linkEvent port level) := .inl rfl
theorem actPulse (port : Fin 16) (level : Bool) : Statement (.actPulse port level) := .inl rfl
theorem portSilence (port : Fin 16) : Statement (.portSilence port) := .inl rfl
theorem accessRequest (cell : Fin 48) (zone level : Byte) (minutes badge : Half) : Statement (.accessRequest cell zone level minutes badge) :=
  .inl rfl
theorem doorChange (zone : Fin 8) (level : Bool) : Statement (.doorChange zone level) := .inl rfl
theorem doorDebounce (zone : Fin 8) : Statement (.doorDebounce zone) := .inl rfl
theorem reqChange (zone : Fin 8) (level : Bool) : Statement (.reqChange zone level) := .inl rfl
theorem buttonDebounce (zone : Fin 8) : Statement (.buttonDebounce zone) := .inl rfl
theorem accessExpiry (zone : Fin 8) : Statement (.accessExpiry zone) := .inl rfl
theorem accessEnd (cell : Fin 48) (zone : Byte) : Statement (.accessEnd cell zone) := .inl rfl
theorem accessExtend (cell : Fin 48) (zone : Byte) (minutes : Half) : Statement (.accessExtend cell zone minutes) :=
  .inl rfl
theorem resumeZone (cell : Fin 48) (zone : Byte) : Statement (.resumeZone cell zone) := .inl rfl
theorem profileAdopt (cell : Fin 48) : Statement (.profileAdopt cell) := .inl rfl
theorem copyEnd : Statement (.copyEnd) := .inl rfl
theorem handWrite (cell : Fin 48) (value : Half) : Statement (.handWrite cell value) := .inl rfl
theorem orderTake : Statement (.orderTake) := .inl rfl
theorem seenWrite (bulletin : Fin 10) (value : Half) : Statement (.seenWrite bulletin value) := .inl rfl
theorem pageAge : Statement (.pageAge) := .inl rfl
theorem outcomeFlush (cell : Fin 48) : Statement (.outcomeFlush cell) := .inl rfl
theorem pageStateWrite (page : Fin 8) (value : Half) : Statement (.pageStateWrite page value) := .inl rfl
theorem faultUnlock (cell : Fin 48) (count : Half) : Statement (.faultUnlock cell count) := .inl rfl
theorem intLevel (value : Half) : Statement (.intLevel value) := .inl rfl
theorem exchangeReset : Statement (.exchangeReset) := .inl rfl
theorem exchangeResetEnd : Statement (.exchangeResetEnd) := .inl rfl
theorem lineReset (byPin : Bool) : Statement (.lineReset byPin) := .inl rfl
theorem lineResetEnd : Statement (.lineResetEnd) := .inl rfl
theorem registerWriteDiscarded (register : Fin 8) (value : Half) : Statement (.registerWriteDiscarded register value) := by
  cases h : discardedWrite register value
  · exact .inr (.inr (.inr ⟨_, _, rfl, h⟩))
  · exact .inl h
theorem hostMemoryWrite (offset : Nat) (value : Half) (progress : Nat) : Statement (.hostMemoryWrite offset value progress) := by
  cases h : wordOffset offset
  · exact .inr (.inr (.inl ⟨_, _, _, rfl, .inl h⟩))
  · cases g : watchedOffset offset
    · exact .inl (by simp [Instr.wf, h, g])
    · exact .inr (.inr (.inl ⟨_, _, _, rfl, .inr g⟩))
theorem robotInputChange (robot : Fin 6) (line : RobotLine) (level : Bool) : Statement (.robotInputChange robot line level) :=
  .inl rfl

end Sys2Proof.Laws.WellFormedness
end

