-- ==== Sys2Proof/Laws/TidyBlocks.lean ====
section
/-! SUPPORT. Every operation of the blocks keeps Part.tidy and the staging area; the host's own writes may change the
staging area, and power-on clears it. -/

namespace Sys2Proof.Machine

@[simp] theorem Part.complete_tidy (p : Part) (ref : OrderRef) (result : Result) (detail : Byte) (h : p.tidy) :
    (p.complete ref result detail).tidy ∧ (p.complete ref result detail).staging = p.staging := by
  unfold Part.complete; dsimp only; (repeat' split) <;> simp (maxDischargeDepth := 40) [h]

@[simp] theorem Part.completeIf_tidy (p : Part) (ref : Option OrderRef) (result : Result) (detail : Byte)
    (h : p.tidy) :
    (p.completeIf ref result detail).tidy ∧ (p.completeIf ref result detail).staging = p.staging := by
  unfold Part.completeIf; (repeat' split) <;> simp (maxDischargeDepth := 40) [h]

@[simp] theorem Part.evidence_tidy (p : Part) (seq : Word) (f : Record → Record) (h : p.tidy) :
    (p.evidence seq f).tidy ∧ (p.evidence seq f).staging = p.staging := by
  unfold Part.evidence; simp (maxDischargeDepth := 40) [h]

@[simp] theorem Part.setFill_tidy (p : Part) (seq : Word) (v : FillResult) (h : p.tidy) :
    (p.setFill seq v).tidy ∧ (p.setFill seq v).staging = p.staging := by
  unfold Part.setFill; simp (maxDischargeDepth := 40) [h]

@[simp] theorem Part.setVerdict_tidy (p : Part) (seq : Word) (c : Fin 6) (v : Verdict) (h : p.tidy) :
    (p.setVerdict seq c v).tidy ∧ (p.setVerdict seq c v).staging = p.staging := by
  unfold Part.setVerdict; simp (maxDischargeDepth := 40) [h]

@[simp] theorem Part.setTrigger_tidy (p : Part) (seq : Word) (c : Fin 6) (t : Time) (h : p.tidy) :
    (p.setTrigger seq c t).tidy ∧ (p.setTrigger seq c t).staging = p.staging := by
  unfold Part.setTrigger; simp (maxDischargeDepth := 40) [h]

@[simp] theorem Part.setEject_tidy (p : Part) (seq : Word) (e : EjectState) (h : p.tidy) :
    (p.setEject seq e).tidy ∧ (p.setEject seq e).staging = p.staging := by
  unfold Part.setEject; simp (maxDischargeDepth := 40) [h]

@[simp] theorem Part.countCamera_tidy (p : Part) (c : Fin 6) (f : CameraCounters → CameraCounters) (h : p.tidy) :
    (p.countCamera c f).tidy ∧ (p.countCamera c f).staging = p.staging := by
  unfold Part.countCamera; simp (maxDischargeDepth := 40) [h]

@[simp] theorem Part.noVerdict_tidy (p : Part) (seq : Word) (c : Fin 6) (h : p.tidy) :
    (p.noVerdict seq c).tidy ∧ (p.noVerdict seq c).staging = p.staging := by
  unfold Part.noVerdict; simp (maxDischargeDepth := 40) [h]

@[simp] theorem Part.emptyAwaiting_tidy (p : Part) (c : Fin 6) (h : p.tidy) :
    (p.emptyAwaiting c).tidy ∧ (p.emptyAwaiting c).staging = p.staging := by
  unfold Part.emptyAwaiting; dsimp only; simp +contextual (maxDischargeDepth := 40) [h, Part.fold_tidy]

@[simp] theorem Part.degrade_tidy (p : Part) (c : Fin 6) (cause : DegradeCause) (h : p.tidy) :
    (p.degrade c cause).tidy ∧ (p.degrade c cause).staging = p.staging := by
  unfold Part.degrade; dsimp only; (repeat' split) <;> simp (maxDischargeDepth := 40) [h]

@[simp] theorem Part.gainMissed_tidy (p : Part) (c : Fin 6) (h : p.tidy) :
    (p.gainMissed c).tidy ∧ (p.gainMissed c).staging = p.staging := by
  unfold Part.gainMissed; dsimp only; (repeat' split) <;> simp (maxDischargeDepth := 40) [h]

@[simp] theorem Part.makeRoom_tidy (n : Nat) (first : Bool) (p : Part) (c : Fin 6) (seq : Word) (h : p.tidy) :
    (Part.makeRoom n first p c seq).tidy ∧ (Part.makeRoom n first p c seq).staging = p.staging := by
  induction n generalizing first p with
  | zero => exact ⟨h, rfl⟩
  | succ n ih => unfold Part.makeRoom; dsimp only; (repeat' split) <;> simp (maxDischargeDepth := 40) [ih, h]

@[simp] theorem Part.joinAwaiting_tidy (p : Part) (c : Fin 6) (seq : Word) (h : p.tidy) :
    (p.joinAwaiting c seq).tidy ∧ (p.joinAwaiting c seq).staging = p.staging := by
  unfold Part.joinAwaiting; dsimp only; (repeat' split) <;> simp (maxDischargeDepth := 40) [h]

@[simp] theorem Part.happen_tidy (p : Part) (c : Fin 6) (h : p.tidy) :
    (p.happen c).tidy ∧ (p.happen c).staging = p.staging := by
  unfold Part.happen; dsimp only; (repeat' split) <;> simp (maxDischargeDepth := 40) [h]

@[simp] theorem Part.fallDue_tidy (p : Part) (c : Fin 6) (seq : Word) (h : p.tidy) :
    (p.fallDue c seq).tidy ∧ (p.fallDue c seq).staging = p.staging := by
  unfold Part.fallDue; dsimp only; (repeat' split) <;> simp (maxDischargeDepth := 40) [h]

@[simp] theorem Part.setFireTime_tidy (p : Part) (c : Fin 6) (seq : Word) (t : Option Time) (h : p.tidy) :
    (p.setFireTime c seq t).tidy ∧ (p.setFireTime c seq t).staging = p.staging := by
  unfold Part.setFireTime; simp (maxDischargeDepth := 40) [h]

@[simp] theorem Part.takeFire_tidy (p : Part) (c : Fin 6) (seq : Word) (h : p.tidy) :
    (p.takeFire c seq).tidy ∧ (p.takeFire c seq).staging = p.staging := by
  unfold Part.takeFire; dsimp only; (repeat' split) <;> simp (maxDischargeDepth := 40) [h]

@[simp] theorem Part.addFire_tidy (p : Part) (seq : Word) (c : Fin 6) (h : p.tidy) :
    (p.addFire seq c).tidy ∧ (p.addFire seq c).staging = p.staging := by
  unfold Part.addFire; dsimp only; (repeat' split) <;> simp (maxDischargeDepth := 40) [h]

@[simp] theorem Part.addFires_tidy (p : Part) (seq : Word) (h : p.tidy) :
    (p.addFires seq).tidy ∧ (p.addFires seq).staging = p.staging := by
  unfold Part.addFires; simp +contextual (maxDischargeDepth := 40) [h, Part.fold_tidy]

@[simp] theorem Part.repaceFire_tidy (p : Part) (c : Fin 6) (seq : Word) (h : p.tidy) :
    (p.repaceFire c seq).tidy ∧ (p.repaceFire c seq).staging = p.staging := by
  unfold Part.repaceFire; dsimp only; (repeat' split) <;> simp (maxDischargeDepth := 40) [h]

@[simp] theorem Part.repaceCamera_tidy (p : Part) (c : Fin 6) (h : p.tidy) :
    (p.repaceCamera c).tidy ∧ (p.repaceCamera c).staging = p.staging := by
  unfold Part.repaceCamera; (repeat' split) <;> simp +contextual (maxDischargeDepth := 40) [h, Part.fold_tidy]

@[simp] theorem Part.camerasNewPace_tidy (p : Part) (h : p.tidy) :
    p.camerasNewPace.tidy ∧ p.camerasNewPace.staging = p.staging := by
  unfold Part.camerasNewPace; simp +contextual (maxDischargeDepth := 40) [h, Part.fold_tidy]

@[simp] theorem Part.camerasPaceLost_tidy (p : Part) (h : p.tidy) :
    p.camerasPaceLost.tidy ∧ p.camerasPaceLost.staging = p.staging := by
  unfold Part.camerasPaceLost; simp +contextual (maxDischargeDepth := 40) [h, Part.fold_tidy]

@[simp] theorem Part.cameraFireTime_tidy (p : Part) (c : Fin 6) (h : p.tidy) :
    (p.cameraFireTime c).tidy ∧ (p.cameraFireTime c).staging = p.staging := by
  unfold Part.cameraFireTime; (repeat' split) <;> simp (maxDischargeDepth := 40) [h]

@[simp] theorem Part.triggerPulseEnd_tidy (p : Part) (c : Fin 6) (h : p.tidy) :
    (p.triggerPulseEnd c).tidy ∧ (p.triggerPulseEnd c).staging = p.staging := by
  unfold Part.triggerPulseEnd; dsimp only; (repeat' split) <;> simp (maxDischargeDepth := 40) [h]

@[simp] theorem Part.cameraStation_tidy (p : Part) (c : Fin 6) (seq : Word) (h : p.tidy) :
    (p.cameraStation c seq).tidy ∧ (p.cameraStation c seq).staging = p.staging := by
  unfold Part.cameraStation; dsimp only; (repeat' split) <;> simp (maxDischargeDepth := 40) [h]

@[simp] theorem Part.cameraChanged_tidy (p : Part) (c : Fin 6) (before : CameraState) (h : p.tidy) :
    (p.cameraChanged c before).tidy ∧ (p.cameraChanged c before).staging = p.staging := by
  unfold Part.cameraChanged; dsimp only; (repeat' split) <;> simp +contextual (maxDischargeDepth := 40) [h, Part.fold_tidy]

@[simp] theorem Part.setCameraFlags_tidy (p : Part) (c : Fin 6) (f : Camera → Camera) (h : p.tidy) :
    (p.setCameraFlags c f).tidy ∧ (p.setCameraFlags c f).staging = p.staging := by
  unfold Part.setCameraFlags; dsimp only; simp (maxDischargeDepth := 40) [h]

@[simp] theorem Part.zoneService_tidy (p : Part) (c : Fin 6) (on : Bool) (h : p.tidy) :
    (p.zoneService c on).tidy ∧ (p.zoneService c on).staging = p.staging := by
  unfold Part.zoneService; (repeat' split) <;> simp (maxDischargeDepth := 40) [h]

@[simp] theorem Part.zoneServiceMember_tidy (p : Part) (z : Fin 8) (on : Bool) (c : Fin 6) (h : p.tidy) :
    (p.zoneServiceMember z on c).tidy ∧ (p.zoneServiceMember z on c).staging = p.staging := by
  unfold Part.zoneServiceMember; (repeat' split) <;> simp (maxDischargeDepth := 40) [h]

@[simp] theorem Part.zoneServiceAll_tidy (p : Part) (z : Fin 8) (on : Bool) (h : p.tidy) :
    (p.zoneServiceAll z on).tidy ∧ (p.zoneServiceAll z on).staging = p.staging := by
  unfold Part.zoneServiceAll; simp +contextual (maxDischargeDepth := 40) [h, Part.fold_tidy]

@[simp] theorem Part.cameraServiceOrder_tidy (p : Part) (ref : OrderRef) (camera : Byte) (out : Byte) (h : p.tidy) :
    (p.cameraServiceOrder ref camera out).tidy ∧ (p.cameraServiceOrder ref camera out).staging = p.staging := by
  unfold Part.cameraServiceOrder; dsimp only; (repeat' split) <;> simp (maxDischargeDepth := 40) [h]

@[simp] theorem Part.cameraRestoreOrder_tidy (p : Part) (ref : OrderRef) (camera : Byte) (h : p.tidy) :
    (p.cameraRestoreOrder ref camera).tidy ∧ (p.cameraRestoreOrder ref camera).staging = p.staging := by
  unfold Part.cameraRestoreOrder; (repeat' split) <;> simp (maxDischargeDepth := 40) [h]

@[simp] theorem Part.cameraSilence_tidy (p : Part) (c : Fin 6) (action : SilenceAction) (h : p.tidy) :
    (p.cameraSilence c action).tidy ∧ (p.cameraSilence c action).staging = p.staging := by
  unfold Part.cameraSilence; dsimp only; (repeat' split) <;> simp (maxDischargeDepth := 40) [h]

@[simp] theorem Part.cameraResumed_tidy (p : Part) (c : Fin 6) (h : p.tidy) :
    (p.cameraResumed c).tidy ∧ (p.cameraResumed c).staging = p.staging := by
  unfold Part.cameraResumed; simp (maxDischargeDepth := 40) [h]

@[simp] theorem Part.matchVerdict_tidy (p : Part) (c : Fin 6) (seq : Word) (pass : Bool) (h : p.tidy) :
    (p.matchVerdict c seq pass).tidy ∧ (p.matchVerdict c seq pass).staging = p.staging := by
  unfold Part.matchVerdict; dsimp only; (repeat' split) <;> simp (maxDischargeDepth := 40) [h]

@[simp] theorem Part.verdictStrobe_tidy (p : Part) (c : Fin 6) (pass : Bool) (tag : BitVec 5) (h : p.tidy) :
    (p.verdictStrobe c pass tag).tidy ∧ (p.verdictStrobe c pass tag).staging = p.staging := by
  unfold Part.verdictStrobe; (repeat' split) <;> simp (maxDischargeDepth := 40) [h]

@[simp] theorem Part.verdictLines_tidy (p : Part) (c : Fin 6) (pass : Bool) (fail : Bool) (tag : BitVec 5)
    (h : p.tidy) :
    (p.verdictLines c pass fail tag).tidy ∧ (p.verdictLines c pass fail tag).staging = p.staging := by
  unfold Part.verdictLines; dsimp only; (repeat' split) <;> simp (maxDischargeDepth := 40) [h]

@[simp] theorem Part.verdictOrder_tidy (p : Part) (ref : OrderRef) (camera : Byte) (verdict : Byte) (seq : Word)
    (h : p.tidy) :
    (p.verdictOrder ref camera verdict seq).tidy ∧ (p.verdictOrder ref camera verdict seq).staging = p.staging := by
  unfold Part.verdictOrder; dsimp only; (repeat' split) <;> simp (maxDischargeDepth := 40) [h]

@[simp] theorem Part.closeCamera_tidy (p : Part) (c : Fin 6) (seq : Word) (h : p.tidy) :
    (p.closeCamera c seq).tidy ∧ (p.closeCamera c seq).staging = p.staging := by
  unfold Part.closeCamera; (repeat' split) <;> simp (maxDischargeDepth := 40) [h]

@[simp] theorem Part.closePresent_tidy (p : Part) (seq : Word) (c : Fin 6) (h : p.tidy) :
    (p.closePresent seq c).tidy ∧ (p.closePresent seq c).staging = p.staging := by
  unfold Part.closePresent; (repeat' split) <;> simp (maxDischargeDepth := 40) [h]

@[simp] theorem Part.closeCameras_tidy (p : Part) (seq : Word) (h : p.tidy) :
    (p.closeCameras seq).tidy ∧ (p.closeCameras seq).staging = p.staging := by
  unfold Part.closeCameras; simp +contextual (maxDischargeDepth := 40) [h, Part.fold_tidy]

@[simp] theorem Part.camerasAdopt_tidy (p : Part) (h : p.tidy) :
    p.camerasAdopt.tidy ∧ p.camerasAdopt.staging = p.staging := by
  unfold Part.camerasAdopt; dsimp only; simp +contextual (maxDischargeDepth := 40) [h, Part.fold_tidy]

@[simp] theorem Part.camerasLineReset_tidy (p : Part) (h : p.tidy) :
    p.camerasLineReset.tidy ∧ p.camerasLineReset.staging = p.staging := by
  unfold Part.camerasLineReset; simp +contextual (maxDischargeDepth := 40) [h, Part.fold_tidy]

@[simp] theorem Part.portOutcome_tidy (p : Part) (i : Fin 16) (event : PortEvent) (action : Nat) (h : p.tidy) :
    (p.portOutcome i event action).tidy ∧ (p.portOutcome i event action).staging = p.staging := by
  unfold Part.portOutcome; simp (maxDischargeDepth := 40) [h]

@[simp] theorem Part.setAdmission_tidy (p : Part) (i : Fin 16) (a : Admission) (h : p.tidy) :
    (p.setAdmission i a).tidy ∧ (p.setAdmission i a).staging = p.staging := by
  unfold Part.setAdmission; (repeat' split) <;> simp (maxDischargeDepth := 40) [h]

@[simp] theorem Part.endQuarantine_tidy (p : Part) (i : Fin 16) (a : Admission) (h : p.tidy) :
    (p.endQuarantine i a).tidy ∧ (p.endQuarantine i a).staging = p.staging := by
  unfold Part.endQuarantine; simp (maxDischargeDepth := 40) [h]

@[simp] theorem Part.openByOrder_tidy (p : Part) (i : Fin 16) (h : p.tidy) :
    (p.openByOrder i).tidy ∧ (p.openByOrder i).staging = p.staging := by
  unfold Part.openByOrder; (repeat' split) <;> simp (maxDischargeDepth := 40) [h]

@[simp] theorem Part.closeByOrder_tidy (p : Part) (i : Fin 16) (h : p.tidy) :
    (p.closeByOrder i).tidy ∧ (p.closeByOrder i).staging = p.staging := by
  unfold Part.closeByOrder; (repeat' split) <;> simp (maxDischargeDepth := 40) [h]

@[simp] theorem Part.portAdmitOrder_tidy (p : Part) (ref : OrderRef) (port : Byte) (opening : Byte) (h : p.tidy) :
    (p.portAdmitOrder ref port opening).tidy ∧ (p.portAdmitOrder ref port opening).staging = p.staging := by
  unfold Part.portAdmitOrder; (repeat' split) <;> simp (maxDischargeDepth := 40) [h]

@[simp] theorem Part.holdPort_tidy (p : Part) (i : Fin 16) (h : p.tidy) :
    (p.holdPort i).tidy ∧ (p.holdPort i).staging = p.staging := by
  unfold Part.holdPort; (repeat' split) <;> simp (maxDischargeDepth := 40) [h]

@[simp] theorem Part.releasePort_tidy (p : Part) (i : Fin 16) (h : p.tidy) :
    (p.releasePort i).tidy ∧ (p.releasePort i).staging = p.staging := by
  unfold Part.releasePort; (repeat' split) <;> simp (maxDischargeDepth := 40) [h]

@[simp] theorem Part.hallHoldOrder_tidy (p : Part) (ref : OrderRef) (h : p.tidy) :
    (p.hallHoldOrder ref).tidy ∧ (p.hallHoldOrder ref).staging = p.staging := by
  unfold Part.hallHoldOrder; dsimp only; (repeat' split) <;> simp +contextual (maxDischargeDepth := 40) [h, Part.fold_tidy]

@[simp] theorem Part.hallReleaseOrder_tidy (p : Part) (ref : OrderRef) (h : p.tidy) :
    (p.hallReleaseOrder ref).tidy ∧ (p.hallReleaseOrder ref).staging = p.staging := by
  unfold Part.hallReleaseOrder; dsimp only; (repeat' split) <;> simp +contextual (maxDischargeDepth := 40) [h, Part.fold_tidy]

@[simp] theorem Part.openZonePort_tidy (p : Part) (z : Fin 8) (i : Fin 16) (h : p.tidy) :
    (p.openZonePort z i).tidy ∧ (p.openZonePort z i).staging = p.staging := by
  unfold Part.openZonePort; (repeat' split) <;> simp (maxDischargeDepth := 40) [h]

@[simp] theorem Part.openZonePorts_tidy (p : Part) (z : Fin 8) (h : p.tidy) :
    (p.openZonePorts z).tidy ∧ (p.openZonePorts z).staging = p.staging := by
  unfold Part.openZonePorts; simp +contextual (maxDischargeDepth := 40) [h, Part.fold_tidy]

@[simp] theorem Part.closeZonePort_tidy (p : Part) (z : Fin 8) (i : Fin 16) (h : p.tidy) :
    (p.closeZonePort z i).tidy ∧ (p.closeZonePort z i).staging = p.staging := by
  unfold Part.closeZonePort; (repeat' split) <;> simp (maxDischargeDepth := 40) [h]

@[simp] theorem Part.closeZonePorts_tidy (p : Part) (z : Fin 8) (h : p.tidy) :
    (p.closeZonePorts z).tidy ∧ (p.closeZonePorts z).staging = p.staging := by
  unfold Part.closeZonePorts; simp +contextual (maxDischargeDepth := 40) [h, Part.fold_tidy]

@[simp] theorem Part.quarantine_tidy (p : Part) (i : Fin 16) (h : p.tidy) :
    (p.quarantine i).tidy ∧ (p.quarantine i).staging = p.staging := by
  unfold Part.quarantine; dsimp only; simp (maxDischargeDepth := 40) [h]

@[simp] theorem Part.linkUp_tidy (p : Part) (i : Fin 16) (h : p.tidy) :
    (p.linkUp i).tidy ∧ (p.linkUp i).staging = p.staging := by
  unfold Part.linkUp; dsimp only; (repeat' split) <;> simp (maxDischargeDepth := 40) [h]

@[simp] theorem Part.linkDown_tidy (p : Part) (i : Fin 16) (h : p.tidy) :
    (p.linkDown i).tidy ∧ (p.linkDown i).staging = p.staging := by
  unfold Part.linkDown; dsimp only; (repeat' split) <;> simp (maxDischargeDepth := 40) [h]

@[simp] theorem Part.linkEvent_tidy (p : Part) (i : Fin 16) (level : Bool) (h : p.tidy) :
    (p.linkEvent i level).tidy ∧ (p.linkEvent i level).staging = p.staging := by
  unfold Part.linkEvent; (repeat' split) <;> simp (maxDischargeDepth := 40) [h]

@[simp] theorem Part.resumePort_tidy (p : Part) (i : Fin 16) (h : p.tidy) :
    (p.resumePort i).tidy ∧ (p.resumePort i).staging = p.staging := by
  unfold Part.resumePort; dsimp only; (repeat' split) <;> simp (maxDischargeDepth := 40) [h]

@[simp] theorem Part.actPulse_tidy (p : Part) (i : Fin 16) (level : Bool) (h : p.tidy) :
    (p.actPulse i level).tidy ∧ (p.actPulse i level).staging = p.staging := by
  unfold Part.actPulse; dsimp only; (repeat' split) <;> simp (maxDischargeDepth := 40) [h]

@[simp] theorem Part.portAdopt_tidy (p : Part) (i : Fin 16) (s : PortSettings) (h : p.tidy) :
    (p.portAdopt i s).tidy ∧ (p.portAdopt i s).staging = p.staging := by
  unfold Part.portAdopt; dsimp only; (repeat' split) <;> simp (maxDischargeDepth := 40) [h]

@[simp] theorem Part.portsAdopt_tidy (p : Part) (f : Profile) (h : p.tidy) :
    (p.portsAdopt f).tidy ∧ (p.portsAdopt f).staging = p.staging := by
  unfold Part.portsAdopt; simp +contextual (maxDischargeDepth := 40) [h, Part.fold_tidy]

@[simp] theorem Part.accessOutcome_tidy (p : Part) (z : Fin 8) (event : AccessEvent) (h : p.tidy) :
    (p.accessOutcome z event).tidy ∧ (p.accessOutcome z event).staging = p.staging := by
  unfold Part.accessOutcome; simp (maxDischargeDepth := 40) [h]

@[simp] theorem Part.evalDoorRel_tidy (p : Part) (z : Fin 8) (h : p.tidy) :
    (p.evalDoorRel z).tidy ∧ (p.evalDoorRel z).staging = p.staging := by
  unfold Part.evalDoorRel; (repeat' split) <;> simp (maxDischargeDepth := 40) [h]

@[simp] theorem Part.grantApply_tidy (p : Part) (z : Fin 8) (level : AccessLevel) (origin : ZoneOrigin) (length : Nat)
    (badge : Half) (h : p.tidy) :
    (p.grantApply z level origin length badge).tidy ∧ (p.grantApply z level origin length badge).staging = p.staging := by
  unfold Part.grantApply; dsimp only; (repeat' split) <;> simp (maxDischargeDepth := 40) [h]

@[simp] theorem Part.endRequest_tidy (p : Part) (z : Fin 8) (result : Result) (detail : Byte) (h : p.tidy) :
    (p.endRequest z result detail).tidy ∧ (p.endRequest z result detail).staging = p.staging := by
  unfold Part.endRequest; simp (maxDischargeDepth := 40) [h]

@[simp] theorem Part.grantClose_tidy (p : Part) (z : Fin 8) (result : Result) (h : p.tidy) :
    (p.grantClose z result).tidy ∧ (p.grantClose z result).staging = p.staging := by
  unfold Part.grantClose; simp (maxDischargeDepth := 40) [h]

@[simp] theorem Part.sealZone_tidy (p : Part) (z : Fin 8) (event : AccessEvent) (c : Completion) (failing : Byte)
    (h : p.tidy) :
    (p.sealZone z event c failing).tidy ∧ (p.sealZone z event c failing).staging = p.staging := by
  unfold Part.sealZone; dsimp only; simp (maxDischargeDepth := 40) [h]

@[simp] theorem Part.failRequest_tidy (p : Part) (z : Fin 8) (r : Fin 6) (h : p.tidy) :
    (p.failRequest z r).tidy ∧ (p.failRequest z r).staging = p.staging := by
  unfold Part.failRequest; dsimp only; (repeat' split) <;> simp (maxDischargeDepth := 40) [h]

@[simp] theorem Part.judgeHalting_tidy (p : Part) (z : Fin 8) (h : p.tidy) :
    (p.judgeHalting z).tidy ∧ (p.judgeHalting z).staging = p.staging := by
  unfold Part.judgeHalting; (repeat' split) <;> simp (maxDischargeDepth := 40) [h]

@[simp] theorem Part.markResume_tidy (p : Part) (z : Fin 8) (r : Fin 6) (m : ResumeMark) (failure : Option Completion)
    (h : p.tidy) :
    (p.markResume z r m failure).tidy ∧ (p.markResume z r m failure).staging = p.staging := by
  unfold Part.markResume; simp (maxDischargeDepth := 40) [h]

@[simp] theorem Part.finishResume_tidy (p : Part) (z : Fin 8) (ref : OrderRef) (h : p.tidy) :
    (p.finishResume z ref).tidy ∧ (p.finishResume z ref).staging = p.staging := by
  unfold Part.finishResume; dsimp only; (repeat' split) <;> simp (maxDischargeDepth := 40) [h]

@[simp] theorem Part.settleResume_tidy (p : Part) (z : Fin 8) (r : Fin 6) (h : p.tidy) :
    (p.settleResume z r).tidy ∧ (p.settleResume z r).staging = p.staging := by
  unfold Part.settleResume; dsimp only; (repeat' split) <;> simp (maxDischargeDepth := 40) [h]

@[simp] theorem Part.hearRobot_tidy (p : Part) (r : Fin 6) (z : Fin 8) (h : p.tidy) :
    (p.hearRobot r z).tidy ∧ (p.hearRobot r z).staging = p.staging := by
  unfold Part.hearRobot; (repeat' split) <;> simp (maxDischargeDepth := 40) [h]

@[simp] theorem Part.reportRobot_tidy (p : Part) (r : Fin 6) (h : p.tidy) :
    (p.reportRobot r).tidy ∧ (p.reportRobot r).staging = p.staging := by
  unfold Part.reportRobot; simp +contextual (maxDischargeDepth := 40) [h, Part.fold_tidy]

@[simp] theorem Part.makeLive_tidy (p : Part) (r : Fin 6) (w : Window) (h : p.tidy) :
    (p.makeLive r w).tidy ∧ (p.makeLive r w).staging = p.staging := by
  unfold Part.makeLive; dsimp only; (repeat' split) <;> simp (maxDischargeDepth := 40) [h]

@[simp] theorem Part.adoptWindow_tidy (p : Part) (r : Fin 6) (h : p.tidy) :
    (p.adoptWindow r).tidy ∧ (p.adoptWindow r).staging = p.staging := by
  unfold Part.adoptWindow; dsimp only; (repeat' split) <;> simp (maxDischargeDepth := 40) [h]

@[simp] theorem Part.robotChanged_tidy (p : Part) (r : Fin 6) (before : RobotState) (h : p.tidy) :
    (p.robotChanged r before).tidy ∧ (p.robotChanged r before).staging = p.staging := by
  unfold Part.robotChanged; dsimp only; (repeat' split) <;> simp (maxDischargeDepth := 40) [h]

@[simp] theorem Part.finishRun_tidy (p : Part) (r : Fin 6) (h : p.tidy) :
    (p.finishRun r).tidy ∧ (p.finishRun r).staging = p.staging := by
  unfold Part.finishRun; dsimp only; simp (maxDischargeDepth := 40) [h]

@[simp] theorem Part.beginRun_tidy (p : Part) (r : Fin 6) (ref : Option OrderRef) (h : p.tidy) :
    (p.beginRun r ref).tidy ∧ (p.beginRun r ref).staging = p.staging := by
  unfold Part.beginRun; dsimp only; (repeat' split) <;> simp (maxDischargeDepth := 40) [h]

@[simp] theorem Part.finishHalt_tidy (p : Part) (r : Fin 6) (h : p.tidy) :
    (p.finishHalt r).tidy ∧ (p.finishHalt r).staging = p.staging := by
  unfold Part.finishHalt; dsimp only; simp (maxDischargeDepth := 40) [h]

@[simp] theorem Part.beginHalt_tidy (p : Part) (r : Fin 6) (origin : HaltOrigin) (ref : Option OrderRef)
    (h : p.tidy) :
    (p.beginHalt r origin ref).tidy ∧ (p.beginHalt r origin ref).staging = p.staging := by
  unfold Part.beginHalt; dsimp only; (repeat' split) <;> simp (maxDischargeDepth := 40) [h]

@[simp] theorem Part.requestHalt_tidy (p : Part) (r : Fin 6) (origin : HaltOrigin) (h : p.tidy) :
    (p.requestHalt r origin).tidy ∧ (p.requestHalt r origin).staging = p.staging := by
  unfold Part.requestHalt; dsimp only; (repeat' split) <;> simp (maxDischargeDepth := 40) [h]

@[simp] theorem Part.enterFaulted_tidy (p : Part) (r : Fin 6) (cause : RobotFault) (h : p.tidy) :
    (p.enterFaulted r cause).tidy ∧ (p.enterFaulted r cause).staging = p.staging := by
  unfold Part.enterFaulted; dsimp only; simp (maxDischargeDepth := 40) [h]

@[simp] theorem Part.countRobot_tidy (p : Part) (r : Fin 6) (f : RobotCounters → RobotCounters) (h : p.tidy) :
    (p.countRobot r f).tidy ∧ (p.countRobot r f).staging = p.staging := by
  unfold Part.countRobot; simp (maxDischargeDepth := 40) [h]

@[simp] theorem Part.badFill_tidy (p : Part) (r : Fin 6) (h : p.tidy) :
    (p.badFill r).tidy ∧ (p.badFill r).staging = p.staging := by
  unfold Part.badFill; dsimp only; (repeat' split) <;> simp (maxDischargeDepth := 40) [h]

@[simp] theorem Part.noReport_tidy (p : Part) (r : Fin 6) (seq : Word) (h : p.tidy) :
    (p.noReport r seq).tidy ∧ (p.noReport r seq).staging = p.staging := by
  unfold Part.noReport; dsimp only; simp (maxDischargeDepth := 40) [h]

@[simp] theorem Part.takeReport_tidy (p : Part) (r : Fin 6) (seq : Word) (short : Bool) (h : p.tidy) :
    (p.takeReport r seq short).tidy ∧ (p.takeReport r seq short).staging = p.staging := by
  unfold Part.takeReport; dsimp only; (repeat' split) <;> simp (maxDischargeDepth := 40) [h]

@[simp] theorem Part.fillStrobe_tidy (p : Part) (r : Fin 6) (short : Bool) (h : p.tidy) :
    (p.fillStrobe r short).tidy ∧ (p.fillStrobe r short).staging = p.staging := by
  unfold Part.fillStrobe; (repeat' split) <;> simp (maxDischargeDepth := 40) [h]

@[simp] theorem Part.runAckChanged_tidy (p : Part) (r : Fin 6) (level : Bool) (h : p.tidy) :
    (p.runAckChanged r level).tidy ∧ (p.runAckChanged r level).staging = p.staging := by
  unfold Part.runAckChanged; (repeat' split) <;> simp (maxDischargeDepth := 40) [h]

@[simp] theorem Part.haltAckChanged_tidy (p : Part) (r : Fin 6) (level : Bool) (h : p.tidy) :
    (p.haltAckChanged r level).tidy ∧ (p.haltAckChanged r level).staging = p.staging := by
  unfold Part.haltAckChanged; (repeat' split) <;> simp (maxDischargeDepth := 40) [h]

@[simp] theorem Part.faultActive_tidy (p : Part) (r : Fin 6) (h : p.tidy) :
    (p.faultActive r).tidy ∧ (p.faultActive r).staging = p.staging := by
  unfold Part.faultActive; (repeat' split) <;> simp (maxDischargeDepth := 40) [h]

@[simp] theorem Part.robotInputs_tidy (p : Part) (r : Fin 6) (new : RobotPins) (h : p.tidy) :
    (p.robotInputs r new).tidy ∧ (p.robotInputs r new).staging = p.staging := by
  unfold Part.robotInputs; dsimp only; (repeat' split) <;> simp (maxDischargeDepth := 40) [h]

@[simp] theorem Part.robotLine_tidy (p : Part) (r : Fin 6) (line : RobotLine) (level : Bool) (h : p.tidy) :
    (p.robotLine r line level).tidy ∧ (p.robotLine r line level).staging = p.staging := by
  unfold Part.robotLine; simp (maxDischargeDepth := 40) [h]

@[simp] theorem Part.fillLines_tidy (p : Part) (r : Fin 6) (ok : Bool) (short : Bool) (h : p.tidy) :
    (p.fillLines r ok short).tidy ∧ (p.fillLines r ok short).staging = p.staging := by
  unfold Part.fillLines; simp (maxDischargeDepth := 40) [h]

@[simp] theorem Part.runTimedOut_tidy (p : Part) (r : Fin 6) (h : p.tidy) :
    (p.runTimedOut r).tidy ∧ (p.runTimedOut r).staging = p.staging := by
  unfold Part.runTimedOut; (repeat' split) <;> simp (maxDischargeDepth := 40) [h]

@[simp] theorem Part.haltTimedOut_tidy (p : Part) (r : Fin 6) (h : p.tidy) :
    (p.haltTimedOut r).tidy ∧ (p.haltTimedOut r).staging = p.staging := by
  unfold Part.haltTimedOut; (repeat' split) <;> simp (maxDischargeDepth := 40) [h]

@[simp] theorem Part.windowOpens_tidy (p : Part) (r : Fin 6) (seq : Word) (h : p.tidy) :
    (p.windowOpens r seq).tidy ∧ (p.windowOpens r seq).staging = p.staging := by
  unfold Part.windowOpens; simp (maxDischargeDepth := 40) [h]

@[simp] theorem Part.windowCloses_tidy (p : Part) (r : Fin 6) (seq : Word) (h : p.tidy) :
    (p.windowCloses r seq).tidy ∧ (p.windowCloses r seq).staging = p.staging := by
  unfold Part.windowCloses; simp (maxDischargeDepth := 40) [h]

@[simp] theorem Part.graceEnds_tidy (p : Part) (r : Fin 6) (seq : Word) (h : p.tidy) :
    (p.graceEnds r seq).tidy ∧ (p.graceEnds r seq).staging = p.staging := by
  unfold Part.graceEnds; (repeat' split) <;> simp (maxDischargeDepth := 40) [h]

@[simp] theorem Part.raiseWatch_tidy (p : Part) (w : Watch) (h : p.tidy) :
    (p.raiseWatch w).tidy ∧ (p.raiseWatch w).staging = p.staging := by
  unfold Part.raiseWatch; (repeat' split) <;> simp (maxDischargeDepth := 40) [h]

@[simp] theorem Part.registerWatch_tidy (p : Part) (w : Watch) (h : p.tidy) :
    (p.registerWatch w).tidy ∧ (p.registerWatch w).staging = p.staging := by
  unfold Part.registerWatch; (repeat' split) <;> simp (maxDischargeDepth := 40) [h]

@[simp] theorem Part.servicePitch_tidy (p : Part) (seq : Word) (h : p.tidy) :
    (p.servicePitch seq).tidy ∧ (p.servicePitch seq).staging = p.staging := by
  unfold Part.servicePitch; dsimp only; (repeat' split) <;> simp (maxDischargeDepth := 40) [h]

@[simp] theorem Part.closeReport_tidy (p : Part) (r : Fin 6) (seq : Word) (h : p.tidy) :
    (p.closeReport r seq).tidy ∧ (p.closeReport r seq).staging = p.staging := by
  unfold Part.closeReport; simp (maxDischargeDepth := 40) [h]

@[simp] theorem Part.adoptRotation_tidy (p : Part) (q : PendingRotation) (h : p.tidy) :
    (p.adoptRotation q).tidy ∧ (p.adoptRotation q).staging = p.staging := by
  unfold Part.adoptRotation; dsimp only; simp (maxDischargeDepth := 40) [h]

@[simp] theorem Part.wrap_tidy (p : Part) (h : p.tidy) : p.wrap.tidy ∧ p.wrap.staging = p.staging := by
  unfold Part.wrap; (repeat' split) <;> simp (maxDischargeDepth := 40) [h]

@[simp] theorem Part.advanceCursor_tidy (p : Part) (slot : Nat) (h : p.tidy) :
    (p.advanceCursor slot).tidy ∧ (p.advanceCursor slot).staging = p.staging := by
  unfold Part.advanceCursor; (repeat' split) <;> simp (maxDischargeDepth := 40) [h]

@[simp] theorem Part.searchSlot_tidy (n : Nat) (p : Part) (start pos turn : Nat) (h : p.tidy) :
    (Part.searchSlot n p start pos turn).2.2.tidy ∧ (Part.searchSlot n p start pos turn).2.2.staging = p.staging := by
  induction n generalizing p start pos turn with
  | zero => simp (maxDischargeDepth := 40) [Part.searchSlot, h]
  | succ n ih => unfold Part.searchSlot; dsimp only; (repeat' split) <;> simp (maxDischargeDepth := 40) [ih, h]

@[simp] theorem Part.assign_tidy (p : Part) (h : p.tidy) : p.assign.2.2.tidy ∧ p.assign.2.2.staging = p.staging := by
  unfold Part.assign; dsimp only; (repeat' split) <;> simp (maxDischargeDepth := 40) [h]

@[simp] theorem Part.robotsReady_tidy (p : Part) (h : p.tidy) :
    p.robotsReady.tidy ∧ p.robotsReady.staging = p.staging := by
  unfold Part.robotsReady; dsimp only; (repeat' split) <;> simp +contextual (maxDischargeDepth := 40) [h, Part.fold_tidy]

@[simp] theorem Part.robotRunOrder_tidy (p : Part) (ref : OrderRef) (robot : Byte) (h : p.tidy) :
    (p.robotRunOrder ref robot).tidy ∧ (p.robotRunOrder ref robot).staging = p.staging := by
  unfold Part.robotRunOrder; (repeat' split) <;> simp (maxDischargeDepth := 40) [h]

@[simp] theorem Part.robotHaltOrder_tidy (p : Part) (ref : OrderRef) (robot : Byte) (h : p.tidy) :
    (p.robotHaltOrder ref robot).tidy ∧ (p.robotHaltOrder ref robot).staging = p.staging := by
  unfold Part.robotHaltOrder; (repeat' split) <;> simp (maxDischargeDepth := 40) [h]

@[simp] theorem Part.robotClearOrder_tidy (p : Part) (ref : OrderRef) (robot : Byte) (h : p.tidy) :
    (p.robotClearOrder ref robot).tidy ∧ (p.robotClearOrder ref robot).staging = p.staging := by
  unfold Part.robotClearOrder; dsimp only; (repeat' split) <;> simp (maxDischargeDepth := 40) [h]

@[simp] theorem Part.rotationSetOrder_tidy (p : Part) (ref : OrderRef) (count : Byte) (skip : Byte)
    (entries : List Byte) (h : p.tidy) :
    (p.rotationSetOrder ref count skip entries).tidy ∧ (p.rotationSetOrder ref count skip entries).staging = p.staging := by
  unfold Part.rotationSetOrder; dsimp only; (repeat' split) <;> simp (maxDischargeDepth := 40) [h]

@[simp] theorem Part.windowSetOrder_tidy (p : Part) (ref : OrderRef) (robot : Byte) (opening : Half) (closing : Half)
    (h : p.tidy) :
    (p.windowSetOrder ref robot opening closing).tidy ∧ (p.windowSetOrder ref robot opening closing).staging = p.staging := by
  unfold Part.windowSetOrder; dsimp only; (repeat' split) <;> simp (maxDischargeDepth := 40) [h]

@[simp] theorem Part.robotsAdopt_tidy (p : Part) (f : Profile) (h : p.tidy) :
    (p.robotsAdopt f).tidy ∧ (p.robotsAdopt f).staging = p.staging := by
  unfold Part.robotsAdopt; dsimp only; simp +contextual (maxDischargeDepth := 40) [h, Part.fold_tidy]

@[simp] theorem Part.robotsLineReset_tidy (p : Part) (h : p.tidy) :
    p.robotsLineReset.tidy ∧ p.robotsLineReset.staging = p.staging := by
  unfold Part.robotsLineReset; dsimp only; simp +contextual (maxDischargeDepth := 40) [h, Part.fold_tidy]

@[simp] theorem Part.haltMembers_tidy (p : Part) (z : Fin 8) (h : p.tidy) :
    (p.haltMembers z).tidy ∧ (p.haltMembers z).staging = p.staging := by
  unfold Part.haltMembers; dsimp only; simp +contextual (maxDischargeDepth := 40) [h, Part.fold_tidy]

@[simp] theorem Part.grantHold_tidy (p : Part) (z : Fin 8) (level : AccessLevel) (origin : ZoneOrigin) (length : Nat)
    (badge : Half) (h : p.tidy) :
    (p.grantHold z level origin length badge).tidy ∧ (p.grantHold z level origin length badge).staging = p.staging := by
  unfold Part.grantHold; dsimp only; (repeat' split) <;> simp (maxDischargeDepth := 40) [h]

@[simp] theorem Part.grant_tidy (p : Part) (z : Fin 8) (level : AccessLevel) (origin : ZoneOrigin) (length : Nat)
    (badge : Half) (result : Result) (h : p.tidy) :
    (p.grant z level origin length badge result).tidy ∧ (p.grant z level origin length badge result).staging = p.staging := by
  unfold Part.grant; simp (maxDischargeDepth := 40) [h]

@[simp] theorem Part.enterHalting_tidy (p : Part) (z : Fin 8) (q : ZoneRequest) (ref : Option OrderRef) (h : p.tidy) :
    (p.enterHalting z q ref).tidy ∧ (p.enterHalting z q ref).staging = p.staging := by
  unfold Part.enterHalting; dsimp only; (repeat' split) <;> simp (maxDischargeDepth := 40) [h]

@[simp] theorem Part.refuseAccess_tidy (p : Part) (ref : OrderRef) (z : Fin 8) (badge : Half) (result : Result)
    (h : p.tidy) :
    (p.refuseAccess ref z badge result).tidy ∧ (p.refuseAccess ref z badge result).staging = p.staging := by
  unfold Part.refuseAccess; simp (maxDischargeDepth := 40) [h]

@[simp] theorem Part.refuseAbsentZone_tidy (p : Part) (ref : OrderRef) (zone : Byte) (badge : Half) (h : p.tidy) :
    (p.refuseAbsentZone ref zone badge).tidy ∧ (p.refuseAbsentZone ref zone badge).staging = p.staging := by
  unfold Part.refuseAbsentZone; simp (maxDischargeDepth := 40) [h]

@[simp] theorem Part.accessRequestOrder_tidy (p : Part) (ref : OrderRef) (zone : Byte) (level : Byte) (length : Half)
    (badge : Half) (h : p.tidy) :
    (p.accessRequestOrder ref zone level length badge).tidy ∧ (p.accessRequestOrder ref zone level length badge).staging = p.staging := by
  unfold Part.accessRequestOrder; dsimp only; (repeat' split) <;> simp (maxDischargeDepth := 40) [h]

@[simp] theorem Part.endAccess_tidy (p : Part) (z : Fin 8) (h : p.tidy) :
    (p.endAccess z).tidy ∧ (p.endAccess z).staging = p.staging := by
  unfold Part.endAccess; dsimp only; (repeat' split) <;> simp (maxDischargeDepth := 40) [h]

@[simp] theorem Part.accessEndOrder_tidy (p : Part) (ref : OrderRef) (zone : Byte) (h : p.tidy) :
    (p.accessEndOrder ref zone).tidy ∧ (p.accessEndOrder ref zone).staging = p.staging := by
  unfold Part.accessEndOrder; (repeat' split) <;> simp (maxDischargeDepth := 40) [h]

@[simp] theorem Part.extended_tidy (p : Part) (ref : OrderRef) (z : Fin 8) (clamped : Bool) (h : p.tidy) :
    (p.extended ref z clamped).tidy ∧ (p.extended ref z clamped).staging = p.staging := by
  unfold Part.extended; simp (maxDischargeDepth := 40) [h]

@[simp] theorem Part.accessExtendOrder_tidy (p : Part) (ref : OrderRef) (zone : Byte) (length : Half) (h : p.tidy) :
    (p.accessExtendOrder ref zone length).tidy ∧ (p.accessExtendOrder ref zone length).staging = p.staging := by
  unfold Part.accessExtendOrder; dsimp only; (repeat' split) <;> simp (maxDischargeDepth := 40) [h]

@[simp] theorem Part.zoneExpired_tidy (p : Part) (z : Fin 8) (h : p.tidy) :
    (p.zoneExpired z).tidy ∧ (p.zoneExpired z).staging = p.staging := by
  unfold Part.zoneExpired; dsimp only; (repeat' split) <;> simp (maxDischargeDepth := 40) [h]

@[simp] theorem Part.accessExpiry_tidy (p : Part) (z : Fin 8) (h : p.tidy) :
    (p.accessExpiry z).tidy ∧ (p.accessExpiry z).staging = p.staging := by
  unfold Part.accessExpiry; (repeat' split) <;> simp (maxDischargeDepth := 40) [h]

@[simp] theorem Part.intrusion_tidy (p : Part) (z : Fin 8) (h : p.tidy) :
    (p.intrusion z).tidy ∧ (p.intrusion z).staging = p.staging := by
  unfold Part.intrusion; dsimp only; (repeat' split) <;> simp (maxDischargeDepth := 40) [h]

@[simp] theorem Part.doorOpening_tidy (p : Part) (z : Fin 8) (h : p.tidy) :
    (p.doorOpening z).tidy ∧ (p.doorOpening z).staging = p.staging := by
  unfold Part.doorOpening; (repeat' split) <;> simp (maxDischargeDepth := 40) [h]

@[simp] theorem Part.doorClosing_tidy (p : Part) (z : Fin 8) (h : p.tidy) :
    (p.doorClosing z).tidy ∧ (p.doorClosing z).staging = p.staging := by
  unfold Part.doorClosing; (repeat' split) <;> simp (maxDischargeDepth := 40) [h]

@[simp] theorem Part.doorChange_tidy (p : Part) (z : Fin 8) (level : Bool) (h : p.tidy) :
    (p.doorChange z level).tidy ∧ (p.doorChange z level).staging = p.staging := by
  unfold Part.doorChange; (repeat' split) <;> simp (maxDischargeDepth := 40) [h]

@[simp] theorem Part.reqChange_tidy (p : Part) (z : Fin 8) (level : Bool) (h : p.tidy) :
    (p.reqChange z level).tidy ∧ (p.reqChange z level).staging = p.staging := by
  unfold Part.reqChange; (repeat' split) <;> simp (maxDischargeDepth := 40) [h]

@[simp] theorem Part.doorDebounce_tidy (p : Part) (z : Fin 8) (h : p.tidy) :
    (p.doorDebounce z).tidy ∧ (p.doorDebounce z).staging = p.staging := by
  unfold Part.doorDebounce; dsimp only; (repeat' split) <;> simp (maxDischargeDepth := 40) [h]

@[simp] theorem Part.press_tidy (p : Part) (z : Fin 8) (h : p.tidy) :
    (p.press z).tidy ∧ (p.press z).staging = p.staging := by
  unfold Part.press; dsimp only; (repeat' split) <;> simp (maxDischargeDepth := 40) [h]

@[simp] theorem Part.buttonDebounce_tidy (p : Part) (z : Fin 8) (h : p.tidy) :
    (p.buttonDebounce z).tidy ∧ (p.buttonDebounce z).staging = p.staging := by
  unfold Part.buttonDebounce; dsimp only; (repeat' split) <;> simp (maxDischargeDepth := 40) [h]

@[simp] theorem Part.resumeRobot_tidy (p : Part) (z : Fin 8) (r : Fin 6) (h : p.tidy) :
    (p.resumeRobot z r).tidy ∧ (p.resumeRobot z r).staging = p.staging := by
  unfold Part.resumeRobot; (repeat' split) <;> simp (maxDischargeDepth := 40) [h]

@[simp] theorem Part.resumeMember_tidy (p : Part) (z : Fin 8) (set : BitVec 6) (r : Fin 6) (h : p.tidy) :
    (p.resumeMember z set r).tidy ∧ (p.resumeMember z set r).staging = p.staging := by
  unfold Part.resumeMember; (repeat' split) <;> simp (maxDischargeDepth := 40) [h]

@[simp] theorem Part.resume_tidy (p : Part) (ref : OrderRef) (z : Fin 8) (h : p.tidy) :
    (p.resume ref z).tidy ∧ (p.resume ref z).staging = p.staging := by
  unfold Part.resume; dsimp only; simp +contextual (maxDischargeDepth := 40) [h, Part.fold_tidy]

@[simp] theorem Part.resumeZoneOrder_tidy (p : Part) (ref : OrderRef) (zone : Byte) (h : p.tidy) :
    (p.resumeZoneOrder ref zone).tidy ∧ (p.resumeZoneOrder ref zone).staging = p.staging := by
  unfold Part.resumeZoneOrder; (repeat' split) <;> simp (maxDischargeDepth := 40) [h]

@[simp] theorem Part.zoneAdopt_tidy (p : Part) (z : Fin 8) (h : p.tidy) :
    (p.zoneAdopt z).tidy ∧ (p.zoneAdopt z).staging = p.staging := by
  unfold Part.zoneAdopt; (repeat' split) <;> simp (maxDischargeDepth := 40) [h]

@[simp] theorem Part.zonesAdopt_tidy (p : Part) (f : Profile) (h : p.tidy) :
    (p.zonesAdopt f).tidy ∧ (p.zonesAdopt f).staging = p.staging := by
  unfold Part.zonesAdopt; dsimp only; simp +contextual (maxDischargeDepth := 40) [h, Part.fold_tidy]

@[simp] theorem Part.zonesDropOrders_tidy (p : Part) (h : p.tidy) :
    p.zonesDropOrders.tidy ∧ p.zonesDropOrders.staging = p.staging := by
  unfold Part.zonesDropOrders; simp +contextual (maxDischargeDepth := 40) [h, Part.fold_tidy]

@[simp] theorem Part.listEmptied_tidy (p : Part) (h : p.tidy) :
    p.listEmptied.tidy ∧ p.listEmptied.staging = p.staging := by
  unfold Part.listEmptied; dsimp only; (repeat' split) <;> simp (maxDischargeDepth := 40) [h]

@[simp] theorem Part.remove_tidy (p : Part) (seq : Word) (h : p.tidy) :
    (p.remove seq).tidy ∧ (p.remove seq).staging = p.staging := by
  unfold Part.remove; dsimp only; (repeat' split) <;> simp (maxDischargeDepth := 40) [h]

@[simp] theorem Part.countEject_tidy (p : Part) (f : EjectorCounters → EjectorCounters) (h : p.tidy) :
    (p.countEject f).tidy ∧ (p.countEject f).staging = p.staging := by
  unfold Part.countEject; simp (maxDischargeDepth := 40) [h]

@[simp] theorem Part.unconfirm_tidy (p : Part) (seq : Word) (news : News) (h : p.tidy) :
    (p.unconfirm seq news).tidy ∧ (p.unconfirm seq news).staging = p.staging := by
  unfold Part.unconfirm; dsimp only; simp (maxDischargeDepth := 40) [h]

@[simp] theorem Part.pushOut_tidy (p : Part) (h : p.tidy) : p.pushOut.tidy ∧ p.pushOut.staging = p.staging := by
  unfold Part.pushOut; (repeat' split) <;> simp (maxDischargeDepth := 40) [h]

@[simp] theorem Part.fireMember_tidy (p : Part) (seq : Word) (h : p.tidy) :
    (p.fireMember seq).tidy ∧ (p.fireMember seq).staging = p.staging := by
  unfold Part.fireMember; dsimp only; (repeat' split) <;> simp (maxDischargeDepth := 40) [h]

@[simp] theorem Part.fireMembers_tidy (p : Part) (seqs : List Word) (h : p.tidy) :
    (p.fireMembers seqs).tidy ∧ (p.fireMembers seqs).staging = p.staging := by
  unfold Part.fireMembers; simp +contextual (maxDischargeDepth := 40) [h, Part.fold_tidy]

@[simp] theorem Part.drive_tidy (p : Part) (ending : Time) (h : p.tidy) :
    (p.drive ending).tidy ∧ (p.drive ending).staging = p.staging := by
  unfold Part.drive; dsimp only; (repeat' split) <;> simp (maxDischargeDepth := 40) [h]

@[simp] theorem Part.startPulse_tidy (p : Part) (q : Pulse) (ending : Time) (h : p.tidy) :
    (p.startPulse q ending).tidy ∧ (p.startPulse q ending).staging = p.staging := by
  unfold Part.startPulse; dsimp only; simp (maxDischargeDepth := 40) [h]

@[simp] theorem Part.scheduleTimed_tidy (p : Part) (seq : Word) (s : Time) (h : p.tidy) :
    (p.scheduleTimed seq s).tidy ∧ (p.scheduleTimed seq s).staging = p.staging := by
  unfold Part.scheduleTimed; dsimp only; (repeat' split) <;> simp (maxDischargeDepth := 40) [h]

@[simp] theorem Part.takeReject_tidy (p : Part) (seq : Word) (h : p.tidy) :
    (p.takeReject seq).tidy ∧ (p.takeReject seq).staging = p.staging := by
  unfold Part.takeReject; dsimp only; (repeat' split) <;> simp (maxDischargeDepth := 40) [h]

@[simp] theorem Part.startByTime_tidy (p : Part) (q : Pulse) (h : p.tidy) :
    (p.startByTime q).tidy ∧ (p.startByTime q).staging = p.staging := by
  unfold Part.startByTime; (repeat' split) <;> simp (maxDischargeDepth := 40) [h]

@[simp] theorem Part.ejectorNewPace_tidy (p : Part) (h : p.tidy) :
    p.ejectorNewPace.tidy ∧ p.ejectorNewPace.staging = p.staging := by
  unfold Part.ejectorNewPace; dsimp only; simp +contextual (maxDischargeDepth := 40) [h, Part.fold_tidy]

@[simp] theorem Part.ejectorPaceLost_tidy (p : Part) (h : p.tidy) :
    p.ejectorPaceLost.tidy ∧ p.ejectorPaceLost.staging = p.staging := by
  unfold Part.ejectorPaceLost; simp (maxDischargeDepth := 40) [h]

@[simp] theorem Part.ejectPulseStart_tidy (p : Part) (h : p.tidy) :
    p.ejectPulseStart.tidy ∧ p.ejectPulseStart.staging = p.staging := by
  unfold Part.ejectPulseStart; (repeat' split) <;> simp (maxDischargeDepth := 40) [h]

@[simp] theorem Part.ejectorArrival_tidy (p : Part) (seq : Word) (h : p.tidy) :
    (p.ejectorArrival seq).tidy ∧ (p.ejectorArrival seq).staging = p.staging := by
  unfold Part.ejectorArrival; dsimp only; (repeat' split) <;> simp (maxDischargeDepth := 40) [h]

@[simp] theorem Part.ejectOutputEnd_tidy (p : Part) (h : p.tidy) :
    p.ejectOutputEnd.tidy ∧ p.ejectOutputEnd.staging = p.staging := by
  unfold Part.ejectOutputEnd; (repeat' split) <;> simp (maxDischargeDepth := 40) [h]

@[simp] theorem Part.confirmation_tidy (p : Part) (h : p.tidy) :
    p.confirmation.tidy ∧ p.confirmation.staging = p.staging := by
  unfold Part.confirmation; dsimp only; (repeat' split) <;> simp (maxDischargeDepth := 40) [h]

@[simp] theorem Part.confirmLine_tidy (p : Part) (level : Bool) (h : p.tidy) :
    (p.confirmLine level).tidy ∧ (p.confirmLine level).staging = p.staging := by
  unfold Part.confirmLine; dsimp only; (repeat' split) <;> simp (maxDischargeDepth := 40) [h]

@[simp] theorem Part.confirmEnd_tidy (p : Part) (seq : Word) (h : p.tidy) :
    (p.confirmEnd seq).tidy ∧ (p.confirmEnd seq).staging = p.staging := by
  unfold Part.confirmEnd; (repeat' split) <;> simp (maxDischargeDepth := 40) [h]

@[simp] theorem Part.ejectTestOrder_tidy (p : Part) (ref : OrderRef) (h : p.tidy) :
    (p.ejectTestOrder ref).tidy ∧ (p.ejectTestOrder ref).staging = p.staging := by
  unfold Part.ejectTestOrder; dsimp only; (repeat' split) <;> simp (maxDischargeDepth := 40) [h]

@[simp] theorem Part.ejectorLineReset_tidy (p : Part) (h : p.tidy) :
    p.ejectorLineReset.tidy ∧ p.ejectorLineReset.staging = p.staging := by
  unfold Part.ejectorLineReset; simp (maxDischargeDepth := 40) [h]

@[simp] theorem Part.countUntracked_tidy (p : Part) (h : p.tidy) :
    p.countUntracked.tidy ∧ p.countUntracked.staging = p.staging := by
  unfold Part.countUntracked; simp (maxDischargeDepth := 40) [h]

@[simp] theorem Part.turnAway_tidy (p : Part) (h : p.tidy) : p.turnAway.tidy ∧ p.turnAway.staging = p.staging := by
  unfold Part.turnAway; simp (maxDischargeDepth := 40) [h]

@[simp] theorem Part.append_tidy (p : Part) (r : Record) (h : p.tidy) :
    (p.append r).tidy ∧ (p.append r).staging = p.staging := by
  unfold Part.append; simp (maxDischargeDepth := 40) [h]

@[simp] theorem Part.admitContainer_tidy (p : Part) (h : p.tidy) :
    p.admitContainer.tidy ∧ p.admitContainer.staging = p.staging := by
  unfold Part.admitContainer; dsimp only; (repeat' split) <;> simp (maxDischargeDepth := 40) [h]

@[simp] theorem Part.closeVerdicts_tidy (p : Part) (seq : Word) (h : p.tidy) :
    (p.closeVerdicts seq).tidy ∧ (p.closeVerdicts seq).staging = p.staging := by
  unfold Part.closeVerdicts; simp (maxDischargeDepth := 40) [h]

@[simp] theorem Part.closeFill_tidy (p : Part) (seq : Word) (h : p.tidy) :
    (p.closeFill seq).tidy ∧ (p.closeFill seq).staging = p.staging := by
  unfold Part.closeFill; (repeat' split) <;> simp (maxDischargeDepth := 40) [h]

@[simp] theorem Part.settle_tidy (p : Part) (seq : Word) (h : p.tidy) :
    (p.settle seq).tidy ∧ (p.settle seq).staging = p.staging := by
  unfold Part.settle; dsimp only; (repeat' split) <;> simp (maxDischargeDepth := 40) [h]

@[simp] theorem Part.ejectorStation_tidy (p : Part) (seq : Word) (h : p.tidy) :
    (p.ejectorStation seq).tidy ∧ (p.ejectorStation seq).staging = p.staging := by
  unfold Part.ejectorStation; (repeat' split) <;> simp (maxDischargeDepth := 40) [h]

@[simp] theorem Part.markRejectOrder_tidy (p : Part) (ref : OrderRef) (seq : Word) (h : p.tidy) :
    (p.markRejectOrder ref seq).tidy ∧ (p.markRejectOrder ref seq).staging = p.staging := by
  unfold Part.markRejectOrder; dsimp only; (repeat' split) <;> simp (maxDischargeDepth := 40) [h]

@[simp] theorem Part.clearCounts_tidy (p : Part) (h : p.tidy) :
    p.clearCounts.tidy ∧ p.clearCounts.staging = p.staging := by
  unfold Part.clearCounts; dsimp only; simp (maxDischargeDepth := 40) [h]

@[simp] theorem Part.countersClearOrder_tidy (p : Part) (ref : OrderRef) (h : p.tidy) :
    (p.countersClearOrder ref).tidy ∧ (p.countersClearOrder ref).staging = p.staging := by
  unfold Part.countersClearOrder; dsimp only; (repeat' split) <;> simp (maxDischargeDepth := 40) [h]

@[simp] theorem Part.transitLineReset_tidy (p : Part) (h : p.tidy) :
    p.transitLineReset.tidy ∧ p.transitLineReset.staging = p.staging := by
  unfold Part.transitLineReset; dsimp only; (repeat' split) <;> simp (maxDischargeDepth := 40) [h]

@[simp] theorem Part.fallSilent_tidy (p : Part) (i : Fin 16) (h : p.tidy) :
    (p.fallSilent i).tidy ∧ (p.fallSilent i).staging = p.staging := by
  unfold Part.fallSilent; dsimp only; (repeat' split) <;> simp (maxDischargeDepth := 40) [h]

@[simp] theorem Part.portSilence_tidy (p : Part) (i : Fin 16) (h : p.tidy) :
    (p.portSilence i).tidy ∧ (p.portSilence i).staging = p.staging := by
  unfold Part.portSilence; dsimp only; (repeat' split) <;> simp (maxDischargeDepth := 40) [h]

@[simp] theorem Part.enterCrawl_tidy (p : Part) (h : p.tidy) :
    p.enterCrawl.tidy ∧ p.enterCrawl.staging = p.staging := by
  unfold Part.enterCrawl; dsimp only; (repeat' split) <;> simp (maxDischargeDepth := 40) [h]

@[simp] theorem Part.handPace_tidy (p : Part) (h : p.tidy) : p.handPace.tidy ∧ p.handPace.staging = p.staging := by
  unfold Part.handPace; simp (maxDischargeDepth := 40) [h]

@[simp] theorem Part.judgePace_tidy (p : Part) (f : Profile) (h : p.tidy) :
    (p.judgePace f).tidy ∧ (p.judgePace f).staging = p.staging := by
  unfold Part.judgePace; dsimp only; (repeat' split) <;> simp (maxDischargeDepth := 40) [h]

@[simp] theorem Part.mark_tidy (p : Part) (f : Profile) (h : p.tidy) :
    (p.mark f).tidy ∧ (p.mark f).staging = p.staging := by
  unfold Part.mark; dsimp only; (repeat' split) <;> simp (maxDischargeDepth := 40) [h]

@[simp] theorem Part.markTimedOut_tidy (p : Part) (h : p.tidy) :
    p.markTimedOut.tidy ∧ p.markTimedOut.staging = p.staging := by
  unfold Part.markTimedOut; (repeat' split) <;> simp (maxDischargeDepth := 40) [h]

@[simp] theorem Part.sample_tidy (p : Part) (h : p.tidy) : p.sample.tidy ∧ p.sample.staging = p.staging := by
  unfold Part.sample; dsimp only; (repeat' split) <;> simp (maxDischargeDepth := 40) [h]

@[simp] theorem Part.arrive_tidy (p : Part) (seq : Word) (st : Station) (h : p.tidy) :
    (p.arrive seq st).tidy ∧ (p.arrive seq st).staging = p.staging := by
  unfold Part.arrive; (repeat' split) <;> simp (maxDischargeDepth := 40) [h]

@[simp] theorem Part.raisePending_tidy (p : Part) (f : Profile) (e : Pending) (h : p.tidy) :
    (p.raisePending f e).tidy ∧ (p.raisePending f e).staging = p.staging := by
  unfold Part.raisePending; (repeat' split) <;> simp (maxDischargeDepth := 40) [h]

@[simp] theorem Part.travel_tidy (n : Nat) (choices : List Nat) (sample : Bool) (mark : Bool) (p : Part) (f : Profile)
    (h : p.tidy) :
    (Part.travel n choices sample mark p f).tidy ∧ (Part.travel n choices sample mark p f).staging = p.staging := by
  induction n generalizing choices sample mark p with
  | zero => exact ⟨h, rfl⟩
  | succ n ih => unfold Part.travel; dsimp only; split <;> simp (maxDischargeDepth := 40) [ih, h]

@[simp] theorem Part.advance_tidy (p : Part) (choices : List Nat) (h : p.tidy) :
    (p.advance choices).tidy ∧ (p.advance choices).staging = p.staging := by
  unfold Part.advance; dsimp only; (repeat' split) <;> simp (maxDischargeDepth := 40) [h]

@[simp] theorem Part.beginExcursion_tidy (p : Part) (h : p.tidy) :
    p.beginExcursion.tidy ∧ p.beginExcursion.staging = p.staging := by
  unfold Part.beginExcursion; dsimp only; simp (maxDischargeDepth := 40) [h]

@[simp] theorem Part.endExcursion_tidy (p : Part) (h : p.tidy) :
    p.endExcursion.tidy ∧ p.endExcursion.staging = p.staging := by
  unfold Part.endExcursion; simp (maxDischargeDepth := 40) [h]

@[simp] theorem Part.forward_tidy (p : Part) (choices : List Nat) (h : p.tidy) :
    (p.forward choices).tidy ∧ (p.forward choices).staging = p.staging := by
  unfold Part.forward; dsimp only; (repeat' split) <;> simp (maxDischargeDepth := 40) [h]

@[simp] theorem Part.backward_tidy (p : Part) (h : p.tidy) : p.backward.tidy ∧ p.backward.staging = p.staging := by
  unfold Part.backward; dsimp only; (repeat' split) <;> simp (maxDischargeDepth := 40) [h]

@[simp] theorem Part.encoderError_tidy (p : Part) (h : p.tidy) :
    p.encoderError.tidy ∧ p.encoderError.staging = p.staging := by
  unfold Part.encoderError; simp (maxDischargeDepth := 40) [h]

@[simp] theorem Part.encoderPair_tidy (p : Part) (pair : Bool × Bool) (infeed : Bool) (choices : List Nat)
    (h : p.tidy) :
    (p.encoderPair pair infeed choices).tidy ∧ (p.encoderPair pair infeed choices).staging = p.staging := by
  unfold Part.encoderPair; dsimp only; (repeat' split) <;> simp (maxDischargeDepth := 40) [h]

@[simp] theorem Part.lineStartOrder_tidy (p : Part) (ref : OrderRef) (h : p.tidy) :
    (p.lineStartOrder ref).tidy ∧ (p.lineStartOrder ref).staging = p.staging := by
  unfold Part.lineStartOrder; dsimp only; (repeat' split) <;> simp (maxDischargeDepth := 40) [h]

@[simp] theorem Part.lineStopOrder_tidy (p : Part) (ref : OrderRef) (h : p.tidy) :
    (p.lineStopOrder ref).tidy ∧ (p.lineStopOrder ref).staging = p.staging := by
  unfold Part.lineStopOrder; (repeat' split) <;> simp (maxDischargeDepth := 40) [h]

@[simp] theorem Part.trackerLineReset_tidy (p : Part) (h : p.tidy) :
    p.trackerLineReset.tidy ∧ p.trackerLineReset.staging = p.staging := by
  unfold Part.trackerLineReset; dsimp only; (repeat' split) <;> simp (maxDischargeDepth := 40) [h]

@[simp] theorem Part.tick_tidy (p : Part) (h : p.tidy) : p.tick.tidy ∧ p.tick.staging = p.staging := by
  unfold Part.tick; simp (maxDischargeDepth := 40) [h]

@[simp] theorem Part.carry_tidy (p : Part) (h : p.tidy) : p.carry.tidy ∧ p.carry.staging = p.staging := by
  unfold Part.carry; simp (maxDischargeDepth := 40) [h]

@[simp] theorem Part.timeTrimOrder_tidy (p : Part) (ref : OrderRef) (ppb : Word) (h : p.tidy) :
    (p.timeTrimOrder ref ppb).tidy ∧ (p.timeTrimOrder ref ppb).staging = p.staging := by
  unfold Part.timeTrimOrder; dsimp only; simp (maxDischargeDepth := 40) [h]

@[simp] theorem Part.markStepped_tidy (p : Part) (offset : Int) (h : p.tidy) :
    (p.markStepped offset).tidy ∧ (p.markStepped offset).staging = p.staging := by
  unfold Part.markStepped; (repeat' split) <;> simp (maxDischargeDepth := 40) [h]

@[simp] theorem Part.mirrorStep_tidy (p : Part) (offset : Int) (h : p.tidy) :
    (p.mirrorStep offset).tidy ∧ (p.mirrorStep offset).staging = p.staging := by
  unfold Part.mirrorStep; dsimp only; (repeat' split) <;> simp (maxDischargeDepth := 40) [h]

@[simp] theorem Part.applyStep_tidy (p : Part) (q : PendingStep) (h : p.tidy) :
    (p.applyStep q).tidy ∧ (p.applyStep q).staging = p.staging := by
  unfold Part.applyStep; dsimp only; simp (maxDischargeDepth := 40) [h]

@[simp] theorem Part.releaseStep_tidy (p : Part) (h : p.tidy) :
    p.releaseStep.tidy ∧ p.releaseStep.staging = p.staging := by
  unfold Part.releaseStep; (repeat' split) <;> simp (maxDischargeDepth := 40) [h]

@[simp] theorem Part.timeStepOrder_tidy (p : Part) (ref : OrderRef) (offset : Word) (h : p.tidy) :
    (p.timeStepOrder ref offset).tidy ∧ (p.timeStepOrder ref offset).staging = p.staging := by
  unfold Part.timeStepOrder; dsimp only; (repeat' split) <;> simp (maxDischargeDepth := 40) [h]

@[simp] theorem Part.syncPulse_tidy (p : Part) (h : p.tidy) : p.syncPulse.tidy ∧ p.syncPulse.staging = p.staging := by
  unfold Part.syncPulse; dsimp only; (repeat' split) <;> simp (maxDischargeDepth := 40) [h]

@[simp] theorem Part.syncLevel_tidy (p : Part) (level : Bool) (h : p.tidy) :
    (p.syncLevel level).tidy ∧ (p.syncLevel level).staging = p.staging := by
  unfold Part.syncLevel; dsimp only; (repeat' split) <;> simp (maxDischargeDepth := 40) [h]

@[simp] theorem Part.loseSync_tidy (p : Part) (h : p.tidy) : p.loseSync.tidy ∧ p.loseSync.staging = p.staging := by
  unfold Part.loseSync; dsimp only; simp (maxDischargeDepth := 40) [h]

@[simp] theorem Part.syncLoss_tidy (p : Part) (h : p.tidy) : p.syncLoss.tidy ∧ p.syncLoss.staging = p.staging := by
  unfold Part.syncLoss; (repeat' split) <;> simp (maxDischargeDepth := 40) [h]

@[simp] theorem Part.syncAdopt_tidy (p : Part) (mode : SyncMode) (h : p.tidy) :
    (p.syncAdopt mode).tidy ∧ (p.syncAdopt mode).staging = p.staging := by
  unfold Part.syncAdopt; dsimp only; (repeat' split) <;> simp (maxDischargeDepth := 40) [h]

@[simp] theorem Part.readTime_tidy (p : Part) (h : p.tidy) : p.readTime.tidy ∧ p.readTime.staging = p.staging := by
  unfold Part.readTime; dsimp only; (repeat' split) <;> simp (maxDischargeDepth := 40) [h]

@[simp] theorem Part.timeLineReset_tidy (p : Part) (h : p.tidy) :
    p.timeLineReset.tidy ∧ p.timeLineReset.staging = p.staging := by
  unfold Part.timeLineReset; (repeat' split) <;> simp (maxDischargeDepth := 40) [h]

@[simp] theorem Part.seenWrite_tidy (p : Part) (b : Fin 10) (value : Half) (h : p.tidy) :
    (p.seenWrite b value).tidy ∧ (p.seenWrite b value).staging = p.staging := by
  have hb := bulletinBase_bound b
  unfold Part.seenWrite; dsimp only
  split
  · rw [← Part.staging_of_mem (p := p) (q := p.modRpu fun u => { u with bulletins := modAt u.bulletins b (·.see value) }) rfl]
    have s1 : ((p.modRpu fun u => { u with bulletins := modAt u.bulletins b (·.see value) }).store (bulletinBase b + 2)
        (leBytes 2 value.toNat)).staging = _ := Part.store_staging _ _ _ (by simp; omega)
    split
    · exact ⟨Part.store_tidy _ _ _ (Part.store_tidy _ _ _ h), (Part.store_staging _ _ _ (by simp; omega)).trans s1⟩
    · exact ⟨Part.store_tidy _ _ _ h, s1⟩
  · exact ⟨h, rfl⟩

@[simp] theorem Part.pageError_tidy (p : Part) (i : Fin 8) (h : p.tidy) :
    (p.pageError i).tidy ∧ (p.pageError i).staging = p.staging := by
  unfold Part.pageError; simp (maxDischargeDepth := 40) [h]

/-- A FULL page is returned. -/
theorem Part.returnPage_tidy (p : Part) (i : Fin 8) (h : p.tidy) :
    (p.returnPage i).tidy ∧ (p.returnPage i).staging = p.staging := by
  unfold Part.returnPage; dsimp only
  set q := p.modPage i fun g => { g with state := .empty, count := 0, cause := .none } with hq
  have k := pages_stop p.rpu.pages i (fun g => { g with state := .empty, count := 0, cause := .none }) h.2.2.1 h.2.2.2
    (by simp)
  have tq : q.tidy := ⟨h.1, h.2.1, k.1, k.2⟩
  have s1 : (q.store (entryBase i) (q.rpu.pages[i].bytes.take 4)).staging = q.staging :=
    Part.store_staging _ _ _ (by have := entryBase_bound i; simp; omega)
  have t1 : (q.store (entryBase i) (q.rpu.pages[i].bytes.take 4)).tidy := Part.store_tidy _ _ _ tq
  split
  · rename_i hc
    obtain ⟨t2, s2⟩ := Part.openPage_tidy _ i t1 (Part.fillingPage_none _ (by simpa using hc.2))
    obtain ⟨t3, s3⟩ := Part.rewrite_tidy _ .rpu t2
    exact ⟨t3, by rw [s3, s2, s1]; rfl⟩
  · exact ⟨t1, by rw [s1]; rfl⟩

@[simp] theorem Part.pageStateWrite_tidy (p : Part) (i : Fin 8) (value : Half) (h : p.tidy) :
    (p.pageStateWrite i value).tidy ∧ (p.pageStateWrite i value).staging = p.staging := by
  unfold Part.pageStateWrite; (repeat' split) <;> simp [h, Part.returnPage_tidy]

@[simp] theorem Part.pageAge_tidy (p : Part) (h : p.tidy) : p.pageAge.tidy ∧ p.pageAge.staging = p.staging := by
  unfold Part.pageAge
  split
  · split
    · rename_i i hi
      exact Part.closePage_tidy _ i .age h.1 h.2.1 h.2.2.1 (Part.fillingPage_some _ i hi)
    · exact ⟨h, rfl⟩
  · exact ⟨h, rfl⟩

@[simp] theorem Part.closeFilling_tidy (p : Part) (cause : CloseCause) (h : p.tidy) :
    (p.closeFilling cause).tidy ∧ (p.closeFilling cause).staging = p.staging := by
  unfold Part.closeFilling
  split
  · rename_i i hi
    split
    · exact ⟨h, rfl⟩
    · exact Part.closePage_tidy _ i cause h.1 h.2.1 h.2.2.1 (Part.fillingPage_some _ i hi)
  · exact ⟨h, rfl⟩

@[simp] theorem Part.outcomeFlushOrder_tidy (p : Part) (ref : OrderRef) (h : p.tidy) :
    (p.outcomeFlushOrder ref).tidy ∧ (p.outcomeFlushOrder ref).staging = p.staging := by
  unfold Part.outcomeFlushOrder; simp (maxDischargeDepth := 40) [h]

@[simp] theorem Part.faultUnlockOrder_tidy (p : Part) (ref : OrderRef) (count : Half) (h : p.tidy) :
    (p.faultUnlockOrder ref count).tidy ∧ (p.faultUnlockOrder ref count).staging = p.staging := by
  unfold Part.faultUnlockOrder; (repeat' split) <;> simp (maxDischargeDepth := 40) [h]

@[simp] theorem Part.intLevel_tidy (p : Part) (value : Half) (h : p.tidy) :
    (p.intLevel value).tidy ∧ (p.intLevel value).staging = p.staging := by
  unfold Part.intLevel; (repeat' split) <;> simp (maxDischargeDepth := 40) [h]

@[simp] theorem Part.refuseAdoption_tidy (p : Part) (ref : OrderRef) (r : AdoptRefusal) (h : p.tidy) :
    (p.refuseAdoption ref r).tidy ∧ (p.refuseAdoption ref r).staging = p.staging := by
  unfold Part.refuseAdoption; dsimp only; simp (maxDischargeDepth := 40) [h]

@[simp] theorem Part.profileAdoptOrder_tidy (p : Part) (ref : OrderRef) (h : p.tidy) :
    (p.profileAdoptOrder ref).tidy ∧ (p.profileAdoptOrder ref).staging = p.staging := by
  unfold Part.profileAdoptOrder; (repeat' split) <;> simp (maxDischargeDepth := 40) [h]

@[simp] theorem Part.advanceCopy_tidy (p : Part) (target : Nat) (h : p.tidy) :
    (p.advanceCopy target).tidy ∧ (p.advanceCopy target).staging = p.staging := by
  unfold Part.advanceCopy; simp (maxDischargeDepth := 40) [h]

@[simp] theorem Part.trackerAdopt_tidy (p : Part) (h : p.tidy) :
    p.trackerAdopt.tidy ∧ p.trackerAdopt.staging = p.staging := by
  unfold Part.trackerAdopt; dsimp only; simp (maxDischargeDepth := 40) [h]

@[simp] theorem Part.takeParts_tidy (p : Part) (f : Profile) (h : p.tidy) :
    (p.takeParts f).tidy ∧ (p.takeParts f).staging = p.staging := by
  unfold Part.takeParts; dsimp only; simp (maxDischargeDepth := 40) [h]

@[simp] theorem Part.adopt_tidy (p : Part) (ref : OrderRef) (f : Profile) (h : p.tidy) :
    (p.adopt ref f).tidy ∧ (p.adopt ref f).staging = p.staging := by
  unfold Part.adopt; dsimp only; simp (maxDischargeDepth := 40) [h]

@[simp] theorem Part.judgeCandidate_tidy (p : Part) (ref : OrderRef) (m : Memory) (h : p.tidy) :
    (p.judgeCandidate ref m).tidy ∧ (p.judgeCandidate ref m).staging = p.staging := by
  unfold Part.judgeCandidate; (repeat' split) <;> simp (maxDischargeDepth := 40) [h]

@[simp] theorem Part.copyEnd_tidy (p : Part) (h : p.tidy) : p.copyEnd.tidy ∧ p.copyEnd.staging = p.staging := by
  unfold Part.copyEnd; (repeat' split) <;> simp (maxDischargeDepth := 40) [h]

@[simp] theorem Part.protocolError_tidy (p : Part) (n : Fin 48) (h : p.tidy) :
    (p.protocolError n).tidy ∧ (p.protocolError n).staging = p.staging := by
  unfold Part.protocolError; simp (maxDischargeDepth := 40) [h]

@[simp] theorem Part.storeHand_tidy (p : Part) (n : Fin 48) (value : Half) (h : p.tidy) :
    (p.storeHand n value).tidy ∧ (p.storeHand n value).staging = p.staging :=
  ⟨Part.store_tidy _ _ _ h, Part.store_staging _ _ _ (by have := cellBase_bound n; simp; omega)⟩

@[simp] theorem Part.postCell_tidy (p : Part) (n : Fin 48) (value : Half) (h : p.tidy) :
    (p.postCell n value).tidy ∧ (p.postCell n value).staging = p.staging := by
  unfold Part.postCell; simp (maxDischargeDepth := 40) [h]

@[simp] theorem Part.withdrawCell_tidy (p : Part) (n : Fin 48) (value : Half) (h : p.tidy) :
    (p.withdrawCell n value).tidy ∧ (p.withdrawCell n value).staging = p.staging := by
  unfold Part.withdrawCell; simp (maxDischargeDepth := 40) [h]

@[simp] theorem Part.handWrite_tidy (p : Part) (n : Fin 48) (value : Half) (h : p.tidy) :
    (p.handWrite n value).tidy ∧ (p.handWrite n value).staging = p.staging := by
  unfold Part.handWrite; dsimp only; (repeat' split) <;> simp (maxDischargeDepth := 40) [h]

@[simp] theorem Part.perform_tidy (p : Part) (ref : OrderRef) (o : Order) (h : p.tidy) :
    (p.perform ref o).tidy ∧ (p.perform ref o).staging = p.staging := by
  unfold Part.perform; (repeat' split) <;> simp (maxDischargeDepth := 40) [h]

@[simp] theorem Part.markTaken_tidy (p : Part) (n : Fin 48) (h : p.tidy) :
    (p.markTaken n).tidy ∧ (p.markTaken n).staging = p.staging := by
  have hb := cellBase_bound n
  unfold Part.markTaken; dsimp only
  refine ⟨Part.store_tidy _ _ _ (Part.store_tidy _ _ _ h), ?_⟩
  rw [Part.store_staging _ _ _ (by simp; omega), Part.store_staging _ _ _ (by simp; omega)]
  rfl

@[simp] theorem Part.endTake_tidy (p : Part) (ref : OrderRef) (h : p.tidy) :
    (p.endTake ref).tidy ∧ (p.endTake ref).staging = p.staging := by
  unfold Part.endTake; simp (maxDischargeDepth := 40) [h]

@[simp] theorem Part.answer_tidy (p : Part) (ref : OrderRef) (order : Option Order) (busy : Bool) (h : p.tidy) :
    (p.answer ref order busy).tidy ∧ (p.answer ref order busy).staging = p.staging := by
  unfold Part.answer; (repeat' split) <;> simp (maxDischargeDepth := 40) [h]

@[simp] theorem Part.take_tidy (p : Part) (n : Fin 48) (h : p.tidy) :
    (p.take n).tidy ∧ (p.take n).staging = p.staging := by
  unfold Part.take; dsimp only; (repeat' split) <;> simp (maxDischargeDepth := 40) [h]

@[simp] theorem Part.orderTake_tidy (p : Part) (h : p.tidy) : p.orderTake.tidy ∧ p.orderTake.staging = p.staging := by
  unfold Part.orderTake; (repeat' split) <;> simp (maxDischargeDepth := 40) [h]

@[simp] theorem Part.takeAs_tidy (p : Part) (n : Fin 48) (o : Order) (h : p.tidy) :
    (p.takeAs n o).tidy ∧ (p.takeAs n o).staging = p.staging := by
  unfold Part.takeAs; (repeat' split) <;> simp (maxDischargeDepth := 40) [h]

@[simp] theorem Part.rewriteAll_tidy (p : Part) (h : p.tidy) :
    p.rewriteAll.tidy ∧ p.rewriteAll.staging = p.staging := by
  unfold Part.rewriteAll; simp +contextual (maxDischargeDepth := 40) [h, Part.fold_tidy]

@[simp] theorem Part.writeBoard_tidy (p : Part) (h : p.tidy) :
    p.writeBoard.tidy ∧ p.writeBoard.staging = p.staging := by
  unfold Part.writeBoard; dsimp only
  have t0 : (p.store 0 (headerBytes p.rpu.dropped)).tidy := Part.store_tidy _ _ _ h
  have s0 : (p.store 0 (headerBytes p.rpu.dropped)).staging = p.staging :=
    Part.store_staging _ _ _ (by simp [headerBytes, stagingBase])
  obtain ⟨t1, s1⟩ := Part.fold_tidy tens Part.storeBulletin _ (fun q b hq => Part.storeBulletin_tidy q b hq) t0
  obtain ⟨t2, s2⟩ := Part.storeFault_tidy _ t1
  obtain ⟨t3, s3⟩ := Part.fold_tidy eights Part.storePage _ (fun q b hq => Part.storePage_tidy q b hq) t2
  obtain ⟨t4, s4⟩ := Part.rewriteAll_tidy _ t3
  exact ⟨t4, by rw [s4, s3, s2, s1, s0]⟩

@[simp] theorem Part.startupComplete_tidy (p : Part) (h : p.tidy) :
    p.startupComplete.tidy ∧ p.startupComplete.staging = p.staging := by
  unfold Part.startupComplete; (repeat' split) <;> simp (maxDischargeDepth := 40) [h]

@[simp] theorem Part.beginExchangeReset_tidy (p : Part) (h : p.tidy) :
    p.beginExchangeReset.tidy ∧ p.beginExchangeReset.staging = p.staging := by
  unfold Part.beginExchangeReset
  have fresh : ∀ s : Word, oneFilling (Page.fresh s) = true ∧ fillingRoom (Page.fresh s) = true := fun s =>
    ⟨rfl, rfl⟩
  obtain ⟨t, e⟩ := Part.writeBoard_tidy ((p.modOdk Odk.exchangeReset).modRpu Rpu.exchangeReset).clearBoard
    ⟨Memory.span_wf _ _ _ h.1, rfl, (fresh _).1, (fresh _).2⟩
  refine ⟨t, e.trans ?_⟩
  unfold Part.staging Part.clearBoard
  simp only [Part.modRpu_fields, Part.modOdk_fields, Memory.span, List.filter_filter, Bool.and_self]

@[simp] theorem Part.exchangeReset_tidy (p : Part) (h : p.tidy) :
    p.exchangeReset.tidy ∧ p.exchangeReset.staging = p.staging := by
  unfold Part.exchangeReset; (repeat' split) <;> simp (maxDischargeDepth := 40) [h]

@[simp] theorem Part.exchangeResetEnd_tidy (p : Part) (h : p.tidy) :
    p.exchangeResetEnd.tidy ∧ p.exchangeResetEnd.staging = p.staging := by
  unfold Part.exchangeResetEnd; (repeat' split) <;> simp (maxDischargeDepth := 40) [h]

@[simp] theorem Part.abortCell_tidy (p : Part) (inflight : List InFlight) (n : Fin 48) (h : p.tidy) :
    (p.abortCell inflight n).tidy ∧ (p.abortCell inflight n).staging = p.staging := by
  have hb := cellBase_bound n
  unfold Part.abortCell; dsimp only
  split
  · simp [h]
  · split
    · exact ⟨Part.store_tidy _ _ _ h, Part.store_staging _ _ _ (by simp; omega)⟩
    · exact ⟨h, rfl⟩

@[simp] theorem Part.abortCells_tidy (p : Part) (inflight : List InFlight) (h : p.tidy) :
    (p.abortCells inflight).tidy ∧ (p.abortCells inflight).staging = p.staging := by
  unfold Part.abortCells; simp +contextual (maxDischargeDepth := 40) [h, Part.fold_tidy]

@[simp] theorem Part.beginLineReset_tidy (p : Part) (h : p.tidy) :
    p.beginLineReset.tidy ∧ p.beginLineReset.staging = p.staging := by
  unfold Part.beginLineReset; dsimp only; simp (maxDischargeDepth := 40) [h]

@[simp] theorem Part.controlLineReset_tidy (p : Part) (h : p.tidy) :
    p.controlLineReset.tidy ∧ p.controlLineReset.staging = p.staging := by
  unfold Part.controlLineReset; (repeat' split) <;> simp (maxDischargeDepth := 40) [h]

@[simp] theorem Part.pinLineReset_tidy (p : Part) (h : p.tidy) :
    p.pinLineReset.tidy ∧ p.pinLineReset.staging = p.staging := by
  unfold Part.pinLineReset; (repeat' split) <;> simp (maxDischargeDepth := 40) [h]

@[simp] theorem Part.lineResetEnd_tidy (p : Part) (h : p.tidy) :
    p.lineResetEnd.tidy ∧ p.lineResetEnd.staging = p.staging := by
  unfold Part.lineResetEnd; dsimp only; (repeat' split) <;> simp (maxDischargeDepth := 40) [h]

@[simp] theorem Part.hostStore_tidy (p : Part) (offset : Nat) (value : Half) (h : p.tidy) :
    (p.hostStore offset value).tidy := by
  unfold Part.hostStore; (repeat' split) <;> simp [h]

@[simp] theorem Part.hostMemoryWrite_tidy (p : Part) (offset : Nat) (value : Half) (progress : Nat) (h : p.tidy) :
    (p.hostMemoryWrite offset value progress).tidy := by
  unfold Part.hostMemoryWrite; split <;> simp [h]

@[simp] theorem Part.registerWrite_tidy (p : Part) (register : Fin 8) (value : Half) (h : p.tidy) :
    (p.registerWrite register value).tidy ∧ (p.registerWrite register value).staging = p.staging := by
  unfold Part.registerWrite; (repeat' split) <;> simp (maxDischargeDepth := 40) [h]

@[simp] theorem Part.applyPower_tidy (p : Part) (pins : Pins) : (p.applyPower pins).tidy := ⟨rfl, rfl, rfl, rfl⟩

end Sys2Proof.Machine
end

