-- ==== Sys2Proof/Tests/Slice0.lean ====
section
/-! SUPPORT. The tests. First the smoke of WellFormed and single steps on small states; then, for each obligation with
hypotheses, states and operands that meet the hypotheses of each of its clauses (test_<obligation>_meets), at the ends of
their ranges where they have one. -/

set_option Elab.async false

open Sys2Proof Sys2Proof.Machine

namespace Sys2Proof.Tests

/-! ## Small states -/

/-- The part once start-up has ended, nothing adopted. -/
def up : Part := { Part.powerOn .low with rpu := { Rpu.powerOn with phase := .ready } }

/-- A profile: zone 0 has robot 0, camera 0, a door and a button. -/
def f0 : Profile :=
  { id := 7, syncMode := .pulse, pitch := 100, samplePhase := 10, spacing := 16, tolerance := 5
    crawlLimit := 6553600, decision := 600, grace := 20
    robots := Vector.replicate 6 ⟨100, ⟨0, 50⟩, 100, 200, 3⟩, rotation := ⟨[some 0], false⟩
    cameras := Vector.replicate 6 ⟨true, 300, 0, 50, false, .lines, true, 3⟩
    ejector := 800, confirmSpan := 100, ejectLead := 0, ejectWidth := 50, ejectActiveLow := false
    ports := Vector.replicate 16 ⟨.other, 60, .report⟩
    zones := (Vector.replicate 8 ⟨0, 0, false, false, .none, 1⟩).set 0 ⟨1, 1, true, true, .maintain, 30⟩ }

/-- READY under that profile. -/
def ready : Part := up.modCvt fun c => { c with tracker := .ready, profile := some f0, decoder := some (false, false) }

/-- READY under that profile with some fields changed. -/
def under (g : Profile → Profile) : Part := ready.modCvt fun c => { c with profile := some (g f0) }

/-- The tracker in another state. -/
def tracker (p : Part) (t : TrackerState) : Part := p.modCvt fun c => { c with tracker := t }

/-- An order of this kind with these parameters, POSTED in cell 0 and at the head of the queue. -/
def post (p : Part) (kind : Byte) (params : List Byte := []) : Part :=
  { p with mem := Memory.write p.mem 0x0200 ([1, kind] ++ List.replicate 10 0 ++ params)
           odk := { p.odk with queue := [0] } }

/-- An order in flight: cell 1, take 1. -/
def e1 : InFlight := ⟨⟨1, 1⟩, 3, none, 0, true, false⟩

/-- The part with that order in flight. -/
def hold (p : Part) : Part := p.modOdk fun o => { o with inflight := [e1], takeIdentity := 1 }

/-- A container. -/
def box (seq : Word) : Record :=
  { seq := seq, entryPos := 0, entryTime := 0, slot := 0, robot := some 0, fill := .pending
    views := Vector.replicate 6 (some ⟨.notYet, none⟩), marked := false, stepped := false, decision := .undecided
    causes := .empty, eject := .none, stations := [] }

/-- A container to be rejected. -/
def bad (seq : Word) : Record := { box seq with decision := .reject }

/-- The part with these containers in transit. -/
def carrying (p : Part) (l : List Record) : Part := p.modTrl fun t => { t with records := l }

/-- Machine time at `t`. -/
def at_ (p : Part) (t : Time) : Part := p.modMtu fun m => { m with time := t }

theorem take_of {p : Part} {n : Fin 48} {o : Order}
    (h : p.takeable = some n ∧ Memory.order p.mem n = some o ∧ p.odk.busy o = false ∧
      ∀ e ∈ p.odk.inflight, e.ref ≠ p.nextRef n ∧ (e.orphaned = false → e.ref.cell ≠ n)) : p.canTake n o := h

/-! ## WellFormed -/

theorem test_rotationSet_needs_twelve_entries :
    (Instr.rotationSet 0 1 0 (List.replicate 11 0)).wf = false ∧
    (Instr.rotationSet 0 1 0 (List.replicate 12 0)).wf = true := by decide +kernel

theorem test_hostMemoryWrite_needs_an_unwatched_word :
    (Instr.hostMemoryWrite 0x5001 1 0).wf = false ∧ (Instr.hostMemoryWrite 0x8000 1 0).wf = false ∧
    (Instr.hostMemoryWrite 0x0200 1 0).wf = false ∧ (Instr.hostMemoryWrite 0x0E40 1 0).wf = false ∧
    (Instr.hostMemoryWrite 0x0102 1 0).wf = false ∧ (Instr.hostMemoryWrite 0x7FFE 1 0).wf = true := by decide +kernel

theorem test_registerWriteDiscarded_needs_a_discarded_write :
    (Instr.registerWriteDiscarded 3 0).wf = false ∧ (Instr.registerWriteDiscarded 4 1).wf = false ∧
    (Instr.registerWriteDiscarded 4 2).wf = false ∧ (Instr.registerWriteDiscarded 4 3).wf = true := by decide +kernel

/-! ## Single steps -/

theorem test_no_word_spells_a_command : decodeTableWord 32 0 = none := rfl

theorem test_idle_step_ticks :
    step ⟨up, []⟩ = .next ⟨up.modMtu fun m => { m with fraction := 85899346 }, []⟩ := rfl

theorem test_step_off_the_memory_faults :
    step ⟨up, [.hostMemoryWrite 0x8000 1 0]⟩ = .fault (.offExchangeMemory 0x8000) := rfl

theorem test_hand_write_posts : (up.handWrite 5 0x0601).odk.queue = [5] := by decide +kernel

theorem test_order_take_trims : (post up 6 [0xFF, 0xFF, 0xFF, 0xFF]).orderTake.mtu.trim = -1 := by decide +kernel

theorem test_trim_of_an_exact_quotient : incrementOf 200000 = 85916526 ∧ incrementOf (-200000) = 85882166 := by decide +kernel

theorem test_startup_writes_the_header :
    Memory.read (Part.powerOn .low).startupComplete.mem 0 4 = [3, 0, 48, 0] := by decide +kernel

theorem test_kinds_are_read :
    Memory.order (post up 15 [2, 1, 0, 0, 9, 0, 0, 0]).mem 0 = some (.verdict 2 1 9) ∧
    Memory.order (post up 20 [7, 3, 30, 0, 1, 2]).mem 0 = some (.accessRequest 7 3 30 0x0201) ∧
    Memory.order (post up 11 [5, 0, 10, 0, 0, 1]).mem 0 = some (.windowSet 5 10 256) ∧
    Memory.order (post up 26).mem 0 = none := by decide +kernel

/-! ## 1. Machine time -/

theorem test_everyCommandAnswers_meets : Instr.lineResetEnd.wf = true := rfl

theorem test_clockTicksAndCarries_meets : 0 < up.mtu.increment.toNat := by decide +kernel

theorem test_trimGivesTheIncrement_meets :
    (post up 6 [5, 0, 0, 0]).canTake 0 (.timeTrim 5) ∧ -200000 ≤ (-200000 : Int) ∧ (200000 : Int) ≤ 200000 :=
  ⟨take_of (by decide +kernel), by decide +kernel⟩

theorem test_timeTrimSetsTheRate_meets : (post up 6 [0xFF, 0xFF, 0xFF, 0x7F]).canTake 0 (.timeTrim 0x7FFFFFFF) :=
  take_of (by decide +kernel)

theorem test_timeStepAppliesAtOnce_meets :
    (post up 7 [5, 0, 0, 0]).canTake 0 (.timeStep 5) ∧ up.mtu.syncState = .absent ∧ up.mtu.pendingStep = none :=
  ⟨take_of (by decide +kernel), rfl, rfl⟩

/-- The sync PRESENT in mode PULSE, its window and its loss deadline at `t`. -/
def synced (t : Time) (g : Mtu → Mtu := id) : Part :=
  up.modMtu fun m => g { m with syncMode := .pulse, syncState := .present, windowEnd := some t, lossDeadline := some t }

/-- The same with a step pending, its order in flight. -/
def stepping : Part := hold (synced 0 fun m => { m with pendingStep := some ⟨5, false, ⟨1, 1⟩⟩ })

theorem test_timeStepPends_meets :
    ((post (synced 0) 7 [5, 0, 0, 0]).canTake 0 (.timeStep 5) ∧ (synced 0).mtu.syncState = .present ∧
      (synced 0).mtu.pendingStep = none) ∧
    ((post stepping 7 [5, 0, 0, 0]).canTake 0 (.timeStep 5) ∧ stepping.mtu.syncState = .present ∧
      stepping.mtu.pendingStep = some ⟨5, false, e1.ref⟩ ∧ stepping.odk.holds e1) :=
  ⟨⟨take_of (by decide +kernel), rfl, rfl⟩, take_of (by decide +kernel), rfl, rfl, rfl, rfl, rfl⟩

theorem test_syncIsJudgedAndLost_meets_pulse :
    up.mtu.syncMode = .none ∧ (synced 0).mtu.syncMode = .pulse ∧ (synced 0).syncLine = false ∧
    (synced 0).mtu.pendingStep = none ∧ (synced 0).mtu.windowEnd = some 0 ∧ ((synced 0).now - 0).toInt ≤ 0 ∧
    (at_ (synced 0) 1).mtu.windowEnd = some 0 ∧ ¬ ((at_ (synced 0) 1).now - 0).toInt ≤ 0 := by decide +kernel

theorem test_syncIsJudgedAndLost_meets_loss :
    ((synced 1).mtu.lossDeadline = some 1 ∧ ((synced 1).now - 1).toInt < 0) ∧
    ((synced 0).mtu.lossDeadline = some 0 ∧ 0 ≤ ((synced 0).now - 0).toInt ∧ (synced 0).mtu.syncState = .present ∧
      (synced 0).mtu.pendingStep = none) ∧
    (let p := synced 0 fun m => { m with syncState := .absent }
     p.mtu.lossDeadline = some 0 ∧ 0 ≤ (p.now - 0).toInt ∧ p.mtu.syncState = .absent) := by decide +kernel

theorem test_pendingStepIsReleased_meets :
    stepping.mtu.pendingStep = some ⟨5, false, e1.ref⟩ ∧ stepping.odk.holds e1 ∧ stepping.mtu.syncMode = .pulse ∧
    stepping.syncLine = false ∧ stepping.mtu.syncState = .present ∧ stepping.mtu.lossDeadline = some 0 ∧
    0 ≤ (stepping.now - 0).toInt ∧ (stepping.mtu.windowEnd = some 0 ∧ (stepping.now - 0).toInt ≤ 0) ∧
    ¬ ((at_ stepping 1).now - 0).toInt ≤ 0 :=
  ⟨rfl, ⟨rfl, rfl, rfl⟩, by decide +kernel⟩

theorem test_snapshotHoldsTheTime_meets :
    up.rpu.phase ≠ .startingUp ∧ (Part.powerOn .low).rpu.phase = .startingUp ∧ 5 ≤ (5 : Fin 8).val := by decide +kernel

/-! ## 2. Conveyor position and pace -/

theorem test_encoderPairIsDecoded_meets :
    up.cvt.decoder = none ∧ ready.cvt.decoder = some (false, false) ∧ ready.cvt.decoder = some (!true, !true) := by
  decide

theorem forward_count : forwardCount (false, false) (true, false) := by unfold forwardCount; decide

/-- READY with the pair at (1, 0), a depth and an excursion. -/
def deep (depth : Nat) (excursion : Bool) : Part :=
  ready.modCvt fun c => { c with decoder := some (true, false), depth := depth, excursion := excursion }

theorem test_encoderPairIsDecoded_meets_backward :
    forwardCount (false, false) (true, false) ∧ (deep 4 false).cvt.decoder = some (true, false) ∧
    (deep (2 ^ 31 - 1) true).cvt.depth = 2 ^ 31 - 1 ∧ (deep 4 false).cvt.depth + 1 ≤ (deep 4 false).tolerance ∧
    (deep 5 true).cvt.excursion = true ∧ (deep 5 false).tolerance < (deep 5 false).cvt.depth + 1 ∧
    (deep 5 false).cvt.excursion = false ∧ (deep 5 false).cvt.paceState ≠ .timed :=
  ⟨forward_count, by decide +kernel⟩

/-- READY with the pair at (0, 0), a depth and an excursion. -/
def deep0 (depth : Nat) (excursion : Bool) : Part := ready.modCvt fun c => { c with depth := depth, excursion := excursion }

theorem test_forwardCountAdvances_meets :
    forwardCount (false, false) (true, false) ∧ ready.cvt.decoder = some (false, false) ∧ 1 < (deep0 2 true).cvt.depth ∧
    ((deep0 1 false).cvt.depth = 1 ∧ (deep0 1 false).cvt.excursion = false) ∧
    ((deep0 1 true).cvt.depth = 1 ∧ (deep0 1 true).cvt.excursion = true) ∧
    (up.cvt.depth = 0 ∧ up.cvt.profile = none) ∧
    (ready.cvt.depth = 0 ∧ ready.cvt.profile = some f0 ∧ ready.trl.records = [] ∧ ready.cvt.watches = [] ∧
      ready.cvt.phase + 1 ≠ f0.samplePhase ∧ ready.cvt.markCount + 1 < f0.spacing) :=
  ⟨forward_count, by decide +kernel⟩

/-- READY one count before a mark, `n` marks taken at time 0, in this pace state, at time `t`. -/
def marking (n : Nat) (s : PaceState) (t : Time) : Part :=
  at_ (ready.modCvt fun c => { c with markCount := 15, marks := List.replicate n ⟨0, 0⟩, paceState := s }) t

theorem test_marksGiveThePace_meets :
    (forwardCount (false, false) (true, false) ∧ (marking 0 .crawl 9).cvt.decoder = some (false, false) ∧
      (marking 0 .crawl 9).cvt.depth = 0 ∧ (marking 0 .crawl 9).cvt.profile = some f0 ∧
      (marking 0 .crawl 9).trl.records = [] ∧ (marking 0 .crawl 9).cvt.watches = [] ∧
      (marking 0 .crawl 9).rej.schedule = [] ∧ (∀ c : Fin 6, (marking 0 .crawl 9).ctu.cameras[c].schedule = []) ∧
      f0.spacing ≤ (marking 0 .crawl 9).cvt.markCount + 1 ∧ (marking 0 .crawl 9).cvt.phase + 1 ≠ f0.samplePhase ∧
      (marking 9 .timed 9).cvt.marks.length ≤ 9 ∧ (marking 0 .crawl 9).mergesFit) ∧
    (marking 0 .crawl 9).cvt.paceState = .crawl ∧ (marking 1 .warming 9).cvt.marks.length + 1 < 3 ∧
    (marking 2 .warming 9).cvt.marks.length + 1 = 3 ∧ (marking 2 .timed 9).cvt.paceState = .timed ∧
    100 * 65536 / (2 * f0.spacing) ≤ f0.crawlLimit ∧ ¬ 100000 * 65536 / (2 * f0.spacing) ≤ f0.crawlLimit :=
  ⟨⟨forward_count, by decide +kernel⟩, by decide +kernel⟩

theorem test_markTimeoutEntersCrawl_meets :
    (marking 1 .timed 1600).cvt.profile = some f0 ∧ (marking 1 .timed 1600).cvt.marks.getLast? = some ⟨0, 0⟩ ∧
    ((marking 1 .timed 1600).now - 0).toInt ≤ (f0.spacing * f0.crawlLimit / 65536 : Nat) ∧
    ((f0.spacing * f0.crawlLimit / 65536 : Nat) : Int) < ((marking 1 .timed 1601).now - 0).toInt ∧
    (marking 1 .timed 1601).cvt.paceState = .timed ∧ (marking 1 .warming 1601).cvt.paceState ≠ .timed := by decide +kernel

/-- DRAINING, the LINE_STOP in flight. -/
def draining : Part := hold (tracker (ready.modCvt fun c => { c with drainOrder := some ⟨1, 1⟩ }) .draining)

theorem test_lineStartsAndStops_meets_start :
    ((post ready 2).canTake 0 .lineStart ∧ ready.cvt.tracker = .ready) ∧
    ((post draining 2).canTake 0 .lineStart ∧ draining.cvt.tracker = .draining ∧
      draining.cvt.drainOrder = some e1.ref ∧ draining.odk.holds e1) ∧
    ((post up 2).canTake 0 .lineStart ∧ up.cvt.tracker = .unprofiled) :=
  ⟨⟨take_of (by decide +kernel), rfl⟩, ⟨take_of (by decide +kernel), rfl, rfl, rfl, rfl, rfl⟩, take_of (by decide +kernel), rfl⟩

theorem test_lineStartsAndStops_meets_stop :
    (let p := post (tracker ready .tracking) 3
     p.canTake 0 .lineStop ∧ p.cvt.tracker = .tracking ∧ p.trl.records = [] ∧ p.rbp.pendingRotation = none ∧
       ∀ r : Fin 6, p.rbp.robots[r].pendingWindow = none) ∧
    (let p := post (carrying (tracker ready .tracking) [box 1]) 3
     p.canTake 0 .lineStop ∧ p.cvt.tracker = .tracking ∧ p.trl.records ≠ []) ∧
    ((post ready 3).canTake 0 .lineStop ∧ ready.cvt.tracker ≠ .tracking) :=
  ⟨⟨take_of (by decide +kernel), by decide +kernel⟩, ⟨take_of (by decide +kernel), by decide +kernel⟩, take_of (by decide +kernel), by decide +kernel⟩

/-! ## 3. The transit list -/

theorem test_markRejectAndCountersClear_meets_mark :
    (let p := post (carrying ready [box 1]) 4 [1, 0, 0, 0]
     p.canTake 0 (.markReject 1) ∧ p.record 1 = some (box 1) ∧ (box 1).decision = .undecided) ∧
    (let p := post (carrying ready [bad 1]) 4 [1, 0, 0, 0]
     p.canTake 0 (.markReject 1) ∧ p.record 1 = some (bad 1) ∧ (bad 1).decision ≠ .undecided) ∧
    (let p := post ready 4 [0, 0, 0, 0]
     p.canTake 0 (.markReject 0) ∧ p.record 0 = none) :=
  ⟨⟨take_of (by decide +kernel), by decide +kernel⟩, ⟨take_of (by decide +kernel), by decide +kernel⟩, take_of (by decide +kernel), by decide +kernel⟩

theorem test_markRejectAndCountersClear_meets_clear :
    ((post ready 5).canTake 0 .countersClear ∧ ready.cvt.tracker = .ready) ∧
    ((post up 5).canTake 0 .countersClear ∧ up.cvt.tracker ≠ .ready) :=
  ⟨⟨take_of (by decide +kernel), rfl⟩, take_of (by decide +kernel), by decide +kernel⟩

/-! ## 4. The filler robots -/

/-- READY with robot 0 changed. -/
def bot (g : Robot → Robot) : Part := ready.modRobot 0 g

/-- READY with zone 0 changed. -/
def zone (g : Zone → Zone) : Part := ready.modZone 0 g

theorem test_robotRunStarts_meets :
    ((post ready 8 [6]).canTake 0 (.robotRun 6) ∧ 6 ≤ (6 : Byte).toNat) ∧
    ((post up 8 [5]).canTake 0 (.robotRun 5) ∧ (5 : Byte).toNat = (5 : Fin 6).val ∧ up.cvt.tracker = .unprofiled) ∧
    (let p := zone fun k => { k with state := .opened, level := .maintain }
     (post p 8 [0]).canTake 0 (.robotRun 0) ∧ p.cvt.tracker ≠ .unprofiled ∧ p.held 0 = true) ∧
    (let p := bot fun k => { k with state := .faulted }
     (post p 8 [0]).canTake 0 (.robotRun 0) ∧ p.held 0 = false ∧ p.rbp.robots[0].state = .faulted) ∧
    (let p := bot fun k => { k with pins := { k.pins with fault := true } }
     (post p 8 [0]).canTake 0 (.robotRun 0) ∧ p.held 0 = false ∧ p.rbp.robots[0].pins.fault = true) ∧
    ((post ready 8 [0]).canTake 0 (.robotRun 0) ∧ ready.cvt.tracker ≠ .unprofiled ∧ ready.cvt.profile = some f0 ∧
      ready.held 0 = false ∧ ready.rbp.robots[0].state = .stopped ∧ ready.rbp.robots[0].pins.fault = false ∧
      ready.rbp.robots[0].pins.runAck = false ∧ ready.unwatched 0) ∧
    (bot fun k => { k with pins := { k.pins with runAck := true } }).rbp.robots[0].pins.runAck = true := by
  unfold Part.unwatched
  exact ⟨⟨take_of (by decide +kernel), by decide +kernel⟩, ⟨take_of (by decide +kernel), by decide +kernel⟩, ⟨take_of (by decide +kernel), by decide +kernel⟩,
    ⟨take_of (by decide +kernel), by decide +kernel⟩, ⟨take_of (by decide +kernel), by decide +kernel⟩, ⟨take_of (by decide +kernel), by decide +kernel⟩, by decide +kernel⟩

theorem test_robotHaltHalts_meets :
    ((post ready 9 [6]).canTake 0 (.robotHalt 6) ∧ 6 ≤ (6 : Byte).toNat) ∧
    ((post ready 9 [0]).canTake 0 (.robotHalt 0) ∧ ready.rbp.robots[0].state = .stopped) ∧
    (let p := bot fun k => { k with state := .faulted }
     (post p 9 [0]).canTake 0 (.robotHalt 0) ∧ p.rbp.robots[0].state = .faulted) ∧
    (let p := bot fun k => { k with state := .halting }
     (post p 9 [0]).canTake 0 (.robotHalt 0) ∧ p.rbp.robots[0].state = .halting ∧ p.rbp.robots[0].order = none) ∧
    (let p := bot fun k => { k with state := .running }
     (post p 9 [0]).canTake 0 (.robotHalt 0) ∧ p.cvt.profile = some f0 ∧ p.rbp.robots[0].state = .running ∧
       p.rbp.robots[0].pendingWindow = none ∧ p.rbp.robots[0].pins.haltAck = false ∧ p.unwatched 0) ∧
    (let p := bot fun k => { k with state := .starting, pins := { k.pins with haltAck := true } }
     (post p 9 [0]).canTake 0 (.robotHalt 0) ∧ p.rbp.robots[0].state = .starting ∧
       p.rbp.robots[0].pins.haltAck = true ∧ p.unwatched 0) := by
  unfold Part.unwatched
  exact ⟨⟨take_of (by decide +kernel), by decide +kernel⟩, ⟨take_of (by decide +kernel), by decide +kernel⟩, ⟨take_of (by decide +kernel), by decide +kernel⟩,
    ⟨take_of (by decide +kernel), by decide +kernel⟩, ⟨take_of (by decide +kernel), by decide +kernel⟩, take_of (by decide +kernel), by decide +kernel⟩

theorem test_acknowledgeEndsTheWait_meets :
    (let p := bot fun k => { k with state := .starting }
     p.rbp.robots[0].state = .starting ∧ p.rbp.robots[0].pins.runAck = false ∧ p.unwatched 0 ∧
       p.rbp.robots[0].order = none) ∧
    (let p := hold (bot fun k => { k with state := .halting, order := some e1.ref })
     p.rbp.robots[0].state = .halting ∧ p.rbp.robots[0].pins.haltAck = false ∧ p.unwatched 0 ∧
       p.rbp.robots[0].order = some e1.ref ∧ p.odk.holds e1) := by
  unfold Part.unwatched Odk.holds; decide

theorem test_robotFaultsAreEntered_meets :
    (let p := bot fun k => { k with state := .starting, deadline := some 1 }
     p.rbp.robots[0].deadline = some 1 ∧ (p.now - 1).toInt < 0) ∧
    (let p := bot fun k => { k with state := .starting, deadline := some 0 }
     p.rbp.robots[0].state = .starting ∧ p.rbp.robots[0].deadline = some 0 ∧ 0 ≤ (p.now - 0).toInt ∧ p.unwatched 0) ∧
    (let p := hold (bot fun k => { k with state := .halting, deadline := some 0, order := some e1.ref })
     p.rbp.robots[0].state = .halting ∧ p.rbp.robots[0].deadline = some 0 ∧ 0 ≤ (p.now - 0).toInt ∧
       p.rbp.robots[0].order = some e1.ref ∧ p.odk.holds e1 ∧ p.unwatched 0) ∧
    (let p := bot fun k => { k with state := .running, pins := { k.pins with runAck := true } }
     p.rbp.robots[0].state = .running ∧ p.rbp.robots[0].pendingWindow = none ∧ p.rbp.robots[0].pins.runAck = true) ∧
    (let p := bot fun k => { k with state := .halted, pins := { k.pins with haltAck := true } }
     p.rbp.robots[0].state = .halted ∧ p.rbp.robots[0].pins.haltAck = true) ∧
    (let p := bot fun k => { k with state := .halted }
     p.rbp.robots[0].state ≠ .stopped ∧ p.rbp.robots[0].pins.fault = false) := by
  unfold Part.unwatched Odk.holds; decide

theorem test_inputLinesAreSampled_meets :
    (let k := ready.rbp.robots[0]
     k.pins.with .runAck false = k.pins ∧ k.pins.with .runAck true ≠ k.pins ∧ k.state = .stopped ∧
       k.pins.with .haltAck true ≠ k.pins ∧ k.pins.with .fault true ≠ k.pins) ∧
    (let k := (bot fun k => { k with pins := { k.pins with fillOk := true } }).rbp.robots[0]
     k.pins.with .fillOk false ≠ k.pins) := by decide +kernel

theorem test_robotClearClears_meets :
    ((post ready 10 [6]).canTake 0 (.robotClear 6) ∧ 6 ≤ (6 : Byte).toNat) ∧
    ((post ready 10 [0]).canTake 0 (.robotClear 0) ∧ ready.rbp.robots[0].state ≠ .faulted) ∧
    (let p := bot fun k => { k with state := .faulted, pins := { k.pins with fault := true } }
     (post p 10 [0]).canTake 0 (.robotClear 0) ∧ p.rbp.robots[0].pins.fault = true) ∧
    (let p := bot fun k => { k with state := .faulted }
     (post p 10 [0]).canTake 0 (.robotClear 0) ∧ p.rbp.robots[0].state = .faulted ∧
       p.rbp.robots[0].pins.fault = false ∧ p.unwatched 0) := by
  unfold Part.unwatched
  exact ⟨⟨take_of (by decide +kernel), by decide +kernel⟩, ⟨take_of (by decide +kernel), by decide +kernel⟩, ⟨take_of (by decide +kernel), by decide +kernel⟩,
    take_of (by decide +kernel), by decide +kernel⟩

/-- TRACKING with a rotation and a window pending under the order in flight, robot 0 RUNNING. -/
def pendingBoth : Part :=
  hold (((tracker ready .tracking).modRbp fun b => { b with pendingRotation := some ⟨⟨[none], false⟩, ⟨1, 1⟩⟩ }).modRobot 0
    fun k => { k with state := .running, pendingWindow := some ⟨⟨0, 9⟩, ⟨1, 1⟩⟩ })

/-- Twelve slot entries. -/
def slots : List Byte := [0, 1, 2, 3, 4, 5, 255, 0, 1, 2, 3, 4]

theorem test_rotationAndWindowSet_meets_rotation :
    slots.length = 12 ∧
    ((post ready 12 ([13, 0] ++ slots)).canTake 0 (.rotationSet 13 0 slots) ∧ ¬ (13 : Byte).toNat ≤ 12) ∧
    ((post ready 12 ([12, 1] ++ slots)).canTake 0 (.rotationSet 12 1 slots) ∧ 1 ≤ (12 : Byte).toNat ∧
      (12 : Byte).toNat ≤ 12 ∧ (1 : Byte).toNat ≤ 1 ∧ (∀ b ∈ slots.take 12, b.toNat ≤ 5 ∨ b = 255) ∧
      ready.cvt.tracker = .ready) ∧
    ((post (tracker ready .tracking) 12 ([1, 0] ++ slots)).canTake 0 (.rotationSet 1 0 slots) ∧
      (tracker ready .tracking).rbp.pendingRotation = none) ∧
    ((post pendingBoth 12 ([1, 0] ++ slots)).canTake 0 (.rotationSet 1 0 slots) ∧
      pendingBoth.cvt.tracker = .tracking ∧ pendingBoth.rbp.pendingRotation = some ⟨⟨[none], false⟩, e1.ref⟩ ∧
      pendingBoth.odk.holds e1) := by
  unfold Odk.holds
  exact ⟨rfl, ⟨take_of (by decide +kernel), by decide +kernel⟩, ⟨take_of (by decide +kernel), by decide +kernel⟩, ⟨take_of (by decide +kernel), by decide +kernel⟩,
    take_of (by decide +kernel), by decide +kernel⟩

theorem test_rotationAndWindowSet_meets_window :
    ((post ready 11 [6, 0, 0, 0, 9, 0]).canTake 0 (.windowSet 6 0 9) ∧ 6 ≤ (6 : Byte).toNat) ∧
    ((post ready 11 [0, 0, 0, 0, 101, 0]).canTake 0 (.windowSet 0 0 101) ∧ ready.cvt.profile = some f0 ∧
      ready.cvt.tracker = .ready ∧ f0.pitch < (101 : Half).toNat) ∧
    ((post up 11 [0, 0, 0, 0, 9, 0]).canTake 0 (.windowSet 0 0 9) ∧ up.cvt.profile = none ∧
      up.cvt.tracker = .unprofiled) ∧
    (let p := (tracker ready .tracking).modRobot 0 fun k => { k with state := .running }
     (post p 11 [0, 0, 0, 0, 9, 0]).canTake 0 (.windowSet 0 0 9) ∧ p.cvt.tracker = .tracking ∧
       p.rbp.robots[0].state = .running ∧ p.rbp.robots[0].pendingWindow = none) ∧
    ((post pendingBoth 11 [0, 0, 0, 0, 9, 0]).canTake 0 (.windowSet 0 0 9) ∧
      pendingBoth.rbp.robots[0].pendingWindow = some ⟨⟨0, 9⟩, e1.ref⟩ ∧ pendingBoth.odk.holds e1) := by
  unfold Odk.holds
  exact ⟨⟨take_of (by decide +kernel), by decide +kernel⟩, ⟨take_of (by decide +kernel), by decide +kernel⟩, ⟨take_of (by decide +kernel), by decide +kernel⟩,
    ⟨take_of (by decide +kernel), by decide +kernel⟩, take_of (by decide +kernel), by decide +kernel⟩

theorem test_fillStrobeReports_meets :
    (ready.rbp.robots[0].pins.fillOk = false ∧ ready.rbp.robots[0].pins.fillShort = false ∧
      ready.rbp.robots[0].reportList = []) ∧
    (let p := bot fun k => { k with reportList := [1] }
     p.rbp.robots[0].reportList = 1 :: [] ∧ min 255 (p.rbp.robots[0].failureRun + 1) ≠ p.failureThreshold 0) ∧
    (let p := bot fun k => { k with reportList := [1], failureRun := 2 }
     p.failureThreshold 0 ≠ 0 ∧ min 255 (p.rbp.robots[0].failureRun + 1) = p.failureThreshold 0 ∧
       p.rbp.robots[0].runReq = false) ∧
    (let p := bot fun k => { k with reportList := [1], failureRun := 2, state := .running }
     p.rbp.robots[0].runReq = true ∧ p.rbp.robots[0].pins.haltAck = false ∧
       p.rbp.robots[0].pendingWindow = none) := by decide +kernel

/-! ## 5. The inspection cameras -/

/-- READY with camera 0 changed. -/
def cam (g : Camera → Camera) : Part := ready.modCamera 0 g

/-- Camera 0 in SERVICE by the host with a fire that waits, the tracker TIMED at 100 µs a count, at time `t`. -/
def leaving (t : Time) : Part :=
  at_ ((carrying (cam fun k => { k with hostService := true, schedule := [⟨1, none, false⟩] }) [box 1]).modCvt fun c =>
    { c with paceState := .timed, pace := 6553600, marks := [⟨0, 0⟩] }) t

theorem test_cameraOrdersAreTaken_meets :
    ((post ready 13 [6, 0]).canTake 0 (.cameraService 6 0) ∧ 6 ≤ (6 : Byte).toNat) ∧
    ((post ready 13 [0, 2]).canTake 0 (.cameraService 0 2) ∧ 2 ≤ (2 : Byte).toNat) ∧
    ((post up 13 [0, 1]).canTake 0 (.cameraService 0 1) ∧ up.cameraState 0 = .off) ∧
    ((post ready 13 [0, 0]).canTake 0 (.cameraService 0 0) ∧ ready.cameraState 0 ≠ .off ∧
      ready.ctu.cameras[0].hostService = ((0 : Byte).toNat == 1)) ∧
    ((post ready 13 [0, 1]).canTake 0 (.cameraService 0 1) ∧ ready.cameraState 0 = .active) ∧
    (cam fun k => { k with degraded := true }).cameraState 0 = .degraded ∧
    (let p := cam fun k => { k with zoneService := true }
     (post p 13 [0, 1]).canTake 0 (.cameraService 0 1) ∧ p.cameraState 0 = .service ∧
       p.ctu.cameras[0].zoneService = true ∧ p.ctu.cameras[0].hostService ≠ ((1 : Byte).toNat == 1)) ∧
    (let p := leaving 0
     (post p 13 [0, 0]).canTake 0 (.cameraService 0 0) ∧ p.cameraState 0 = .service ∧
       p.ctu.cameras[0].zoneService = false ∧ (p.ctu.cameras[0].schedule.map (·.seq)).Nodup ∧
       p.cameraTarget 0 1 = some (counts 300, f0.cameras[0]) ∧ p.isReached 300 = false ∧ p.project 300 = some 30000 ∧
       (p.now - (30000 - BitVec.ofNat 48 f0.cameras[0].lead)).toInt < 0) ∧
    (let p := leaving 30000
     (post p 13 [0, 0]).canTake 0 (.cameraService 0 0) ∧ p.ctu.cameras[0].schedule = [⟨1, none, false⟩] ∧
       0 ≤ (p.now - (30000 - BitVec.ofNat 48 f0.cameras[0].lead)).toInt) ∧
    ((post ready 14 [6]).canTake 0 (.cameraRestore 6) ∧ (post ready 14 [0]).canTake 0 (.cameraRestore 0) ∧
      ready.ctu.cameras[0].portSilent = false ∧
      (cam fun k => { k with portSilent := true }).ctu.cameras[0].portSilent = true) :=
  ⟨⟨take_of (by decide +kernel), by decide +kernel⟩, ⟨take_of (by decide +kernel), by decide +kernel⟩, ⟨take_of (by decide +kernel), by decide +kernel⟩,
    ⟨take_of (by decide +kernel), by decide +kernel⟩, ⟨take_of (by decide +kernel), by decide +kernel⟩, by decide +kernel,
    ⟨take_of (by decide +kernel), by decide +kernel⟩, ⟨take_of (by decide +kernel), by decide +kernel⟩,
    ⟨take_of (by decide +kernel), by decide +kernel⟩, take_of (by decide +kernel), take_of (by decide +kernel), by decide +kernel⟩

/-- A fire whose time is reached. -/
def due1 : Fire := ⟨1, some 0, false⟩

theorem test_camerasFire_meets :
    ready.cameraSettings 0 = some f0.cameras[0] ∧
    (ready.ctu.cameras[0].schedule = [] ∧ ready.ctu.cameras[0].pulse = none) ∧
    up.cameraState 0 ≠ .active ∧ up.cameraState 0 ≠ .degraded ∧
    (let p := cam fun k => { k with schedule := [⟨2, some 1, false⟩, due1] }
     p.ctu.cameras[0].schedule = [⟨2, some 1, false⟩] ++ due1 :: [] ∧ due1.due = false ∧
       due1.time = some 0 ∧ 0 ≤ (p.now - 0).toInt ∧ (p.now - 1).toInt < 0 ∧ p.cameraState 0 = .active ∧
       p.ctu.cameras[0].pulse = none ∧ p.ctu.cameras[0].awaiting.length < 16) ∧
    (let p := cam fun k => { k with schedule := [due1], pulse := some ⟨1, true⟩ }
     p.ctu.cameras[0].pulse = some ⟨1, true⟩ ∧ (p.now - 1).toInt < 0) ∧
    (let p := cam fun k => { k with schedule := [due1], pulse := some ⟨0, true⟩ }
     0 ≤ (p.now - 0).toInt ∧ p.ctu.cameras[0].schedule.head? = some due1 ∧ due1.due = false) ∧
    (let p := cam fun k => { k with schedule := [⟨1, none, true⟩], pulse := some ⟨0, true⟩, degraded := true }
     p.ctu.cameras[0].schedule = ⟨1, none, true⟩ :: [] ∧ p.cameraState 0 = .degraded) ∧
    (let p := cam fun k => { k with awaiting := [33] }
     p.ctu.cameras[0].awaiting = 33 :: [] ∧ tagOf 33 = tagOf 1 ∧
       min 255 (p.ctu.cameras[0].missedRun + 1) ≠ p.missedThreshold 0) ∧
    (let p := cam fun k => { k with awaiting := List.replicate 16 2 }
     p.ctu.cameras[0].awaiting = 2 :: List.replicate 15 2 ∧ 16 ≤ (List.replicate 16 (2 : Word)).length ∧
       (List.replicate 15 (2 : Word)).length < 16 ∧ tagOf 2 ≠ tagOf 1) := by decide +kernel

theorem test_verdictsAreMatched_meets :
    (ready.ctu.cameras[0].passLine = false ∧ ready.ctu.cameras[0].failLine = false ∧ ready.cameraState 0 = .active ∧
      ready.cameraSettings 0 = some f0.cameras[0] ∧ f0.cameras[0].source = .lines ∧
      ready.ctu.cameras[0].awaiting = []) ∧
    (cam fun k => { k with awaiting := [1] }).ctu.cameras[0].awaiting.find? (fun x => tagOf x == 1) = some 1 ∧
    up.cameraState 0 ≠ .active ∧
    ((post ready 15 [6, 0, 0, 0, 1, 0, 0, 0]).canTake 0 (.verdict 6 0 1) ∧
      (post ready 15 [0, 2, 0, 0, 1, 0, 0, 0]).canTake 0 (.verdict 0 2 1) ∧
      (post up 15 [0, 0, 0, 0, 1, 0, 0, 0]).canTake 0 (.verdict 0 0 1) ∧ up.cameraState 0 = .off) ∧
    (let s : CameraSettings := ⟨true, 300, 0, 50, false, .orders, true, 3⟩
     let p := (under fun f => { f with cameras := Vector.replicate 6 s }).modCamera 0 fun k => { k with awaiting := [1] }
     (post p 15 [0, 1, 0, 0, 1, 0, 0, 0]).canTake 0 (.verdict 0 1 1) ∧ (1 : Byte).toNat < 2 ∧
       p.cameraState 0 ≠ .off ∧ p.cameraSettings 0 = some s ∧ s.source = .orders ∧ 1 ∈ p.ctu.cameras[0].awaiting ∧
       2 ∉ p.ctu.cameras[0].awaiting) :=
  ⟨by decide +kernel, by decide +kernel, by decide +kernel, ⟨take_of (by decide +kernel), take_of (by decide +kernel), take_of (by decide +kernel), by decide +kernel⟩,
    take_of (by decide +kernel), by decide +kernel⟩

/-! ## 6. The reject ejector -/

/-- A timed pulse whose start is reached. -/
def pulse1 : Pulse := ⟨[1], some ⟨0, 50⟩⟩

theorem test_ejectorPulsesRun_meets_start :
    ready.rej.schedule = [] ∧
    (let p := (carrying ready [bad 1]).modRej fun r => { r with schedule := [⟨[2], none⟩, pulse1] }
     p.rej.schedule = [⟨[2], none⟩] ++ pulse1 :: [] ∧ pulse1.times = some ⟨0, 50⟩ ∧ 0 ≤ (p.now - 0).toInt ∧
       (∀ x ∈ [(⟨[2], none⟩ : Pulse)], x ≠ pulse1) ∧ p.confirming = true ∧
       p.rej.confirm.length + pulse1.members.length ≤ 8) ∧
    (let p := (carrying (under fun f => { f with confirmSpan := 0 }) [bad 1]).modRej fun r =>
        { r with schedule := [pulse1] }
     p.confirming = false ∧ pulse1.members = [1] ∧ p.record 1 = some (bad 1) ∧ (bad 1).decision = .reject ∧
       p.cvt.tracker ≠ .draining) := by decide +kernel

theorem test_ejectorPulsesRun_meets_output :
    (let p := ready.modRej fun r => { r with output := some ⟨1, true⟩ }
     p.rej.output = some ⟨1, true⟩ ∧ (p.now - 1).toInt < 0) ∧
    (let p := ready.modRej fun r => { r with output := some ⟨0, true⟩ }
     p.rej.output = some ⟨0, true⟩ ∧ 0 ≤ (p.now - 0).toInt) ∧
    ((post up 16).canTake 0 .ejectTest ∧ up.cvt.tracker ≠ .ready) ∧
    ((post ready 16).canTake 0 .ejectTest ∧ ready.cvt.tracker = .ready ∧ ready.cvt.profile = some f0) :=
  ⟨by decide +kernel, by decide +kernel, ⟨take_of (by decide +kernel), by decide +kernel⟩, take_of (by decide +kernel), by decide +kernel⟩

theorem test_confirmIsJudged_meets :
    ready.rej.confirmLine = false ∧ ready.confirming = true ∧ ready.rej.confirm = [] ∧ up.confirming = false ∧
    (let p := (carrying ready [bad 1]).modRej fun r => { r with confirm := [1] }
     p.rej.confirm = 1 :: [] ∧ p.record 1 = some (bad 1) ∧ (bad 1).decision = .reject ∧ p.cvt.tracker ≠ .draining) ∧
    (let p := (carrying draining [bad 1]).modRej fun r => { r with confirm := [1] }
     p.confirming = true ∧ p.cvt.tracker = .draining ∧ p.trl.records = [bad 1]) := by decide +kernel

/-! ## 7. The cabinet switch ports -/

/-- READY with port 15 changed. -/
def socket (p : Part) (g : Port → Port) : Part := p.modPort 15 g

theorem test_admissionOrdersAreTaken_meets_port :
    ((post ready 17 [16, 1]).canTake 0 (.portAdmit 16 1) ∧ (post ready 17 [15, 2]).canTake 0 (.portAdmit 15 2)) ∧
    ((post ready 17 [15, 1]).canTake 0 (.portAdmit 15 1) ∧ (15 : Byte).toNat = (15 : Fin 16).val ∧
      ready.spm.ports[15].role = .unassigned) ∧
    (let p := socket ready fun k => { k with role := .service 0 }
     (post p 17 [15, 1]).canTake 0 (.portAdmit 15 1) ∧ p.spm.ports[15].role = .service 0 ∧
       p.sac.zones[0].state = .sealed) ∧
    (let p := socket ready fun k => { k with role := .other, admission := .opened }
     (post p 17 [15, 1]).canTake 0 (.portAdmit 15 1) ∧ p.spm.ports[15].role = .other ∧
       p.spm.ports[15].admission ≠ .closed) ∧
    (let p := socket ready fun k => { k with role := .linePc }
     (post p 17 [15, 1]).canTake 0 (.portAdmit 15 1) ∧ p.spm.ports[15].role = .linePc ∧
       p.spm.ports[15].admission = .closed) ∧
    (let p := socket ready fun k => { k with role := .service 0, admission := .quarantined }
     (post p 17 [15, 0]).canTake 0 (.portAdmit 15 0) ∧ p.spm.ports[15].role ≠ .unassigned ∧
       p.spm.ports[15].admission = .quarantined) :=
  ⟨⟨take_of (by decide +kernel), take_of (by decide +kernel)⟩, ⟨take_of (by decide +kernel), by decide +kernel⟩, ⟨take_of (by decide +kernel), by decide +kernel⟩,
    ⟨take_of (by decide +kernel), by decide +kernel⟩, ⟨take_of (by decide +kernel), by decide +kernel⟩, take_of (by decide +kernel), by decide +kernel⟩

theorem test_admissionOrdersAreTaken_meets_hall :
    ((post ready 18).canTake 0 .hallHold ∧ (post ready 19).canTake 0 .hallRelease ∧ ready.spm.hallHold = false) ∧
    (let p := ready.modSpm fun s => { s with hallHold := true }
     (post p 18).canTake 0 .hallHold ∧ (post p 19).canTake 0 .hallRelease ∧ p.spm.hallHold = true) :=
  ⟨⟨take_of (by decide +kernel), take_of (by decide +kernel), rfl⟩, take_of (by decide +kernel), take_of (by decide +kernel), rfl⟩

theorem test_portsAreWatched_meets_link :
    (ready.spm.ports[15].link = false ∧ ready.spm.ports[15].role = .unassigned) ∧
    (let p := socket ready fun k => { k with role := .other, admission := .opened }
     p.spm.ports[15].link = false ∧ p.spm.ports[15].role ≠ .unassigned ∧ p.spm.ports[15].admission ≠ .closed) ∧
    (let p := socket ready fun k => { k with role := .service 0 }
     p.spm.ports[15].link = false ∧ p.spm.ports[15].admission = .closed ∧ p.spm.ports[15].role = .service 0 ∧
       p.sac.zones[0].state = .sealed) ∧
    (let p := socket ready fun k => { k with role := .other, link := true, drops := 65535 }
     p.spm.ports[15].link = true ∧ p.spm.ports[15].role ≠ .unassigned ∧ p.spm.ports[15].admission ≠ .quarantined) ∧
    (let p := socket ready fun k => { k with role := .service 0, link := true, admission := .quarantined }
     p.spm.ports[15].link = true ∧ p.spm.ports[15].role ≠ .unassigned ∧
       p.spm.ports[15].admission = .quarantined) := by decide +kernel

theorem test_portsAreWatched_meets_activity :
    ready.spm.ports[15].act = false ∧ ready.spm.ports[15].link = false ∧
    (let k := (socket ready fun k => { k with role := .camera 0, link := true, admission := .opened }).spm.ports[15]
     k.act = false ∧ k.link = true ∧ k.admission = .opened ∧ k.silent = false) ∧
    (let k := (socket ready fun k =>
        { k with role := .camera 0, link := true, admission := .opened, silent := true }).spm.ports[15]
     k.act = false ∧ k.link = true ∧ k.admission = .opened ∧ k.silent = true) := by decide +kernel

/-- READY with port 15 at its silence deadline. -/
def quiet (role : Role) (action : SilenceAction) (silent : Bool := false) (t : Time := 0) : Part :=
  socket ready fun k => { k with role := role, action := action, silent := silent, deadline := some t }

theorem test_silenceIsActedOn_meets :
    ((quiet .other .report false 1).spm.ports[15].deadline = some 1 ∧ ((quiet .other .report).now - 1).toInt < 0) ∧
    ((quiet .other .report true).spm.ports[15].deadline = some 0 ∧ 0 ≤ ((quiet .other .report).now - 0).toInt ∧
      (quiet .other .report true).spm.ports[15].silent = true) ∧
    ((quiet .other .haltMember).spm.ports[15].silent = false ∧ (quiet .other .haltMember).spm.ports[15].role = .other) ∧
    ((quiet (.camera 0) .report).spm.ports[15].role = .camera 0 ∧
      (quiet (.camera 0) .report).spm.ports[15].action ≠ .degradeMember) ∧
    (let p := quiet (.camera 0) .degradeMember
     p.spm.ports[15].action = .degradeMember ∧ p.cameraState 0 ≠ .off ∧ p.ctu.cameras[0].degraded = false ∧
       p.cameraState 0 = .active ∧ p.ctu.cameras[0].awaiting = []) ∧
    ((quiet (.camera 0) .degradeMember).modCamera 0 fun k => { k with awaiting := [1] }).ctu.cameras[0].awaiting ≠ [] ∧
    ((quiet (.camera 0) .degradeMember).modCamera 0 fun k => { k with hostService := true }).cameraState 0 = .service ∧
    (let p := quiet (.robot 0) .haltMember
     p.spm.ports[15].role = .robot 0 ∧ p.spm.ports[15].action = .haltMember ∧ p.rbp.robots[0].runReq = false) ∧
    (let p := (quiet (.robot 0) .haltMember).modRobot 0 fun k => { k with state := .running }
     p.rbp.robots[0].runReq = true ∧ p.rbp.robots[0].pins.haltAck = false ∧
       p.rbp.robots[0].pendingWindow = none) := by decide +kernel

/-! ## 8. Service access -/

theorem test_accessRequestIsJudged_meets :
    ((post ready 20 [8, 1, 30, 0, 0, 0]).canTake 0 (.accessRequest 8 1 30 0) ∧ 8 ≤ (8 : Byte).toNat) ∧
    ((post up 20 [7, 1, 30, 0, 0, 0]).canTake 0 (.accessRequest 7 1 30 0) ∧ (7 : Byte).toNat = (7 : Fin 8).val ∧
      up.cvt.profile = none) ∧
    ((post ready 20 [0, 4, 30, 0, 0, 0]).canTake 0 (.accessRequest 0 4 30 0) ∧ ready.cvt.profile ≠ none ∧
      4 ≤ (4 : Byte).toNat) ∧
    (let p := zone fun k => { k with state := .overstay }
     (post p 20 [0, 3, 30, 0, 0, 0]).canTake 0 (.accessRequest 0 3 30 0) ∧ (3 : Byte).toNat = AccessLevel.maintain.code ∧
       p.sac.zones[0].state = .overstay) ∧
    ((post ready 20 [0, 2, 30, 0, 0, 0]).canTake 0 (.accessRequest 0 2 30 0) ∧ AccessLevel.adjust ≠ .maintain ∧
      ready.sac.zones[0].state = .sealed ∧ ready.clearSockets 0) := by
  unfold Part.clearSockets
  exact ⟨⟨take_of (by decide +kernel), by decide +kernel⟩, ⟨take_of (by decide +kernel), by decide +kernel⟩,
    ⟨take_of (by decide +kernel), by decide +kernel⟩, ⟨take_of (by decide +kernel), by decide +kernel⟩,
    take_of (by decide +kernel), by decide +kernel⟩

/-- Zone 0 HALTING for the order in flight, robot 0 HALTING. -/
def halting : Part :=
  hold ((zone fun k => { k with
    state := .halting, request := some ⟨.order, 30, false, 0⟩, accessOrder := some e1.ref, haltedByZone := 1 }).modRobot 0
      fun k => { k with state := .halting })

/-- Zone 0 with robots 0 and 1, one RUNNING and one STARTING. -/
def twoRobots : Part :=
  (((under fun f => { f with zones := (Vector.replicate 8 ⟨0, 0, false, false, .none, 1⟩).set 0 ⟨3, 1, true, true, .maintain, 30⟩ }
    ).modRobot 0 fun k => { k with state := .running }).modRobot 1 fun k => { k with state := .starting })

/-- Port 15 a socket of zone 0 in quarantine. -/
def quarantined : Part := socket ready fun k => { k with role := .service 0, admission := .quarantined }

theorem test_quarantineEndsAtOpening_meets :
    (post quarantined 20 [0, 1, 30, 0, 0, 0]).canTake 0 (.accessRequest 0 1 30 0) ∧
    (post quarantined 20 [0, 2, 30, 0, 0, 0]).canTake 0 (.accessRequest 0 2 30 0) ∧
    (quarantined.cvt.profile ≠ none ∧ (1 : Byte).toNat = AccessLevel.observe.code ∧
      (2 : Byte).toNat = AccessLevel.adjust.code ∧ quarantined.sac.zones[0].state = .sealed ∧
      quarantined.sac.zones[0].level = .none ∧ quarantined.spm.ports[15].role = .service 0 ∧
      quarantined.spm.ports[15].admission = .quarantined ∧ fillingRoom quarantined.rpu.pages = true ∧
      ∀ j : Fin 16, quarantined.spm.ports[j].role = .service 0 → j = 15) ∧
    (quarantined.modCamera 0 fun k => { k with zoneService := true }).camerasAre 0 true := by
  unfold Part.camerasAre
  exact ⟨take_of (by decide +kernel), take_of (by decide +kernel), by decide +kernel, by decide +kernel⟩

theorem test_maintainHaltsFirst_meets :
    ((post ready 20 [0, 3, 30, 0, 0, 0]).canTake 0 (.accessRequest 0 3 30 0) ∧ ready.cvt.profile = some f0 ∧
      ready.sac.zones[0].state = .sealed ∧ ready.clearSockets 0 ∧
      (∀ r : Fin 6, ready.zoneHasRobot 0 r = true → ready.rbp.robots[r].safe = true)) ∧
    ((post twoRobots 20 [0, 3, 30, 0, 0, 0]).canTake 0 (.accessRequest 0 3 30 0) ∧ twoRobots.clearSockets 0 ∧
      twoRobots.ofOnly 0 0 ∧ twoRobots.ofOnly 0 1 ∧
      (∀ r : Fin 6, twoRobots.zoneHasRobot 0 r = true →
        twoRobots.rbp.robots[r].active = true ∧ twoRobots.rbp.robots[r].pins.haltAck = false ∧
          twoRobots.rbp.robots[r].order = none ∧ twoRobots.rbp.robots[r].pendingWindow = none) ∧
      twoRobots.failingMember 0 = none ∧ twoRobots.membersSafe 0 = false) ∧
    (let p := bot fun k => { k with state := .halting }
     p.rbp.robots[0].active = false ∧ p.failingMember 0 = none ∧ p.membersSafe 0 = false) ∧
    (let p := bot fun k => { k with state := .faulted, faultCause := some .runLost }
     (post p 20 [0, 3, 30, 0, 0, 0]).canTake 0 (.accessRequest 0 3 30 0) ∧ p.failingMember 0 = some 0 ∧
       (∀ x : Fin 6, p.zoneHasRobot 0 x = true → p.rbp.robots[x].active = false) ∧
       p.sac.zones[0].level = .none ∧ p.camerasAre 0 false) ∧
    (let p := (zone fun k => { k with state := .opened, level := .observe }).modRobot 0 fun k => { k with state := .faulted }
     (post p 20 [0, 3, 30, 0, 0, 0]).canTake 0 (.accessRequest 0 3 30 0) ∧ p.sac.zones[0].state = .opened ∧
       p.sac.zones[0].level.code < 3 ∧ p.failingMember 0 = some 0) ∧
    (halting.ofOnly 0 0 ∧ halting.sac.zones[0].state = .halting ∧
      halting.sac.zones[0].request = some ⟨.order, 30, false, 0⟩ ∧ halting.sac.zones[0].accessOrder = some e1.ref ∧
      halting.odk.holds e1 ∧ halting.rbp.robots[0].state = .halting ∧ halting.rbp.robots[0].pins.haltAck = false ∧
      halting.rbp.robots[0].order = none ∧
      (∀ y : Fin 6, halting.zoneHasRobot 0 y = true → y ≠ 0 → halting.rbp.robots[y].safe = true)) ∧
    (let p := twoRobots.modRobot 0 fun k => { k with state := .halting }
     p.ofOnly 0 0 ∧ p.rbp.robots[1].safe = false ∧ p.zoneHasRobot 0 1 = true ∧ p.failingMember 0 = none) := by
  unfold Part.clearSockets Part.ofOnly Part.camerasAre Odk.holds
  exact ⟨⟨take_of (by decide +kernel), by decide +kernel⟩, ⟨take_of (by decide +kernel), by decide +kernel⟩,
    by decide +kernel,
    ⟨take_of (by decide +kernel), by decide +kernel⟩, ⟨take_of (by decide +kernel), by decide +kernel⟩,
    by decide +kernel, by decide +kernel⟩

/-- Zone 0 with its door line and its button line up, both deadlines at `t`. -/
def lines (t : Time) (g : Zone → Zone := id) : Part :=
  zone fun k => g { k with doorLine := true, reqLine := true, doorDeadline := some t, buttonDeadline := some t }

theorem test_inputsAreDebounced_meets :
    (ready.sac.zones[0].doorLine = false ∧ ready.sac.zones[0].reqLine = false ∧
      ready.sac.zones[0].doorDeadline = none ∧ ready.sac.zones[0].buttonDeadline = none) ∧
    ((lines 1).sac.zones[0].doorDeadline = some 1 ∧ ((lines 1).now - 1).toInt < 0) ∧
    (let p := lines 0 fun k => { k with state := .opened, level := .maintain }
     p.sac.zones[0].doorDeadline = some 0 ∧ 0 ≤ (p.now - 0).toInt ∧ p.sac.zones[0].state = .opened ∧
       p.sac.zones[0].level = .maintain) ∧
    (let p := lines 0 fun k => { k with state := .waitClose, reqLine := false, doorLine := false }
     p.sac.zones[0].reqLine = false ∧ p.sac.zones[0].state = .waitClose) ∧
    (let p := lines 0 fun k => { k with state := .halting }
     p.sac.zones[0].reqLine = true ∧ p.sac.zones[0].state = .halting) ∧
    ready.hasDoor 1 = false ∧ ready.hasButton 1 = false ∧ (ready.buttonOf 1).1 = .none := by decide +kernel

theorem test_doorsAreWatched_meets :
    (let p := lines 0 fun k => { k with state := .waitClose, doorLine := false }
     p.sac.zones[0].doorDeadline = some 0 ∧ 0 ≤ (p.now - 0).toInt ∧ p.hasDoor 0 = true ∧
       p.sac.zones[0].doorLine = false ∧ p.sac.zones[0].state = .waitClose) ∧
    (lines 0 fun k => { k with state := .overstay, doorLine := false }).sac.zones[0].state = .overstay ∧
    ((lines 0).sac.zones[0].doorLine = true ∧ (lines 0).sac.zones[0].state = .sealed ∧ (lines 0).clearSockets 0 ∧
      (∀ r : Fin 6, (lines 0).zoneHasRobot 0 r = true → (lines 0).rbp.robots[r].active = false) ∧
      (lines 0).sac.zones[0].accessOrder = none ∧
      ((lines 0).modCamera 0 fun k => { k with zoneService := true }).camerasAre 0 true ∧
      (lines 0).fillingPage = some 0 ∧ (lines 0).rpu.pages[0].count < 30) := by
  unfold Part.clearSockets Part.camerasAre; decide +kernel

theorem test_pressesAreTaken_meets :
    ((lines 0).sac.zones[0].buttonDeadline = some 0 ∧ 0 ≤ ((lines 0).now - 0).toInt ∧ (lines 0).hasButton 0 = true ∧
      (lines 0).sac.zones[0].reqLine = true ∧ (lines 0).sac.zones[0].state = .sealed ∧
      (lines 0).sac.zones[0].accessOrder = none ∧ (lines 0).clearSockets 0 ∧ ((lines 0).buttonOf 0).1 = .maintain ∧
      (lines 0).membersSafe 0 = true) ∧
    (let p := under fun f => { f with zones := Vector.replicate 8 ⟨1, 1, true, true, .observe, 30⟩ }
     (p.buttonOf 0).1 = .observe) ∧
    (lines 0 fun k => { k with state := .opened }).sac.zones[0].state = .opened := by
  unfold Part.clearSockets; decide +kernel

/-- Zone 0 OPEN, its expiry at `t`. -/
def opened (t : Time) (g : Zone → Zone := id) : Part :=
  zone fun k => g { k with state := .opened, level := .observe, expiry := some t }

theorem test_accessEndsAndExtends_meets :
    ((post ready 22 [8]).canTake 0 (.accessEnd 8) ∧ (post ready 22 [7]).canTake 0 (.accessEnd 7) ∧
      ready.sac.zones[7].state = .sealed ∧ (post up 22 [0]).canTake 0 (.accessEnd 0)) ∧
    ((post (opened 0) 22 [0]).canTake 0 (.accessEnd 0) ∧ (opened 0).cvt.profile ≠ none ∧
      (opened 0).sac.zones[0].state = .opened) ∧
    ((post halting 22 [0]).canTake 0 (.accessEnd 0) ∧ halting.sac.zones[0].state = .halting ∧
      halting.sac.zones[0].accessOrder = some e1.ref ∧ halting.odk.holds e1) ∧
    ((post ready 21 [8, 0, 1, 0]).canTake 0 (.accessExtend 8 1) ∧
      (post ready 21 [7, 0, 1, 0]).canTake 0 (.accessExtend 7 1)) ∧
    ((post (opened 0) 21 [0, 0, 240, 0]).canTake 0 (.accessExtend 0 240) ∧
      (opened 0).sac.zones[0].expiry = some 0) ∧
    ((post (opened 1) 21 [0, 0, 240, 0]).canTake 0 (.accessExtend 0 240) ∧
      0 < ((1 : Time) + BitVec.ofNat 48 (60000000 * 240) - ((opened 1).now + BitVec.ofNat 48 14400000000)).toInt) ∧
    (let p := opened 0 fun k => { k with state := .overstay }
     (post p 21 [0, 0, 0, 0]).canTake 0 (.accessExtend 0 0) ∧ p.sac.zones[0].state = .overstay) := by
  unfold Odk.holds
  exact ⟨⟨take_of (by decide +kernel), take_of (by decide +kernel), by decide +kernel, take_of (by decide +kernel)⟩,
    ⟨take_of (by decide +kernel), by decide +kernel⟩, ⟨take_of (by decide +kernel), by decide +kernel⟩,
    ⟨take_of (by decide +kernel), take_of (by decide +kernel)⟩, ⟨take_of (by decide +kernel), by decide +kernel⟩,
    ⟨take_of (by decide +kernel), by decide +kernel⟩, take_of (by decide +kernel), by decide +kernel⟩

theorem test_accessExpires_meets :
    ready.sac.zones[0].expiry = none ∧
    ((opened 1).sac.zones[0].expiry = some 1 ∧ ((opened 1).now - 1).toInt < 0) ∧
    ((opened 0).sac.zones[0].expiry = some 0 ∧ 0 ≤ ((opened 0).now - 0).toInt ∧
      (opened 0).sac.zones[0].state = .opened ∧ (opened 0).doorOpen 0 = false) ∧
    (opened 0 fun k => { k with door := true }).doorOpen 0 = true ∧
    (opened 0 fun k => { k with state := .overstay }).sac.zones[0].state = .overstay ∧
    (let p := halting.modZone 0 fun k => { k with expiry := some 0 }
     p.sac.zones[0].expiry = some 0 ∧ p.sac.zones[0].state = .halting ∧ p.sac.zones[0].accessOrder = some e1.ref ∧
       p.odk.holds e1) := by
  unfold Odk.holds; decide +kernel

/-- Robots 0 and 1 in the halted set of zone 0, which is SEALED. -/
def haltedBy (g h : Robot → Robot) : Part := ((zone fun k => { k with haltedByZone := 3 }).modRobot 0 g).modRobot 1 h

/-- Zone 0 waiting for robot 0 to run, for the order in flight, robot 1 at this mark. -/
def resuming (other : ResumeMark) (failure : Option Completion := none) : Part :=
  hold ((zone fun k => { k with
    resumeOrder := some e1.ref, resumeFailure := failure
    resumeSet := ((Vector.replicate 6 ResumeMark.absent).set 0 .waiting).set 1 other }).modRobot 0
      fun k => { k with state := .starting, deadline := some 0 })

theorem test_zonesResume_meets :
    ((post ready 23 [8]).canTake 0 (.resumeZone 8) ∧ (post up 23 [7]).canTake 0 (.resumeZone 7) ∧
      (post ready 23 [7]).canTake 0 (.resumeZone 7) ∧ ready.sac.zones[7].haltedByZone = 0 ∧
      ready.sac.zones[7].state = .sealed ∧ ready.cvt.profile = some f0) ∧
    (let p := haltedBy (fun k => { k with state := .running }) fun k => { k with state := .faulted }
     (post p 23 [0]).canTake 0 (.resumeZone 0) ∧ p.cvt.profile = some f0 ∧ p.rbp.robots[0].state = .running ∧
       p.runRefusal 1 = some .state) ∧
    (let p := haltedBy id fun k => { k with state := .faulted }
     (post p 23 [0]).canTake 0 (.resumeZone 0) ∧ p.rbp.robots[0].state = .stopped ∧ p.runRefusal 0 = none ∧
       p.rbp.robots[0].pins.runAck = false ∧ p.unwatched 0 ∧ p.runRefusal 1 = some .state) ∧
    (let p := haltedBy id fun k => { k with state := .starting }
     (post p 23 [0]).canTake 0 (.resumeZone 0) ∧ p.rbp.robots[1].state = .starting ∧ p.runRefusal 0 = none) ∧
    (∀ p ∈ [resuming .absent, resuming .running (some ⟨.state, 0⟩), resuming .waiting, resuming .failed],
      p.sac.zones[0].resumeOrder = some e1.ref ∧ p.odk.holds e1 ∧ p.sac.zones[0].resumeSet[0] = .waiting ∧
      (∀ y : Fin 8, (p.zoneHasRobot y 0 = true → p.sac.zones[y].state = .sealed ∧ p.sac.zones[y].doorRel = false) ∧
        (y ≠ 0 → p.sac.zones[y].resumeSet[0] ≠ .waiting)) ∧
      p.rbp.robots[0].state = .starting ∧ p.rbp.robots[0].order = none ∧ p.rbp.robots[0].pins.runAck = false ∧
      p.rbp.robots[0].deadline = some 0 ∧ 0 ≤ (p.now - 0).toInt) ∧
    ((resuming .waiting).sac.zones[0].resumeSet[1] = .waiting ∧
      ∀ y : Fin 6, y ≠ 0 → (resuming .failed).sac.zones[0].resumeSet[y] ≠ .waiting) := by
  unfold Odk.holds Part.unwatched
  exact ⟨⟨take_of (by decide +kernel), take_of (by decide +kernel), take_of (by decide +kernel), by decide +kernel⟩,
    ⟨take_of (by decide +kernel), by decide +kernel⟩, ⟨take_of (by decide +kernel), by decide +kernel⟩,
    ⟨take_of (by decide +kernel), by decide +kernel⟩, by decide +kernel, by decide +kernel⟩

/-! ## 9. The line profile -/

theorem test_profileAdoptIsTaken_meets :
    ((post (tracker ready .tracking) 1).canTake 0 .profileAdopt ∧ (tracker ready .tracking).cvt.tracker = .tracking) ∧
    ((post (opened 0) 1).canTake 0 .profileAdopt ∧ (opened 0).cvt.tracker = .ready ∧ (opened 0).cvt.profile ≠ none ∧
      (opened 0).sac.zones[0].state ≠ .sealed) ∧
    ((post up 1).canTake 0 .profileAdopt ∧ up.cvt.tracker = .unprofiled ∧ up.cvt.profile = none) ∧
    ((post ready 1).canTake 0 .profileAdopt ∧ ∀ z : Fin 8, ready.sac.zones[z].state = .sealed) :=
  ⟨⟨take_of (by decide +kernel), by decide +kernel⟩, ⟨take_of (by decide +kernel), by decide +kernel⟩,
    ⟨take_of (by decide +kernel), by decide +kernel⟩, take_of (by decide +kernel), by decide +kernel⟩

/-- A staging area that passes every check: pitch 32, marks every 16, sample phase 0, crawl limit 65,536, decision at
100, ejector at 200, six robots at 10 and six cameras at 50 with timeouts of 10 ms, one slot, ports silent after 1 ms,
zones with a door and button minutes 1. -/
def staged (door : Byte := 0) (action : Byte := 0) : Memory :=
  let w (n : Nat) := leBytes 2 n
  let d (n : Nat) := leBytes 4 n
  let robot := d 10 ++ w 0 ++ w 16 ++ w 10 ++ w 10 ++ [0, 0, 0, 0]
  let camera := d 50 ++ w 0 ++ w 1 ++ [1, 0, 0, 0, 0, 0, 0, 0]
  let port := [5, 0] ++ w 1 ++ [action, 0, 0, 0]
  let zone := [0, 0, door, 0, 0, 1, 0, 0]
  let all (n : Nat) (l : List Byte) := (List.replicate n l).flatten
  Memory.write [] 0x5000 (w 3 ++ [0, 0] ++ d 7 ++ w 32 ++ w 0 ++ w 16 ++ w 0 ++ d 65536 ++ d 100 ++ w 0 ++
    List.replicate 6 0 ++ all 6 robot ++ [1, 0, 255] ++ List.replicate 13 0 ++ all 6 camera ++ d 200 ++ d 0 ++ w 0 ++
    w 1 ++ [0, 0, 0, 0] ++ all 16 port ++ all 8 zone)

/-- The first of the twelve checks to fail is named with its first element: here the version, and the sync mode. -/
theorem test_candidateIsChecked_meets :
    (∃ first others after, Memory.checkTable [] = [] ++ (1, first ++ (none, Memory.staged [] 0x000 2 = 3) :: others) :: after ∧
      first = [] ∧ ¬ Memory.staged [] 0x000 2 = 3) ∧
    (let m := Memory.write staged 0x5002 [2]
     ∃ others after, m.checkTable = [(1, judged (m.staged 0x000 2 = 3))] ++
        (2, [] ++ (none, m.staged 0x002 1 ≤ 1) :: others) :: after ∧
       m.staged 0x000 2 = 3 ∧ ¬ m.staged 0x002 1 ≤ 1) :=
  ⟨⟨[], [], _, rfl, rfl, by decide +kernel⟩, _, _, rfl, by decide +kernel, by decide +kernel⟩

/-- The part with an adoption in flight, nothing read yet. -/
def adopting (p : Part) (m : Memory) : Part :=
  { hold (p.modCvt fun c => { c with adoption := some ⟨e1.ref, 0, []⟩ }) with mem := m }

theorem test_copyEnds_meets :
    ready.cvt.adoption = none ∧
    ((adopting up []).cvt.adoption = some ⟨e1.ref, 0, []⟩ ∧
      Memory.refusal (Memory.span (adopting up []).mem 0x5000 0x8000) = some ⟨.param, 1, none⟩ ∧
      (adopting up []).odk.holds e1) ∧
    (Memory.refusal (Memory.span (adopting up (staged 2)).mem 0x5000 0x8000) = some ⟨.param, 2, some 0⟩) ∧
    (Memory.refusal (Memory.span (adopting (opened 0) staged).mem 0x5000 0x8000) = none ∧
      (adopting (opened 0) staged).cvt.profile ≠ none ∧ (adopting (opened 0) staged).sac.zones[0].state ≠ .sealed) ∧
    (let p := adopting up staged
     let f := Memory.profile (Memory.span p.mem 0x5000 0x8000)
     p.cvt.profile = none ∧ (∀ z : Fin 8, ¬ (f.zones[z].doorPresent = true ∧ p.sac.zones[z].door = true)) ∧
       (∀ i : Fin 16, ¬ (p.spm.ports[i].silent = true ∧ p.spm.ports[i].role ≠ f.ports[i].role)) ∧
       p.mtu.pendingStep = none ∧ p.cvt.paceState ≠ .timed ∧ p.odk.holds e1) ∧
    (let p := (adopting up (staged 1)).modZone 0 fun k => { k with door := true }
     let f := Memory.profile (Memory.span p.mem 0x5000 0x8000)
     f.zones[0].doorPresent = true ∧ p.sac.zones[0].door = true) ∧
    (let p := adopting (socket up fun k => { k with role := .camera 0, silent := true }) staged
     let f := Memory.profile (Memory.span p.mem 0x5000 0x8000)
     Memory.refusal (Memory.span p.mem 0x5000 0x8000) = none ∧ p.spm.ports[15].silent = true ∧
       p.spm.ports[15].role = .camera 0 ∧ p.spm.ports[15].role ≠ f.ports[15].role) := by
  unfold Odk.holds; decide +kernel

/-! ## 10. Orders, bulletins and outcome pages -/

/-- The hand of cell 0. -/
def hand (h : Byte) : Part := { up with mem := Memory.write [] 0x0200 [h] }

theorem test_handWritesAreJudged_meets :
    (Part.powerOn .low).rpu.phase ≠ .ready ∧ up.rpu.phase = .ready ∧ (Memory.hand (hand 0).mem 0).toNat = 0 ∧
    (Memory.hand (hand 4).mem 0).toNat = 4 ∧ (Memory.hand (hand 1).mem 0).toNat = 1 ∧
    (Memory.hand (hand 2).mem 0).toNat = 2 ∧ (0x0601 : Half).toNat % 256 = 1 ∧ (0x0600 : Half).toNat % 256 = 0 ∧
    ¬ (0x0602 : Half).toNat % 256 < 2 := by decide +kernel

theorem test_orderTakeServesTheHead_meets :
    up.odk.queue = [] ∧ (up.modRpu fun u => { u with lineResetBusy := true }).rpu.lineResetBusy = true ∧
    (up.rpu.lineResetBusy = false ∧ (post up 26).odk.queue = 0 :: [] ∧ Memory.order (post up 26).mem 0 = none ∧
      (post up 26).odk.inflight = []) ∧
    (let e : InFlight := { e1 with key := some .profile }
     let p := (post ready 2).modOdk fun o => { o with inflight := [e], takeIdentity := 1 }
     Memory.order p.mem 0 = some .lineStart ∧ e.ref ≠ p.nextRef 0 ∧ e.key = busyKeyOf .lineStart ∧
       e.key ≠ none) := by decide +kernel

theorem test_hostWritesAreTaken_meets :
    up.rpu.phase = .ready ∧ (Part.powerOn .low).rpu.phase = .startingUp ∧ up.rpu.threshold = min (1 : Half).toNat 3 ∧
    up.rpu.threshold ≠ min (4 : Half).toNat 3 ∧ 0x8000 ≤ 0x8000 ∧ 0x7FFE < 0x8000 ∧ 0x7FFE % 2 = 0 ∧
    watchedOffset 0x7FFE = false ∧ (adopting up []).cvt.adoption = some ⟨e1.ref, 0, []⟩ ∧ up.cvt.adoption = none ∧
    (0 : Half) ≠ 1 ∧ (0 : Half) ≠ 2 := by decide +kernel

/-- Page 0 in this state with `n` records, page 1 in that. -/
def paged (s : PageState) (n : Nat) (t : PageState := .empty) (age : Option Time := none) : Part :=
  up.modRpu fun u => { u with
    pages := (u.pages.set 0 { Page.cleared with state := s, count := n }).set 1 { Page.cleared with state := t }
    ageDeadline := age }

theorem test_pagesTurnAndFaultsUnlock_meets :
    ((paged .filling 1 .empty (some 1)).rpu.ageDeadline = some 1 ∧
      ((paged .filling 1 .empty (some 1)).now - 1).toInt < 0) ∧
    ((paged .filling 1 .empty (some 0)).rpu.ageDeadline = some 0 ∧ 0 ≤ ((paged .filling 1).now - 0).toInt ∧
      (paged .filling 1).fillingPage = some 0) ∧
    ((post (paged .filling 0) 24).canTake 0 .outcomeFlush ∧ (paged .filling 0).rpu.pages[0].count = 0) ∧
    ((post (paged .filling 31 .full) 24).canTake 0 .outcomeFlush ∧ (paged .filling 31).rpu.pages[0].count ≠ 0) ∧
    ((paged .full 32).rpu.pages[0].state = .full ∧ (paged .full 32).rpu.nextPage = 0 ∧
      (paged .full 32).fillingPage = none ∧ (paged .full 32 .filling).fillingPage ≠ none ∧
      (paged .full 32).rpu.pages[1].state = .empty ∧ (0x0100 : Half).toNat % 256 = 0) ∧
    ((post up 25 [0, 0]).canTake 0 (.faultUnlock 0) ∧ up.rpu.fault.kind = none) ∧
    (let p := up.modRpu fun u => { u with fault := ⟨some .syncLost, 0, 0, 0, 65535⟩ }
     (post p 25 [255, 255]).canTake 0 (.faultUnlock 65535) ∧ (post p 25 [0, 0]).canTake 0 (.faultUnlock 0) ∧
       p.rpu.fault.kind ≠ none ∧ (65535 : Half).toNat = p.rpu.fault.further ∧
       (0 : Half).toNat ≠ p.rpu.fault.further) :=
  ⟨by decide +kernel, by decide +kernel, ⟨take_of (by decide +kernel), by decide +kernel⟩,
    ⟨take_of (by decide +kernel), by decide +kernel⟩, by decide +kernel, ⟨take_of (by decide +kernel), by decide +kernel⟩,
    take_of (by decide +kernel), take_of (by decide +kernel), by decide +kernel⟩

theorem test_powerAndExchangeReset_meets :
    up.rpu.phase ≠ .startingUp ∧ (Part.powerOn .low).rpu.phase = .startingUp ∧ (Part.powerOn .low).rpu.phase ≠ .ready ∧
    up.rpu.phase = .ready ∧ up.rpu.phase ≠ .exchangeReset ∧
    (up.modRpu fun u => { u with phase := .exchangeReset }).rpu.phase = .exchangeReset := by decide +kernel

theorem test_lineResetStopsTheLine_meets :
    (up.setLrst true).lrst = true ∧ (Part.powerOn .low).rpu.phase = .startingUp ∧
    (ready.lrst = false ∧ ready.rpu.phase ≠ .startingUp ∧ ready.rpu.lineResetBusy = false ∧
      (∀ z : Fin 8, ready.sac.zones[z].state ≠ .halting) ∧ ready.fillingPage = some 0 ∧
      ready.rpu.pages[0].count = 0) ∧
    ((paged .filling 1).fillingPage = some 0 ∧ (paged .filling 1).rpu.pages[0].count ≠ 0) ∧
    (halting.sac.zones[0].state = .halting ∧ halting.sac.zones[0].request = some ⟨.order, 30, false, 0⟩ ∧
      halting.zoneHasRobot 0 0 = true) ∧
    (let p := { hold ready with mem := Memory.write [] 0x0240 [2] }
     e1 ∈ p.odk.inflight ∧ (Memory.hand p.mem 1).toNat = 2 ∧ e1.ref.cell = 1 ∧ e1.orphaned = false) ∧
    (Memory.hand (hand 1).mem 0).toNat = 1 ∧
    (up.modRpu fun u => { u with lineResetBusy := true }).rpu.lineResetBusy = true := by decide +kernel

/-! ## High-water advances with one event due -/

/-- The forward count of these tests: from the pair (0, 0) to the pair (1, 0). -/
def here : Bool × Bool := (false, false)
def there : Bool × Bool := (true, false)

/-- The forward count is a high-water advance on which `e` alone is due. -/
def dueAlone (p : Part) (f : Profile) (infeed : Bool) (e : Pending) : Bool :=
  let c := (p.counted f there infeed).cvt
  p.cvt.decoder == some here && p.cvt.depth == 0 && decide (p.cvt.profile = some f) &&
  (p.trl.records.all fun r => r.stations.all fun s =>
    Position.reached (f.stationOf r s) c.highWater == decide (e = .arrival r.seq s)) &&
  (p.cvt.watches.all fun x => Position.reached x.target c.highWater == decide (e = .watch x)) &&
  decide (c.phase = f.samplePhase) == decide (e = .sample) && decide (c.markCount = 0) == decide (e = .mark)

theorem advances_all {f : Profile} {infeed : Bool} {e : Pending} {l : List Part}
    (h : l.all (fun p => dueAlone p f infeed e) = true) : ∀ p ∈ l, p.advances f here there infeed e := by
  intro p hp
  have h := List.all_eq_true.mp h p hp
  simp only [dueAlone, Bool.and_eq_true, beq_iff_eq, List.all_eq_true, decide_eq_decide, decide_eq_true_eq] at h
  obtain ⟨⟨⟨⟨⟨⟨h1, h2⟩, h3⟩, h4⟩, h5⟩, h6⟩, h7⟩ := h
  exact ⟨h1, forward_count, h2, h3, fun r hr s hs => by rw [h4 r hr s hs, decide_eq_true_eq],
    fun x hx => by rw [h5 x hx, decide_eq_true_eq], h6, h7⟩

theorem arrives_all {f : Profile} {infeed : Bool} {r : Record} {s : Station} {l : List Part}
    (h : l.all (fun p => dueAlone p f infeed (.arrival r.seq s) && decide (r ∈ p.trl.records) &&
      (p.trl.records.all fun x => decide (x.seq = r.seq → x = r)) && decide (s ∈ r.stations) &&
      decide (f.stationOf r s = p.cvt.highWater + 1)) = true) : ∀ p ∈ l, p.arrives f here there infeed r s := by
  intro p hp
  have h := List.all_eq_true.mp h p hp
  simp only [Bool.and_eq_true, List.all_eq_true, decide_eq_true_eq] at h
  obtain ⟨⟨⟨⟨h1, h2⟩, h3⟩, h4⟩, h5⟩ := h
  exact ⟨advances_all (l := [p]) (by simp only [List.all_cons, h1, List.all_nil, Bool.and_self]) p (List.mem_singleton.mpr rfl),
    h2, h3, h4, h5⟩

/-- READY one count before the sample phase, the tracker in this state. -/
def sampling (t : TrackerState) : Part := tracker (ready.modCvt fun c => { c with phase := 9 }) t

/-- The same in TRACKING under this rotation, the cursor at this slot, the admitted counter at `n`. -/
def rotating (slots : List (Option (Fin 6))) (skip : Bool) (cursor : Nat) (n : Nat := 0) : Part :=
  ((sampling .tracking).modRbp fun b => { b with rotation := ⟨slots, skip⟩, cursor := cursor }).modTrl fun t =>
    { t with admitted := n }

/-- The same at time `t`, TIMED at 100 µs a count from a mark at position 0. -/
def timing (t : Time) : Part :=
  at_ ((rotating [some 0] false 0).modCvt fun c => { c with paceState := .timed, pace := 6553600, marks := [⟨0, 0⟩] }) t

/-- The last slot of two, with a rotation pending under the order in flight. -/
def wrapping (skip : Bool) : Part :=
  hold ((rotating [some 0, some 1] skip 1).modRbp fun b => { b with pendingRotation := some ⟨⟨[none], false⟩, e1.ref⟩ })

theorem test_samplesAreTaken_meets :
    (∀ p ∈ [sampling .unprofiled, sampling .ready, sampling .tracking, sampling .draining,
        rotating [some 0] false 0 4294967295, rotating [some 0] false 0 4294967294, wrapping false, wrapping true,
        timing 0, timing 30100], p.advances f0 here there true .sample) ∧
    (∀ p ∈ [sampling .tracking], p.advances f0 here there false .sample) ∧ f0.stationsAhead ∧
    (rotating [some 0] false 0 4294967295).trl.admitted = 4294967295 ∧
    (∀ p ∈ [rotating [some 0] false 0 4294967294, wrapping false, wrapping true, timing 0, timing 30100],
      p.cvt.tracker = .tracking ∧ p.trl.admitted < 4294967295 ∧ p.trl.records = [] ∧
      (∀ m : Fin 6, p.ctu.cameras[m].schedule = []) ∧ p.rbp.cursor < p.rbp.rotation.slots.length ∧
      p.rbp.rotation.slots.length ≤ 12) ∧
    ((timing 0).cameraState 0 = .active ∧
      ((timing 0).counted f0 there true).project (1 + counts f0.cameras[0].station) = some 30100 ∧
      ((timing 0).now - 30100).toInt < 0 ∧ 0 ≤ ((timing 30100).now - 30100).toInt) ∧
    ((wrapping true).rbp.pendingRotation = some ⟨⟨[none], false⟩, e1.ref⟩ ∧ (wrapping true).odk.holds e1) := by
  unfold Profile.stationsAhead Odk.holds
  exact ⟨advances_all (by decide +kernel), advances_all (by decide +kernel), by decide +kernel, by decide +kernel,
    by decide +kernel, by decide +kernel, by decide +kernel⟩

/-- The slot and the robot of a container: as the cursor says, or, halted robots skipped, found past a wrap. -/
theorem test_samplesAreTaken_meets_rotation :
    (let b := (wrapping false).rbp; b.assigns 1 (some 1) b.wrapped) ∧
    (let b := (wrapping true).rbp; b.assigns 0 none (b.wrapped.movedPast 0)) ∧
    (let b := (rotating [some 0, none] true 0).rbp; b.assigns 1 none (b.movedPast 1)) ∧
    (let b := (rotating [some 0] true 0).rbp; b.assigns 0 none (b.movedPast 0)) := by
  unfold Rbp.assigns Rbp.serves
  refine ⟨⟨fun _ => by decide +kernel, fun h => absurd h (by decide +kernel)⟩,
    ⟨fun h => absurd h (by decide +kernel), fun _ => Or.inr (Or.inr ⟨by decide +kernel, fun j hj h2 => ?_,
      Or.inr (Or.inr (Or.inl ⟨by decide +kernel, by decide +kernel, by decide +kernel, fun j _ h => ?_,
        by decide +kernel, rfl⟩))⟩)⟩,
    ⟨fun h => absurd h (by decide +kernel), fun _ => Or.inl ⟨by decide +kernel, by decide +kernel, fun j _ h => ?_,
      by decide +kernel, rfl⟩⟩,
    ⟨fun h => absurd h (by decide +kernel), fun _ => Or.inr (Or.inl ⟨by decide +kernel, by decide +kernel,
      by decide +kernel⟩)⟩⟩
  · obtain rfl : j = 1 := Nat.le_antisymm (Nat.lt_succ_iff.mp h2) hj
    decide +kernel
  · exact absurd h (Nat.not_lt_zero j)
  · obtain rfl : j = 0 := by omega
    decide +kernel

/-- A record that reaches this station on the next count, with no other left. -/
def arriving (r : Record) (s : Station) : Record :=
  { r with entryPos := 1 - f0.stationOf { r with entryPos := 0 } s, stations := [s] }

/-- TRACKING with that record alone in transit, some of the profile changed. -/
def bringing (r : Record) (s : Station) (g : Profile → Profile := id) : Part :=
  carrying (tracker (under g) .tracking) [arriving r s]

/-- Its robot RUNNING with this live window. -/
def serving (opening : Nat) (pending : Option PendingWindow := none) : Part :=
  hold ((bringing (box 1) .robot).modRobot 0 fun k =>
    { k with state := .running, live := ⟨opening, 50⟩, pendingWindow := pending })

/-- Robot 0 with a watch on container 1 at the next position, in this state after a failure run. -/
def watching (kind : WatchKind) (reports : List Word) (run : Nat) (state : RobotState) : Part :=
  (ready.modCvt fun c => { c with watches := [⟨0, 1, kind, 1⟩] }).modRobot 0 fun k =>
    { k with reportList := reports, failureRun := run, state := state }

theorem test_fillWindowsAreKept_meets :
    (∀ p ∈ [bringing (box 1) .robot, serving 0, serving 5, serving 50, serving 0 (some ⟨⟨0, 101⟩, e1.ref⟩)],
      p.arrives f0 here there true (arriving (box 1) .robot) .robot) ∧
    (∀ p ∈ [bringing (bad 1) .robot], p.arrives f0 here there true (arriving (bad 1) .robot) .robot) ∧
    ((bad 1).decision ≠ .undecided ∧ (arriving (box 1) .robot).robot = some 0 ∧
      (bringing (box 1) .robot).rbp.robots[0].state ≠ .running ∧ (serving 0).rbp.robots[0].state = .running ∧
      50 + f0.grace < 2 ^ 31 ∧ (serving 0).odk.holds e1) ∧
    ((∀ p ∈ [watching .opening [] 0 .running, watching .opening [] 0 .stopped],
        p.advances f0 here there true (.watch ⟨0, 1, .opening, 1⟩)) ∧
      (∀ p ∈ [watching .closing [1] 0 .running], p.advances f0 here there true (.watch ⟨0, 1, .closing, 1⟩)) ∧
      ∀ p ∈ [watching .grace [] 0 .running, watching .grace [1] 0 .running, watching .grace [1] 2 .stopped,
        watching .grace [1] 2 .running], p.advances f0 here there true (.watch ⟨0, 1, .grace, 1⟩)) ∧
    (watching .grace [] 0 .running).cvt.watches = [] ++ ⟨0, 1, .grace, 1⟩ :: [] ∧
    (f0.robots[0].threshold = 3 ∧ min 255 (0 + 1) ≠ 3 ∧ min 255 (2 + 1) = 3) ∧
    (let k := (watching .grace [1] 2 .running).rbp.robots[0]
     k.runReq = true ∧ k.pins.haltAck = false ∧ k.pendingWindow = none) ∧
    (watching .grace [1] 2 .stopped).rbp.robots[0].runReq = false := by
  unfold Odk.holds
  exact ⟨arrives_all (by decide +kernel), arrives_all (by decide +kernel), by decide +kernel,
    ⟨advances_all (by decide +kernel), advances_all (by decide +kernel), advances_all (by decide +kernel)⟩,
    by decide +kernel, by decide +kernel, by decide +kernel, by decide +kernel⟩

/-- Container 1 with these verdicts and this fill result. -/
def final (v : Verdict) (fill : FillResult) : Record :=
  { box 1 with fill := fill, views := Vector.replicate 6 (some ⟨v, none⟩) }

/-- A container at camera 0's station, the camera changed. -/
def passing (v : Verdict) (g : Camera → Camera) : Part :=
  (bringing (final v .pending) (.camera 0)).modCamera 0 g

theorem test_cameraStationIsActedOn_meets :
    (∀ p ∈ [passing .notYet id, passing .notYet fun k => { k with schedule := [due1], hostService := true },
        passing .notYet fun k => { k with schedule := [⟨2, none, false⟩, ⟨1, none, true⟩] },
        (passing .notYet fun k => { k with schedule := [due1], pulse := some ⟨9, true⟩ }).modCvt fun c =>
          { c with paceState := .timed },
        passing .notYet fun k => { k with schedule := [⟨2, none, false⟩, ⟨1, none, false⟩], degraded := true }],
      p.arrives f0 here there true (arriving (final .notYet .pending) (.camera 0)) (.camera 0)) ∧
    (let v := arriving (final .triggered .pending) (.camera 0)
     (∀ p ∈ [passing .triggered id], p.arrives f0 here there true v (.camera 0)) ∧
       v.views[0].map (·.verdict) ≠ some .notYet) ∧
    ((passing .notYet fun k => { k with hostService := true }).cameraState 0 = .service ∧
      (passing .notYet id).cameraState 0 = .active ∧
      (passing .notYet fun k => { k with degraded := true }).cameraState 0 = .degraded) ∧
    ([⟨2, none, false⟩, ⟨1, none, true⟩] : List Fire) = [⟨2, none, false⟩] ++ ⟨1, none, true⟩ :: [] ∧
    due1.seq = 1 ∧ due1.time ≠ none :=
  ⟨arrives_all (by decide +kernel), ⟨arrives_all (by decide +kernel), by decide +kernel⟩, by decide +kernel⟩

/-- A container at its decision point that camera 0 awaits after a missed run, its robot 0 after a failure run. -/
def deciding (missed run : Nat) (state : RobotState := .stopped) : Part :=
  ((bringing (box 1) .decision).modCamera 0 fun k => { k with awaiting := [1], missedRun := missed }).modRobot 0 fun k =>
    { k with failureRun := run, state := state }

theorem test_decisionIsComposed_meets :
    (∀ p ∈ [deciding 0 0, deciding 2 0, deciding 0 2 .running],
      p.arrives f0 here there true (arriving (box 1) .decision) .decision) ∧
    ((∀ p ∈ [bringing (bad 1) .decision], p.arrives f0 here there true (arriving (bad 1) .decision) .decision) ∧
      (bad 1).decision ≠ .undecided) ∧
    ((∀ p ∈ [bringing (final .pass .ok) .decision],
        p.arrives f0 here there true (arriving (final .pass .ok) .decision) .decision) ∧
      (final .pass .ok).closed.causesUnder f0 = ⟨false, false, false, false, false, false⟩) ∧
    ((box 1).closed.causesUnder f0 ≠ ⟨false, false, false, false, false, false⟩ ∧
      (deciding 0 0).cvt.paceState ≠ .timed) ∧
    (f0.cameras[0].threshold = 3 ∧ f0.cameras[0].present = true ∧ 1 ∈ (deciding 2 0).ctu.cameras[0].awaiting ∧
      (deciding 2 0).cameraState 0 = .active ∧ min 255 (2 + 1) = 3 ∧ min 255 (0 + 1) ≠ 3) ∧
    ((box 1).fill = .pending ∧ (box 1).robot = some 0 ∧ f0.robots[0].threshold = 3 ∧
      (deciding 0 2 .running).rbp.robots[0].runReq = true ∧
      (deciding 0 2 .running).rbp.robots[0].pins.haltAck = false ∧
      (deciding 0 2 .running).rbp.robots[0].pendingWindow = none) :=
  ⟨arrives_all (by decide +kernel), ⟨arrives_all (by decide +kernel), by decide +kernel⟩,
    ⟨arrives_all (by decide +kernel), by decide +kernel⟩, by decide +kernel, by decide +kernel, by decide +kernel⟩

/-- A container to be rejected at its decision point, the tracker TIMED at 1 µs a count, at time `t`. -/
def rejecting (t : Time) (schedule : List Pulse) (output : Option OutputPulse) (span : Nat := 100) : Part :=
  (at_ ((bringing (final .fail .ok) .decision fun f => { f with confirmSpan := span }).modCvt fun c =>
    { c with paceState := .timed, pace := 65536, marks := [⟨0, 0⟩] }) t).modRej fun r =>
      { r with schedule := schedule, output := output }

theorem test_rejectsAreTaken_meets :
    (let r := { arriving (final .fail .ok) .decision with marked := true }
     (∀ p ∈ [carrying (rejecting 0 [] none) [r]], p.arrives f0 here there true r .decision) ∧ r.marked = true) ∧
    (let r := arriving (final .fail .short) .decision
     (∀ p ∈ [carrying (rejecting 0 [⟨[2], some ⟨0, 201⟩⟩] none) [r], carrying (rejecting 0 [] (some ⟨201, true⟩)) [r],
          carrying (rejecting 0 [] none) [r], carrying (rejecting 201 [⟨[2], some ⟨0, 200⟩⟩] (some ⟨200, true⟩)) [r]],
        p.arrives f0 here there true r .decision) ∧
       (∀ p ∈ [carrying (rejecting 201 [] none 0) [r]],
        p.arrives { f0 with confirmSpan := 0 } here there true r .decision) ∧
       r.decision = .undecided ∧ r.fill ≠ .pending ∧ r.fill ≠ .ok ∧
       (∀ m : Fin 6, r.views[m].map (·.verdict) ≠ some .notYet ∧ r.views[m].map (·.verdict) ≠ some .triggered ∧
         r.seq ∉ (rejecting 0 [] none).ctu.cameras[m].awaiting ∧
         r.seq ∉ (rejecting 0 [] none).ctu.cameras[m].schedule.map (·.seq)) ∧
       (r.entryPos + counts f0.ejector - 0).toInt = 201 ∧ (201 * 65536 + 32768) / 65536 = 201) ∧
    ((rejecting 0 [] none).cvt.paceState = .timed ∧ (rejecting 0 [] none).cvt.marks.getLast? = some ⟨0, 0⟩ ∧
      (rejecting 0 [] none).cvt.pace = 65536) ∧
    (¬ 0 < ((201 : Time) - 201).toInt ∧ 0 < ((201 : Time) - 200).toInt ∧ ¬ 0 ≤ ((0 : Time) - 201).toInt ∧
      0 ≤ ((201 : Time) - 201).toInt) ∧
    ((rejecting 0 [] none).confirming = true ∧ (rejecting 201 [] none 0).confirming = false ∧
      (rejecting 0 [] none).rej.confirm.length < 8) :=
  ⟨⟨arrives_all (by decide +kernel), by decide +kernel⟩,
    ⟨arrives_all (by decide +kernel), arrives_all (by decide +kernel), by decide +kernel⟩, by decide +kernel,
    by decide +kernel, by decide +kernel⟩

/-- A container at its ejector station with this schedule, under this confirm span. -/
def ejecting (r : Record) (schedule : List Pulse) (confirm : List Word := []) (span : Nat := 100) : Part :=
  (bringing r .ejector fun f => { f with confirmSpan := span }).modRej fun e =>
    { e with schedule := schedule, confirm := confirm }

theorem test_ejectorStationIsActedOn_meets :
    (let r := arriving { box 1 with decision := .pass } .ejector
     (∀ p ∈ [carrying ready [r], carrying draining [r]], p.arrives f0 here there true r .ejector) ∧
       r.decision = .pass ∧ (carrying draining [r]).cvt.tracker = .draining ∧ (carrying draining [r]).trl.records = [r] ∧
       ready.cvt.tracker ≠ .draining) ∧
    (let r := arriving (bad 1) .ejector
     let full := carrying (ejecting (bad 1) [⟨[1], none⟩] [2, 3, 4, 5, 6, 7, 8, 9]) [r, bad 2]
     let unwatched := ejecting (bad 1) [⟨[1], some ⟨9, 99⟩⟩] [] 0
     (∀ p ∈ [ejecting (bad 1) [], ejecting (bad 1) [⟨[2, 1], none⟩], ejecting (bad 1) [⟨[1], none⟩],
          ejecting (bad 1) [⟨[2], none⟩, ⟨[1, 3], some ⟨9, 99⟩⟩] [4, 5, 6, 7, 8, 9], full],
        p.arrives f0 here there true r .ejector) ∧
       (∀ p ∈ [unwatched], p.arrives { f0 with confirmSpan := 0 } here there true r .ejector) ∧
       full.record 2 = some (bad 2) ∧ (bad 2).decision = .reject ∧ full.confirming = true ∧
       ([3, 4, 5, 6, 7, 8, 9] : List Word).length = 7 ∧ unwatched.confirming = false ∧
       unwatched.cvt.tracker ≠ .draining) ∧
    (let r := arriving (bad 1) .confirmEnd
     (∀ p ∈ [bringing (bad 1) .confirmEnd, (bringing (bad 1) .confirmEnd).modRej fun e => { e with confirm := [1] }],
        p.arrives f0 here there true r .confirmEnd) ∧ r.decision = .reject) :=
  ⟨⟨arrives_all (by decide +kernel), by decide +kernel⟩,
    ⟨arrives_all (by decide +kernel), arrives_all (by decide +kernel), by decide +kernel⟩,
    arrives_all (by decide +kernel), by decide +kernel⟩

/-- WARMING one count before the mark that makes it TIMED, two containers at position 0 with this schedule at the
ejector, this output and this fire at camera 0, under some of the profile changed. At time 9 the pace is 18,432. -/
def pacing (fires : List Fire) (pulses : List Pulse) (output : Option OutputPulse) (g : Profile → Profile := id)
    (pulse : Option OutputPulse := none) : Part :=
  ((carrying ((marking 2 .warming 9).modCvt fun c => { c with profile := some (g f0) }) [box 1, box 2]).modRej fun r =>
    { r with schedule := pulses, output := output }).modCamera 0 fun k => { k with schedule := fires, pulse := pulse }

/-- A profile whose leads put every fire and pulse in the past. -/
def early (f : Profile) : Profile :=
  { f with ejectLead := 500, cameras := Vector.replicate 6 ⟨true, 300, 500, 50, false, .lines, true, 3⟩ }

theorem test_newPaceReachesFires_meets :
    (∀ p ∈ [pacing [⟨1, none, false⟩] [⟨[1], none⟩] none, pacing [due1] [⟨[1], none⟩, ⟨[2], none⟩] none,
        pacing [] [⟨[1], none⟩] (some ⟨234, true⟩)], p.advances f0 here there true .mark) ∧
    (∀ p ∈ [pacing [due1] [⟨[1], none⟩] none early, pacing [due1] [] none early (some ⟨99, true⟩)],
      p.advances (early f0) here there true .mark) ∧
    ((pacing [] [] none).cvt.marks.length ≤ 9 ∧ (pacing [] [] none).mergesFit ∧ (pacing [] [] none).cvt.paceState = .warming ∧
      (pacing [] [] none).cameraState 0 = .active) ∧
    (9 * 65536 / (2 * f0.spacing) = 18432 ∧ 18432 ≤ f0.crawlLimit) ∧
    (let c := (pacing [] [] none).counted f0 there true
     c.etaOf 18432 (counts f0.cameras[0].station) = 93 ∧ c.etaOf 18432 (counts f0.ejector) = 234) ∧
    (¬ 0 ≤ ((9 : Time) - 93).toInt ∧ ¬ 0 ≤ ((9 : Time) - 234).toInt ∧ 0 ≤ ((9 : Time) - (93 - 500)).toInt ∧
      0 ≤ ((9 : Time) - (234 - 500)).toInt ∧ ¬ 0 < ((234 : Time) - 234).toInt ∧ ¬ 0 < ((234 : Time) - 284).toInt) ∧
    ((pacing [] [] none).record 1 = some (box 1) ∧ (pacing [] [] none).confirming = true ∧
      0 < ((box 1).entryPos + counts f0.ejector - 1).toInt) :=
  ⟨advances_all (by decide +kernel), advances_all (by decide +kernel), by decide +kernel⟩

/-- A part no page of which is FILLING. -/
def pageless : Part := up.modRpu fun u => { u with pages := Vector.replicate 8 Page.cleared }

/-- A part whose FILLING page has room for one record. -/
def almostFull : Part := up.modRpu fun u => { u with pages := u.pages.set 0 { Page.cleared with state := .filling, count := 31 } }

theorem test_records_meet : pageless.roomy ∧ almostFull.roomy ∧ almostFull.rpu.pages[0].count + 1 = 32 := by
  refine ⟨fun i h => ?_, fun i h => ?_, rfl⟩
  · have hn : pageless.fillingPage = none := by decide +kernel
    rw [hn] at h
    exact absurd h (Option.some_ne_none i).symm
  · have hf : almostFull.fillingPage = some 0 := by decide +kernel
    rw [hf] at h
    obtain rfl : 0 = i := Option.some.inj h
    decide +kernel

/-! ## Invariants -/

theorem test_everyStepKeepsTheBoard_meets :
    (Part.powerOn .low).tidy ∧ (Part.powerOn .low).depthHolds ∧
    step ⟨Part.powerOn .low, [.markTimeout]⟩ = .next ⟨Part.powerOn .low, []⟩ ∧
    ([Instr.markTimeout].head? ≠ some (.powerOn .low)) := by
  unfold Part.tidy Part.depthHolds
  exact ⟨by decide +kernel, by decide +kernel, rfl, by decide +kernel⟩

theorem test_everyStepGuardsPeople_meets :
    (opened 0).socketsFollowZones ∧ (opened 0).doorsFollowRobots ∧ (opened 0).heldRobotsRest ∧
    (opened 0).zonesNeedProfile ∧ step ⟨opened 0, [.pageAge]⟩ = .next ⟨opened 0, []⟩ := by
  unfold Part.socketsFollowZones Part.doorsFollowRobots Part.heldRobotsRest Part.zonesNeedProfile
  exact ⟨by decide +kernel, by decide +kernel, by decide +kernel, by decide +kernel, rfl⟩

end Sys2Proof.Tests
end

section
/-! PROOFS. Machine time (01_machine_time.md): the counter, the trim, and the snapshot. -/

namespace Sys2Proof.Machine

/-! ## The counter (R2) -/

/-- The counter at another time and fraction. -/
def Mtu.counting (m : Mtu) (time : Time) (fraction : BitVec 32) : Mtu := { m with time := time, fraction := fraction }

/-- R2: a tick that does not carry. -/
theorem Mtu.tick_quiet (m : Mtu) (h : m.fraction.toNat + m.increment.toNat < 2 ^ 32) :
    m.tick = m.counting m.time (BitVec.ofNat 32 (m.fraction.toNat + m.increment.toNat)) := by
  unfold Mtu.tick Mtu.counting
  dsimp only
  rw [if_neg (by omega)]

/-- R2: a tick that carries. -/
theorem Mtu.tick_carry (m : Mtu) (h : 2 ^ 32 ≤ m.fraction.toNat + m.increment.toNat) :
    m.tick = m.counting (m.time + 1) (BitVec.ofNat 32 (m.fraction.toNat + m.increment.toNat)) := by
  unfold Mtu.tick Mtu.counting
  dsimp only
  rw [if_pos (by omega)]

theorem Part.ticks_succ (n : Nat) (p : Part) : Part.ticks (n + 1) p = (Part.ticks n p).tick := by
  induction n generalizing p with
  | zero => rfl
  | succ n ih => exact ih p.tick

/-- R2: the ticks before the carry: machine time stands still, the fraction is the sum. -/
theorem Part.ticks_quiet (p : Part) (n : Nat) (h : p.mtu.fraction.toNat + n * p.mtu.increment.toNat < 2 ^ 32) :
    Part.ticks n p = p.modMtu fun m =>
      m.counting m.time (BitVec.ofNat 32 (m.fraction.toNat + n * m.increment.toNat)) := by
  induction n with
  | zero => simp [Part.ticks, Part.modMtu, Mtu.counting]
  | succ n ih =>
    rw [Nat.add_mul, Nat.one_mul] at h
    have hsum : (BitVec.ofNat 32 (p.mtu.fraction.toNat + n * p.mtu.increment.toNat)).toNat =
        p.mtu.fraction.toNat + n * p.mtu.increment.toNat := by
      rw [BitVec.toNat_ofNat, Nat.mod_eq_of_lt (by omega)]
    rw [Part.ticks_succ, ih (by omega)]
    unfold Part.tick Part.modMtu
    dsimp only
    rw [Mtu.tick_quiet _ (by simp only [Mtu.counting, hsum]; omega)]
    simp only [Mtu.counting, hsum, Nat.add_mul, Nat.one_mul, Nat.add_assoc]

/-- R2: the tick that carries is the one at which the sum of the increments first leaves 32 bits. -/
theorem Mtu.ticksToCarry_spec (m : Mtu) (h : 0 < m.increment.toNat) :
    ∃ n, m.ticksToCarry = n + 1 ∧ m.fraction.toNat + n * m.increment.toNat < 2 ^ 32 ∧
      2 ^ 32 ≤ m.fraction.toNat + (n + 1) * m.increment.toNat := by
  have hf := m.fraction.isLt
  obtain ⟨i, hi⟩ : ∃ i, i = m.increment.toNat := ⟨_, rfl⟩
  obtain ⟨f, hfr⟩ : ∃ f, f = m.fraction.toNat := ⟨_, rfl⟩
  have hc : m.ticksToCarry = (4294967296 - f - 1) / i + 1 := by
    unfold Mtu.ticksToCarry
    rw [← hi, ← hfr, show 4294967296 - f + i - 1 = (4294967296 - f - 1) + i by omega, Nat.add_div_right _ (by omega)]
  refine ⟨_, hc, ?_, ?_⟩
  · have := Nat.div_mul_le_self (4294967296 - f - 1) i
    rw [← hi]
    omega
  · have := Nat.lt_div_mul_add (a := 4294967296 - f - 1) (b := i) (by omega)
    rw [← hi, Nat.add_mul, Nat.one_mul]
    omega

/-- R2: MACHINE_TIME_CARRY is the quiet ticks and the one that carries. -/
theorem Part.carry_spec (p : Part) (h : 0 < p.mtu.increment.toNat) :
    ∃ n, (∀ k ≤ n, (Part.ticks k p).mtu.time = p.mtu.time) ∧ p.carry = Part.ticks (n + 1) p ∧
      p.carry.mtu.time = p.mtu.time + 1 := by
  obtain ⟨n, hc, hlt, hle⟩ := p.mtu.ticksToCarry_spec h
  refine ⟨n, fun k hk => ?_, ?_, rfl⟩
  · rw [Part.ticks_quiet p k (Nat.lt_of_le_of_lt (by gcongr) hlt)]
    rfl
  · have hsum : (BitVec.ofNat 32 (p.mtu.fraction.toNat + n * p.mtu.increment.toNat)).toNat =
        p.mtu.fraction.toNat + n * p.mtu.increment.toNat := by
      rw [BitVec.toNat_ofNat, Nat.mod_eq_of_lt hlt]
    rw [Nat.add_mul, Nat.one_mul] at hle
    rw [Part.ticks_succ, Part.ticks_quiet p n hlt]
    unfold Part.tick Part.modMtu
    dsimp only
    rw [Mtu.tick_carry _ (by simp only [Mtu.counting, hsum]; omega)]
    simp only [Part.carry, Part.modMtu, Mtu.carry, Mtu.counting, hsum, hc, Nat.add_mul, Nat.one_mul, Nat.add_assoc]

/-- R2: one tick, whether it carries or not. -/
theorem Mtu.tick_eq (m : Mtu) : m.tick = m.counting
    (if m.fraction.toNat + m.increment.toNat < 2 ^ 32 then m.time else m.time + 1) (m.fraction + m.increment) := by
  have hsum : BitVec.ofNat 32 (m.fraction.toNat + m.increment.toNat) = m.fraction + m.increment := by
    rw [BitVec.ofNat_add, BitVec.ofNat_toNat, BitVec.ofNat_toNat, BitVec.setWidth_eq, BitVec.setWidth_eq]
  split
  · rename_i h; rw [Mtu.tick_quiet m h, hsum]
  · rename_i h; rw [Mtu.tick_carry m (Nat.le_of_not_lt h), hsum]

/-- Settles O3: a tick by whether it carries; the carry as the quiet ticks and the one that carries. -/
theorem clockTicksAndCarries : Obligations.ClockTicksAndCarries := by
  unfold Obligations.ClockTicksAndCarries
  constructor
  · intro p
    refine ⟨p.modMtu Mtu.tick, rfl, ?_⟩
    rw [show p.modMtu Mtu.tick = { p with mtu := p.mtu.tick } from rfl, Mtu.tick_eq]
    refine ⟨rfl, rfl, rfl⟩
  · intro p w h
    obtain ⟨n, hquiet, hcarry, htime⟩ := p.carry_spec h
    exact ⟨n, hquiet, p.carry, rfl, hcarry, htime⟩

/-! ## The trim (R3) -/

/-- R3: the rounded quotient, a half rounded up. -/
theorem rounded_quotient (x n : Nat) (h : n = (2 * x + 1000000000) / 2000000000) :
    2 * (1000000000 * (n : Int) - x).natAbs ≤ 1000000000 ∧
    (2 * (1000000000 * (n : Int) - x).natAbs = 1000000000 → x < 1000000000 * n) := by
  have h1 := Nat.div_mul_le_self (2 * x + 1000000000) 2000000000
  have h2 := Nat.lt_div_mul_add (a := 2 * x + 1000000000) (b := 2000000000) (by omega)
  rw [← h] at h1 h2
  omega

/-- R3: the adjustment is the rounded quotient with the sign of the trim. -/
theorem adjustment_sign (t : Int) : ∃ n : Nat, n = (2 * (85899346 * t.natAbs) + 1000000000) / 2000000000 ∧
    ((0 ≤ t ∧ adjustment t = n) ∨ (t < 0 ∧ adjustment t = -(n : Int))) := by
  refine ⟨_, rfl, ?_⟩
  unfold adjustment baseIncrement
  dsimp only
  split
  · rename_i h; exact .inr ⟨h, rfl⟩
  · rename_i h; exact .inl ⟨Int.not_lt.mp h, rfl⟩

/-- R3: the adjustment is at most half a unit from the quotient, and lies beyond it where it is exactly that far. -/
theorem adjustment_rounds (t : Int) :
    2 * (1000000000 * adjustment t - 85899346 * t).natAbs ≤ 1000000000 ∧
    (2 * (1000000000 * adjustment t - 85899346 * t).natAbs = 1000000000 →
      (85899346 * t).natAbs < (1000000000 * adjustment t).natAbs) := by
  obtain ⟨n, hn, ⟨h, ha⟩ | ⟨h, ha⟩⟩ := adjustment_sign t
  · obtain ⟨k, rfl⟩ := Int.eq_ofNat_of_zero_le h
    have hr := rounded_quotient _ _ hn
    rw [ha]
    simp only [Int.natAbs_natCast, Int.natAbs_mul, Nat.cast_mul] at hr ⊢
    exact hr
  · obtain ⟨k, rfl⟩ := Int.exists_eq_neg_ofNat (Int.le_of_lt h)
    have hr := rounded_quotient _ _ hn
    rw [ha, show 1000000000 * -(n : Int) - 85899346 * -(k : Int) = -(1000000000 * (n : Int) - 85899346 * (k : Int)) by ring]
    simp only [Int.natAbs_natCast, Int.natAbs_mul, Int.natAbs_neg, Nat.cast_mul] at hr ⊢
    exact hr

/-- R3: the size of the adjustment of a trim within the limits. -/
theorem adjustment_bounds (t : Int) (h1 : -200000 ≤ t) (h2 : t ≤ 200000) :
    -17180 ≤ adjustment t ∧ adjustment t ≤ 17180 := by
  obtain ⟨n, hn, hs⟩ := adjustment_sign t
  have hle : n ≤ 17180 := by
    have hk : t.natAbs ≤ 200000 := by omega
    rw [hn]
    calc (2 * (85899346 * t.natAbs) + 1000000000) / 2000000000
        ≤ (2 * (85899346 * 200000) + 1000000000) / 2000000000 := by gcongr
      _ = 17180 := by norm_num
  clear hn
  omega

/-- R3: the increment of a trim within the limits does not leave its 32 bits. -/
theorem incrementOf_toInt (t : Int) (h1 : -200000 ≤ t) (h2 : t ≤ 200000) :
    (incrementOf t).toInt = 85899346 + adjustment t := by
  obtain ⟨h3, h4⟩ := adjustment_bounds t h1 h2
  unfold incrementOf
  rw [BitVec.toInt_ofInt, Int.bmod_eq_of_le (by simp only [baseIncrement]; omega) (by simp only [baseIncrement]; omega)]
  rfl

/-- What TIME_TRIM does to the MTU: the trim and the increment it gives (R4). -/
def Mtu.trimmed (m : Mtu) (trim : Int) : Mtu := { m with trim := trim, increment := incrementOf trim }

/-- R4: the part as TIME_TRIM leaves it, before the desk is done. -/
theorem Part.timeTrim_takes {p : Part} {n : Fin 48} {ppb : Word} (h : p.canTake n (.timeTrim ppb)) :
    let trim := max (-200000) (min 200000 ppb.toInt)
    p.answers (p.takeAs n (.timeTrim ppb)) n (if ppb.toInt = trim then .ok else .clamped) ∧
      (((p.markTaken n).modMtu (·.trimmed trim)).rewrite .mtu).Settled (p.takeAs n (.timeTrim ppb)) n := by
  intro trim
  rw [← clampedIf_eq trim]
  refine Part.answered_at_once h _ _ 0 ?_ (by simp)
  unfold Part.perform Part.timeTrimOrder
  dsimp only
  rw [clampSigned_eq _ _ (by omega)]
  rfl

/-- Settles O4: the rounding of the quotient, and the increment as TIME_TRIM sets it. -/
theorem trimGivesTheIncrement : Obligations.TrimGivesTheIncrement := by
  unfold Obligations.TrimGivesTheIncrement
  refine ⟨fun p w n ppb h => ⟨_, rfl, ?_⟩, fun t h1 h2 => ?_⟩
  · obtain ⟨-, hs⟩ := Part.timeTrim_takes h
    rw [show (p.takeAs n (.timeTrim ppb)).mtu = _ from hs.mtu]
    simp [Mtu.trimmed]
  · obtain ⟨hhalf, htie⟩ := adjustment_rounds t
    obtain ⟨hlow, hhigh⟩ := adjustment_bounds t h1 h2
    have hinc := incrementOf_toInt t h1 h2
    refine ⟨hinc, hhalf, htie, ?_, ?_, by omega, by omega⟩
    · rintro rfl; rfl
    · rw [Int.natAbs_mul]
      calc Int.natAbs 85899346 * t.natAbs ≤ 85899346 * 200000 := Nat.mul_le_mul (by decide) (by omega)
        _ = 17179869200000 := by norm_num

/-- Settles O5. -/
theorem timeTrimSetsTheRate : Obligations.TimeTrimSetsTheRate := by
  unfold Obligations.TimeTrimSetsTheRate
  intro p w n ppb h trim
  obtain ⟨ha, hs⟩ := Part.timeTrim_takes h
  have hm : (p.takeAs n (.timeTrim ppb)).mtu = p.mtu.trimmed trim := hs.mtu.trans (by simp [trim])
  refine ⟨_, rfl, hm, ?_, ?_, ha, hs.tells ?_, hs.mirrored .mtu (by decide) (Part.rewrite_mirrored _ _), ?_⟩
  · rw [show Part.tick _ = Part.modMtu _ Mtu.tick from rfl, (Part.modMtu_fields _ _).1, Mtu.tick_eq]
    simp only [hm]
    rfl
  · exact hs.eq.trans (Part.eq_of_fields hs.mtu.symm (by simp) (by simp) (by simp) (by simp) (by simp) (by simp) (by simp)
      rfl rfl (by simp) (by simp) rfl (by simp))
  · exact Part.tells_of (by simp) (by simp) (by simp)
  · exact hs.storesOnly (l := [.cell n, .mirror .mtu]) (Part.rewrite_stores _ _ (by simp)
      (Part.markTaken_stores p n (by simp) (Memory.storesOnly_refl _ _))) (by simp) (by simp) (by simp)

/-! ## The snapshot (R15) -/

/-- R195: a write to a time word is one the part discards. -/
theorem Part.registerWrite_timeWord (p : Part) (register : Fin 8) (value : Half) (h : 5 ≤ register.val) :
    p.registerWrite register value = p := by
  have hd : discardedWrite register value = true := by
    unfold discardedWrite
    simp only [Bool.and_eq_true, Bool.or_eq_true, decide_eq_true_eq]
    omega
  unfold Part.registerWrite
  rw [if_pos hd]

/-- R15: the snapshot once READY has shown. -/
theorem Part.readTime_latches (p : Part) (h : p.rpu.phase ≠ .startingUp) :
    p.readTime = { p with mtu := { p.mtu with latch := p.now }
                          rpu := { p.rpu with busData := p.now.extractLsb' 0 16 } } := by
  unfold Part.readTime
  rw [if_neg h]
  rfl

/-- R15: before READY a snapshot returns 0 and latches nothing. -/
theorem Part.readTime_early (p : Part) (h : p.rpu.phase = .startingUp) :
    p.readTime = { p with rpu := { p.rpu with busData := 0 } } := by
  unfold Part.readTime
  rw [if_pos h]
  rfl

/-- Settles O10. -/
theorem snapshotHoldsTheTime : Obligations.SnapshotHoldsTheTime := by
  unfold Obligations.SnapshotHoldsTheTime
  intro p w
  refine ⟨fun h => ⟨_, rfl, p.readTime_latches h, ?_, ?_⟩, fun h => ⟨_, rfl, p.readTime_early h, ?_, ?_⟩, ?_, fun _ => rfl⟩
  · simp [p.readTime_latches h, Part.registerRead, h]
  · simp [p.readTime_latches h, Part.registerRead, h]
  · simp [p.readTime_early h, Part.registerRead, h]
  · simp [p.readTime_early h, Part.registerRead, h]
  · exact fun register value h => ⟨_, rfl, p.registerWrite_timeWord register value h⟩

end Sys2Proof.Machine
end

section
/-! PROOFS. Time steps and the sync input (01_machine_time.md). First what is told and stored along a chain of
operations that keep machine time: the relation `Speaks`. -/

namespace Sys2Proof.Machine

/-! ## What is told and stored along the way -/

/-- From `p` to `q` machine time stands, the Report Unit raises the changes `l`, and only `k` is stored to; its fault
record and its update counts apart, nothing else happens in the Report Unit. -/
structure Part.Speaks (p q : Part) (l : Tidings) (k : List Area) : Prop where
  time : q.mtu.time = p.mtu.time
  rest : q.rpu.rest = p.rpu.rest
  bulletins : q.rpu.bulletins = announced p.rpu.bulletins p.now l
  stores : ∀ (m : Memory) (j : List Area), k ⊆ j → m.storesOnly p.mem j → m.storesOnly q.mem j

theorem Part.Speaks.now {p q : Part} {l : Tidings} {k : List Area} (h : p.Speaks q l k) : q.now = p.now := h.time

theorem Part.Speaks.refl_of {p q : Part} (ht : q.mtu.time = p.mtu.time) (hr : q.rpu = p.rpu) (hm : q.mem = p.mem) :
    p.Speaks q [] [] where
  time := ht
  rest := by rw [hr]
  bulletins := by rw [hr]; rfl
  stores := fun _ _ _ h => by rw [hm]; exact h

theorem Part.Speaks.refl (p : Part) : p.Speaks p [] [] := .refl_of rfl rfl rfl

theorem Part.Speaks.trans {p q r : Part} {l l' : Tidings} {k k' : List Area} (h : p.Speaks q l k) (h' : q.Speaks r l' k') :
    p.Speaks r (l ++ l') (k ++ k') where
  time := h'.time.trans h.time
  rest := h'.rest.trans h.rest
  bulletins := by rw [h'.bulletins, h.bulletins, h.now, announced_append]
  stores := fun m j hj hm => h'.stores m j (fun _ hx => hj (List.mem_append_right _ hx))
    (h.stores m j (fun _ hx => hj (List.mem_append_left _ hx)) hm)

/-- Another block changes. -/
theorem Part.Speaks.same {p q r : Part} {l : Tidings} {k : List Area} (h : p.Speaks q l k)
    (ht : r.mtu.time = q.mtu.time) (hr : r.rpu = q.rpu) (hm : r.mem = q.mem) : p.Speaks r l k := by
  simpa using h.trans (Part.Speaks.refl_of ht hr hm)

theorem Part.Speaks.rewrite {p q : Part} {l : Tidings} {k : List Area} (h : p.Speaks q l k) (m : MirrorId) :
    p.Speaks (q.rewrite m) l (k ++ [.mirror m]) := by
  have hm : q.Speaks (q.rewrite m) [] [.mirror m] :=
    ⟨rfl, rfl, rfl, fun _ _ hj hs => Part.rewrite_stores _ _ (hj (by simp)) hs⟩
  simpa using h.trans hm

theorem Part.Speaks.raise {p q : Part} {l : Tidings} {k : List Area} (h : p.Speaks q l k) (n : News) (member : Byte) :
    p.Speaks (q.raise n member) (l ++ [(n, member)]) (k ++ [.bulletin n.bulletin]) :=
  h.trans ⟨rfl, rfl, rfl, fun _ _ hj hs => Part.raise_stores _ _ _ (hj (by simp)) hs⟩

theorem Part.Speaks.report {p q : Part} {l : Tidings} {k : List Area} (h : p.Speaks q l k) (f : FaultKind)
    (member : Byte) (seq : Word) :
    p.Speaks (q.report f member seq) (l ++ [(.fault f, member)]) (k ++ [.fault, .bulletin 9]) :=
  h.trans ⟨rfl, rfl, rfl, fun _ _ hj hs => Part.report_stores _ _ _ _ (hj (by simp)) (hj (by simp)) hs⟩

theorem Part.Speaks.markTaken {p q : Part} {l : Tidings} {k : List Area} (h : p.Speaks q l k) (n : Fin 48) :
    p.Speaks (q.markTaken n) l (k ++ [.cell n]) := by
  have hm : q.Speaks (q.markTaken n) [] [.cell n] :=
    ⟨rfl, rfl, rfl, fun _ _ hj hs => Part.markTaken_stores _ _ (hj (by simp)) hs⟩
  simpa using h.trans hm

/-- The desk is done with a take. -/
theorem Part.Speaks.settled {p q r : Part} {l : Tidings} {k : List Area} {n : Fin 48} (h : p.Speaks q l k)
    (hs : q.Settled r n) : p.Speaks r l (k ++ [.cell n, .mirror .odk]) := by
  have hm : q.Speaks r [] [.cell n, .mirror .odk] :=
    ⟨congrArg Mtu.time hs.mtu, hs.rest, hs.bulletins, fun _ _ hj hm => hs.stores _ _ (hj (by simp)) (hj (by simp)) hm⟩
  simpa using h.trans hm

/-- A held order completes (R179). -/
theorem Part.Speaks.concluded {p q : Part} {l : Tidings} {k : List Area} (h : p.Speaks q l k) {e : InFlight}
    (he : q.odk.holds e) (r : Result) (d : Byte) :
    p.Speaks (q.complete e.ref r d) (l ++ [e.told]) (k ++ [.cell e.ref.cell, .bulletin 0, .mirror .odk]) := by
  obtain ⟨-, -, -, hb, hr⟩ := Part.concluded q e r d he
  exact h.trans ⟨by simp, hr, hb, fun _ _ hj hs =>
    Part.complete_stores _ _ _ _ (hj (by simp)) (hj (by simp)) (hj (by simp)) hs⟩

theorem Part.Speaks.tells {p q : Part} {l : Tidings} {k : List Area} (h : p.Speaks q l k)
    (hf : q.rpu.fault = p.rpu.fault) : p.tells q l :=
  Part.tells_of h.rest hf (by rw [h.bulletins, h.now])

theorem Part.Speaks.storesOnly {p q : Part} {l : Tidings} {k j : List Area} (h : p.Speaks q l k) (hj : k ⊆ j) :
    Memory.storesOnly p.mem q.mem j := h.stores _ _ hj (Memory.storesOnly_refl _ _)

/-! ## A step applied (R8, R9) -/

/-- R8, R9: the part at a step, before the desk and the Report Unit hear of it. -/
def Part.stepped (p : Part) (o : Int) : Part :=
  ((p.shift (BitVec.ofInt 48 o)).markStepped o).modMtu fun m =>
    { m with pendingStep := none, beforeStep := p.now, lastOffset := o }

theorem Part.applyStep_eq (p : Part) (s : PendingStep) : p.applyStep s =
    ((((p.stepped s.offset).complete s.ref (.clampedIf s.clamped)).raise .stepApplied).rewrite .mtu).mirrorStep
      s.offset := rfl

theorem Part.stepped_now (p : Part) (o : Int) : (p.stepped o).now = p.now + BitVec.ofInt 48 o := by
  simp [Part.stepped, Part.now, Mtu.shift]

theorem Part.stepped_mtu (p : Part) (o : Int) : (p.stepped o).mtu =
    { p.mtu.shift (BitVec.ofInt 48 o) with pendingStep := none, beforeStep := p.now, lastOffset := o } := by
  simp [Part.stepped]

/-- Beside the MTU and the records of the list, a step is the shift of R8. -/
theorem Part.stepped_rest (p : Part) (o : Int) : p.stepped o =
    { p.shift (BitVec.ofInt 48 o) with mtu := (p.stepped o).mtu, trl := (p.stepped o).trl } :=
  Part.eq_of_fields rfl (by simp [Part.stepped]) rfl (by simp [Part.stepped]) (by simp [Part.stepped])
    (by simp [Part.stepped]) (by simp [Part.stepped]) (by simp [Part.stepped]) (by simp [Part.stepped])
    (by simp [Part.stepped]) (by simp [Part.stepped]) (by simp [Part.stepped]) (by simp [Part.stepped])
    (by simp [Part.stepped])

theorem Part.shift_now (p : Part) (o : Time) : (p.shift o).now = p.now + o := rfl

theorem Part.shift_stepped (p : Part) (o : Int) : (p.shift (BitVec.ofInt 48 o)).Speaks (p.stepped o) [] [] :=
  .refl_of (p.stepped_now o) (by rw [Part.stepped_rest]) (by rw [Part.stepped_rest])

theorem Part.Speaks.mirrorStep {p q : Part} {l : Tidings} {k : List Area} (h : p.Speaks q l k) (o : Int) :
    p.Speaks (q.mirrorStep o) l (k ++ [.mirror .sac, .mirror .rpu]) := by
  have hm : q.Speaks (q.mirrorStep o) [] [.mirror .sac, .mirror .rpu] := by
    refine ⟨by simp, by simp, by simp, fun m j hj hs => ?_⟩
    have hsac : m.storesOnly (q.rewrite .sac).mem j := Part.rewrite_stores _ _ (hj (by simp)) hs
    unfold Part.mirrorStep
    dsimp only
    split <;> split <;> first | exact hs | exact hsac | exact Part.rewrite_stores _ _ (hj (by simp)) ‹_›
  simpa using h.trans hm

/-- A record that shows the part shows it after any rewrite. -/
theorem Part.mirrored_rewritten (p : Part) (m m' : MirrorId) (h : p.mirrored m) : (p.rewrite m').mirrored m := by
  by_cases hm : m' = m
  · subst hm; exact Part.rewrite_mirrored _ _
  · exact Part.mirrored_rewrite _ _ _ hm h

theorem Part.mirrorStep_mirrored (p : Part) (o : Int) (m : MirrorId) (h : p.mirrored m) :
    (p.mirrorStep o).mirrored m := by
  have hsac := p.mirrored_rewritten m .sac h
  unfold Part.mirrorStep
  dsimp only
  split <;> split <;> first | exact h | exact hsac | exact Part.mirrored_rewritten _ _ _ ‹_›

theorem mem_eights (z : Fin 8) : z ∈ eights := by revert z; decide

/-- R162: a step that moves an expiry rewrites the zones' record. -/
theorem Part.mirrorStep_sac (p : Part) (o : Int) (z : Fin 8) (ho : o ≠ 0)
    (ht : p.sac.zones[z].expiry.isSome = true) : (p.mirrorStep o).mirrored .sac := by
  have hany : (eights.any fun z => p.sac.zones[z].expiry.isSome) = true :=
    List.any_eq_true.mpr ⟨z, mem_eights z, ht⟩
  have hpos : o ≠ 0 ∧ (eights.any fun z => p.sac.zones[z].expiry.isSome) = true := ⟨ho, hany⟩
  unfold Part.mirrorStep
  simp only [if_pos hpos]
  split
  · exact Part.mirrored_rewritten _ _ _ (Part.rewrite_mirrored _ _)
  · exact Part.rewrite_mirrored _ _

/-- R192: a step that moves the age deadline rewrites the Report Unit's record. -/
theorem Part.mirrorStep_rpu_shown (p : Part) (o : Int) (ho : o ≠ 0) (ht : p.rpu.ageDeadline.isSome = true) :
    (p.mirrorStep o).mirrored .rpu := by
  unfold Part.mirrorStep
  dsimp only
  split
  · rw [if_pos ⟨ho, by simp [Part.rewrite, ht]⟩]; exact Part.rewrite_mirrored _ _
  · rw [if_pos ⟨ho, by simp [ht]⟩]; exact Part.rewrite_mirrored _ _

theorem Part.mirrorStep_cell (p : Part) (o : Int) (n : Fin 48) :
    Memory.read (p.mirrorStep o).mem (cellBase n) 12 = Memory.read p.mem (cellBase n) 12 :=
  Memory.read_cell_of n [.mirror .sac, .mirror .rpu]
    (((Part.Speaks.refl p).mirrorStep o).storesOnly (by simp)) (by simp)

/-- R8: where the stored times and the clock have moved together, their differences stand. -/
theorem Part.differences_of_shift {p q : Part} (o : Time) (ht : q.storedTimes = (p.shift o).storedTimes)
    (hn : q.now = p.now + o) : q.differences = p.differences := by
  unfold Part.differences
  rw [ht, Part.shift_times, hn, differences_shift]

/-- The MTU, the list's records, the desk, the Report Unit and the memory apart, `q` is `p` moved by `o` (R8). -/
structure Part.MovesTo (p q : Part) (o : Time) : Prop where
  cvt : q.cvt = p.cvt.shift o
  rbp : q.rbp = p.rbp.shift o
  ctu : q.ctu = p.ctu.shift o
  rej : q.rej = p.rej.shift o
  spm : q.spm = p.spm.shift o
  sac : q.sac = p.sac.shift o
  syncLine : q.syncLine = p.syncLine
  lrst : q.lrst = p.lrst
  freeCount : q.freeCount = p.freeCount

theorem Part.MovesTo.eq {p q : Part} {o : Time} (h : p.MovesTo q o) :
    q = { p.shift o with mtu := q.mtu, trl := q.trl, odk := q.odk, rpu := q.rpu, mem := q.mem } :=
  Part.eq_of_fields rfl h.cvt rfl h.rbp h.ctu h.rej h.spm h.sac rfl rfl h.syncLine h.lrst rfl h.freeCount

theorem Part.MovesTo.settled {p X q : Part} {o : Time} {n : Fin 48} (h : p.MovesTo X o) (hs : X.Settled q n) :
    p.MovesTo q o where
  cvt := hs.cvt.trans h.cvt
  rbp := hs.rbp.trans h.rbp
  ctu := hs.ctu.trans h.ctu
  rej := hs.rej.trans h.rej
  spm := hs.spm.trans h.spm
  sac := hs.sac.trans h.sac
  syncLine := hs.syncLine.trans h.syncLine
  lrst := hs.lrst.trans h.lrst
  freeCount := hs.freeCount.trans h.freeCount

theorem Part.applyStep_movesTo (p : Part) (s : PendingStep) : p.MovesTo (p.applyStep s) (BitVec.ofInt 48 s.offset) := by
  constructor <;>
    simp only [Part.applyStep_eq, Part.mirrorStep_frame, Part.rewrite_frame, Part.raise_frame, Part.complete_frame] <;>
    rw [Part.stepped_rest] <;> rfl

/-- R162: the zones' record shows a step that moves an expiry. -/
theorem Part.applyStep_sac (p : Part) (s : PendingStep) (z : Fin 8) (t : Time) (ho : s.offset ≠ 0)
    (ht : p.sac.zones[z].expiry = some t) : (p.applyStep s).mirrored .sac := by
  rw [Part.applyStep_eq]
  refine Part.mirrorStep_sac _ _ z ho ?_
  simp only [Part.rewrite_frame, Part.raise_frame, Part.complete_frame]
  rw [Part.stepped_rest]
  simp only [Fin.getElem_fin] at ht
  simp [Sac.shift, moved, ht]

/-- R192: the Report Unit's record shows a step that moves the age deadline. -/
theorem Part.applyStep_rpu_shown (p : Part) (s : PendingStep) (t : Time) (ho : s.offset ≠ 0)
    (ht : p.rpu.ageDeadline = some t) : (p.applyStep s).mirrored .rpu := by
  rw [Part.applyStep_eq]
  refine Part.mirrorStep_rpu_shown _ _ ho ?_
  have hrest : ((((p.stepped s.offset).complete s.ref (.clampedIf s.clamped)).raise .stepApplied).rewrite .mtu).rpu.rest
      = (p.shift (BitVec.ofInt 48 s.offset)).rpu.rest := by simp [Part.stepped]
  rw [Rpu.of_rest hrest (·.ageDeadline) fun _ => rfl]
  simp [Rpu.shift, moved, ht]

/-- R9: a step whose order the table holds: the order completes and TIME is told, both at the time after the step. -/
theorem Part.applyStep_held (p : Part) (s : PendingStep) (e : InFlight) (he : p.odk.holds e) (hr : s.ref = e.ref) :
    p.concludes (p.applyStep s) e (.clampedIf s.clamped) ∧
    (p.shift (BitVec.ofInt 48 s.offset)).Speaks (p.applyStep s) [e.told, (.stepApplied, 0)]
      [.cell e.ref.cell, .bulletin 0, .mirror .odk, .bulletin 7, .mirror .mtu, .mirror .sac, .mirror .rpu] ∧
    (p.applyStep s).mirrored .mtu := by
  have hodk : (p.stepped s.offset).odk = p.odk := by rw [Part.stepped_rest]; simp
  have hes : (p.stepped s.offset).odk.holds e := by rw [hodk]; exact he
  obtain ⟨ho, hc, -, -, -⟩ := Part.concluded (p.stepped s.offset) e (.clampedIf s.clamped) 0 hes
  rw [Part.applyStep_eq, hr]
  refine ⟨⟨?_, ?_⟩, ?_, ?_⟩
  · simp only [Part.mirrorStep_frame, Part.rewrite_frame, Part.raise_frame, ho, hodk]
  · unfold Part.shows
    rw [Part.mirrorStep_cell, Part.rewrite_cell, Part.raise_cell, hc]
    simp [Part.now]
  · simpa [News.bulletin] using
      ((((p.shift_stepped s.offset).concluded hes (.clampedIf s.clamped) 0).raise .stepApplied 0).rewrite .mtu).mirrorStep
        s.offset
  · exact Part.mirrorStep_mirrored _ _ _ (Part.rewrite_mirrored _ _)

/-! ## TIME_STEP (R6, R7) -/

theorem Part.Settled.storedTimes {X q : Part} {n : Fin 48} (h : X.Settled q n) : q.storedTimes = X.storedTimes :=
  Part.storedTimes_congr (by rw [h.mtu]) (by rw [h.mtu]) (by rw [h.cvt]) h.rbp h.ctu h.rej h.spm h.sac
    (Rpu.of_rest h.rest (·.ageDeadline) fun _ => rfl)

/-- R6: a TIME_STEP's step, its offset clamped. -/
def stepOf (offset : Word) (ref : OrderRef) : PendingStep :=
  let o := max (-1000000) (min 1000000 offset.toInt)
  { offset := o, clamped := decide (o ≠ offset.toInt), ref := ref }

theorem Part.timeStepOrder_absent (p : Part) (ref : OrderRef) (offset : Word) (ha : p.mtu.syncState = .absent)
    (hn : p.mtu.pendingStep = none) : p.timeStepOrder ref offset = p.applyStep (stepOf offset ref) := by
  unfold Part.timeStepOrder
  simp only [hn, Option.map_none, Part.completeIf, ha, stepOf, clampSigned_eq 1000000 _ (by omega)]

theorem Part.timeStepOrder_present (p : Part) (ref : OrderRef) (offset : Word) (ha : p.mtu.syncState = .present) :
    p.timeStepOrder ref offset = ((p.completeIf (p.mtu.pendingStep.map (·.ref)) .superseded).modMtu fun m =>
      { m with pendingStep := some (stepOf offset ref) }).rewrite .mtu := by
  have h : (p.completeIf (p.mtu.pendingStep.map (·.ref)) .superseded).mtu.syncState = .present := by simpa using ha
  unfold Part.timeStepOrder
  simp only [h, stepOf, clampSigned_eq 1000000 _ (show (0 : Int) ≤ 1000000 by omega)]

/-- R6: a TIME_STEP applied at its take: what the desk answers, and what the step left it. -/
theorem Part.timeStep_takes {p : Part} {n : Fin 48} {offset : Word} (h : p.canTake n (.timeStep offset))
    (ha : p.mtu.syncState = .absent) (hn : p.mtu.pendingStep = none) :
    let s := stepOf offset (p.nextRef n)
    let q := p.takeAs n (.timeStep offset)
    p.answers q n (.clampedIf s.clamped) ∧ ((p.markTaken n).applyStep s).Settled q n ∧
      (p.shift (BitVec.ofInt 48 s.offset)).Speaks q [(.stepApplied, 0)]
        [.cell n, .mirror .odk, .bulletin 7, .mirror .mtu, .mirror .sac, .mirror .rpu] := by
  intro s q
  have hper : (p.markTaken n).perform (p.nextRef n) (.timeStep offset) = (p.markTaken n).applyStep s :=
    Part.timeStepOrder_absent _ _ _ ha hn
  have hM : ((p.markTaken n).stepped s.offset).odk = p.takingOdk n p.odk.inflight := by
    rw [Part.stepped_rest]; simp
  have hq : q = ((p.markTaken n).applyStep s).endTake (p.nextRef n) := by rw [← hper]; exact Part.takeAs_eq h
  obtain ⟨-, -, hdone⟩ := p.completed_of n _ (.clampedIf s.clamped) 0 _ (Part.canTake_fresh h) hM
  obtain ⟨hanswer, hsettled⟩ := Part.done_of h ((p.markTaken n).stepped s.offset) ((p.markTaken n).applyStep s)
    (.clampedIf s.clamped) 0 hM (by simp [Part.applyStep_eq, s, stepOf]) (by simp [Part.applyStep_eq])
    (by rw [Part.applyStep_eq, Part.mirrorStep_cell, Part.rewrite_cell, Part.raise_cell]; rfl)
  rw [← hq] at hanswer hsettled
  refine ⟨hanswer, hsettled, ?_⟩
  have htaken : (p.shift (BitVec.ofInt 48 s.offset)).Speaks ((p.markTaken n).stepped s.offset) [] [.cell n] := by
    have hshift : (p.shift (BitVec.ofInt 48 s.offset)).Speaks ((p.markTaken n).shift (BitVec.ofInt 48 s.offset)) []
        [.cell n] :=
      ⟨rfl, rfl, rfl, fun _ _ hj hm => Part.markTaken_stores p n (hj (by simp)) hm⟩
    simpa using hshift.trans ((p.markTaken n).shift_stepped s.offset)
  have hspeaks := ((((htaken.settled hdone).raise .stepApplied 0).rewrite .mtu).mirrorStep s.offset).settled hsettled
  refine ⟨hspeaks.time, hspeaks.rest, hspeaks.bulletins, fun m j hj hm => hspeaks.stores m j (fun x hx => hj ?_) hm⟩
  revert hx
  simp only [News.bulletin, List.mem_append, List.mem_cons, List.not_mem_nil, or_false]
  tauto

/-- Settles O6. -/
theorem timeStepAppliesAtOnce : Obligations.TimeStepAppliesAtOnce := by
  unfold Obligations.TimeStepAppliesAtOnce
  intro p w n offset h ha hn o moved
  obtain ⟨hanswer, hs, hspeaks⟩ := Part.timeStep_takes h ha hn
  obtain ⟨hmtu, htimes, htrl, -, hfault⟩ := (p.markTaken n).applyStep_moves (stepOf offset (p.nextRef n))
  have hnow : (p.takeAs n (.timeStep offset)).now = p.now + BitVec.ofInt 48 o := hspeaks.now
  have hmoves : p.MovesTo (p.takeAs n (.timeStep offset)) (BitVec.ofInt 48 o) :=
    { ((p.markTaken n).applyStep_movesTo (stepOf offset (p.nextRef n))).settled hs with }
  refine ⟨_, rfl, hnow, ?_, hs.mtu.trans hmtu, hs.trl.trans htrl, hmoves.eq, ?_, ?_, ?_, ?_, ?_, ?_⟩
  · exact Part.differences_of_shift _ (hs.storedTimes.trans htimes) hnow
  · rw [← clampedIf_eq o]; exact hanswer
  · exact hspeaks.tells (by rw [hs.fault, hfault]; rfl)
  · exact hs.mirrored .mtu (by decide) (Part.mirrorStep_mirrored _ _ _ (Part.rewrite_mirrored _ _))
  · exact fun z t ho ht => hs.mirrored .sac (by decide) (Part.applyStep_sac _ _ z t ho ht)
  · exact fun t ho ht => hs.mirrored .rpu (by decide) (Part.applyStep_rpu_shown _ _ t ho ht)
  · exact hspeaks.storesOnly (by simp)

/-- While an order is being taken a held order completes: the order taken is in flight beside the others. -/
theorem Part.concluded_beside {p : Part} {n : Fin 48} {o : Order} (h : p.canTake n o) {e : InFlight}
    (he : p.odk.holds e) (r : Result) (d : Byte) :
    let X := (p.markTaken n).complete e.ref r d
    X.odk = p.takingOdk n (p.odk.without e.ref) ∧
      Memory.read X.mem (cellBase n) 12 = (p.takeEntry n).taken ∧
      Memory.read X.mem (cellBase e.ref.cell) 12 = e.result ⟨r, d⟩ p.now ∧
      p.Speaks X [e.told] [.cell n, .cell e.ref.cell, .bulletin 0, .mirror .odk] := by
  intro X
  obtain ⟨heM, hcell, -, hwithout⟩ := Part.canTake_other h he
  obtain ⟨hodk, hshown, hother, -, -⟩ := Part.concluded (p.markTaken n) e r d heM
  refine ⟨?_, ?_, hshown, ((Part.Speaks.refl p).markTaken n).concluded (q := p.markTaken n) heM r d⟩
  · rw [hodk, Part.markTaken_odk, hwithout]; rfl
  · rw [hother n (Ne.symm hcell), Part.markTaken_read]

/-- R6, R7: a TIME_STEP that is kept, `Y` being the part once the step that was pending has been superseded: the desk
and the Report Unit. -/
theorem Part.timeStep_keeps {p Y : Part} {n : Fin 48} {offset : Word} {others : List InFlight} {l : Tidings}
    {k : List Area} (h : p.canTake n (.timeStep offset)) (ha : p.mtu.syncState = .present)
    (hY : (p.markTaken n).completeIf (p.mtu.pendingStep.map (·.ref)) .superseded = Y)
    (hothers : ∀ e ∈ others, e.ref ≠ p.nextRef n) (hodk : Y.odk = p.takingOdk n others)
    (hread : Memory.read Y.mem (cellBase n) 12 = (p.takeEntry n).taken) (hspeaks : p.Speaks Y l k)
    (hfault : Y.rpu.fault = p.rpu.fault) :
    let q := p.takeAs n (.timeStep offset)
    p.keepsAmong q n others ∧ p.tells q l ∧
      Memory.storesOnly p.mem q.mem (k ++ [.mirror .mtu] ++ [.cell n, .mirror .odk]) ∧
      ∀ c ≠ n, Memory.read q.mem (cellBase c) 12 = Memory.read Y.mem (cellBase c) 12 := by
  intro q
  let X := (Y.modMtu fun m => { m with pendingStep := some (stepOf offset (p.nextRef n)) }).rewrite .mtu
  have hper : (p.markTaken n).perform (p.nextRef n) (.timeStep offset) = X :=
    ((p.markTaken n).timeStepOrder_present (p.nextRef n) offset ha).trans (by subst hY; rfl)
  obtain ⟨hkeeps, hs⟩ := p.kept_of n X others hothers (by simpa [X] using hodk)
    (by rw [Part.rewrite_cell]; simpa using hread)
  rw [show X.endTake (p.nextRef n) = q by rw [← hper]; exact (Part.takeAs_eq h).symm] at hkeeps hs
  have hend := ((hspeaks.same (r := Y.modMtu _) rfl rfl rfl).rewrite .mtu).settled hs
  refine ⟨hkeeps, hend.tells (hs.fault.trans ?_), hend.storesOnly fun _ => id, fun c hc => ?_⟩
  · simpa [X] using hfault
  · rw [hs.cell c hc, Part.rewrite_cell, Part.modMtu_fields _ _ |>.2.2.2.2.2.2.2.2.2.2.2.2.1]

/-- Settles O7. -/
theorem timeStepPends : Obligations.TimeStepPends := by
  unfold Obligations.TimeStepPends
  intro p w n offset h ha o
  have hstep : stepOf offset (p.nextRef n) = ⟨o, decide (offset.toInt ≠ o), p.nextRef n⟩ := by
    simp only [stepOf, o, ne_comm]
  have hs : ((p.markTaken n).timeStepOrder (p.nextRef n) offset).Settled (p.takeAs n (.timeStep offset)) n := by
    rw [Part.takeAs_eq h]; exact Part.endTake_settled _ _ _
  rw [(p.markTaken n).timeStepOrder_present (p.nextRef n) offset ha, hstep] at hs
  refine ⟨_, rfl, ?_, ?_, fun hn => ?_, fun before e hbefore hr he => ?_⟩
  · rw [hs.mtu]; simp
  · refine hs.eq.trans (Part.eq_of_fields hs.mtu.symm ?_ ?_ ?_ ?_ ?_ ?_ ?_ rfl rfl ?_ ?_ rfl ?_) <;> simp
  · have hY : (p.markTaken n).completeIf (p.mtu.pendingStep.map (·.ref)) .superseded = p.markTaken n := by
      rw [hn]; rfl
    obtain ⟨hkeeps, htells, hstores, -⟩ := Part.timeStep_keeps h ha hY (Part.canTake_fresh h) rfl (p.markTaken_read n)
      ((Part.Speaks.refl p).markTaken n) rfl
    exact ⟨hkeeps, htells, Memory.storesOnly_mono hstores (by simp)⟩
  · have hY : (p.markTaken n).completeIf (p.mtu.pendingStep.map (·.ref)) .superseded =
        (p.markTaken n).complete e.ref .superseded 0 := by rw [hbefore, ← hr]; rfl
    obtain ⟨hodk, hread, hshown, hspeaks⟩ := Part.concluded_beside h he .superseded 0
    obtain ⟨-, hcell, hothers, -⟩ := Part.canTake_other h he
    obtain ⟨hkeeps, htells, hstores, hcells⟩ := Part.timeStep_keeps h ha hY hothers hodk hread hspeaks (by simp)
    refine ⟨hkeeps, ?_, htells, Memory.storesOnly_mono hstores (by simp)⟩
    unfold Part.shows
    rw [hcells _ hcell, hshown, show (p.takeAs n (.timeStep offset)).now = p.now from
      (congrArg Mtu.time hs.mtu).trans (by simp [Part.now])]

end Sys2Proof.Machine
end

section
/-! PROOFS. The sync input and the sync loss deadline (01_machine_time.md): R10 to R13, and the release of a pending
step (R7). -/

namespace Sys2Proof.Machine

/-! ## The part a sync event leaves, before it tells anything -/

/-- R10: the MTU once a rising edge has been stamped and judged. -/
def Mtu.pulsed (m : Mtu) : Mtu :=
  { m with lastSync := m.time, syncState := m.judge m.time, windowEnd := some (m.time + 1100000)
           lossDeadline := some (m.time + 2000000) }

/-- R13: the MTU that has lost its sync. -/
def Mtu.unsynced (m : Mtu) : Mtu := { m with syncState := .absent, lossDeadline := none }

/-- R10: TIME tells a pulse, or that the sync is now PRESENT. -/
def Mtu.pulseNews (m : Mtu) : News := if m.judge m.time = m.syncState then .syncPulse else .syncPresent

theorem Mtu.judge_of_inWindow {m : Mtu} {now : Time} (h : ∃ t, m.windowEnd = some t ∧ (now - t).toInt ≤ 0) :
    m.judge now = .present := by
  obtain ⟨t, ht, hle⟩ := h
  simp only [Mtu.judge, ht, Time.before, decide_eq_true_eq, Int.not_lt.mpr hle, if_false]

theorem Mtu.judge_of_not_inWindow {m : Mtu} {now : Time} (h : ¬ ∃ t, m.windowEnd = some t ∧ (now - t).toInt ≤ 0) :
    m.judge now = m.syncState := by
  unfold Mtu.judge
  split
  next t ht =>
    have hlt : 0 < (now - t).toInt := Int.not_le.mp fun hle => h ⟨t, ht, hle⟩
    simp only [Time.before, decide_eq_true_eq, hlt, if_true]
  next => rfl

/-- R10: what a rising edge does to the rest of the part, a pending step apart. -/
def Part.pulsed (p : Part) : Part := { p with syncLine := true, mtu := p.mtu.pulsed }

def Part.unsynced (p : Part) : Part := { p with mtu := p.mtu.unsynced }

theorem Part.syncLevel_held (p : Part) (level : Bool)
    (h : p.mtu.syncMode = .none ∨ level = false ∨ p.syncLine = true) : p.syncLevel level = p.setSyncLine level := by
  unfold Part.syncLevel
  refine if_neg ?_
  rcases h with h | h | h <;> simp [h, Part.setSyncLine]

theorem Part.syncLevel_rising (p : Part) (hm : p.mtu.syncMode = .pulse) (hl : p.syncLine = false) :
    p.syncLevel true = ((p.pulsed.raise p.mtu.pulseNews 0).rewrite .mtu).releaseStep := by
  unfold Part.syncLevel
  rw [if_pos (by simp [hl, hm, Part.setSyncLine])]
  rfl

theorem Part.syncLoss_early (p : Part) (t : Time) (ht : p.mtu.lossDeadline = some t) (h : (p.now - t).toInt < 0) :
    p.syncLoss = p := by
  unfold Part.syncLoss
  refine if_neg ?_
  simp only [ht, deadlineReached, Time.reached, decide_eq_true_eq]
  omega

theorem Part.syncLoss_absent (p : Part) (t : Time) (ht : p.mtu.lossDeadline = some t) (h : 0 ≤ (p.now - t).toInt)
    (hs : p.mtu.syncState = .absent) : p.syncLoss = p.modMtu fun m => { m with lossDeadline := none } := by
  unfold Part.syncLoss
  rw [if_pos (by simpa [ht, deadlineReached, Time.reached] using h), hs]

theorem Part.syncLoss_present (p : Part) (t : Time) (ht : p.mtu.lossDeadline = some t) (h : 0 ≤ (p.now - t).toInt)
    (hs : p.mtu.syncState = .present) :
    p.syncLoss = (((p.unsynced.report .syncLost 0).raise .syncLost 0).rewrite .mtu).releaseStep := by
  unfold Part.syncLoss
  rw [if_pos (by simpa [ht, deadlineReached, Time.reached] using h), hs]
  rfl

theorem Part.releaseStep_none (p : Part) (h : p.mtu.pendingStep = none) : p.releaseStep = p := by
  unfold Part.releaseStep; rw [h]

theorem Part.releaseStep_some (p : Part) (s : PendingStep) (h : p.mtu.pendingStep = some s) :
    p.releaseStep = p.applyStep s := by
  unfold Part.releaseStep; rw [h]

/-- What telling and rewriting leave: `X` is `before` but for the Report Unit and the memory, where it tells `l`. -/
structure Part.Announces (before X : Part) (l : Tidings) (k : List Area) : Prop where
  eq : X = { before with rpu := X.rpu, mem := X.mem }
  speaks : before.Speaks X l k
  shown : X.mirrored .mtu

theorem Part.pulsed_announces (p : Part) :
    p.pulsed.Announces ((p.pulsed.raise p.mtu.pulseNews 0).rewrite .mtu) [(p.mtu.pulseNews, 0)]
      [.bulletin 7, .mirror .mtu] where
  eq := rfl
  speaks := by
    have hb : p.mtu.pulseNews.bulletin = 7 := by unfold Mtu.pulseNews; split <;> rfl
    simpa [hb] using ((Part.Speaks.refl p.pulsed).raise p.mtu.pulseNews 0).rewrite .mtu
  shown := Part.rewrite_mirrored _ _

theorem Part.unsynced_announces (p : Part) :
    p.unsynced.Announces (((p.unsynced.report .syncLost 0).raise .syncLost 0).rewrite .mtu)
      [(.fault .syncLost, 0), (.syncLost, 0)] [.fault, .bulletin 9, .bulletin 7, .mirror .mtu] where
  eq := Part.eq_of_fields (by simp) (by simp) (by simp) (by simp) (by simp) (by simp) (by simp) (by simp) (by simp)
    rfl (by simp) (by simp) rfl (by simp)
  speaks := by
    simpa [News.bulletin] using (((Part.Speaks.refl p.unsynced).report .syncLost 0 0).raise .syncLost 0).rewrite .mtu
  shown := Part.rewrite_mirrored _ _

/-- Settles O8. -/
theorem syncIsJudgedAndLost : Obligations.SyncIsJudgedAndLost := by
  unfold Obligations.SyncIsJudgedAndLost
  refine ⟨fun p w level => ⟨fun h => ⟨_, rfl, p.syncLevel_held level h⟩, fun hm hlevel hl hn => ?_⟩,
    fun p w t ht => ⟨fun h => ⟨_, rfl, p.syncLoss_early t ht h⟩, fun h hs => ⟨_, rfl, p.syncLoss_absent t ht h hs⟩,
      fun h hs hn => ?_⟩⟩
  · subst hlevel
    have hq := (p.syncLevel_rising hm hl).trans (Part.releaseStep_none _ hn)
    obtain ⟨heq, hspeaks, hshown⟩ := p.pulsed_announces
    rw [← hq] at heq hspeaks hshown
    have hmtu : (p.syncLevel true).mtu = p.mtu.pulsed := by rw [heq]; rfl
    have hstate : (p.syncLevel true).mtu.syncState = p.mtu.judge p.now := congrArg Mtu.syncState hmtu
    refine ⟨_, rfl, fun h => hstate.trans (Mtu.judge_of_inWindow h), fun h => hstate.trans (Mtu.judge_of_not_inWindow h),
      ?_, ?_, ?_, hshown, hspeaks.storesOnly fun _ => id⟩
    · exact hmtu.trans (congrArg (fun state => { p.mtu.pulsed with syncState := state }) hstate.symm)
    · exact heq.trans (Part.eq_of_fields hmtu.symm rfl rfl rfl rfl rfl rfl rfl rfl rfl rfl rfl rfl rfl)
    · rw [hstate]
      exact hspeaks.tells (by rw [hq]; simp)
  · have hq := (p.syncLoss_present t ht h hs).trans (Part.releaseStep_none _ (by simpa [Part.unsynced, Mtu.unsynced] using hn))
    obtain ⟨heq, hspeaks, hshown⟩ := p.unsynced_announces
    rw [← hq] at heq hspeaks hshown
    have hmtu : p.syncLoss.mtu = p.mtu.unsynced := by rw [heq]; rfl
    refine ⟨_, rfl, hmtu, ?_, ?_, hshown, hspeaks.storesOnly fun _ => id⟩
    · exact heq.trans (Part.eq_of_fields hmtu.symm rfl rfl rfl rfl rfl rfl rfl rfl rfl rfl rfl rfl rfl)
    · have hfault : p.syncLoss.rpu.fault = p.rpu.fault.after .syncLost 0 0 p.now := by
        rw [hq]; simp; rfl
      have hnow : p.syncLoss.now = p.now := hspeaks.now
      exact Part.tellsFault_of hspeaks.rest (by rw [hfault, hnow]) (by rw [hspeaks.bulletins, hnow]; rfl)

/-! ## A pending step released (R7) -/

theorem Part.MovesTo.of_announces {before X q : Part} {l : Tidings} {k : List Area} {o : Time}
    (h : before.Announces X l k) (hm : X.MovesTo q o) : before.MovesTo q o := by
  rw [h.eq] at hm
  exact { hm with }

theorem Part.Announces.storedTimes {before X : Part} {l : Tidings} {k : List Area} (h : before.Announces X l k) :
    X.storedTimes = before.storedTimes :=
  Part.storedTimes_congr (by rw [h.eq]) (by rw [h.eq]) (by rw [h.eq]) (by rw [h.eq]) (by rw [h.eq]) (by rw [h.eq])
    (by rw [h.eq]) (by rw [h.eq]) (Rpu.of_rest h.speaks.rest (·.ageDeadline) fun _ => rfl)

/-- R7, R8: the step that the event leaving `before` releases, once the event has been told. -/
theorem Part.Announces.applyStep {before X : Part} {l : Tidings} {k : List Area} (h : before.Announces X l k)
    (s : PendingStep) (e : InFlight) (he : before.odk.holds e) (hr : s.ref = e.ref) :
    let moved := before.shift (BitVec.ofInt 48 s.offset)
    let q := X.applyStep s
    q.now = before.now + BitVec.ofInt 48 s.offset ∧ q.differences = before.differences ∧
    q.mtu = { moved.mtu with pendingStep := none, beforeStep := before.now, lastOffset := s.offset } ∧
    q.trl = { before.trl with
      records := if s.offset = 0 then before.trl.records
        else before.trl.records.map fun r => { r with stepped := true } } ∧
    q = { moved with mtu := q.mtu, trl := q.trl, odk := q.odk, rpu := q.rpu, mem := q.mem } ∧
    before.concludes q e (if s.clamped then .clamped else .ok) ∧
    q.rpu = { moved.rpu with
      fault := X.rpu.fault, updateCounts := q.rpu.updateCounts
      bulletins := announced (announced before.rpu.bulletins before.now l) q.now [e.told, (.stepApplied, 0)] } ∧
    q.mirrored .mtu ∧
    Memory.storesOnly before.mem q.mem
      (k ++ [.cell e.ref.cell, .bulletin 0, .mirror .odk, .bulletin 7, .mirror .mtu, .mirror .sac, .mirror .rpu]) := by
  intro moved q
  have hmtuX : X.mtu = before.mtu := by rw [h.eq]
  have hnowX : X.now = before.now := h.speaks.now
  have hodkX : X.odk = before.odk := by rw [h.eq]
  have htrlX : X.trl = before.trl := by rw [h.eq]
  obtain ⟨hmtu, htimes, htrl, hrest, hfault⟩ := X.applyStep_moves s
  obtain ⟨⟨hodk, hshows⟩, hspeaks, hshown⟩ := X.applyStep_held s e (by rw [hodkX]; exact he) hr
  have hnow : q.now = X.now + BitVec.ofInt 48 s.offset := hspeaks.now
  have hrestq : q.rpu.rest = moved.rpu.rest := by
    rw [hrest]
    exact congrArg (Rpu.shift (BitVec.ofInt 48 s.offset)) h.speaks.rest
  refine ⟨?_, ?_, ?_, ?_, ?_, ⟨?_, hshows⟩, ?_, hshown, ?_⟩
  · rw [hnow, hnowX]
  · rw [Part.differences_of_shift _ htimes hnow]
    unfold Part.differences
    rw [h.storedTimes, hnowX]
  · rw [hmtu, hmtuX, hnowX]; rfl
  · rw [htrl, htrlX]
  · exact ((X.applyStep_movesTo s).of_announces h).eq
  · rw [hodk, hodkX]
  · have hbulletins : q.rpu.bulletins =
        announced (announced before.rpu.bulletins before.now l) q.now [e.told, (.stepApplied, 0)] := by
      rw [← h.speaks.bulletins, hspeaks.now]
      exact hspeaks.bulletins
    exact (Rpu.eq_of_rest hrestq).trans (by rw [hbulletins, hfault])
  · exact hspeaks.stores _ _ (by simp) (h.speaks.storesOnly (by simp))

/-- Settles O9. -/
theorem pendingStepIsReleased : Obligations.PendingStepIsReleased := by
  unfold Obligations.PendingStepIsReleased
  intro p w s e hn he hr inWindow releases
  refine ⟨fun state hm hl hin hout => ?_, fun t hs ht hreached => ?_⟩
  · have hjudge : p.mtu.judge p.now = state := by
      by_cases h : inWindow
      · rw [Mtu.judge_of_inWindow h, hin h]
      · rw [Mtu.judge_of_not_inWindow h, hout h]
    have hq := (p.syncLevel_rising hm hl).trans (Part.releaseStep_some _ s hn)
    have h := p.pulsed_announces.applyStep s e he hr
    rw [← hq] at h
    subst hjudge
    obtain ⟨hnow, hdiff, hmtu, htrl, heq, hconcludes, hrpu, hshown, hstores⟩ := h
    have hfault : ((p.pulsed.raise p.mtu.pulseNews 0).rewrite .mtu).rpu.fault = p.rpu.fault := by simp; rfl
    exact ⟨_, rfl, hnow, hdiff, hmtu, htrl, heq, hconcludes, hrpu.trans (by rw [hfault]; rfl), hshown,
      Memory.storesOnly_mono hstores (by simp)⟩
  · have hq := (p.syncLoss_present t ht hreached hs).trans
      (Part.releaseStep_some _ s (by simpa [Part.unsynced, Mtu.unsynced] using hn))
    have h := p.unsynced_announces.applyStep s e he hr
    rw [← hq] at h
    obtain ⟨hnow, hdiff, hmtu, htrl, heq, hconcludes, hrpu, hshown, hstores⟩ := h
    have hfault : (((p.unsynced.report .syncLost 0).raise .syncLost 0).rewrite .mtu).rpu.fault =
        p.rpu.fault.after .syncLost 0 0 p.now := by simp; rfl
    exact ⟨_, rfl, hnow, hdiff, hmtu, htrl, heq, hconcludes, hrpu.trans (by rw [hfault]; rfl), hshown,
      Memory.storesOnly_mono hstores (by simp)⟩

end Sys2Proof.Machine
end


section
/-! PROOFS. The line reset (R198). First what a report on a robot (R74) does where every robot is STOPPED, no zone holds
an order and no camera has a fire or a container waiting: HALTING zones are granted, the others judge their doors. -/

namespace Sys2Proof.Machine

/-! ## Cameras with nothing to do -/

/-- No camera has a scheduled fire or awaits a verdict. -/
def Ctu.idle (b : Ctu) : Prop := ∀ c : Fin 6, b.cameras[c].schedule = [] ∧ b.cameras[c].awaiting = []

/-- A change of one camera that gives it nothing to do. -/
theorem Ctu.idle.modAt {b : Ctu} (h : b.idle) (c : Fin 6) (f : Camera → Camera)
    (hs : (f b.cameras[c]).schedule = []) (ha : (f b.cameras[c]).awaiting = []) :
    Ctu.idle { b with cameras := Machine.modAt b.cameras c f } := by
  intro k
  by_cases hk : k = c
  · subst hk; simpa using ⟨hs, ha⟩
  · have hne : c.val ≠ k.val := fun e => hk (Fin.ext e.symm)
    simpa [Machine.modAt, hne] using h k

theorem Part.emptyAwaiting_idle (p : Part) (c : Fin 6) (h : p.ctu.cameras[c].awaiting = []) :
    p.emptyAwaiting c = p.modCamera c fun k => { k with awaiting := [] } := by
  unfold Part.emptyAwaiting; rw [h]; rfl

/-- Cameras with nothing to do change state: the Transit List hears nothing of it. -/
theorem Part.cameraChanged_idle (p : Part) (c : Fin 6) (before : CameraState) (h : p.ctu.idle) :
    (p.cameraChanged c before).trl = p.trl ∧ (p.cameraChanged c before).ctu.idle := by
  have hE : (if before = .active then p.emptyAwaiting c else p).trl = p.trl ∧
      (if before = .active then p.emptyAwaiting c else p).ctu.idle := by
    split
    · rw [Part.emptyAwaiting_idle p c (h c).2]
      exact ⟨rfl, h.modAt c _ (h c).1 rfl⟩
    · exact ⟨rfl, h⟩
  unfold Part.cameraChanged
  dsimp only
  generalize (if before = .active then p.emptyAwaiting c else p) = E at hE ⊢
  obtain ⟨htrl, hidle⟩ := hE
  split
  · exact ⟨rfl, h⟩
  split
  · exact ⟨htrl, hidle.modAt c _ (by simpa using (hidle c).1) (hidle c).2⟩
  split
  · have hs : ((E.raise .serviceOut (BitVec.ofNat 8 c.val)).rewrite .ctu).ctu.cameras[c].schedule = [] := (hidle c).1
    rw [hs]
    exact ⟨htrl, hidle⟩
  split
  · exact ⟨htrl, hidle⟩
  · exact ⟨htrl, hidle⟩

theorem Part.zoneService_idle (p : Part) (c : Fin 6) (on : Bool) (h : p.ctu.idle) :
    (p.zoneService c on).trl = p.trl ∧ (p.zoneService c on).ctu.idle := by
  unfold Part.zoneService
  split
  · exact ⟨rfl, h⟩
  · exact Part.cameraChanged_idle _ c _ (h.modAt c _ (h c).1 (h c).2)

theorem Part.zoneServiceAll_idle (p : Part) (z : Fin 8) (on : Bool) (h : p.ctu.idle) :
    (p.zoneServiceAll z on).trl = p.trl ∧ (p.zoneServiceAll z on).ctu.idle := by
  unfold Part.zoneServiceAll
  induction sixes generalizing p with
  | nil => exact ⟨rfl, h⟩
  | cons c l ih =>
    have hc : (p.zoneServiceMember z on c).trl = p.trl ∧ (p.zoneServiceMember z on c).ctu.idle := by
      unfold Part.zoneServiceMember
      split
      · exact p.zoneService_idle c on h
      · exact ⟨rfl, h⟩
    exact ⟨(ih _ hc.2).1.trans hc.1, (ih _ hc.2).2⟩

/-! ## A stopped line -/

/-- R198: what the line reset has made of the robots, the zones and the cameras when the robots are reported. -/
structure Part.LineStopped (p : Part) : Prop where
  robots : ∀ r : Fin 6, p.rbp.robots[r].state = .stopped
  access : ∀ z : Fin 8, p.sac.zones[z].accessOrder = none
  resume : ∀ z : Fin 8, p.sac.zones[z].resumeSet = Vector.replicate 6 .absent
  cameras : p.ctu.idle

theorem Part.LineStopped.membersSafe {p : Part} (h : p.LineStopped) (z : Fin 8) : p.membersSafe z = true :=
  (safe_idle fun r _ => by rw [Robot.safe, h.robots r]; rfl).1

/-- What a report on a member robot makes of a zone of a stopped line; `door` says that the zone has a door. -/
def Zone.heard (k : Zone) (door : Bool) (now : Time) : Zone :=
  match k.state, k.request with
  | .halting, some x =>
    { k with state := .opened, level := .maintain, origin := x.origin, badge := x.badge, request := none
             expiry := some (now + minutes x.minutes), doorRel := door }
  | .halting, none => k
  | _, _ => { k with doorRel := door && (k.state == .opened || k.state == .overstay) && k.level == .maintain }

theorem Zone.heard_granted {k : Zone} {x : ZoneRequest} (door : Bool) (now : Time) (hs : k.state = .halting)
    (hx : k.request = some x) : k.heard door now =
      { k with state := .opened, level := .maintain, origin := x.origin, badge := x.badge, request := none
               expiry := some (now + minutes x.minutes), doorRel := door } := by
  simp only [Zone.heard, hs, hx]

theorem Zone.heard_unasked {k : Zone} (door : Bool) (now : Time) (hs : k.state = .halting) (hx : k.request = none) :
    k.heard door now = k := by
  simp only [Zone.heard, hs, hx]

theorem Zone.heard_not_halting {k : Zone} (door : Bool) (now : Time) (hs : k.state ≠ .halting) : k.heard door now =
    { k with doorRel := door && (k.state == .opened || k.state == .overstay) && k.level == .maintain } := by
  unfold Zone.heard
  split
  · exact absurd ‹_› hs
  · exact absurd ‹_› hs
  · rfl

/-- A zone hears of its robots once: the second report changes nothing more. -/
theorem Zone.heard_heard (k : Zone) (door : Bool) (now : Time) : (k.heard door now).heard door now = k.heard door now := by
  by_cases hs : k.state = .halting
  · cases hx : k.request with
    | none => rw [Zone.heard_unasked door now hs hx, Zone.heard_unasked door now hs hx]
    | some x =>
      rw [Zone.heard_granted door now hs hx, Zone.heard_not_halting _ _ (by simp)]
      simp
  · rw [Zone.heard_not_halting door now hs, Zone.heard_not_halting _ _ (by simpa using hs)]

theorem Zone.heard_kept (k : Zone) (door : Bool) (now : Time) :
    (k.heard door now).accessOrder = k.accessOrder ∧ (k.heard door now).resumeSet = k.resumeSet := by
  unfold Zone.heard; split <;> exact ⟨rfl, rfl⟩

/-- From `p` to `q`, on a stopped line, the zones of `zs` have heard of their robots. -/
structure Part.Hears (p q : Part) (zs : Fin 8 → Bool) : Prop where
  mtu : q.mtu = p.mtu
  cvt : q.cvt = p.cvt
  trl : q.trl = p.trl
  rbp : q.rbp = p.rbp
  odk : q.odk = p.odk
  cameras : q.ctu.idle
  zones : ∀ z : Fin 8, q.sac.zones[z] = if zs z then p.sac.zones[z].heard (p.hasDoor z) p.now else p.sac.zones[z]
  cells : ∀ n : Fin 48, Memory.read q.mem (cellBase n) 12 = Memory.read p.mem (cellBase n) 12
  quiet : (∀ z : Fin 8, p.sac.zones[z].state ≠ .halting) → p.AccessOnly q ∧ q.spm = p.spm

theorem Part.Hears.refl {p : Part} (h : p.LineStopped) : p.Hears p fun _ => false :=
  ⟨rfl, rfl, rfl, rfl, rfl, h.cameras, fun _ => rfl, fun _ => rfl, fun _ => ⟨.refl p, rfl⟩⟩

theorem Part.Hears.congr {p q : Part} {s t : Fin 8 → Bool} (h : p.Hears q s) (e : ∀ z, s z = t z) : p.Hears q t := by
  rwa [← funext e]

theorem Part.Hears.stopped {p q : Part} {s : Fin 8 → Bool} (h : p.Hears q s) (hp : p.LineStopped) : q.LineStopped where
  robots := fun r => by rw [h.rbp]; exact hp.robots r
  access := fun z => by
    rw [h.zones z]
    split
    · rw [(Zone.heard_kept _ _ _).1]; exact hp.access z
    · exact hp.access z
  resume := fun z => by
    rw [h.zones z]
    split
    · rw [(Zone.heard_kept _ _ _).2]; exact hp.resume z
    · exact hp.resume z
  cameras := h.cameras

theorem Zone.heard_state_ne (k : Zone) (door : Bool) (now : Time) (h : k.state ≠ .halting) :
    (k.heard door now).state ≠ .halting := by
  rw [Zone.heard_not_halting _ _ h]; exact h

theorem Part.Hears.trans {p q r : Part} {s t : Fin 8 → Bool} (h : p.Hears q s) (k : q.Hears r t) :
    p.Hears r fun z => s z || t z where
  mtu := k.mtu.trans h.mtu
  cvt := k.cvt.trans h.cvt
  trl := k.trl.trans h.trl
  rbp := k.rbp.trans h.rbp
  odk := k.odk.trans h.odk
  cameras := k.cameras
  zones := fun z => by
    have hnow : q.now = p.now := congrArg Mtu.time h.mtu
    rw [k.zones z, h.zones z, Part.hasDoor_congr h.cvt, hnow]
    cases s z <;> cases t z <;> simp [Zone.heard_heard]
  cells := fun n => (k.cells n).trans (h.cells n)
  quiet := fun hp => by
    have hq : ∀ z : Fin 8, q.sac.zones[z].state ≠ .halting := fun z => by
      rw [h.zones z]
      split
      · exact Zone.heard_state_ne _ _ _ (hp z)
      · exact hp z
    exact ⟨(h.quiet hp).1.trans (k.quiet hq).1, (k.quiet hq).2.trans (h.quiet hp).2⟩

/-! ## Reports on a stopped line -/

theorem Part.hasDoor_heard (p : Part) (h : p.LineStopped) (z : Fin 8) : p.doorRelCondition z =
    (p.hasDoor z && (p.sac.zones[z].state == .opened || p.sac.zones[z].state == .overstay) &&
      p.sac.zones[z].level == .maintain) := by
  unfold Part.doorRelCondition; rw [h.membersSafe z, Bool.and_true]

/-- One zone changed to what it makes of a report. -/
theorem Part.zones_put {p q : Part} {z : Fin 8} (h : q.sac = p.sac.put z (p.sac.zones[z].heard (p.hasDoor z) p.now))
    (y : Fin 8) : q.sac.zones[y] =
      if (y == z) = true then p.sac.zones[y].heard (p.hasDoor y) p.now else p.sac.zones[y] := by
  rw [h]
  by_cases hy : y = z
  · subst hy; simp
  · simpa [hy] using Sac.put_ne p.sac z y _ hy

theorem Part.evalDoorRel_hears (p : Part) (h : p.LineStopped) (z : Fin 8) (hs : p.sac.zones[z].state ≠ .halting) :
    p.Hears (p.evalDoorRel z) fun y => y == z := by
  have honly := p.evalDoorRel_only z
  refine ⟨honly.mtu, honly.cvt, honly.trl, honly.rbp, honly.odk, by rw [honly.ctu]; exact h.cameras,
    Part.zones_put ?_, honly.cell, fun _ => ⟨honly, p.evalDoorRel_spm z⟩⟩
  rw [Zone.heard_not_halting _ _ hs, Part.evalDoorRel_sac, Part.hasDoor_heard p h]
  rfl

theorem Part.judgeHalting_unasked (p : Part) (z : Fin 8) (hx : p.sac.zones[z].request = none) :
    p.judgeHalting z = p := by
  unfold Part.judgeHalting; rw [hx]; split <;> first | rfl | contradiction

theorem Part.judgeHalting_asked (p : Part) (h : p.LineStopped) (z : Fin 8) (x : ZoneRequest)
    (hs : p.sac.zones[z].state = .halting) (hx : p.sac.zones[z].request = some x) : p.judgeHalting z =
      ((p.grantApply z .maintain x.origin x.minutes x.badge).evalDoorRel z).grantClose z (.clampedIf x.clamped) := by
  unfold Part.judgeHalting
  simp only [hs, hx, h.membersSafe z, if_true]

/-- R145: a HALTING zone is granted MAINTAIN: its robots are safe. -/
theorem Part.grantApply_halting (p : Part) (h : p.LineStopped) (z : Fin 8) (o : ZoneOrigin) (m : Nat) (b : Half)
    (hs : p.sac.zones[z].state = .halting) :
    let q := p.grantApply z .maintain o m b
    q.trl = p.trl ∧ q.ctu.idle ∧
      (q.sac = p.sac.put z { p.sac.zones[z] with
        state := .opened, level := .maintain, origin := o, badge := b, expiry := some (p.now + minutes m) }) ∧
      ∀ n : Fin 48, Memory.read q.mem (cellBase n) 12 = Memory.read p.mem (cellBase n) 12 := by
  unfold Part.grantApply
  simp only [hs, if_neg (show ¬ ZoneState.halting = .sealed by decide)]
  split
  · obtain ⟨htrl, hidle⟩ := Part.zoneServiceAll_idle (p.modZone z fun k => { k with
      state := .opened, level := .maintain, origin := o, badge := b, expiry := some (p.now + minutes m) }) z true h.cameras
    exact ⟨htrl, hidle, by simp; rfl, fun n => by rw [Part.zoneServiceAll_cell]; rfl⟩
  · exact ⟨rfl, h.cameras, rfl, fun _ => rfl⟩

theorem Part.grantClose_unordered (p : Part) (z : Fin 8) (r : Result) (ha : p.sac.zones[z].accessOrder = none) :
    (p.grantClose z r).odk = p.odk ∧
      (p.grantClose z r).sac = p.sac.put z { p.sac.zones[z] with accessOrder := none, request := none } ∧
      ∀ n : Fin 48, Memory.read (p.grantClose z r).mem (cellBase n) 12 = Memory.read p.mem (cellBase n) 12 := by
  have he : p.endRequest z r = p.modZone z fun k => { k with accessOrder := none, request := none } := by
    unfold Part.endRequest; rw [ha]; rfl
  unfold Part.grantClose
  rw [he]
  exact ⟨by simp, by simp; rfl, fun n => by rw [Part.rewrite_cell, Part.raise_cell, Part.accessOutcome_cell]; rfl⟩

theorem Part.judgeHalting_hears (p : Part) (h : p.LineStopped) (z : Fin 8) (hs : p.sac.zones[z].state = .halting) :
    p.Hears (p.judgeHalting z) fun y => y == z := by
  cases hx : p.sac.zones[z].request with
  | none =>
    rw [Part.judgeHalting_unasked p z hx]
    refine ⟨rfl, rfl, rfl, rfl, rfl, h.cameras, Part.zones_put ?_, fun _ => rfl, fun _ => ⟨.refl p, rfl⟩⟩
    rw [Zone.heard_unasked _ _ hs hx]
    exact (Sac.put_self _ _).symm
  | some x =>
    rw [Part.judgeHalting_asked p h z x hs hx]
    obtain ⟨htrl, hidle, hsac, hcells⟩ := p.grantApply_halting h z x.origin x.minutes x.badge hs
    let G := p.grantApply z .maintain x.origin x.minutes x.badge
    have hz : G.sac.zones[z] = { p.sac.zones[z] with
        state := .opened, level := .maintain, origin := x.origin, badge := x.badge
        expiry := some (p.now + minutes x.minutes) } := by rw [show G.sac = _ from hsac]; simp
    have hdoor : G.doorRelCondition z = p.hasDoor z := by
      unfold Part.doorRelCondition
      rw [hz, Part.membersSafe_congr (p := p) (by simp [G]) (by simp [G]), h.membersSafe z,
        Part.hasDoor_congr (p := p) (by simp [G])]
      simp
    have hD : (G.evalDoorRel z).sac = p.sac.put z { p.sac.zones[z] with
        state := .opened, level := .maintain, origin := x.origin, badge := x.badge
        expiry := some (p.now + minutes x.minutes), doorRel := p.hasDoor z } := by
      rw [Part.evalDoorRel_sac, hdoor, ← Fin.getElem_fin, hz, show G.sac = _ from hsac, Sac.put_put]
    have haccess : (G.evalDoorRel z).sac.zones[z].accessOrder = none := by rw [hD]; simpa using h.access z
    obtain ⟨hodk, hclose, hclosed⟩ := (G.evalDoorRel z).grantClose_unordered z (.clampedIf x.clamped) haccess
    refine ⟨by simp, by simp, by simpa using htrl, by simp, hodk.trans (by simp [G]), by simpa using hidle,
      Part.zones_put ?_, fun n => ?_, fun hp => absurd hs (hp z)⟩
    · rw [hclose, hD, Zone.heard_granted _ _ hs hx, Sac.put_put, Fin.getElem_fin, Sac.put_get]
      simp only [h.access z]
    · rw [hclosed, Part.evalDoorRel_cell, hcells]

theorem Part.hearRobot_hears (p : Part) (h : p.LineStopped) (r : Fin 6) (z : Fin 8) :
    p.Hears (p.hearRobot r z) fun y => y == z && p.zoneHasRobot z r := by
  unfold Part.hearRobot
  split
  next hm =>
    have he : ∀ y, (y == z) = (y == z && p.zoneHasRobot z r) := fun y => by rw [hm, Bool.and_true]
    split
    next hs => exact (p.judgeHalting_hears h z hs).congr he
    next hs => exact (p.evalDoorRel_hears h z hs).congr he
  next hm => exact (Part.Hears.refl h).congr fun y => by rw [Bool.not_eq_true] at hm; rw [hm, Bool.and_false]

/-- No resume waits on a stopped line (R159). -/
theorem Part.LineStopped.settleResume {p : Part} (h : p.LineStopped) (z : Fin 8) (r : Fin 6) : p.settleResume z r = p :=
  Part.settleResume_idle _ _ _ (by have hz := h.resume z; simp only [Fin.getElem_fin] at hz ⊢; simp [hz])

theorem Part.reportRobot_hears (p : Part) (h : p.LineStopped) (r : Fin 6) :
    p.Hears (p.reportRobot r) fun z => p.zoneHasRobot z r := by
  have hfold : ∀ (l : List (Fin 8)) (q : Part) (s : Fin 8 → Bool), p.Hears q s →
      p.Hears (l.foldl (fun p z => (p.hearRobot r z).settleResume z r) q) fun z => s z || (l.contains z && p.zoneHasRobot z r) := by
    intro l
    induction l with
    | nil => exact fun q s hq => hq.congr fun z => by simp
    | cons a l ih =>
      intro q s hq
      have hstep := q.hearRobot_hears (hq.stopped h) r a
      rw [List.foldl_cons, (hstep.stopped (hq.stopped h)).settleResume]
      refine (ih _ _ (hq.trans hstep)).congr fun z => ?_
      rw [Part.zoneHasRobot_congr (congrArg Cvt.profile hq.cvt)]
      rw [List.contains_cons, Bool.or_assoc, Bool.and_or_distrib_right]
      by_cases hz : z = a
      · rw [hz]
      · rw [beq_false_of_ne hz, Bool.false_and, Bool.false_and]
  refine (hfold eights p _ (.refl h)).congr fun z => ?_
  have hz : eights.contains z = true := by revert z; decide
  rw [hz, Bool.true_and, Bool.false_or]

/-- R198: the reports on the six robots reach every zone that has a member. -/
theorem Part.reports_hear (p : Part) (h : p.LineStopped) :
    p.Hears (sixes.foldl (fun p r => p.reportRobot r) p) fun z => sixes.any fun r => p.zoneHasRobot z r := by
  have hfold : ∀ (l : List (Fin 6)) (q : Part) (s : Fin 8 → Bool), p.Hears q s →
      p.Hears (l.foldl (fun p r => p.reportRobot r) q) fun z => s z || l.any fun r => p.zoneHasRobot z r := by
    intro l
    induction l with
    | nil => exact fun q s hq => hq.congr fun z => by simp
    | cons r l ih =>
      intro q s hq
      rw [List.foldl_cons]
      refine (ih _ _ (hq.trans (q.reportRobot_hears (hq.stopped h) r))).congr fun z => ?_
      rw [Part.zoneHasRobot_congr (congrArg Cvt.profile hq.cvt), List.any_cons, Bool.or_assoc]
  simpa only [Bool.false_or] using hfold sixes p (fun _ => false) (.refl h)

end Sys2Proof.Machine
end

section
/-! PROOFS. The line reset (R198): what each block is once it has reset, and what has been told by then. -/

namespace Sys2Proof.Machine

/-! ## The blocks after the line reset -/

/-- R17, R25: the tracker. -/
def Cvt.lineReset (c : Cvt) : Cvt :=
  { c with
    tracker := if c.tracker = .unprofiled then .unprofiled else .ready
    highWater := c.position, depth := 0, excursion := false, phase := 0, markCount := 0, marks := []
    pace := 0, paceState := .crawl, drainOrder := none, watches := [], adoption := none }

/-- R41: the Transit List. -/
def Trl.lineReset (t : Trl) : Trl :=
  { t with records := [], nextSeq := 1, abandoned := min 4294967295 (t.abandoned + t.records.length) }

/-- R62: the Robot Pacer. -/
def Rbp.lineReset (b : Rbp) : Rbp :=
  { b with robots := b.robots.map Robot.lineReset, pendingRotation := none, cursor := 0 }

/-- R89: the cameras. -/
def Ctu.lineReset (b : Ctu) : Ctu :=
  { b with cameras := b.cameras.map fun k =>
    { k with pulse := none, schedule := [], awaiting := [], degraded := false, degradeCause := none, missedRun := 0 } }

/-- R110: the ejector. -/
def Rej.lineReset (b : Rej) : Rej := { b with output := none, schedule := [], confirm := [] }

/-- R163: the zones before the robots are reported. -/
def Sac.lineReset (b : Sac) : Sac := { b with zones := b.zones.map Zone.dropOrders }

/-! ## Each block resets -/

theorem modAt_all_eight {α : Type} (v : Vector α 8) (g : α → α) :
    modAt (modAt (modAt (modAt (modAt (modAt (modAt (modAt v 0 g) 1 g) 2 g) 3 g) 4 g) 5 g) 6 g) 7 g = v.map g := by
  apply Vector.ext
  intro i hi
  have : i = 0 ∨ i = 1 ∨ i = 2 ∨ i = 3 ∨ i = 4 ∨ i = 5 ∨ i = 6 ∨ i = 7 := by omega
  rcases this with rfl | rfl | rfl | rfl | rfl | rfl | rfl | rfl <;> simp [modAt]

theorem eights_foldl {α : Type} (f : α → Fin 8 → α) (a : α) :
    eights.foldl f a = f (f (f (f (f (f (f (f a 0) 1) 2) 3) 4) 5) 6) 7 := rfl

theorem Part.zonesDropOrders_eq (p : Part) : p.zonesDropOrders = (p.modSac Sac.lineReset).rewrite .sac := by
  unfold Part.zonesDropOrders Sac.lineReset
  rw [eights_foldl]
  unfold Part.modZone Part.modSac
  simp only
  rw [modAt_all_eight]

theorem Part.camerasLineReset_eq (p : Part) : p.camerasLineReset = (p.modCtu Ctu.lineReset).rewrite .ctu := by
  unfold Part.camerasLineReset Ctu.lineReset
  rw [sixes_foldl]
  unfold Part.modCamera Part.modCtu
  simp only
  rw [modAt_all_six]

/-- R62: the robots, before they are reported. -/
def Part.robotsReset (p : Part) : Part :=
  ((p.modRbp Rbp.lineReset).modCvt fun c => { c with watches := [] }).rewrite .rbp

theorem Part.robotsLineReset_eq (p : Part) :
    p.robotsLineReset = sixes.foldl (fun p r => p.reportRobot r) p.robotsReset := by
  have he : (sixes.foldl (fun p r => p.modRobot r Robot.lineReset) p).modRbp (fun b =>
      { b with pendingRotation := none, cursor := 0 }) = p.modRbp Rbp.lineReset := by
    unfold Rbp.lineReset
    rw [sixes_foldl]
    unfold Part.modRobot Part.modRbp
    simp only
    rw [modAt_all_six]
  unfold Part.robotsLineReset
  dsimp only
  rw [he]
  rfl

/-! ## What the reset of each block tells and stores -/

theorem Part.Speaks.mono {p q : Part} {l : Tidings} {k j : List Area} (h : p.Speaks q l k) (hj : k ⊆ j) : p.Speaks q l j where
  time := h.time
  rest := h.rest
  bulletins := h.bulletins
  stores := fun m i hi hm => h.stores m i (fun _ hx => hi (hj hx)) hm

theorem Part.timeLineReset_speaks (p : Part) : p.Speaks p.timeLineReset [] [.mirror .mtu] := by
  unfold Part.timeLineReset
  split
  · exact (Part.Speaks.refl_of (p := p) (q := p.modMtu _) rfl rfl rfl).rewrite .mtu
  · exact (Part.Speaks.refl p).mono (by simp)

theorem Part.timeLineReset_mtu (p : Part) : p.timeLineReset.mtu = { p.mtu with pendingStep := none } := by
  unfold Part.timeLineReset
  split
  · rfl
  next h =>
    have hn : p.mtu.pendingStep = none := by simpa using h
    rw [← hn]

/-- R31: the entry to CRAWL. -/
theorem Part.enterCrawl_speaks (p : Part) :
    p.Speaks p.enterCrawl (if p.cvt.paceState = .timed then [(.paceCrawl, 0)] else [])
      [.mirror .rej, .bulletin 1, .mirror .cvt] := by
  by_cases h : p.cvt.paceState = .timed
  · rw [p.enterCrawl_timed h, if_pos h, Part.camerasPaceLost_eq]
    exact ((((Part.Speaks.refl_of (p := p) (q := ((p.modCvt Cvt.crawled).modCtu _).modRej _) rfl rfl rfl).rewrite .rej).raise
      .paceCrawl 0).rewrite .cvt)
  · rw [p.enterCrawl_plain h, if_neg h]
    exact ((Part.Speaks.refl_of (p := p) (q := p.modCvt _) rfl rfl rfl).rewrite .cvt).mono (by simp)

theorem Part.trackerLineReset_speaks (p : Part) :
    p.Speaks p.trackerLineReset (if p.cvt.paceState = .timed then [(.paceCrawl, 0)] else [])
      [.mirror .rej, .bulletin 1, .mirror .cvt, .mirror .profile] := by
  have hcrawl (f : Cvt → Cvt) (hf : (f p.cvt).paceState = p.cvt.paceState) : p.Speaks (p.modCvt f).enterCrawl
      (if p.cvt.paceState = .timed then [(.paceCrawl, 0)] else []) [.mirror .rej, .bulletin 1, .mirror .cvt] := by
    have h := (p.modCvt f).enterCrawl_speaks
    rw [show (p.modCvt f).cvt.paceState = p.cvt.paceState from hf] at h
    simpa using (Part.Speaks.refl_of (p := p) (q := p.modCvt f) rfl rfl rfl).trans h
  unfold Part.trackerLineReset
  dsimp only
  split
  · exact (hcrawl _ rfl).rewrite .profile
  · exact (hcrawl _ rfl).mono (by simp)

theorem Part.transitLineReset_speaks (p : Part) :
    p.Speaks p.transitLineReset (if p.trl.records = [] then [] else [(.abandoned, 0)]) [.mirror .trl, .bulletin 1] := by
  have h (f : Trl → Trl) : p.Speaks ((p.modTrl f).rewrite .trl) [] [.mirror .trl] :=
    (Part.Speaks.refl_of (p := p) (q := p.modTrl f) rfl rfl rfl).rewrite .trl
  unfold Part.transitLineReset
  dsimp only
  by_cases hr : p.trl.records = []
  · rw [if_pos (by simp [hr]), if_pos hr]
    exact (h _).mono (by simp)
  · rw [if_neg (by simpa using hr), if_neg hr]
    exact (h _).raise .abandoned 0

theorem Part.transitLineReset_trl (p : Part) : p.transitLineReset.trl = p.trl.lineReset := by
  unfold Part.transitLineReset Trl.lineReset
  dsimp only
  split <;> rfl

theorem Part.trackerLineReset_cvt (p : Part) : p.trackerLineReset.cvt = p.cvt.lineReset := by
  unfold Part.trackerLineReset
  dsimp only
  split <;> simp only [Part.rewrite_frame, Part.enterCrawl_cvt] <;> rfl

theorem Part.zonesDropOrders_speaks (p : Part) : p.Speaks p.zonesDropOrders [] [.mirror .sac] := by
  rw [Part.zonesDropOrders_eq]
  exact (Part.Speaks.refl_of (p := p) (q := p.modSac _) rfl rfl rfl).rewrite .sac

theorem Part.camerasLineReset_speaks (p : Part) : p.Speaks p.camerasLineReset [] [.mirror .ctu] := by
  rw [Part.camerasLineReset_eq]
  exact (Part.Speaks.refl_of (p := p) (q := p.modCtu _) rfl rfl rfl).rewrite .ctu

theorem Part.ejectorLineReset_speaks (p : Part) : p.Speaks p.ejectorLineReset [] [.mirror .rej] :=
  (Part.Speaks.refl_of (p := p) (q := p.modRej _) rfl rfl rfl).rewrite .rej

theorem Part.robotsReset_speaks (p : Part) : p.Speaks p.robotsReset [] [.mirror .rbp] :=
  (Part.Speaks.refl_of (p := p) (q := (p.modRbp _).modCvt _) rfl rfl rfl).rewrite .rbp

/-- What pace lost leaves of a fire or of a pulse is gone with the rest. -/
theorem Part.enterCrawl_resets (p : Part) :
    p.enterCrawl.ctu.lineReset = p.ctu.lineReset ∧ p.enterCrawl.rej.lineReset = p.rej.lineReset := by
  by_cases h : p.cvt.paceState = .timed
  · rw [p.enterCrawl_timed h, Part.camerasPaceLost_eq]
    refine ⟨?_, rfl⟩
    simp only [Part.rewrite_frame, Part.raise_frame, Part.ejectorPaceLost_frame, Part.modCtu_fields, Ctu.lineReset,
      Vector.map_map]
    rfl
  · rw [p.enterCrawl_plain h]
    exact ⟨rfl, rfl⟩

theorem Part.trackerLineReset_resets (p : Part) :
    p.trackerLineReset.ctu.lineReset = p.ctu.lineReset ∧ p.trackerLineReset.rej.lineReset = p.rej.lineReset := by
  unfold Part.trackerLineReset
  dsimp only
  split <;> exact Part.enterCrawl_resets _

/-- The part whose line reset begins: the orders are gone (R198). -/
def Part.lineEmptied (p : Part) : Part :=
  (p.modRpu fun u => { u with lineResetBusy := true }).modOdk fun o => { o with queue := [], inflight := [] }

@[simp] theorem Part.lineEmptied_fields (p : Part) :
    p.lineEmptied.mtu = p.mtu ∧ p.lineEmptied.cvt = p.cvt ∧ p.lineEmptied.trl = p.trl ∧ p.lineEmptied.rbp = p.rbp ∧
    p.lineEmptied.ctu = p.ctu ∧ p.lineEmptied.rej = p.rej ∧ p.lineEmptied.spm = p.spm ∧ p.lineEmptied.sac = p.sac ∧
    p.lineEmptied.odk = { p.odk with queue := [], inflight := [] } ∧ p.lineEmptied.syncLine = p.syncLine ∧
    p.lineEmptied.lrst = p.lrst ∧ p.lineEmptied.freeCount = p.freeCount ∧
    p.lineEmptied.rpu = { p.rpu with lineResetBusy := true } ∧ p.lineEmptied.mem = p.mem :=
  ⟨rfl, rfl, rfl, rfl, rfl, rfl, rfl, rfl, rfl, rfl, rfl, rfl, rfl, rfl⟩

/-- The blocks have reset; the robots are to be reported, the FILLING page closed, the cells written. -/
def Part.lineDropped (p : Part) : Part :=
  p.lineEmptied.zonesDropOrders.timeLineReset.trackerLineReset.transitLineReset.camerasLineReset.ejectorLineReset.robotsReset

theorem Part.beginLineReset_eq (p : Part) : p.beginLineReset =
    (((((sixes.foldl (fun p r => p.reportRobot r) p.lineDropped).rewrite .spm).rewrite .sac).closeFilling
      .lineReset).abortCells p.odk.inflight) := by
  unfold Part.beginLineReset
  simp only [Part.robotsLineReset_eq]
  rfl

/-- R198: the changes that a line reset tells before it closes the FILLING page. -/
def Part.resetNews (p : Part) : Tidings :=
  (if p.cvt.paceState = .timed then [(.paceCrawl, 0)] else []) ++ (if p.trl.records = [] then [] else [(.abandoned, 0)])

/-- The tidings of the tracker and of the Transit List, whatever resets between them. -/
theorem Part.lineEmptied_speaks (p : Part) : p.lineEmptied.Speaks p.lineDropped p.resetNews
    ([.mirror .sac] ++ [.mirror .mtu] ++ [.mirror .rej, .bulletin 1, .mirror .cvt, .mirror .profile] ++
      [.mirror .trl, .bulletin 1] ++ [.mirror .ctu] ++ [.mirror .rej] ++ [.mirror .rbp]) := by
  have htracker := p.lineEmptied.zonesDropOrders.timeLineReset.trackerLineReset_speaks
  rw [show p.lineEmptied.zonesDropOrders.timeLineReset.cvt = p.cvt by simp] at htracker
  have htransit := p.lineEmptied.zonesDropOrders.timeLineReset.trackerLineReset.transitLineReset_speaks
  rw [show p.lineEmptied.zonesDropOrders.timeLineReset.trackerLineReset.trl = p.trl by simp] at htransit
  have h := p.lineEmptied.zonesDropOrders_speaks.trans (Part.timeLineReset_speaks _) |>.trans htracker |>.trans htransit
    |>.trans (Part.camerasLineReset_speaks _) |>.trans (Part.ejectorLineReset_speaks _)
    |>.trans (Part.robotsReset_speaks _)
  simp only [List.append_nil, List.nil_append] at h
  exact h

theorem Part.lineDropped_speaks (p : Part) :
    Part.Speaks { p with rpu := { p.rpu with lineResetBusy := true } } p.lineDropped p.resetNews
      (.bulletin 1 :: MirrorId.all.map Area.mirror) := by
  have hset : Part.Speaks { p with rpu := { p.rpu with lineResetBusy := true } } p.lineEmptied [] [] :=
    .refl_of rfl rfl rfl
  exact (hset.trans p.lineEmptied_speaks).mono (by simp [MirrorId.all])

theorem Part.ejectorLineReset_rej (p : Part) : p.ejectorLineReset.rej = p.rej.lineReset := rfl

/-- What each block is, once it has reset. -/
theorem Part.lineDropped_blocks (p : Part) :
    p.lineDropped.mtu = { p.mtu with pendingStep := none } ∧ p.lineDropped.cvt = p.cvt.lineReset ∧
    p.lineDropped.trl = p.trl.lineReset ∧ p.lineDropped.rbp = p.rbp.lineReset ∧
    p.lineDropped.ctu = p.ctu.lineReset ∧ p.lineDropped.rej = p.rej.lineReset ∧ p.lineDropped.spm = p.spm ∧
    p.lineDropped.sac = p.sac.lineReset ∧ p.lineDropped.odk = { p.odk with queue := [], inflight := [] } ∧
    p.lineDropped.syncLine = p.syncLine ∧ p.lineDropped.lrst = p.lrst ∧ p.lineDropped.freeCount = p.freeCount ∧
    p.lineDropped.rpu.fault = p.rpu.fault := by
  unfold Part.lineDropped Part.robotsReset
  refine ⟨?_, ?_, ?_, ?_, ?_, ?_, ?_, ?_, ?_, ?_, ?_, ?_, ?_⟩
  · simp [Part.timeLineReset_mtu]
  · simp only [Part.rewrite_frame, Part.modCvt_fields, Part.modRbp_fields, Part.ejectorLineReset_frame,
      Part.camerasLineReset_frame, Part.transitLineReset_frame, Part.trackerLineReset_cvt, Part.timeLineReset_frame,
      Part.zonesDropOrders_frame, Part.lineEmptied_fields]
    rfl
  · simp [Part.transitLineReset_trl]
  · simp
  · simp [Part.camerasLineReset_eq, Part.trackerLineReset_resets]
  · simp [Part.ejectorLineReset_rej, Part.trackerLineReset_resets]
  · simp
  · simp [Part.zonesDropOrders_eq]
  · simp
  · simp
  · simp
  · simp
  · simp

theorem Part.lineDropped_stopped (p : Part) : p.lineDropped.LineStopped := by
  obtain ⟨-, -, -, hrbp, hctu, -, -, hsac, -⟩ := p.lineDropped_blocks
  constructor
  · intro r
    rw [hrbp]
    simp [Rbp.lineReset, Robot.lineReset]
  · intro z
    rw [hsac]
    simp [Sac.lineReset, Zone.dropOrders]
  · intro z
    rw [hsac]
    simp [Sac.lineReset, Zone.dropOrders]
  · intro c
    rw [hctu]
    simp [Ctu.lineReset]

/-! ## The cells (R198) -/

theorem Part.abortCell_speaks (p : Part) (inflight : List InFlight) (n : Fin 48) :
    p.Speaks (p.abortCell inflight n) [] [.cell n] := by
  unfold Part.abortCell
  dsimp only
  split
  · exact ⟨rfl, rfl, rfl, fun m j hj hm => Part.writeResult_stores (m := m) (l := j) p n _ _ _ _ (hj (by simp)) hm⟩
  · split
    · exact ⟨rfl, rfl, rfl, fun m j hj hm =>
        Memory.storesOnly_write (.cell n) (hj (by simp)) (Nat.le_refl _) (by simp [Area.base, Area.size]) hm⟩
    · exact (Part.Speaks.refl p).mono (by simp)

theorem Part.abortCells_speaks (p : Part) (inflight : List InFlight) :
    p.Speaks (p.abortCells inflight) [] (cells.map Area.cell ++ [.mirror .odk]) := by
  have hfold : ∀ (l : List (Fin 48)) (q : Part),
      q.Speaks (l.foldl (fun p n => p.abortCell inflight n) q) [] (l.map Area.cell) := by
    intro l
    induction l with
    | nil => exact fun q => .refl q
    | cons n l ih => exact fun q => (q.abortCell_speaks inflight n).trans (ih _)
  exact (hfold cells p).rewrite .odk

/-- R198: the order in flight from a TAKEN cell, whose tag and take number the cell gets. -/
def abortedEntry (inflight : List InFlight) (n : Fin 48) (hand : Nat) : Option InFlight :=
  if hand = 2 then inflight.find? fun e => e.ref.cell == n && !e.orphaned else none

theorem Part.abortCell_of_entry {p : Part} {inflight : List InFlight} {n : Fin 48} {e : InFlight}
    (h : abortedEntry inflight n (Memory.hand p.mem n).toNat = some e) : p.abortCell inflight n =
      p.writeResult n e.kind.toNat e.tag.toNat (e.ref.takeId.toNat % 65536) ⟨.aborted, 0⟩ := by
  unfold abortedEntry at h
  unfold Part.abortCell
  simp only [h]

theorem Part.abortCell_of_none {p : Part} {inflight : List InFlight} {n : Fin 48}
    (h : abortedEntry inflight n (Memory.hand p.mem n).toNat = none) : p.abortCell inflight n =
      if (Memory.hand p.mem n).toNat = 1 ∨ (Memory.hand p.mem n).toNat = 2 then
        p.store (cellBase n) ([4, Memory.kind p.mem n, Result.aborted.code, 0] ++ leBytes 4 (Time.low p.now).toNat)
      else p := by
  unfold abortedEntry at h
  unfold Part.abortCell
  simp only [h]

/-- What the line reset makes of the twelve bytes of a cell whose hand and kind are these. -/
def abortedCell (inflight : List InFlight) (n : Fin 48) (now : Time) (hand kind : Byte) (bytes : List Byte) : List Byte :=
  match abortedEntry inflight n hand.toNat with
  | some e => e.result ⟨.aborted, 0⟩ now
  | none =>
    if hand.toNat = 1 ∨ hand.toNat = 2 then
      [4, kind, Result.aborted.code, 0] ++ leBytes 4 (Time.low now).toNat ++ bytes.drop 8
    else bytes

/-- The hand and the kind are the first bytes of the cell. -/
theorem Memory.hand_kind_congr {m m' : Memory} {n : Fin 48}
    (h : Memory.read m' (cellBase n) 12 = Memory.read m (cellBase n) 12) :
    Memory.hand m' n = Memory.hand m n ∧ Memory.kind m' n = Memory.kind m n :=
  ⟨congrArg (·.getD 0 0) h, congrArg (·.getD 1 0) h⟩

/-- A cell whose first eight bytes are written. -/
theorem Memory.read_write_cell (m : Memory) (n : Fin 48) (bytes : List Byte) (h : bytes.length = 8) :
    Memory.read (Memory.write m (cellBase n) bytes) (cellBase n) 12 = bytes ++ (Memory.read m (cellBase n) 12).drop 8 := by
  rw [show (12 : Nat) = 8 + 4 from rfl, Memory.read_append, Memory.read_append, Memory.read_write _ _ _ _ h,
    Memory.read_congr m _ (cellBase n + 8) 4 fun k _ => Memory.byte_write_outside _ _ _ _ (by omega),
    List.drop_append_of_le_length (by simp), List.drop_of_length_le (by simp), List.nil_append]

theorem Part.abortCell_read (p : Part) (inflight : List InFlight) (n : Fin 48) :
    Memory.read (p.abortCell inflight n).mem (cellBase n) 12 =
      abortedCell inflight n p.now (Memory.hand p.mem n) (Memory.kind p.mem n) (Memory.read p.mem (cellBase n) 12) := by
  unfold abortedCell
  cases h : abortedEntry inflight n (Memory.hand p.mem n).toNat with
  | some e => rw [Part.abortCell_of_entry h]; exact Part.writeResult_read p n e _
  | none =>
    rw [Part.abortCell_of_none h]
    dsimp only
    split
    · exact Memory.read_write_cell _ _ _ (by simp)
    · rfl

theorem Part.abortCells_read (p : Part) (inflight : List InFlight) (n : Fin 48) :
    Memory.read (p.abortCells inflight).mem (cellBase n) 12 =
      abortedCell inflight n p.now (Memory.hand p.mem n) (Memory.kind p.mem n) (Memory.read p.mem (cellBase n) 12) := by
  have hother : ∀ (l : List (Fin 48)) (q : Part), n ∉ l →
      Memory.read (l.foldl (fun p n => p.abortCell inflight n) q).mem (cellBase n) 12 =
        Memory.read q.mem (cellBase n) 12 ∧ (l.foldl (fun p n => p.abortCell inflight n) q).now = q.now := by
    intro l
    induction l with
    | nil => exact fun q _ => ⟨rfl, rfl⟩
    | cons k l ih =>
      intro q hn
      obtain ⟨hk, hl⟩ : n ≠ k ∧ n ∉ l := by simpa using hn
      have hs := q.abortCell_speaks inflight k
      exact ⟨(ih _ hl).1.trans (Memory.read_cell_of n [.cell k] (hs.storesOnly (by simp)) (by simpa using Ne.symm hk)),
        (ih _ hl).2.trans hs.now⟩
  obtain ⟨l, k, hsplit⟩ := List.append_of_mem (List.mem_finRange n)
  have hnodup := List.nodup_finRange 48
  rw [hsplit] at hnodup
  obtain ⟨hl, hk⟩ : n ∉ l ∧ n ∉ k := by
    rw [List.nodup_append] at hnodup
    obtain ⟨-, hk, hdisjoint⟩ := hnodup
    exact ⟨fun h => hdisjoint n h n (by simp) rfl, (List.nodup_cons.mp hk).1⟩
  obtain ⟨hbefore, hnow⟩ := hother l p hl
  unfold Part.abortCells
  rw [Part.rewrite_cell, show cells = l ++ n :: k from hsplit, List.foldl_append, List.foldl_cons, (hother k _ hk).1,
    Part.abortCell_read, hbefore, hnow, (Memory.hand_kind_congr hbefore).1, (Memory.hand_kind_congr hbefore).2]

end Sys2Proof.Machine
end

section
/-! PROOFS. The line reset (R198): its end, and the statement. -/

namespace Sys2Proof.Machine

/-! ## The FILLING page closes (R186) -/

theorem Part.closeFilling_open (p : Part) (c : CloseCause) (i : Fin 8) (hi : p.fillingPage = some i)
    (hn : p.rpu.pages[i].count ≠ 0) : p.closeFilling c = p.closePage i c := by
  unfold Part.closeFilling
  simp only [hi, if_neg hn]

theorem Part.closeFilling_empty (p : Part) (c : CloseCause)
    (h : ∀ i, p.fillingPage = some i → p.rpu.pages[i].count = 0) : p.closeFilling c = p := by
  unfold Part.closeFilling
  split
  next i hi => rw [if_pos (h i hi)]
  next => rfl

theorem Part.closeFilling_stores (p : Part) (c : CloseCause) :
    Memory.storesOnly p.mem (p.closeFilling c).mem (eights.map Area.entry ++ [.bulletin 8, .mirror .rpu]) := by
  by_cases h : ∀ i, p.fillingPage = some i → p.rpu.pages[i].count = 0
  · rw [p.closeFilling_empty c h]; exact Memory.storesOnly_refl _ _
  · push Not at h
    obtain ⟨i, hi, hn⟩ := h
    rw [p.closeFilling_open c i hi hn]
    refine Memory.storesOnly_mono (p.closePage_closes i c).2.2.2 ?_
    have hmem : ∀ j : Fin 8, Area.entry j ∈ eights.map Area.entry := fun j => List.mem_map_of_mem (mem_eights j)
    simp [hmem]

theorem Part.closeFilling_cell (p : Part) (c : CloseCause) (n : Fin 48) :
    Memory.read (p.closeFilling c).mem (cellBase n) 12 = Memory.read p.mem (cellBase n) 12 :=
  Memory.read_cell_of n _ (p.closeFilling_stores c) fun x hx => by
    rcases List.mem_append.mp hx with hx | hx
    · obtain ⟨j, -, rfl⟩ := List.mem_map.mp hx
      trivial
    · simp only [List.mem_cons, List.not_mem_nil, or_false] at hx
      rcases hx with rfl | rfl <;> trivial

/-- What has been told, and no more, whatever update counts there are. -/
theorem Part.Speaks.rpu {p S : Part} {l : Tidings} {k : List Area} (h : p.Speaks S l k)
    (hf : S.rpu.fault = p.rpu.fault) :
    ∃ counts, S.rpu = { p.rpu with bulletins := announced p.rpu.bulletins p.now l, updateCounts := counts } :=
  ⟨S.rpu.updateCounts, (Rpu.eq_of_rest h.rest).trans (by rw [h.bulletins, hf])⟩

/-- A page closed after other tidings. -/
theorem Part.Speaks.closes {p S F : Part} {l : Tidings} {k : List Area} {i : Fin 8} {c : CloseCause}
    (h : p.Speaks S l k) (hf : S.rpu.fault = p.rpu.fault) (hF : F.now = S.now) (hc : S.closes F i c []) :
    p.closes F i c l := by
  obtain ⟨counts, hS⟩ := h.rpu hf
  unfold Part.closes at hc ⊢
  rw [hS, hF, h.now] at hc
  rw [hF, h.now, ← announced_append]
  exact hc

/-- A page stays closed where nothing more is told and no index entry is stored to. -/
theorem Part.closes.speaks {p F q : Part} {l : Tidings} {k : List Area} {i : Fin 8} {c : CloseCause}
    (hc : p.closes F i c l) (h : F.Speaks q [] k) (hf : q.rpu.fault = F.rpu.fault) (hk : ∀ x ∈ k, x ≠ .entry i) :
    p.closes q i c l := by
  obtain ⟨counts, hq⟩ := h.rpu hf
  unfold Part.closes at hc ⊢
  obtain ⟨hrpu, hread⟩ := hc
  rw [hq, h.now, Memory.read_entry i k (h.storesOnly fun _ => id) hk]
  exact ⟨by rw [hrpu]; rfl, hread⟩

/-! ## The line reset begun -/

/-- The robots have been reported and the sockets' and the zones' records rewritten. -/
def Part.lineReported (p : Part) : Part :=
  (((sixes.foldl (fun p r => p.reportRobot r) p.lineDropped).rewrite .spm).rewrite .sac)

theorem Part.beginLineReset_as (p : Part) :
    p.beginLineReset = (p.lineReported.closeFilling .lineReset).abortCells p.odk.inflight := p.beginLineReset_eq

theorem Part.lineReported_blocks (p : Part) :
    p.lineReported.mtu = { p.mtu with pendingStep := none } ∧ p.lineReported.cvt = p.cvt.lineReset ∧
    p.lineReported.trl = p.trl.lineReset ∧ p.lineReported.rbp = p.rbp.lineReset ∧
    p.lineReported.rej = p.rej.lineReset ∧ p.lineReported.odk = { p.odk with queue := [], inflight := [] } := by
  obtain ⟨hmtu, hcvt, htrl, hrbp, -, hrej, -, -, hodk, -⟩ := p.lineDropped_blocks
  have h := p.lineDropped.reports_hear p.lineDropped_stopped
  unfold Part.lineReported
  simp only [Part.rewrite_frame]
  refine ⟨h.mtu.trans hmtu, h.cvt.trans hcvt, h.trl.trans htrl, h.rbp.trans hrbp, ?_, h.odk.trans hodk⟩
  rw [fold_rej]
  · exact hrej
  · exact fun q r => by simp

/-- R163, R198: each zone drops its orders; one with a member robot then hears of it. -/
theorem Part.lineReported_zone (p : Part) (z : Fin 8) : p.lineReported.sac.zones[z] =
    if sixes.any fun r => p.zoneHasRobot z r then p.sac.zones[z].dropOrders.heard (p.hasDoor z) p.now
    else p.sac.zones[z].dropOrders := by
  obtain ⟨hmtu, hcvt, -, -, -, -, -, hsac, -⟩ := p.lineDropped_blocks
  have hprofile : p.lineDropped.cvt.profile = p.cvt.profile := by rw [hcvt]; rfl
  have hmap : p.lineDropped.zoneMap z = p.zoneMap z := Part.zoneMap_congr hprofile z
  have hdoor : p.lineDropped.hasDoor z = p.hasDoor z := by unfold Part.hasDoor; rw [hmap]
  have hnow : p.lineDropped.now = p.now := by unfold Part.now; rw [hmtu]
  have hzone : p.lineDropped.sac.zones[z] = p.sac.zones[z].dropOrders := by rw [hsac]; simp [Sac.lineReset]
  have h := (p.lineDropped.reports_hear p.lineDropped_stopped).zones z
  simp only [hzone, hdoor, hnow, Part.zoneHasRobot_congr hprofile] at h
  unfold Part.lineReported
  simp only [Part.rewrite_frame]
  exact h

theorem Part.lineReported_cell (p : Part) (n : Fin 48) :
    Memory.read p.lineReported.mem (cellBase n) 12 = Memory.read p.mem (cellBase n) 12 := by
  unfold Part.lineReported
  rw [Part.rewrite_cell, Part.rewrite_cell, (p.lineDropped.reports_hear p.lineDropped_stopped).cells n]
  exact Memory.read_cell_of n _ (p.lineDropped_speaks.storesOnly fun _ => id) (by simp [MirrorId.all])

theorem Part.beginLineReset_cell (p : Part) (n : Fin 48) :
    Memory.read p.beginLineReset.mem (cellBase n) 12 = abortedCell p.odk.inflight n p.now (Memory.hand p.mem n)
      (Memory.kind p.mem n) (Memory.read p.mem (cellBase n) 12) := by
  have hcell := ((p.lineReported.closeFilling_cell .lineReset n).trans (p.lineReported_cell n))
  have hnow : (p.lineReported.closeFilling .lineReset).now = p.now := by
    unfold Part.now
    simp [p.lineReported_blocks.1]
  rw [Part.beginLineReset_as, Part.abortCells_read, hnow, hcell, (Memory.hand_kind_congr hcell).1,
    (Memory.hand_kind_congr hcell).2]

/-! ## The cells, by their hands -/

theorem abortedCell_other (inflight : List InFlight) (n : Fin 48) (now : Time) (hand kind : Byte) (bytes : List Byte)
    (h1 : hand.toNat ≠ 1) (h2 : hand.toNat ≠ 2) : abortedCell inflight n now hand kind bytes = bytes := by
  simp [abortedCell, abortedEntry, h1, h2]

theorem abortedCell_posted (inflight : List InFlight) (n : Fin 48) (now : Time) (hand kind : Byte) (bytes : List Byte)
    (h : hand.toNat = 1) : abortedCell inflight n now hand kind bytes =
      [4, kind, Result.aborted.code, 0] ++ leBytes 4 (Time.low now).toNat ++ bytes.drop 8 := by
  simp [abortedCell, abortedEntry, h]

theorem abortedCell_taken {inflight : List InFlight} {n : Fin 48} {e : InFlight} (now : Time) {hand kind : Byte}
    {bytes : List Byte} (h : hand.toNat = 2) (he : e ∈ inflight) (hn : e.ref.cell = n) (ho : e.orphaned = false)
    (honly : ∀ x ∈ inflight, x.ref.cell = n → x.orphaned = false → x = e) :
    abortedCell inflight n now hand kind bytes = e.result ⟨.aborted, 0⟩ now := by
  have hentry : abortedEntry inflight n hand.toNat = some e := by
    unfold abortedEntry
    rw [if_pos h]
    cases hf : inflight.find? fun e => e.ref.cell == n && !e.orphaned with
    | none => exact absurd (List.find?_eq_none.mp hf e he) (by simp [hn, ho])
    | some x =>
      have hx : x.ref.cell = n ∧ x.orphaned = false := by simpa using List.find?_some hf
      rw [honly x (List.mem_of_find?_eq_some hf) hx.1 hx.2]
  unfold abortedCell
  rw [hentry]

/-! ## Where no zone was HALTING -/

theorem Part.lineReported_speaks (p : Part) (hz : ∀ z : Fin 8, p.sac.zones[z].state ≠ .halting) :
    Part.Speaks { p with rpu := { p.rpu with lineResetBusy := true } } p.lineReported p.resetNews
      (.bulletin 1 :: MirrorId.all.map Area.mirror) ∧
    p.lineReported.rpu.fault = p.rpu.fault ∧ p.lineReported.spm = p.spm ∧ p.lineReported.ctu = p.ctu.lineReset := by
  obtain ⟨-, -, -, -, hctu, -, hspm, hsac, -, -, -, -, hfault⟩ := p.lineDropped_blocks
  have hquiet : ∀ z : Fin 8, p.lineDropped.sac.zones[z].state ≠ .halting := fun z => by
    rw [hsac]; simpa [Sac.lineReset, Zone.dropOrders] using hz z
  obtain ⟨honly, hsame⟩ := (p.lineDropped.reports_hear p.lineDropped_stopped).quiet hquiet
  have hreports : p.lineDropped.Speaks (sixes.foldl (fun p r => p.reportRobot r) p.lineDropped) []
      [.mirror .spm, .mirror .sac] :=
    ⟨congrArg Mtu.time honly.mtu, honly.rest, honly.bulletins, fun m j hj hm => honly.stores m j (hj (by simp)) (hj (by simp)) hm⟩
  have h := ((p.lineDropped_speaks.trans hreports).rewrite .spm).rewrite .sac
  rw [List.append_nil] at h
  refine ⟨h.mono (by simp [MirrorId.all]), ?_, ?_, ?_⟩ <;> unfold Part.lineReported <;> simp only [Part.rewrite_frame]
  · exact honly.fault.trans hfault
  · exact hsame.trans hspm
  · exact honly.ctu.trans hctu

/-- R163: zone `z` after the line reset, where it was not HALTING. -/
def Part.zoneReset (p : Part) (z : Fin 8) : Zone :=
  let k := p.sac.zones[z]
  { k with
    accessOrder := none, resumeOrder := none, resumeFailure := none
    haltedByZone := k.haltedByZone ||| resumeBits k.resumeSet, resumeSet := Vector.replicate 6 .absent
    doorRel := if ∃ r : Fin 6, p.zoneHasRobot z r = true then
        p.hasDoor z && (k.state == .opened || k.state == .overstay) && k.level == .maintain
      else k.doorRel }

theorem any_member_iff (p : Part) (z : Fin 8) :
    (sixes.any fun r => p.zoneHasRobot z r) = true ↔ ∃ r : Fin 6, p.zoneHasRobot z r = true := by
  rw [List.any_eq_true]
  exact ⟨fun ⟨r, _, h⟩ => ⟨r, h⟩, fun ⟨r, h⟩ => ⟨r, mem_sixes r, h⟩⟩

theorem Sac.ext_zones {a b : Sac} (h : ∀ z : Fin 8, a.zones[z] = b.zones[z]) : a = b := by
  cases a; cases b
  congr 1
  exact Vector.ext fun i hi => h ⟨i, hi⟩

theorem Part.lineReported_sac (p : Part) (hz : ∀ z : Fin 8, p.sac.zones[z].state ≠ .halting) :
    p.lineReported.sac = { p.sac with zones := Vector.ofFn p.zoneReset } := by
  refine Sac.ext_zones fun z => ?_
  rw [p.lineReported_zone z, show (Vector.ofFn p.zoneReset)[z] = p.zoneReset z by simp]
  unfold Part.zoneReset
  by_cases h : ∃ r : Fin 6, p.zoneHasRobot z r = true
  · rw [if_pos ((any_member_iff p z).mpr h), Zone.heard_not_halting _ _ (by exact hz z)]
    dsimp only
    rw [if_pos h]
    rfl
  · rw [if_neg fun hany => h ((any_member_iff p z).mp hany)]
    dsimp only
    rw [if_neg h]
    rfl

theorem Part.lineReported_now (p : Part) : p.lineReported.now = p.now := by
  unfold Part.now; rw [p.lineReported_blocks.1]

/-- R198: the areas that a line reset stores to where no zone was HALTING. -/
def resetAreas : List Area :=
  [.bulletin 1, .bulletin 8] ++ cells.map Area.cell ++ eights.map Area.entry ++ MirrorId.all.map Area.mirror

theorem resetAreas_mirror (m : MirrorId) : .mirror m ∈ resetAreas :=
  List.mem_append_right _ (List.mem_map_of_mem (by cases m <;> decide))

theorem resetAreas_news : (.bulletin 1 :: MirrorId.all.map Area.mirror) ⊆ resetAreas :=
  List.cons_subset.mpr ⟨by simp [resetAreas], List.subset_append_right _ _⟩

theorem resetAreas_page : eights.map Area.entry ++ [.bulletin 8, .mirror .rpu] ⊆ resetAreas := by
  refine List.append_subset.mpr ⟨fun x hx => List.mem_append_left _ (List.mem_append_right _ hx), ?_⟩
  exact List.cons_subset.mpr ⟨by simp [resetAreas], List.cons_subset.mpr ⟨resetAreas_mirror _, List.nil_subset _⟩⟩

theorem resetAreas_cells : cells.map Area.cell ++ [.mirror .odk] ⊆ resetAreas := by
  refine List.append_subset.mpr ⟨fun x hx => ?_, List.cons_subset.mpr ⟨resetAreas_mirror _, List.nil_subset _⟩⟩
  exact List.mem_append_left _ (List.mem_append_left _ (List.mem_append_right _ hx))

/-- Where no zone was HALTING: the pages, and what is told (R186, R198). -/
theorem Part.beginLineReset_tells (p : Part) (hz : ∀ z : Fin 8, p.sac.zones[z].state ≠ .halting) :
    let set : Part := { p with rpu := { p.rpu with lineResetBusy := true } }
    let q := p.beginLineReset
    ((∀ i, p.fillingPage = some i → p.rpu.pages[i].count = 0) → set.tells q p.resetNews) ∧
      (∀ i, p.fillingPage = some i → p.rpu.pages[i].count ≠ 0 → set.closes q i .lineReset p.resetNews) ∧
      Memory.storesOnly p.mem q.mem resetAreas := by
  intro set q
  obtain ⟨hspeaks, hfault, -, -⟩ := p.lineReported_speaks hz
  have hpages : p.lineReported.rpu.pages = p.rpu.pages := Rpu.of_rest hspeaks.rest (·.pages) fun _ => rfl
  have hfilling : p.lineReported.fillingPage = p.fillingPage := Part.fillingPage_congr hpages
  have habort := (p.lineReported.closeFilling .lineReset).abortCells_speaks p.odk.inflight
  rw [← p.beginLineReset_as] at habort
  have hfaultq : q.rpu.fault = (p.lineReported.closeFilling .lineReset).rpu.fault := by
    rw [show q = _ from p.beginLineReset_as]; simp
  refine ⟨fun hi => ?_, fun i hi hn => ?_, ?_⟩
  · have hempty : p.lineReported.closeFilling .lineReset = p.lineReported :=
      p.lineReported.closeFilling_empty .lineReset fun i h => by rw [hpages]; exact hi i (hfilling ▸ h)
    rw [hempty] at habort hfaultq
    have h := hspeaks.trans habort
    rw [List.append_nil] at h
    exact h.tells (hfaultq.trans hfault)
  · have hclose := p.lineReported.closeFilling_open .lineReset i (hfilling.trans hi) (by rw [hpages]; exact hn)
    rw [hclose] at habort hfaultq
    obtain ⟨hcloses, -, -, -⟩ := p.lineReported.closePage_closes i .lineReset
    have hset := hspeaks.closes hfault (by unfold Part.now; simp) hcloses
    exact hset.speaks habort hfaultq fun x hx e => by subst e; simp at hx
  · have h1 := hspeaks.storesOnly fun _ => id
    have h2 := p.lineReported.closeFilling_stores .lineReset
    have h3 := habort.storesOnly fun _ => id
    exact Memory.storesOnly_trans (Memory.storesOnly_mono h1 resetAreas_news)
      (Memory.storesOnly_trans (Memory.storesOnly_mono h2 resetAreas_page) (Memory.storesOnly_mono h3 resetAreas_cells))

/-- R163, R198: a zone that was HALTING is granted. -/
theorem Part.lineReported_granted (p : Part) (z : Fin 8) (r : Fin 6) (x : ZoneRequest)
    (hs : p.sac.zones[z].state = .halting) (hx : p.sac.zones[z].request = some x) (hr : p.zoneHasRobot z r = true) :
    let k := p.lineReported.sac.zones[z]
    k.state = .opened ∧ k.level = .maintain ∧ k.origin = x.origin ∧ k.badge = x.badge ∧ k.accessOrder = none ∧
      k.expiry = some (p.now + BitVec.ofNat 48 (60000000 * x.minutes)) := by
  have hk : p.lineReported.sac.zones[z] = p.sac.zones[z].dropOrders.heard (p.hasDoor z) p.now := by
    rw [p.lineReported_zone z, if_pos ((any_member_iff p z).mpr ⟨r, hr⟩)]
  rw [hk, Zone.heard_granted (k := p.sac.zones[z].dropOrders) _ _ hs hx]
  exact ⟨rfl, rfl, rfl, rfl, rfl, rfl⟩

theorem Part.lineResetEnd_busy (p : Part) (h : p.rpu.lineResetBusy = true) : p.lineResetEnd =
    Part.raise { p with rpu := { p.rpu with lineResetBusy := false }, lrst := false } .lineReset := by
  unfold Part.lineResetEnd
  exact if_pos h

theorem Part.lineResetEnd_idle (p : Part) (h : p.rpu.lineResetBusy = false) : p.lineResetEnd = { p with lrst := false } := by
  unfold Part.lineResetEnd
  exact if_neg (by rw [show (p.setLrst false).rpu.lineResetBusy = false from h]; decide)

theorem Part.beginLineReset_busy (p : Part) : p.beginLineReset.rpu.lineResetBusy = true := by
  unfold Part.beginLineReset
  dsimp only
  simp

/-- A command that makes `q` of the part leads to `q`. -/
theorem leads_after {c : Instr} {s : State} {f : Part → Part} {q : Part} {P : Part → Prop} (hc : exec c s = s.after f)
    (hq : f s.part = q) (h : P q) : Leads c s P := ⟨q, by rw [hc, ← hq]; rfl, h⟩

/-- What each block is after the line reset. -/
theorem Part.beginLineReset_blocks (p : Part) :
    p.beginLineReset.mtu = { p.mtu with pendingStep := none } ∧ p.beginLineReset.cvt = p.cvt.lineReset ∧
    p.beginLineReset.trl = p.trl.lineReset ∧ p.beginLineReset.rbp = p.rbp.lineReset ∧
    p.beginLineReset.rej = p.rej.lineReset ∧ p.beginLineReset.odk = { p.odk with queue := [], inflight := [] } ∧
    p.beginLineReset.ctu = p.lineReported.ctu ∧ p.beginLineReset.spm = p.lineReported.spm ∧
    p.beginLineReset.sac = p.lineReported.sac := by
  obtain ⟨hmtu, hcvt, htrl, hrbp, hrej, hodk⟩ := p.lineReported_blocks
  rw [p.beginLineReset_as]
  simp only [Part.abortCells_frame, Part.closeFilling_frame, and_self, and_true]
  exact ⟨hmtu, hcvt, htrl, hrbp, hrej, hodk⟩

/-- R198: the pin and the register begin the same line reset. -/
theorem Part.lineReset_begins (p : Part) (byPin : Bool)
    (h : if byPin then p.lrst = false else p.rpu.phase ≠ .startingUp ∧ p.rpu.lineResetBusy = false) :
    (if byPin then p.pinLineReset else p.controlLineReset) = Part.beginLineReset { p with lrst := byPin || p.lrst } := by
  cases byPin with
  | true =>
    have hlow : p.lrst = false := h
    simp only [if_true, Part.pinLineReset, hlow, Bool.false_eq_true, if_false]
    rfl
  | false =>
    obtain ⟨hphase, hbusy⟩ : p.rpu.phase ≠ .startingUp ∧ p.rpu.lineResetBusy = false := h
    simp only [Bool.false_eq_true, if_false, Part.controlLineReset, hphase, hbusy, or_self]
    rfl

/-- Settles O57. -/
theorem lineResetStopsTheLine : Obligations.LineResetStopsTheLine := by
  unfold Obligations.LineResetStopsTheLine
  intro p w
  refine ⟨fun h => ⟨_, rfl, ?_⟩, fun h => ⟨_, rfl, if_pos h⟩, fun byPin h => ?_, fun h => ⟨_, rfl, ?_⟩, fun h => ?_⟩
  · exact if_pos h
  · obtain ⟨P, hP⟩ : ∃ P : Part, P = { p with lrst := byPin || p.lrst } := ⟨_, rfl⟩
    have hq := p.lineReset_begins byPin h
    rw [← hP] at hq
    obtain ⟨hmtu, hcvt, htrl, hrbp, hrej, hodk, hctu, hspm, hsac⟩ := P.beginLineReset_blocks
    have hnow : P.beginLineReset.now = p.now := by simp [Part.now, hP]
    refine leads_after (f := fun p => if byPin then p.pinLineReset else p.controlLineReset) rfl hq ?_
    refine ⟨P.beginLineReset_busy, by simp [hP], by simp [hP], ?_, ?_, ?_, ?_, ?_, ?_, by simp [hP], by simp [hP],
      by simp [hP], fun n => ⟨fun h1 h2 => ?_, fun h1 => ?_, fun e he h2 hn ho honly => ?_⟩, fun z r x hs hx hr => ?_,
      fun hz => ?_⟩
    · rw [hodk, hP]
    · rw [hmtu, hP]
    · rw [hcvt, hP]; rfl
    · rw [htrl, hP]; rfl
    · rw [hrbp, hP]; rfl
    · rw [hrej, hP]; rfl
    · rw [P.beginLineReset_cell n, hP]; exact abortedCell_other _ _ _ _ _ _ h1 h2
    · rw [P.beginLineReset_cell n, hnow, hP]; exact abortedCell_posted _ _ _ _ _ _ h1
    · subst hn
      unfold Part.shows
      rw [P.beginLineReset_cell, hnow, hP]
      exact abortedCell_taken _ h2 he rfl ho honly
    · rw [hsac]
      have hgranted := P.lineReported_granted z r x (by rw [hP]; exact hs) (by rw [hP]; exact hx) (by rw [hP]; exact hr)
      rw [show P.now = p.now by rw [hP]; rfl] at hgranted
      exact hgranted
    · have hzP : ∀ z : Fin 8, P.sac.zones[z].state ≠ .halting := by rw [hP]; exact hz
      obtain ⟨-, -, hspmR, hctuR⟩ := P.lineReported_speaks hzP
      obtain ⟨htells, hcloses, hstores⟩ := P.beginLineReset_tells hzP
      rw [P.lineReported_sac hzP] at hsac
      rw [hspmR] at hspm
      rw [hctuR] at hctu
      subst hP
      exact ⟨hspm, hctu, hsac, by simp, htells, hcloses, hstores⟩
  · exact p.lineResetEnd_idle h
  · refine leads_after (f := Part.lineResetEnd) rfl (p.lineResetEnd_busy h) ?_
    have hspeaks := (Part.Speaks.refl { p with rpu := { p.rpu with lineResetBusy := false }, lrst := false }).raise .lineReset 0
    exact ⟨rfl, hspeaks.tells rfl, hspeaks.storesOnly fun _ => id⟩

end Sys2Proof.Machine
end

section
/-! PROOFS. COPY_END (R167 to R171): the candidate, and a refusal. -/

namespace Sys2Proof.Machine

/-! ## The candidate and its verdict -/

theorem Memory.span_empty (m : Memory) (low high : Nat) (h : high ≤ low) : Memory.span m low high = [] := by
  unfold Memory.span
  refine List.filter_eq_nil_iff.mpr fun c _ => ?_
  simp only [Bool.and_eq_true, decide_eq_true_eq]
  omega

/-- R167: at the end of the copy the candidate is what was read before and the rest of the staging area. -/
theorem Adoption.advance_end (a : Adoption) (m : Memory) :
    (a.advance m stagingSize).candidate = a.candidate ++ Memory.span m (0x5000 + a.progress) 0x8000 := by
  have hsize : min (stagingSize - stagingSize % 2) stagingSize = 12288 := rfl
  unfold Adoption.advance
  rw [hsize]
  dsimp only
  split
  next h => rw [Memory.span_empty _ _ _ (by omega), List.append_nil]
  next => rfl

theorem Part.copyEnd_judges (p : Part) (a : Adoption) (ha : p.cvt.adoption = some a) :
    p.copyEnd = p.judgeCandidate a.ref (a.candidate ++ Memory.span p.mem (0x5000 + a.progress) 0x8000) := by
  unfold Part.copyEnd
  rw [ha, ← Adoption.advance_end]

/-- R170: a zone that is not SEALED stands against a candidate while a profile is adopted. -/
theorem Part.unsealed_iff (p : Part) : (p.cvt.profile.isSome && !p.allSealed) = true ↔
    p.cvt.profile ≠ none ∧ ∃ z : Fin 8, p.sac.zones[z].state ≠ .sealed := by
  have hall : p.allSealed = true ↔ ∀ z : Fin 8, p.sac.zones[z].state = .sealed := by
    unfold Part.allSealed
    rw [List.all_eq_true]
    exact ⟨fun h z => by simpa using h z (mem_eights z), fun h z _ => by simpa using h z⟩
  rw [Bool.and_eq_true, Bool.not_eq_true', ← Bool.not_eq_true, hall, Option.isSome_iff_ne_none]
  push Not
  rfl

theorem Part.judgeCandidate_refuses (p : Part) (ref : OrderRef) (m : Memory) (r : AdoptRefusal)
    (h : m.refusal = some r ∨ (m.refusal = none ∧ (p.cvt.profile ≠ none ∧ ∃ z : Fin 8, p.sac.zones[z].state ≠ .sealed) ∧
      r = ⟨.state, 2, none⟩)) : p.judgeCandidate ref m = p.refuseAdoption ref r := by
  unfold Part.judgeCandidate
  rcases h with h | ⟨h, hunsealed, hr⟩
  · rw [h]
  · rw [h, hr]
    exact if_pos (p.unsealed_iff.mpr hunsealed)

theorem Part.judgeCandidate_adopts (p : Part) (ref : OrderRef) (m : Memory) (h : m.refusal = none)
    (hs : ¬ (p.cvt.profile ≠ none ∧ ∃ z : Fin 8, p.sac.zones[z].state ≠ .sealed)) :
    p.judgeCandidate ref m = p.adopt ref m.profile := by
  unfold Part.judgeCandidate
  rw [h]
  exact if_neg fun hu => hs (p.unsealed_iff.mp hu)

/-! ## A refusal (R169) -/

/-- R179: an orphaned order leaves the table; its cell is the host's. -/
theorem Part.complete_orphaned (p : Part) (ref : OrderRef) (r : Result) (d : Byte) (e : InFlight)
    (he : p.odk.entry ref = some e) (ho : e.orphaned = true) :
    p.complete ref r d = (p.modOdk fun o => { o with inflight := o.without ref }).rewrite .odk := by
  unfold Part.complete
  simp only [he]
  simp [ho, Odk.without]

/-- The refusal, before the desk hears of it. -/
def Part.adoptionRefused (p : Part) (r : AdoptRefusal) : Part :=
  p.modCvt fun c => { c with adoption := none, profileRecord := { c.profileRecord with refusal := some r } }

theorem Part.refuseAdoption_eq (p : Part) (ref : OrderRef) (r : AdoptRefusal) : p.refuseAdoption ref r =
    ((((p.adoptionRefused r).complete ref r.result r.detail).raise .profileRefused).rewrite .profile) := rfl

theorem Part.refuseAdoption_refuses (p : Part) (ref : OrderRef) (r : AdoptRefusal) :
    p.refusesProfile (p.refuseAdoption ref r) r := by
  rw [Part.refuseAdoption_eq]
  refine ⟨by simp [Part.adoptionRefused], ?_, Part.rewrite_mirrored _ _⟩
  refine Part.eq_of_fields ?_ ?_ ?_ ?_ ?_ ?_ ?_ ?_ rfl rfl ?_ ?_ rfl ?_ <;> simp [Part.adoptionRefused]

theorem Part.refuseAdoption_held (p : Part) (e : InFlight) (r : AdoptRefusal) (he : p.odk.holds e) :
    let q := p.refuseAdoption e.ref r
    p.concludes q e r.result r.detail ∧ p.tells q [e.told, (.profileRefused, 0)] ∧
      Memory.storesOnly p.mem q.mem [.cell e.ref.cell, .bulletin 0, .bulletin 1, .mirror .profile, .mirror .odk] := by
  intro q
  have hsame : p.Speaks (p.adoptionRefused r) [] [] := .refl_of rfl rfl rfl
  obtain ⟨hodk, hcell, -, -, -⟩ := Part.concluded (p.adoptionRefused r) e r.result r.detail he
  have hspeaks := ((hsame.concluded he r.result r.detail).raise .profileRefused 0).rewrite .profile
  rw [← Part.refuseAdoption_eq] at hspeaks
  refine ⟨⟨?_, ?_⟩, hspeaks.tells (by rw [Part.refuseAdoption_eq]; simp [Part.adoptionRefused]),
    hspeaks.storesOnly (by simp [News.bulletin])⟩
  · rw [show q = _ from Part.refuseAdoption_eq _ _ _]
    simp only [Part.rewrite_frame, Part.raise_frame, hodk]
    rfl
  · unfold Part.shows
    rw [hspeaks.now, show q = _ from Part.refuseAdoption_eq _ _ _, Part.rewrite_cell, Part.raise_cell, hcell]
    rfl

theorem Part.refuseAdoption_orphaned (p : Part) (e : InFlight) (r : AdoptRefusal) (he : p.odk.entry e.ref = some e)
    (ho : e.orphaned = true) :
    let q := p.refuseAdoption e.ref r
    q.odk = { p.odk with inflight := p.odk.without e.ref } ∧ p.tells q [(.profileRefused, 0)] ∧
      Memory.storesOnly p.mem q.mem [.bulletin 1, .mirror .profile, .mirror .odk] := by
  intro q
  have hcomplete := (p.adoptionRefused r).complete_orphaned e.ref r.result r.detail e he ho
  have hsame : p.Speaks ((p.adoptionRefused r).modOdk fun o => { o with inflight := o.without e.ref }) [] [] :=
    .refl_of rfl rfl rfl
  have hspeaks := ((hsame.rewrite .odk).raise .profileRefused 0).rewrite .profile
  have hq : q = (((((p.adoptionRefused r).modOdk fun o => { o with inflight := o.without e.ref }).rewrite .odk).raise
      .profileRefused).rewrite .profile) := by
    rw [← hcomplete]; rfl
  rw [← hq] at hspeaks
  exact ⟨by rw [hq]; rfl, hspeaks.tells (by rw [hq]; simp [Part.adoptionRefused]), hspeaks.storesOnly (by simp [News.bulletin])⟩

end Sys2Proof.Machine
end

section
/-! PROOFS. An adoption (R170, R171) in which nothing but the profile's own parts moves: each block under the new
profile, and what is told. -/

namespace Sys2Proof.Machine

/-! ## Tables changed entry by entry -/

/-- A walk that changes each entry of a list of indices once. -/
theorem foldl_modAt {α : Type} {n : Nat} (g : Fin n → α → α) (l : List (Fin n)) (hl : l.Nodup) (v : Vector α n) (k : Fin n) :
    (l.foldl (fun v i => modAt v i (g i)) v)[k] = if k ∈ l then g k v[k] else v[k] := by
  induction l generalizing v with
  | nil => rfl
  | cons i l ih =>
    obtain ⟨hi, hnodup⟩ := List.nodup_cons.mp hl
    rw [List.foldl_cons, ih hnodup]
    by_cases hk : k = i
    · subst hk
      rw [if_neg hi, if_pos List.mem_cons_self]
      simp
    · have hne : i.val ≠ k.val := fun e => hk (Fin.ext e.symm)
      simp [hk, modAt, hne]

/-- A walk over every index. -/
theorem foldl_modAt_all {α : Type} {n : Nat} (g : Fin n → α → α) (l : List (Fin n)) (hl : l.Nodup) (hall : ∀ k, k ∈ l)
    (v : Vector α n) : l.foldl (fun v i => modAt v i (g i)) v = Vector.ofFn fun k : Fin n => g k v[k] := by
  refine Vector.ext fun i hi => ?_
  have h := foldl_modAt g l hl v ⟨i, hi⟩
  rw [if_pos (hall _)] at h
  simpa using h

/-! ## Each block takes its part -/

theorem Window.clamp_eq (w : Window) (pitch : Nat) : w.clamp pitch = w.clamped pitch := by
  unfold Window.clamp Window.clamped
  split
  next h => rw [Nat.min_eq_right (Nat.le_of_lt h)]
  next h => rw [Nat.min_eq_left (Nat.not_lt.mp h)]

/-- R78, R90: robot `r` takes its window. -/
def Part.robotAdopts (f : Profile) (p : Part) (r : Fin 6) : Part :=
  (p.makeLive r f.robots[r].window).modRobot r fun k => { k with failureRun := 0 }

def Robot.under (f : Profile) (r : Fin 6) (k : Robot) : Robot :=
  { k with live := f.robots[r].window.clamped f.pitch, failureRun := 0 }

/-- R78: the live window of robot `r` is zero. -/
def Profile.zeroes (f : Profile) (r : Fin 6) : Bool := (f.robots[r].window.clamped f.pitch).zero

/-- The window taken, before it is told and shown. -/
def Part.windowTaken (p : Part) (f : Profile) (r : Fin 6) : Part :=
  p.modRobot r fun k => { k with live := f.robots[r].window.clamped f.pitch }

theorem Part.robotAdopts_as (p : Part) (f : Profile) (hf : p.cvt.profile = some f) (r : Fin 6) :
    p.robotAdopts f r = ((if f.zeroes r then (p.windowTaken f r).raise .zeroWindow (robotMember r)
      else p.windowTaken f r).rewrite .rbp).modRobot r fun k => { k with failureRun := 0 } := by
  have hpitch : p.clampPitch = f.pitch := by unfold Part.clampPitch; rw [hf]
  have hsome : (p.windowTaken f r).cvt.profile.isNone = false := by
    rw [show (p.windowTaken f r).cvt = p.cvt from rfl, hf]; rfl
  unfold Part.windowTaken at hsome
  unfold Part.robotAdopts Part.makeLive
  simp only [hpitch, Window.clamp_eq, hsome, Bool.false_eq_true, if_false]
  rfl

theorem Part.robotAdopts_speaks (p : Part) (f : Profile) (hf : p.cvt.profile = some f) (r : Fin 6) :
    p.Speaks (p.robotAdopts f r) (if f.zeroes r then [(.zeroWindow, robotMember r)] else []) [.bulletin 2, .mirror .rbp] := by
  have hlive : p.Speaks (p.windowTaken f r) [] [] := .refl_of rfl rfl rfl
  rw [p.robotAdopts_as f hf r]
  split
  · exact ((hlive.raise .zeroWindow (robotMember r)).rewrite .rbp).same rfl rfl rfl
  · exact Part.Speaks.mono (k := [.mirror .rbp]) ((hlive.rewrite .rbp).same rfl rfl rfl) (by simp)

/-- R90: beside the Report Unit, robot `r` is all that its adoption changes. -/
theorem Part.robotAdopts_blocks (p : Part) (f : Profile) (hf : p.cvt.profile = some f) (r : Fin 6) :
    let q := p.robotAdopts f r
    q = { p with rbp := { p.rbp with robots := modAt p.rbp.robots r (Robot.under f r) }, rpu := q.rpu, mem := q.mem } ∧
      q.rpu.fault = p.rpu.fault := by
  intro q
  have hq := p.robotAdopts_as f hf r
  have hrobots : modAt (modAt p.rbp.robots r fun k => { k with live := f.robots[r].window.clamped f.pitch }) r
      (fun k => { k with failureRun := 0 }) = modAt p.rbp.robots r (Robot.under f r) := modAt_modAt _ _ _ _
  rw [← hrobots, show q = _ from hq]
  split <;> exact ⟨rfl, by simp [Part.windowTaken]⟩

theorem Part.robotsAdopt_fold (f : Profile) (l : List (Fin 6)) (p : Part) (hf : p.cvt.profile = some f) :
    let q := l.foldl (Part.robotAdopts f) p
    q = { p with rbp := { p.rbp with robots := l.foldl (fun v r => modAt v r (Robot.under f r)) p.rbp.robots }
                 rpu := q.rpu, mem := q.mem } ∧
      q.rpu.fault = p.rpu.fault ∧
      p.Speaks q ((l.filter f.zeroes).map fun r => (.zeroWindow, robotMember r)) [.bulletin 2, .mirror .rbp] := by
  induction l generalizing p with
  | nil => exact ⟨rfl, rfl, (Part.Speaks.refl p).mono (by simp)⟩
  | cons r l ih =>
    obtain ⟨hblocks, hfault⟩ := p.robotAdopts_blocks f hf r
    have hspeaks := p.robotAdopts_speaks f hf r
    have hcvt : (p.robotAdopts f r).cvt.profile = some f := by rw [hblocks]; exact hf
    obtain ⟨ihblocks, ihfault, ihspeaks⟩ := ih _ hcvt
    have hfield {α : Type} (π : Part → α) := congrArg π hblocks
    refine ⟨ihblocks.trans (Part.eq_of_fields (hfield (·.mtu)) (hfield (·.cvt)) (hfield (·.trl)) (congrArg
      (fun b : Rbp => { b with robots := l.foldl (fun v r => modAt v r (Robot.under f r)) b.robots }) (hfield (·.rbp)))
      (hfield (·.ctu)) (hfield (·.rej)) (hfield (·.spm)) (hfield (·.sac)) (hfield (·.odk)) rfl (hfield (·.syncLine))
      (hfield (·.lrst)) rfl (hfield (·.freeCount))), ihfault.trans hfault, ?_⟩
    · have h := (hspeaks.trans ihspeaks).mono (j := [.bulletin 2, .mirror .rbp]) (by simp)
      rw [List.foldl_cons]
      by_cases hz : f.zeroes r = true
      · simpa [hz] using h
      · simpa [hz] using h

theorem sixes_nodup : sixes.Nodup := by decide

/-- R90: the Robot Pacer takes its part. -/
theorem Part.robotsAdopt_under (p : Part) (f : Profile) (hf : p.cvt.profile = some f) :
    let q := p.robotsAdopt f
    q = { p with rbp := p.rbp.under f, rpu := q.rpu, mem := q.mem } ∧ q.rpu.fault = p.rpu.fault ∧
      p.Speaks q ((sixes.filter f.zeroes).map fun r => (.zeroWindow, robotMember r))
        [.bulletin 2, .mirror .rbp, .mirror .rbp] := by
  intro q
  obtain ⟨hblocks, hfault, hspeaks⟩ := Part.robotsAdopt_fold f sixes p hf
  have hrobots : sixes.foldl (fun v r => modAt v r (Robot.under f r)) p.rbp.robots =
      Vector.ofFn fun r : Fin 6 => Robot.under f r p.rbp.robots[r] :=
    foldl_modAt_all (fun r => Robot.under f r) sixes sixes_nodup mem_sixes _
  rw [hrobots] at hblocks
  obtain ⟨R, hR⟩ : ∃ R, R = sixes.foldl (Part.robotAdopts f) p := ⟨_, rfl⟩
  have hq : q = (R.modRbp fun b => { b with rotation := f.rotation, cursor := 0 }).rewrite .rbp := by rw [hR]; rfl
  rw [← hR] at hblocks hfault hspeaks
  have hfield {α : Type} (π : Part → α) := congrArg π hblocks
  rw [hq]
  refine ⟨?_, hfault, ?_⟩
  · refine Part.eq_of_fields (hfield (·.mtu)) (hfield (·.cvt)) (hfield (·.trl)) ?_ (hfield (·.ctu)) (hfield (·.rej))
      (hfield (·.spm)) (hfield (·.sac)) (hfield (·.odk)) rfl (hfield (·.syncLine)) (hfield (·.lrst)) rfl (hfield (·.freeCount))
    exact congrArg (fun b : Rbp => { b with rotation := f.rotation, cursor := 0 }) (hfield (·.rbp))
  · exact (hspeaks.same (r := R.modRbp fun b => { b with rotation := f.rotation, cursor := 0 }) rfl rfl rfl).rewrite .rbp

/-- R111: camera `c` under the profile. -/
def Camera.under (f : Profile) (c : Fin 6) (k : Camera) : Camera :=
  if f.cameras[c].present then { k with missedRun := 0 }
  else { k with hostService := false, zoneService := false, degraded := false, degradeCause := none
                portSilent := false, missedRun := 0 }

/-- R111: the Camera Trigger Unit takes its part. -/
theorem Part.camerasAdopt_under (p : Part) (f : Profile) (hf : p.cvt.profile = some f) :
    p.camerasAdopt = (p.modCtu fun b => b.under f).rewrite .ctu := by
  have hfold : ∀ (l : List (Fin 6)) (q : Part), q.cvt.profile = some f → l.foldl (fun p c =>
      p.modCamera c fun k => if p.cameraPresent c then { k with missedRun := 0 }
        else { k with hostService := false, zoneService := false, degraded := false, degradeCause := none,
                      portSilent := false, missedRun := 0 }) q =
      q.modCtu fun b => { b with cameras := l.foldl (fun v c => modAt v c (Camera.under f c)) b.cameras } := by
    intro l
    induction l with
    | nil => exact fun q _ => rfl
    | cons c l ih =>
      intro q hq
      have hpresent : q.cameraPresent c = f.cameras[c].present := by
        simp [Part.cameraPresent, Part.cameraSettings, hq]
      rw [List.foldl_cons, ih (q.modCamera c _) hq, hpresent]
      rfl
  have hcameras (v : Vector Camera 6) : sixes.foldl (fun v c => modAt v c (Camera.under f c)) v =
      Vector.ofFn fun c : Fin 6 => Camera.under f c v[c] :=
    foldl_modAt_all (fun c => Camera.under f c) sixes sixes_nodup mem_sixes _
  unfold Part.camerasAdopt
  dsimp only
  rw [hfold sixes p hf]
  simp only [hcameras]
  rfl

/-- R143: port `i` under the profile. -/
def Port.under (f : Profile) (now : Time) (i : Fin 16) (k : Port) : Port :=
  let s := f.ports[i]
  if k.role = s.role then
    { k with limit := s.limit, action := s.action
             deadline := if k.link = true ∧ k.admission = .opened then some (now + ms s.limit) else k.deadline }
  else { k with role := s.role, admission := .closed, limit := s.limit, action := s.action, deadline := none
                silent := false, drops := 0, silences := 0, quarantines := 0 }

theorem Part.portAdopt_under (p : Part) (f : Profile) (i : Fin 16)
    (h : ¬ (p.spm.ports[i].silent = true ∧ p.spm.ports[i].role ≠ f.ports[i].role)) :
    p.portAdopt i f.ports[i] = p.modPort i (Port.under f p.now i) := by
  have hmod (g : Port → Port) (hg : g p.spm.ports[i] = Port.under f p.now i p.spm.ports[i]) :
      p.modPort i g = p.modPort i (Port.under f p.now i) := by
    unfold Part.modPort Part.modSpm modAt
    simp only [Fin.getElem_fin] at hg
    simp only [Fin.getElem_fin, hg]
  unfold Part.portAdopt
  dsimp only
  by_cases hr : p.spm.ports[i].role = f.ports[i].role
  · rw [if_pos hr]
    refine hmod _ ?_
    unfold Port.under Port.supervised
    simp only [hr, if_true, Bool.and_eq_true, beq_iff_eq]
  · have hsilent : p.spm.ports[i].silent = false := Bool.eq_false_iff.mpr fun hs => h ⟨hs, hr⟩
    rw [if_neg hr, hsilent]
    refine hmod _ ?_
    unfold Port.under
    simp only [if_neg hr]

theorem mem_sixteens (i : Fin 16) : i ∈ sixteens := by revert i; decide

theorem sixteens_nodup : sixteens.Nodup := by decide

/-- R143: the Switch Port Monitor takes its part, no port that changes its role being silent. -/
theorem Part.portsAdopt_under (p : Part) (f : Profile)
    (h : ∀ i : Fin 16, ¬ (p.spm.ports[i].silent = true ∧ p.spm.ports[i].role ≠ f.ports[i].role)) :
    p.portsAdopt f = (p.modSpm fun b => b.under f p.now).rewrite .spm := by
  have hfold : ∀ (l : List (Fin 16)) (q : Part), q.now = p.now →
      (∀ i : Fin 16, ¬ (q.spm.ports[i].silent = true ∧ q.spm.ports[i].role ≠ f.ports[i].role)) →
      l.foldl (fun p i => p.portAdopt i f.ports[i]) q = q.modSpm fun b =>
        { b with ports := l.foldl (fun v i => modAt v i (Port.under f p.now i)) b.ports } := by
    intro l
    induction l with
    | nil => exact fun q _ _ => rfl
    | cons i l ih =>
      intro q hnow hq
      have hnext : ∀ k : Fin 16, ¬ ((q.modPort i (Port.under f p.now i)).spm.ports[k].silent = true ∧
          (q.modPort i (Port.under f p.now i)).spm.ports[k].role ≠ f.ports[k].role) := by
        intro k
        by_cases hk : k = i
        · subst hk
          have hrole : (Port.under f p.now k q.spm.ports[k]).role = f.ports[k].role := by
            unfold Port.under; dsimp only; split
            · assumption
            · rfl
          rw [show (q.modPort k (Port.under f p.now k)).spm.ports[k] = Port.under f p.now k q.spm.ports[k] from modAt_self _ _ _]
          exact fun hc => hc.2 hrole
        · have hne : i.val ≠ k.val := fun e => hk (Fin.ext e.symm)
          rw [show (q.modPort i (Port.under f p.now i)).spm.ports[k] = q.spm.ports[k] by simp [modAt, hne]]
          exact hq k
      rw [List.foldl_cons, q.portAdopt_under f i (hq i), hnow, ih (q.modPort i _) hnow hnext]
      rfl
  have hports (v : Vector Port 16) : sixteens.foldl (fun v i => modAt v i (Port.under f p.now i)) v =
      Vector.ofFn fun i : Fin 16 => Port.under f p.now i v[i] :=
    foldl_modAt_all (fun i => Port.under f p.now i) sixteens sixteens_nodup mem_sixteens _
  unfold Part.portsAdopt
  rw [hfold sixteens p rfl h]
  simp only [hports]
  rfl

theorem eights_nodup : eights.Nodup := by decide

/-- R164: the zones take their part, no door reading open. -/
theorem Part.zonesAdopt_under (p : Part) (f : Profile) (h : ∀ z : Fin 8, p.doorOpen z = false) :
    p.zonesAdopt f = (p.modSac fun b => b.under f).rewrite .sac := by
  have htrim : ∀ (l : List (Fin 8)) (q : Part), l.foldl (fun p z =>
      p.modZone z fun k => { k with haltedByZone := k.haltedByZone &&& f.zones[z].robots }) q = q.modSac fun b =>
        { b with zones := l.foldl (fun v z =>
          modAt v z fun k => { k with haltedByZone := k.haltedByZone &&& f.zones[z].robots }) b.zones } := by
    intro l
    induction l with
    | nil => exact fun q => rfl
    | cons z l ih => exact fun q => by rw [List.foldl_cons, ih]; rfl
  have hzones (v : Vector Zone 8) := foldl_modAt_all
    (fun (z : Fin 8) (k : Zone) => { k with haltedByZone := k.haltedByZone &&& f.zones[z].robots }) eights eights_nodup mem_eights v
  have hclosed : ∀ z : Fin 8, (p.modSac fun b => b.under f).doorOpen z = false := fun z => by
    have hz := h z
    unfold Part.doorOpen at hz ⊢
    simpa [Sac.under, Part.hasDoor_congr (p := p)] using hz
  have hnone : ∀ l : List (Fin 8), l.foldl (fun p z => p.zoneAdopt z) (p.modSac fun b => b.under f) =
      p.modSac fun b => b.under f :=
    fun l => fold_fix l _ _ fun z => by unfold Part.zoneAdopt; rw [if_neg (by rw [hclosed z]; decide)]
  unfold Part.zonesAdopt
  rw [htrim eights p]
  simp only [hzones]
  exact congrArg (Part.rewrite · .sac) (hnone eights)

/-- R14: the MTU takes its part, no step pending. -/
def Mtu.under (m : Mtu) (mode : SyncMode) : Mtu :=
  if m.syncMode = mode then m
  else { m with syncMode := mode, syncState := .absent, windowEnd := none, lossDeadline := none }

theorem Part.syncAdopt_under (p : Part) (mode : SyncMode) (hn : p.mtu.pendingStep = none) :
    let q := p.syncAdopt mode
    q = { p with mtu := p.mtu.under mode, rpu := q.rpu, mem := q.mem } ∧ q.rpu.fault = p.rpu.fault ∧
      p.Speaks q [] [.mirror .mtu] := by
  intro q
  by_cases h : p.mtu.syncMode = mode
  · have hq : q = p := if_pos h
    rw [hq, Mtu.under, if_pos h]
    exact ⟨rfl, rfl, (Part.Speaks.refl p).mono (by simp)⟩
  · have hrelease : (if mode = .none then p.releaseStep else p) = p := by rw [Part.releaseStep_none p hn, ite_self]
    have hq : q = (p.modMtu fun m =>
        { m with syncMode := mode, syncState := .absent, windowEnd := none, lossDeadline := none }).rewrite .mtu := by
      unfold q Part.syncAdopt
      rw [if_neg h]
      simp only [hrelease]
    rw [hq, Mtu.under, if_neg h]
    exact ⟨rfl, rfl, (Part.Speaks.refl_of (p := p) (q := p.modMtu _) rfl rfl rfl).rewrite .mtu⟩

/-- R25: the tracker takes its part. -/
def Cvt.adopted (c : Cvt) : Cvt :=
  { c with highWater := c.position, depth := 0, excursion := false, phase := 0, markCount := 0, marks := []
           pace := 0, paceState := .crawl, tracker := .ready }

theorem Part.trackerAdopt_cvt (p : Part) : p.trackerAdopt.cvt = p.cvt.adopted := by
  unfold Part.trackerAdopt
  simp only [Part.rewrite_frame, Part.raise_frame, Part.modCvt_fields, Part.enterCrawl_cvt]
  rfl

theorem Part.trackerAdopt_under (p : Part) (h : p.cvt.paceState ≠ .timed) :
    let q := p.trackerAdopt
    q = { p with cvt := p.cvt.adopted, rpu := q.rpu, mem := q.mem } ∧ q.rpu.fault = p.rpu.fault ∧
      p.Speaks q [(.profiled, 0)] [.mirror .cvt, .bulletin 1, .mirror .cvt] := by
  intro q
  let A := p.modCvt fun c =>
    { c with highWater := c.position, depth := 0, excursion := false, phase := 0, markCount := 0 }
  have hcrawl : A.enterCrawl = (A.modCvt Cvt.crawled).rewrite .cvt := A.enterCrawl_plain h
  have hq : q = ((((A.modCvt Cvt.crawled).rewrite .cvt).modCvt fun c => { c with tracker := .ready }).raise
      .profiled).rewrite .cvt := by rw [← hcrawl]; rfl
  have hA : p.Speaks (A.modCvt Cvt.crawled) [] [] := .refl_of rfl rfl rfl
  rw [hq]
  exact ⟨rfl, rfl, (((hA.rewrite .cvt).same (r := ((A.modCvt Cvt.crawled).rewrite .cvt).modCvt fun c =>
    { c with tracker := .ready }) rfl rfl rfl).raise .profiled 0).rewrite .cvt⟩

/-! ## The whole adoption (R170) -/

/-- Nothing but the MTU, the tracker, the Robot Pacer, the Report Unit and the memory differs. -/
structure Part.PaceOnly (p q : Part) : Prop where
  trl : q.trl = p.trl
  ctu : q.ctu = p.ctu
  rej : q.rej = p.rej
  spm : q.spm = p.spm
  sac : q.sac = p.sac
  odk : q.odk = p.odk
  syncLine : q.syncLine = p.syncLine
  lrst : q.lrst = p.lrst
  freeCount : q.freeCount = p.freeCount

theorem Part.PaceOnly.of_eq {p q : Part} {m : Mtu} {c : Cvt} {b : Rbp} {u : Rpu} {x : Memory}
    (h : q = { p with mtu := m, cvt := c, rbp := b, rpu := u, mem := x }) : p.PaceOnly q := by
  subst h; constructor <;> rfl

theorem Part.PaceOnly.trans {p q r : Part} (h : p.PaceOnly q) (k : q.PaceOnly r) : p.PaceOnly r :=
  ⟨k.trl.trans h.trl, k.ctu.trans h.ctu, k.rej.trans h.rej, k.spm.trans h.spm, k.sac.trans h.sac, k.odk.trans h.odk,
    k.syncLine.trans h.syncLine, k.lrst.trans h.lrst, k.freeCount.trans h.freeCount⟩

/-- The profile stands in the tracker before the blocks take their parts. -/
def Part.profiledAs (p : Part) (f : Profile) : Part := p.modCvt fun c => { c with profile := some f }

/-- The blocks of R14, R25 and R90 have taken their parts. -/
def Part.paceAdopted (p : Part) (f : Profile) : Part :=
  ((p.profiledAs f).syncAdopt f.syncMode).trackerAdopt.robotsAdopt f

theorem Part.paceAdopted_under (p : Part) (f : Profile) (hn : p.mtu.pendingStep = none) (ht : p.cvt.paceState ≠ .timed) :
    let q := p.paceAdopted f
    p.PaceOnly q ∧ q.mtu = p.mtu.under f.syncMode ∧ q.cvt = { p.cvt with profile := some f }.adopted ∧
      q.rbp = p.rbp.under f ∧ q.rpu.fault = p.rpu.fault ∧
      p.Speaks q ((.profiled, 0) :: (sixes.filter f.zeroes).map fun r => (.zeroWindow, robotMember r))
        [.mirror .mtu, .mirror .cvt, .bulletin 1, .mirror .cvt, .bulletin 2, .mirror .rbp, .mirror .rbp] := by
  intro q
  have hp : p.Speaks (p.profiledAs f) [] [] := .refl_of rfl rfl rfl
  obtain ⟨hsync, hsyncFault, hsyncSpeaks⟩ := (p.profiledAs f).syncAdopt_under f.syncMode hn
  obtain ⟨A, hA⟩ : ∃ A, A = (p.profiledAs f).syncAdopt f.syncMode := ⟨_, rfl⟩
  rw [← hA] at hsync hsyncFault hsyncSpeaks
  have hAcvt : A.cvt = { p.cvt with profile := some f } := congrArg Part.cvt hsync
  obtain ⟨htrack, htrackFault, htrackSpeaks⟩ := A.trackerAdopt_under (by rw [hAcvt]; exact ht)
  obtain ⟨B, hB⟩ : ∃ B, B = A.trackerAdopt := ⟨_, rfl⟩
  rw [← hB] at htrack htrackFault htrackSpeaks
  have hBcvt : B.cvt = { p.cvt with profile := some f }.adopted := by rw [← hAcvt]; exact congrArg Part.cvt htrack
  have hBmtu : B.mtu = p.mtu.under f.syncMode := (congrArg Part.mtu htrack).trans (congrArg Part.mtu hsync)
  have hArbp : A.rbp = p.rbp := (congrArg Part.rbp hsync).trans rfl
  have hBrbp : B.rbp = p.rbp := (congrArg Part.rbp htrack).trans hArbp
  obtain ⟨hrobots, hrobotsFault, hrobotsSpeaks⟩ := B.robotsAdopt_under f (by rw [hBcvt]; rfl)
  rw [show B.robotsAdopt f = q by rw [hB, hA]; rfl] at hrobots hrobotsFault hrobotsSpeaks
  have honly : p.PaceOnly A := .of_eq hsync
  refine ⟨(honly.trans (.of_eq htrack)).trans (.of_eq hrobots), (congrArg Part.mtu hrobots).trans hBmtu,
    (congrArg Part.cvt hrobots).trans hBcvt, ?_, hrobotsFault.trans (htrackFault.trans hsyncFault),
    by simpa using ((hp.trans hsyncSpeaks).trans htrackSpeaks).trans hrobotsSpeaks⟩
  rw [← hBrbp]
  exact congrArg Part.rbp hrobots

/-- R143, R164: sockets and zones take their parts. -/
theorem Part.accessAdopted_under (p : Part) (f : Profile) (hf : p.cvt.profile = some f)
    (hstale : ∀ i : Fin 16, ¬ (p.spm.ports[i].silent = true ∧ p.spm.ports[i].role ≠ f.ports[i].role))
    (hopens : ∀ z : Fin 8, ¬ (f.zones[z].doorPresent = true ∧ p.sac.zones[z].door = true)) :
    (p.portsAdopt f).zonesAdopt f =
      (((p.modSpm fun b => b.under f p.now).rewrite .spm).modSac fun b => b.under f).rewrite .sac := by
  rw [p.portsAdopt_under f hstale]
  refine Part.zonesAdopt_under _ f fun z => ?_
  have hdoor : ((p.modSpm fun b => b.under f p.now).rewrite .spm).doorOpen z =
      (f.zones[z].doorPresent && p.sac.zones[z].door) := by
    unfold Part.doorOpen Part.hasDoor Part.zoneMap
    simp only [Part.rewrite_frame, Part.modSpm_fields, hf, Option.map_some]
  rw [hdoor]
  simpa using hopens z

/-- R111, R143, R164: the cameras, the sockets and the zones take their parts. -/
theorem Part.restAdopted_under (p : Part) (f : Profile) (hf : p.cvt.profile = some f)
    (hstale : ∀ i : Fin 16, ¬ (p.spm.ports[i].silent = true ∧ p.spm.ports[i].role ≠ f.ports[i].role))
    (hopens : ∀ z : Fin 8, ¬ (f.zones[z].doorPresent = true ∧ p.sac.zones[z].door = true)) :
    let q := ((p.camerasAdopt.rewrite .rej).portsAdopt f).zonesAdopt f
    q = { p with ctu := p.ctu.under f, spm := p.spm.under f p.now, sac := p.sac.under f, rpu := q.rpu, mem := q.mem } ∧
      q.rpu.fault = p.rpu.fault ∧ p.Speaks q [] [.mirror .ctu, .mirror .rej, .mirror .spm, .mirror .sac] := by
  intro q
  obtain ⟨C, hC⟩ : ∃ C, C = ((p.modCtu fun b => b.under f).rewrite .ctu).rewrite .rej := ⟨_, rfl⟩
  have hcameras : p.Speaks C [] [.mirror .ctu, .mirror .rej] := by
    rw [hC]
    exact ((Part.Speaks.refl_of (p := p) (q := p.modCtu _) rfl rfl rfl).rewrite .ctu).rewrite .rej
  have hcvt : C.cvt = p.cvt := by simp [hC]
  have hspm : C.spm = p.spm := by simp [hC]
  have hsac : C.sac = p.sac := by simp [hC]
  have hq : q = (((C.modSpm fun b => b.under f C.now).rewrite .spm).modSac fun b => b.under f).rewrite .sac := by
    rw [← C.accessAdopted_under f (by rw [hcvt]; exact hf) (by rw [hspm]; exact hstale) (by rw [hsac]; exact hopens), hC,
      ← p.camerasAdopt_under f hf]
  have hnow : C.now = p.now := hcameras.now
  rw [hnow] at hq
  have hports := (hcameras.same (r := C.modSpm fun b => b.under f p.now) rfl rfl rfl).rewrite .spm
  obtain ⟨D, hD⟩ : ∃ D, D = (C.modSpm fun b => b.under f p.now).rewrite .spm := ⟨_, rfl⟩
  rw [← hD] at hports hq
  rw [hq]
  refine ⟨?_, ?_, (hports.same (r := D.modSac fun b => b.under f) rfl rfl rfl).rewrite .sac⟩
  · refine Part.eq_of_fields ?_ ?_ ?_ ?_ ?_ ?_ ?_ ?_ ?_ rfl ?_ ?_ rfl ?_ <;> simp [hD, hC]
  · simp [hD, hC]

/-- What the adoption leaves in the statement's case, before the order completes. -/
theorem Part.takeParts_under (p : Part) (f : Profile) (hn : p.mtu.pendingStep = none) (ht : p.cvt.paceState ≠ .timed)
    (hstale : ∀ i : Fin 16, ¬ (p.spm.ports[i].silent = true ∧ p.spm.ports[i].role ≠ f.ports[i].role))
    (hopens : ∀ z : Fin 8, ¬ (f.zones[z].doorPresent = true ∧ p.sac.zones[z].door = true)) :
    let q := p.takeParts f
    q = { p with mtu := p.mtu.under f.syncMode, cvt := { p.cvt with profile := some f }.adopted, rbp := p.rbp.under f
                 ctu := p.ctu.under f, spm := p.spm.under f p.now, sac := p.sac.under f, rpu := q.rpu, mem := q.mem } ∧
      q.rpu.fault = p.rpu.fault ∧
      ∃ k, p.Speaks q ((.profiled, 0) :: (sixes.filter f.zeroes).map fun r => (.zeroWindow, robotMember r)) k := by
  intro q
  obtain ⟨honly, hmtu, hcvt, hrbp, hfault, hspeaks⟩ := p.paceAdopted_under f hn ht
  obtain ⟨S, hS⟩ : ∃ S, S = p.paceAdopted f := ⟨_, rfl⟩
  rw [← hS] at honly hmtu hcvt hrbp hfault hspeaks
  obtain ⟨heq, hrestFault, hrestSpeaks⟩ := S.restAdopted_under f (by rw [hcvt]; rfl) (by rw [honly.spm]; exact hstale)
    (by rw [honly.sac]; exact hopens)
  rw [show (((S.camerasAdopt.rewrite .rej).portsAdopt f).zonesAdopt f) = q by rw [hS]; rfl] at heq hrestFault hrestSpeaks
  have hnow : S.now = p.now := hspeaks.now
  rw [honly.ctu, honly.spm, honly.sac, hnow] at heq
  refine ⟨heq.trans ?_, hrestFault.trans hfault, ⟨_, by simpa using hspeaks.trans hrestSpeaks⟩⟩
  exact Part.eq_of_fields hmtu hcvt honly.trl hrbp rfl honly.rej rfl rfl honly.odk rfl honly.syncLine honly.lrst rfl
    honly.freeCount

theorem Profile.clamps_iff (f : Profile) : f.clamps = true ↔ ∃ r : Fin 6, f.pitch < f.robots[r].window.closing := by
  unfold Profile.clamps
  rw [List.any_eq_true]
  constructor
  · rintro ⟨k, hk, h⟩
    obtain ⟨i, hi, rfl⟩ := Vector.mem_iff_getElem.mp (Vector.mem_toList_iff.mp hk)
    exact ⟨⟨i, hi⟩, by simpa using h⟩
  · rintro ⟨r, h⟩
    exact ⟨f.robots[r], Vector.mem_toList_iff.mpr (Vector.getElem_mem _), by simpa using h⟩

theorem Profile.clamps_result (f : Profile) : Result.clampedIf f.clamps =
    if ∃ r : Fin 6, f.pitch < f.robots[r].window.closing then .clamped else .ok := by
  unfold Result.clampedIf
  simp only [f.clamps_iff]

/-- R171: the profile record of an adoption. -/
def ProfileRecord.adopted (x : ProfileRecord) (now : Time) : ProfileRecord :=
  { x with count := min 65535 (x.count + 1), adoptedAt := Time.low now }

/-- The adoption is over; its order has not completed. -/
def Part.adoptionEnded (p : Part) : Part :=
  p.modCvt fun c => { c with adoption := none, profileRecord := c.profileRecord.adopted p.now }

theorem Part.adopt_eq (p : Part) (ref : OrderRef) (f : Profile) :
    p.adopt ref f = ((p.takeParts f).adoptionEnded.complete ref (.clampedIf f.clamps)).rewrite .profile := by
  unfold Part.adopt Part.adoptionEnded ProfileRecord.adopted
  simp only [inc16_eq]

/-- R170, R171: an adoption in which no door reads open, no silent port changes its role, no step is pending and the pace
is not TIMED, its order held. -/
theorem Part.adopt_under (p : Part) (e : InFlight) (f : Profile) (hn : p.mtu.pendingStep = none)
    (ht : p.cvt.paceState ≠ .timed)
    (hstale : ∀ i : Fin 16, ¬ (p.spm.ports[i].silent = true ∧ p.spm.ports[i].role ≠ f.ports[i].role))
    (hopens : ∀ z : Fin 8, ¬ (f.zones[z].doorPresent = true ∧ p.sac.zones[z].door = true)) (he : p.odk.holds e) :
    let q := p.adopt e.ref f
    q.mtu = p.mtu.under f.syncMode ∧
    q.cvt = { { p.cvt with profile := some f }.adopted with
      adoption := none, profileRecord := p.cvt.profileRecord.adopted p.now } ∧
    q.rbp = p.rbp.under f ∧ q.ctu = p.ctu.under f ∧ q.spm = p.spm.under f p.now ∧ q.sac = p.sac.under f ∧
    q = { p with mtu := q.mtu, cvt := q.cvt, rbp := q.rbp, ctu := q.ctu, spm := q.spm, sac := q.sac, odk := q.odk
                 rpu := q.rpu, mem := q.mem } ∧
    p.concludes q e (.clampedIf f.clamps) ∧ q.mirrored .profile ∧
    p.tells q (((.profiled, 0) :: (sixes.filter f.zeroes).map fun r => (.zeroWindow, robotMember r)) ++ [e.told]) := by
  intro q
  obtain ⟨heq, hfault, k, hspeaks⟩ := p.takeParts_under f hn ht hstale hopens
  have hq : q = _ := p.adopt_eq e.ref f
  clear_value q
  obtain ⟨S, hS⟩ : ∃ S, S = p.takeParts f := ⟨_, rfl⟩
  rw [← hS] at heq hfault hspeaks hq
  have hnow : S.now = p.now := hspeaks.now
  have hfield {α : Type} (π : Part → α) := congrArg π heq
  have hodk : S.odk = p.odk := (hfield Part.odk).trans rfl
  have hheld : S.adoptionEnded.odk.holds e := by rw [show S.adoptionEnded.odk = p.odk from hodk]; exact he
  have hended := hspeaks.same (r := S.adoptionEnded) rfl rfl rfl
  obtain ⟨hodkC, hcell, -, -, -⟩ := Part.concluded S.adoptionEnded e (.clampedIf f.clamps) 0 hheld
  have hcompleted := (hended.concluded hheld (.clampedIf f.clamps) 0).rewrite .profile
  rw [← hq] at hcompleted
  refine ⟨?_, ?_, ?_, ?_, ?_, ?_, ?_, ⟨?_, ?_⟩, ?_, ?_⟩
  · rw [hq]; simpa [Part.adoptionEnded] using hfield (·.mtu)
  · rw [hq]
    have hcvt : S.cvt = { p.cvt with profile := some f }.adopted := hfield (·.cvt)
    simp only [Part.rewrite_frame, Part.complete_frame, Part.adoptionEnded, Part.modCvt_fields, hcvt, hnow]
    rfl
  · rw [hq]; simpa [Part.adoptionEnded] using hfield (·.rbp)
  · rw [hq]; simpa [Part.adoptionEnded] using hfield (·.ctu)
  · rw [hq]; simpa [Part.adoptionEnded] using hfield (·.spm)
  · rw [hq]; simpa [Part.adoptionEnded] using hfield (·.sac)
  · refine Part.eq_of_fields rfl rfl ?_ rfl rfl ?_ rfl rfl rfl rfl ?_ ?_ rfl ?_ <;> rw [hq]
    · simpa [Part.adoptionEnded] using hfield (·.trl)
    · simpa [Part.adoptionEnded] using hfield (·.rej)
    · simpa [Part.adoptionEnded] using hfield (·.syncLine)
    · simpa [Part.adoptionEnded] using hfield (·.lrst)
    · simpa [Part.adoptionEnded] using hfield (·.freeCount)
  · rw [hq]
    simp only [Part.rewrite_frame]
    rw [hodkC, show S.adoptionEnded.odk = p.odk from hodk]
  · unfold Part.shows
    rw [hcompleted.now, hq, Part.rewrite_cell, hcell, hended.now]
  · rw [hq]; exact Part.rewrite_mirrored _ _
  · exact hcompleted.tells (by rw [hq]; simpa [Part.adoptionEnded] using hfault)

end Sys2Proof.Machine
end

section
/-! PROOFS. An adoption in any state (R164, R170): what the zones, the robots they halt and the cameras they serve leave
alone. -/

namespace Sys2Proof.Machine

/-! ## Only a port's supervision sets a camera's silence -/

@[simp] theorem modAt_camera_portSilent (v : Vector Camera 6) (i k : Fin 6) (g : Camera → Camera)
    (h : ∀ x, (g x).portSilent = x.portSilent) : (modAt v i g)[k.val].portSilent = v[k.val].portSilent := by
  rw [modAt_get]; split <;> simp [h]

theorem fold_portSilent {α : Type} (l : List α) (f : Part → α → Part) (p : Part) (k : Fin 6)
    (h : ∀ p a, (f p a).ctu.cameras[k.val].portSilent = p.ctu.cameras[k.val].portSilent) :
    (l.foldl f p).ctu.cameras[k.val].portSilent = p.ctu.cameras[k.val].portSilent :=
  fold_keep (fun p => p.ctu.cameras[k.val].portSilent) l f p h

@[simp] theorem Part.noVerdict_portSilent (p : Part) (seq : Word) (c k : Fin 6) :
    (p.noVerdict seq c).ctu.cameras[k.val].portSilent = p.ctu.cameras[k.val].portSilent := by
  unfold Part.noVerdict Part.countCamera; simp

@[simp] theorem Part.emptyAwaiting_portSilent (p : Part) (c k : Fin 6) :
    (p.emptyAwaiting c).ctu.cameras[k.val].portSilent = p.ctu.cameras[k.val].portSilent := by
  unfold Part.emptyAwaiting
  dsimp only
  rw [fold_portSilent _ _ _ _ (fun _ _ => by simp)]
  simp

@[simp] theorem Part.gainMissed_portSilent (p : Part) (c k : Fin 6) :
    (p.gainMissed c).ctu.cameras[k.val].portSilent = p.ctu.cameras[k.val].portSilent := by
  unfold Part.gainMissed Part.degrade; dsimp only; (repeat' split) <;> simp

@[simp] theorem Part.makeRoom_portSilent (n : Nat) (first : Bool) (p : Part) (c : Fin 6) (seq : Word) (k : Fin 6) :
    (Part.makeRoom n first p c seq).ctu.cameras[k.val].portSilent = p.ctu.cameras[k.val].portSilent :=
  Part.makeRoom_keep (fun p => p.ctu.cameras[k.val].portSilent) c seq (fun _ _ => by simp) (fun _ _ => by simp)
    (fun _ => by simp) (fun _ => by simp) n first p

@[simp] theorem Part.takeFire_portSilent (p : Part) (c : Fin 6) (seq : Word) (k : Fin 6) :
    (p.takeFire c seq).ctu.cameras[k.val].portSilent = p.ctu.cameras[k.val].portSilent := by
  have hhappen (p : Part) : (p.happen c).ctu.cameras[k.val].portSilent = p.ctu.cameras[k.val].portSilent := by
    unfold Part.happen Part.joinAwaiting; dsimp only; (repeat' split) <;> simp
  unfold Part.takeFire Part.fallDue Part.setFireTime
  dsimp only
  (repeat' split) <;> simp [hhappen]

@[simp] theorem Part.cameraChanged_portSilent (p : Part) (c : Fin 6) (before : CameraState) (k : Fin 6) :
    (p.cameraChanged c before).ctu.cameras[k.val].portSilent = p.ctu.cameras[k.val].portSilent := by
  have hfires (l : List Word) (p : Part) :
      (l.foldl (fun p seq => p.takeFire c seq) p).ctu.cameras[k.val].portSilent = p.ctu.cameras[k.val].portSilent :=
    fold_portSilent _ _ _ _ fun _ _ => by simp
  unfold Part.cameraChanged
  dsimp only
  (repeat' split) <;> simp [hfires]

@[simp] theorem Part.zoneServiceAll_portSilent (p : Part) (z : Fin 8) (on : Bool) (k : Fin 6) :
    (p.zoneServiceAll z on).ctu.cameras[k.val].portSilent = p.ctu.cameras[k.val].portSilent := by
  unfold Part.zoneServiceAll
  refine fold_portSilent _ _ _ _ fun p c => ?_
  unfold Part.zoneServiceMember Part.zoneService Part.setCameraFlags
  dsimp only
  (repeat' split) <;> simp

@[simp] theorem Part.sealZone_portSilent (p : Part) (z : Fin 8) (e : AccessEvent) (c : Completion) (b : Byte) (k : Fin 6) :
    (p.sealZone z e c b).ctu.cameras[k.val].portSilent = p.ctu.cameras[k.val].portSilent := by
  unfold Part.sealZone
  simp

@[simp] theorem Part.failRequest_portSilent (p : Part) (z : Fin 8) (r k : Fin 6) :
    (p.failRequest z r).ctu.cameras[k.val].portSilent = p.ctu.cameras[k.val].portSilent := by
  unfold Part.failRequest
  dsimp only
  (repeat' split) <;> simp

@[simp] theorem Part.grantApply_portSilent (p : Part) (z : Fin 8) (l : AccessLevel) (o : ZoneOrigin) (n : Nat) (b : Half)
    (k : Fin 6) : (p.grantApply z l o n b).ctu.cameras[k.val].portSilent = p.ctu.cameras[k.val].portSilent := by
  unfold Part.grantApply
  dsimp only
  (repeat' split) <;> simp

@[simp] theorem Part.judgeHalting_portSilent (p : Part) (z : Fin 8) (k : Fin 6) :
    (p.judgeHalting z).ctu.cameras[k.val].portSilent = p.ctu.cameras[k.val].portSilent := by
  unfold Part.judgeHalting
  (repeat' split) <;> simp

@[simp] theorem Part.hearRobot_portSilent (p : Part) (r : Fin 6) (z : Fin 8) (k : Fin 6) :
    (p.hearRobot r z).ctu.cameras[k.val].portSilent = p.ctu.cameras[k.val].portSilent := by
  unfold Part.hearRobot
  (repeat' split) <;> simp

/-! ## What a robot asked to halt leaves alone -/

/-- Silence of the cameras, the rotation and the cursor stand, and no robot has gained a run request. -/
structure Part.Quiet (p q : Part) : Prop where
  silent : ∀ c : Fin 6, q.ctu.cameras[c.val].portSilent = p.ctu.cameras[c.val].portSilent
  rotation : q.rbp.rotation = p.rbp.rotation
  cursor : q.rbp.cursor = p.rbp.cursor
  runReq : ∀ r : Fin 6, p.rbp.robots[r.val].runReq = false → q.rbp.robots[r.val].runReq = false

theorem Part.Quiet.trans {p q r : Part} (h : p.Quiet q) (k : q.Quiet r) : p.Quiet r where
  silent c := (k.silent c).trans (h.silent c)
  rotation := k.rotation.trans h.rotation
  cursor := k.cursor.trans h.cursor
  runReq r hr := k.runReq r (h.runReq r hr)

/-- The robots are not touched. -/
theorem Part.Quiet.of_rbp {p q : Part} (hb : q.rbp = p.rbp)
    (hsilent : ∀ c : Fin 6, q.ctu.cameras[c.val].portSilent = p.ctu.cameras[c.val].portSilent) : p.Quiet q :=
  ⟨hsilent, by rw [hb], by rw [hb], fun r h => by rw [hb]; exact h⟩

/-- A zone that is not HALTING stands, its badge too. -/
def Part.firm (p q : Part) (z : Fin 8) : Prop :=
  p.steady q z ∧ (p.sac.zones[z.val].state ≠ .halting → q.sac.zones[z.val].badge = p.sac.zones[z.val].badge)

theorem Part.firm.trans {p q r : Part} {z : Fin 8} (h : p.firm q z) (k : q.firm r z) : p.firm r z :=
  ⟨h.1.trans k.1, fun hz => (k.2 (by rw [(h.1 hz).1]; exact hz)).trans (h.2 hz)⟩

theorem Part.firm.of_eq {p q : Part} {z : Fin 8} (h : q.sac.zones[z.val] = p.sac.zones[z.val]) : p.firm q z :=
  ⟨fun _ => by simp [h], fun _ => by rw [h]⟩

/-- Quiet, and every zone firm. -/
structure Part.Calm (p q : Part) : Prop extends p.Quiet q where
  firm : ∀ z : Fin 8, p.firm q z

theorem Part.Calm.trans {p q r : Part} (h : p.Calm q) (k : q.Calm r) : p.Calm r :=
  ⟨h.toQuiet.trans k.toQuiet, fun z => (h.firm z).trans (k.firm z)⟩

theorem Part.Calm.of_rbp {p q : Part} (hs : q.sac = p.sac) (hb : q.rbp = p.rbp)
    (hsilent : ∀ c : Fin 6, q.ctu.cameras[c.val].portSilent = p.ctu.cameras[c.val].portSilent) : p.Calm q :=
  ⟨.of_rbp hb hsilent, fun _ => .of_eq (by rw [hs])⟩

theorem Part.Calm.refl (p : Part) : p.Calm p := .of_rbp rfl rfl fun _ => rfl

theorem Part.Calm.rewrite {p q : Part} (h : p.Calm q) (b : MirrorId) : p.Calm (q.rewrite b) :=
  h.trans (.of_rbp (by simp) (by simp) (by simp))

theorem Part.Calm.raise {p q : Part} (h : p.Calm q) (n : News) (b : Byte) : p.Calm (q.raise n b) :=
  h.trans (.of_rbp (by simp) (by simp) (by simp))

theorem Part.Calm.complete {p q : Part} (h : p.Calm q) (ref : OrderRef) (r : Result) (d : Byte) :
    p.Calm (q.complete ref r d) :=
  h.trans (.of_rbp (by simp) (by simp) (by simp))

theorem Part.Calm.fold {α : Type} (f : Part → α → Part) (h : ∀ p a, Part.Calm p (f p a)) (l : List α) (p : Part) :
    p.Calm (l.foldl f p) := by
  induction l generalizing p with
  | nil => exact .refl p
  | cons a l ih => exact (h p a).trans (ih _)

/-- A zone's record changed beside its state, level, origin and badge. -/
theorem Part.modZone_calm (p : Part) (y : Fin 8) (f : Zone → Zone) (hf : ∀ k, (f k).state = k.state ∧
    (f k).level = k.level ∧ (f k).origin = k.origin ∧ (f k).badge = k.badge := by exact fun _ => ⟨rfl, rfl, rfl, rfl⟩) :
    p.Calm (p.modZone y f) := by
  refine ⟨.of_rbp rfl fun _ => rfl, fun z => ?_⟩
  by_cases h : z = y
  · subst h
    obtain ⟨hstate, hlevel, horigin, hbadge⟩ := hf p.sac.zones[z.val]
    exact ⟨fun _ => by simp [hstate, hlevel, horigin], fun _ => by simp [hbadge]⟩
  · exact .of_eq (Part.modZone_apart _ _ _ _ h)

theorem Part.evalDoorRel_calm (p : Part) (z : Fin 8) : p.Calm (p.evalDoorRel z) := by
  unfold Part.evalDoorRel
  split
  · exact .refl p
  · exact .rewrite (p.modZone_calm z _) .sac

theorem Part.hearRobot_calm (p : Part) (r : Fin 6) (y : Fin 8) : p.Calm (p.hearRobot r y) := by
  refine ⟨.of_rbp (by simp) (by simp), fun z => ⟨p.hearRobot_steady r y z, fun hz => ?_⟩⟩
  by_cases h : z = y
  · subst h
    unfold Part.hearRobot
    split
    · rw [if_neg (show ¬ p.sac.zones[z].state = .halting from hz)]
      exact ((p.evalDoorRel_calm z).firm z).2 hz
    · rfl
  · rw [Part.hearRobot_apart _ _ _ _ h]

theorem Part.markResume_calm (p : Part) (z : Fin 8) (r : Fin 6) (m : ResumeMark) (c : Option Completion) :
    p.Calm (p.markResume z r m c) := by
  unfold Part.markResume
  exact .rewrite (p.modZone_calm z _) .sac

theorem Part.finishResume_calm (p : Part) (z : Fin 8) (ref : OrderRef) : p.Calm (p.finishResume z ref) := by
  unfold Part.finishResume
  dsimp only
  split
  · exact .complete (.rewrite (p.modZone_calm z _) .sac) _ _ _
  · exact .refl p

theorem Part.settleResume_calm (p : Part) (z : Fin 8) (r : Fin 6) : p.Calm (p.settleResume z r) := by
  have hfinish (q : Part) : q.Calm (match q.sac.zones[z].resumeOrder with
      | some ref => q.finishResume z ref
      | none => q) := by
    split
    · exact q.finishResume_calm z _
    · exact .refl q
  unfold Part.settleResume
  dsimp only
  split
  · refine Part.Calm.trans ?_ (hfinish _)
    split
    · exact p.markResume_calm z r _ _
    · exact p.markResume_calm z r _ _
    · exact p.markResume_calm z r _ _
    all_goals exact .refl p
  · exact .refl p

theorem Part.reportRobot_calm (p : Part) (r : Fin 6) : p.Calm (p.reportRobot r) := by
  unfold Part.reportRobot
  exact .fold _ (fun p z => (p.hearRobot_calm r z).trans (Part.settleResume_calm _ z r)) _ _

theorem Robot.runReq_congr {x y : Robot} (h : x.state = y.state) : x.runReq = y.runReq := by unfold Robot.runReq; rw [h]

/-- R80: a robot's windows change; its state does not. -/
theorem Part.Calm.of_robots {p q : Part} (hs : q.sac = p.sac) (ht : q.rbp.rotation = p.rbp.rotation)
    (hc : q.rbp.cursor = p.rbp.cursor) (hstate : ∀ r : Fin 6, q.rbp.robots[r.val].state = p.rbp.robots[r.val].state)
    (hctu : q.ctu = p.ctu) : p.Calm q :=
  ⟨⟨fun c => by rw [hctu], ht, hc, fun r h => by rw [Robot.runReq_congr (hstate r)]; exact h⟩, fun _ => .of_eq (by rw [hs])⟩

theorem Part.makeLive_calm (p : Part) (r : Fin 6) (w : Window) : p.Calm (p.makeLive r w) := by
  have hturn : (p.makeLive r w).rbp.rotation = p.rbp.rotation ∧ (p.makeLive r w).rbp.cursor = p.rbp.cursor := by
    unfold Part.makeLive
    dsimp only
    (repeat' split) <;> simp
  exact .of_robots (by simp) hturn.1 hturn.2 (by simp) (by simp)

theorem Part.adoptWindow_calm (p : Part) (r : Fin 6) : p.Calm (p.adoptWindow r) := by
  unfold Part.adoptWindow
  split
  next => exact .refl p
  next w _ =>
    have hpending : p.Calm (p.modRobot r fun k => { k with pendingWindow := none }) :=
      .of_robots rfl rfl rfl (fun k => by simp) rfl
    exact (hpending.trans (Part.makeLive_calm _ r w.window)).complete _ _ _

theorem Part.robotChanged_calm (p : Part) (r : Fin 6) (before : RobotState) : p.Calm (p.robotChanged r before) := by
  have hreport (q : Part) : q.Calm ((q.rewrite .rbp).reportRobot r) :=
    ((Part.Calm.refl q).rewrite .rbp).trans (Part.reportRobot_calm _ r)
  unfold Part.robotChanged
  dsimp only
  split
  · exact (Part.Calm.refl p).rewrite .rbp
  · split
    · have hclosed : p.Calm (p.modRobot r fun k => { k with openWindows := [] }) :=
        .of_robots rfl rfl rfl (fun k => by simp) rfl
      exact (hclosed.trans (Part.adoptWindow_calm _ r)).trans (hreport _)
    · exact hreport p

/-- A robot's record set to a state without run request. -/
theorem Part.modRobot_calm (p : Part) (r : Fin 6) (f : Robot → Robot) (hf : ∀ k, (f k).runReq = false) :
    p.Calm (p.modRobot r f) := by
  refine ⟨⟨fun _ => rfl, rfl, rfl, fun k h => ?_⟩, fun _ => .of_eq rfl⟩
  by_cases hk : r = k
  · subst hk; simp [hf]
  · have hne : r.val ≠ k.val := fun e => hk (Fin.ext e)
    simpa [modAt, hne] using h

theorem Part.finishHalt_calm (p : Part) (r : Fin 6) : p.Calm (p.finishHalt r) := by
  unfold Part.finishHalt
  dsimp only
  have hhalted := p.modRobot_calm r (fun k => { k with state := .halted, deadline := none, order := none }) fun _ => rfl
  refine (hhalted.trans ?_).trans (Part.robotChanged_calm _ r _)
  exact .of_rbp (by simp) (by simp) (by simp)

theorem Part.beginHalt_calm (p : Part) (r : Fin 6) (o : HaltOrigin) (ref : Option OrderRef) :
    p.Calm (p.beginHalt r o ref) := by
  have hhalting := (p.modRobot_calm r (fun k => { k with
      state := .halting, haltOrigin := some o, order := ref, deadline := some (p.haltDeadline r) }) fun _ => rfl).trans
    (Part.robotChanged_calm _ r p.rbp.robots[r].state)
  unfold Part.beginHalt
  dsimp only
  split
  · exact hhalting.trans (Part.finishHalt_calm _ r)
  · exact hhalting

theorem Part.requestHalt_calm (p : Part) (r : Fin 6) (o : HaltOrigin) : p.Calm (p.requestHalt r o) := by
  unfold Part.requestHalt
  dsimp only
  split
  · exact (Part.Calm.of_rbp (by simp) (by simp) (by simp)).trans (Part.beginHalt_calm _ r o none)
  · exact .refl p

/-- R68: a robot asked to halt has no run request. -/
theorem Part.requestHalt_runReq (p : Part) (r : Fin 6) (o : HaltOrigin) :
    (p.requestHalt r o).rbp.robots[r.val].runReq = false := by
  unfold Part.requestHalt
  dsimp only
  split
  next => rw [Part.beginHalt_runReq, if_pos rfl]
  next h => simpa [Robot.runReq, Robot.active] using h

theorem Part.haltAll_runReq (o : HaltOrigin) (l : List (Fin 6)) (p : Part) (r : Fin 6)
    (h : r ∈ l ∨ p.rbp.robots[r.val].runReq = false) :
    (l.foldl (fun p r => p.requestHalt r o) p).rbp.robots[r.val].runReq = false := by
  induction l generalizing p with
  | nil => simpa using h
  | cons k l ih =>
    rw [List.foldl_cons]
    refine ih _ ?_
    rcases h with h | h
    · rcases List.mem_cons.mp h with rfl | h
      · exact .inr (p.requestHalt_runReq r o)
      · exact .inl h
    · exact .inr ((p.requestHalt_calm k o).runReq r h)

/-! ## What a zone that comes to hold its robots leaves alone -/

/-- R146: the members the zone halts are noted. -/
def Part.membersNoted (p : Part) (z : Fin 8) : Part :=
  (p.modZone z fun k => { k with haltedByZone := k.haltedByZone ||| robotMask (p.activeMembers z) }).rewrite .sac

theorem Part.membersNoted_calm (p : Part) (z : Fin 8) : p.Calm (p.membersNoted z) :=
  .rewrite (p.modZone_calm z _) .sac

theorem Part.haltMembers_calm (p : Part) (z : Fin 8) : p.Calm (p.haltMembers z) :=
  (p.membersNoted_calm z).trans (.fold _ (fun p r => p.requestHalt_calm r _) _ _)

/-- R146: a zone that holds its robots has no member with a run request. -/
theorem Part.haltMembers_runReq (p : Part) (z : Fin 8) (r : Fin 6) (hr : p.zoneHasRobot z r = true) :
    (p.haltMembers z).rbp.robots[r.val].runReq = false := by
  refine Part.haltAll_runReq (.zone z) (p.activeMembers z) (p.membersNoted z) r ?_
  cases hactive : p.rbp.robots[r.val].active
  · refine .inr ?_
    unfold Part.membersNoted
    simpa [Robot.runReq, Robot.active] using hactive
  · exact .inl (by simp [Part.activeMembers, mem_sixes, hr, hactive])

/-! ## A grant for an open door (R164) -/

theorem Part.endRequest_calm (p : Part) (z : Fin 8) (r : Result) (d : Byte) : p.Calm (p.endRequest z r d) := by
  unfold Part.endRequest
  exact (Part.Calm.of_rbp (by simp) (by simp) (by simp)).trans (Part.modZone_calm _ z _)

theorem Part.grantClose_calm (p : Part) (z : Fin 8) (r : Result) : p.Calm (p.grantClose z r) := by
  unfold Part.grantClose
  refine .rewrite (.raise ((p.endRequest_calm z r 0).trans ?_) _ _) _
  exact .of_rbp (by simp) (by simp) (by simp)

theorem Part.grantApply_quiet (p : Part) (z : Fin 8) (l : AccessLevel) (o : ZoneOrigin) (n : Nat) (b : Half) :
    p.Quiet (p.grantApply z l o n b) := .of_rbp (by simp) (by simp)

theorem Part.grantApply_zone (p : Part) (z : Fin 8) (l : AccessLevel) (o : ZoneOrigin) (n : Nat) (b : Half) :
    (p.grantApply z l o n b).sac.zones[z.val] = { p.sac.zones[z.val] with
      state := .opened, level := l, origin := o, badge := b, expiry := some (p.now + minutes n) } := by
  unfold Part.grantApply
  dsimp only
  (repeat' split) <;> simp

/-- R164: a zone that an adoption opened, its members without run request. -/
structure Part.HeldOpen (p : Part) (z : Fin 8) (members : BitVec 6) : Prop where
  state : p.sac.zones[z.val].state = .opened
  level : p.sac.zones[z.val].level = .maintain
  origin : p.sac.zones[z.val].origin = .adoption
  badge : p.sac.zones[z.val].badge = 0
  runReq : ∀ r : Fin 6, members.getLsbD r.val = true → p.rbp.robots[r.val].runReq = false

theorem Part.HeldOpen.keep {p q : Part} {z : Fin 8} {m : BitVec 6} (h : p.HeldOpen z m) (hq : p.Quiet q)
    (hz : p.firm q z) : q.HeldOpen z m := by
  have hnot : p.sac.zones[z.val].state ≠ .halting := by rw [h.state]; decide
  obtain ⟨hstate, hlevel, horigin⟩ := hz.1 hnot
  exact ⟨hstate.trans h.state, hlevel.trans h.level, horigin.trans h.origin, (hz.2 hnot).trans h.badge,
    fun r hr => hq.runReq r (h.runReq r hr)⟩

/-- What stands of a grant at MAINTAIN once the members are asked to halt. -/
theorem Part.grantHeld_calm (p : Part) (z : Fin 8) (o : ZoneOrigin) (n : Nat) (b : Half) (r : Result) :
    ((p.grantApply z .maintain o n b).haltMembers z).Calm (p.grant z .maintain o n b r) := by
  unfold Part.grant Part.grantHold
  exact (Part.evalDoorRel_calm _ z).trans (Part.grantClose_calm _ z r)

theorem Part.zoneAdopt_quiet (p : Part) (z : Fin 8) : p.Quiet (p.zoneAdopt z) := by
  unfold Part.zoneAdopt
  split
  · have hheld := (Part.haltMembers_calm _ z).trans (p.grantHeld_calm z .adoption (p.buttonOf z).2 0 .ok)
    exact (p.grantApply_quiet z .maintain .adoption (p.buttonOf z).2 0).trans
      (hheld.raise .adoptionOpen (zoneMember z)).toQuiet
  · exact (Part.Calm.refl p).toQuiet

theorem Part.zoneAdopt_firm (p : Part) (y z : Fin 8) (h : z ≠ y) : p.firm (p.zoneAdopt y) z := by
  unfold Part.zoneAdopt
  split
  · have hheld := (Part.haltMembers_calm _ y).trans (p.grantHeld_calm y .adoption (p.buttonOf y).2 0 .ok)
    exact (Part.firm.of_eq (p.grantApply_apart y z .maintain .adoption (p.buttonOf y).2 0 h)).trans
      ((hheld.raise .adoptionOpen (zoneMember y)).firm z)
  · exact .of_eq rfl

theorem Part.zoneAdopt_opens (p : Part) (z : Fin 8) (m : BitVec 6) (hopen : p.doorOpen z = true)
    (hm : ∀ r : Fin 6, m.getLsbD r.val = true → p.zoneHasRobot z r = true) : (p.zoneAdopt z).HeldOpen z m := by
  obtain ⟨A, hA⟩ : ∃ A, A = p.grantApply z .maintain .adoption (p.buttonOf z).2 0 := ⟨_, rfl⟩
  have hzone : A.sac.zones[z.val] = _ := hA ▸ p.grantApply_zone z .maintain .adoption (p.buttonOf z).2 0
  have hmember (r : Fin 6) : A.zoneHasRobot z r = p.zoneHasRobot z r := by
    simp [Part.zoneHasRobot, Part.zoneMap, hA]
  have hfirm := ((A.haltMembers_calm z).firm z)
  have hnot : A.sac.zones[z.val].state ≠ .halting := by rw [hzone]; simp
  obtain ⟨hstate, hlevel, horigin⟩ := hfirm.1 hnot
  have hheld : (A.haltMembers z).HeldOpen z m := by
    refine ⟨hstate.trans ?_, hlevel.trans ?_, horigin.trans ?_, (hfirm.2 hnot).trans ?_, fun r hr =>
      A.haltMembers_runReq z r ((hmember r).trans (hm r hr))⟩ <;> rw [hzone]
  have hcalm := (p.grantHeld_calm z .adoption (p.buttonOf z).2 0 .ok).raise .adoptionOpen (zoneMember z)
  rw [← hA] at hcalm
  unfold Part.zoneAdopt
  rw [if_pos hopen]
  exact hheld.keep hcalm.toQuiet (hcalm.firm z)

end Sys2Proof.Machine
end

section
/-! PROOFS. What an adoption leaves in any state (R164, R170), and COPY_END. -/

namespace Sys2Proof.Machine

/-! ## The zones: every door that reads open opens its zone (R164) -/

theorem Part.Quiet.refl (p : Part) : p.Quiet p := (Part.Calm.refl p).toQuiet

theorem Part.zonesOpened_quiet (l : List (Fin 8)) (p : Part) : p.Quiet (l.foldl (fun p z => p.zoneAdopt z) p) := by
  induction l generalizing p with
  | nil => exact .refl p
  | cons z l ih => exact (p.zoneAdopt_quiet z).trans (ih _)

theorem Part.zonesOpened_opens (z : Fin 8) (m : BitVec 6) (l : List (Fin 8)) (p : Part) (hopen : p.doorOpen z = true)
    (hm : ∀ r : Fin 6, m.getLsbD r.val = true → p.zoneHasRobot z r = true) (h : z ∈ l ∨ p.HeldOpen z m) :
    (l.foldl (fun p z => p.zoneAdopt z) p).HeldOpen z m := by
  induction l generalizing p with
  | nil => simpa using h
  | cons y l ih =>
    have hdoor : (p.zoneAdopt y).doorOpen z = true := by
      rw [← hopen]
      simp [Part.doorOpen, Part.hasDoor, Part.zoneMap]
    refine ih _ hdoor (fun r hr => ?_) ?_
    · rw [← hm r hr]
      simp [Part.zoneHasRobot, Part.zoneMap]
    · by_cases hy : z = y
      · subst hy
        exact .inr (p.zoneAdopt_opens z m hopen hm)
      · rcases h with h | h
        · exact .inl ((List.mem_cons.mp h).resolve_left hy)
        · exact .inr (h.keep (p.zoneAdopt_quiet y) (p.zoneAdopt_firm y z hy))

/-- R164: the zones' halted robots fall to the members of the new profile. -/
def Part.membersNarrowed (p : Part) (f : Profile) : Part :=
  eights.foldl (fun p z => p.modZone z fun k => { k with haltedByZone := k.haltedByZone &&& f.zones[z].robots }) p

theorem Part.membersNarrowed_calm (p : Part) (f : Profile) : p.Calm (p.membersNarrowed f) :=
  .fold _ (fun p z => p.modZone_calm z _) _ _

theorem Part.membersNarrowed_frame (p : Part) (f : Profile) : (p.membersNarrowed f).cvt = p.cvt ∧
    ∀ z : Fin 8, (p.membersNarrowed f).sac.zones[z.val].door = p.sac.zones[z.val].door := by
  unfold Part.membersNarrowed
  simp [fold_cvt, fold_sac_door]

theorem Part.zonesAdopt_quiet (p : Part) (f : Profile) : p.Quiet (p.zonesAdopt f) :=
  ((p.membersNarrowed_calm f).toQuiet.trans (Part.zonesOpened_quiet eights _)).trans
    ((Part.Calm.refl _).rewrite .sac).toQuiet

theorem Part.zonesAdopt_opens (p : Part) (f : Profile) (hf : p.cvt.profile = some f) (z : Fin 8)
    (hpresent : f.zones[z].doorPresent = true) (hdoor : p.sac.zones[z.val].door = true) :
    (p.zonesAdopt f).HeldOpen z f.zones[z].robots := by
  obtain ⟨hcvt, hdoors⟩ := p.membersNarrowed_frame f
  have hzone : (p.membersNarrowed f).zoneMap z = some f.zones[z] := by simp [Part.zoneMap, hcvt, hf]
  have hheld := Part.zonesOpened_opens z f.zones[z].robots eights (p.membersNarrowed f)
    (by simpa [Part.doorOpen, Part.hasDoor, hzone, hdoors, hdoor] using hpresent)
    (fun r hr => by simpa [Part.zoneHasRobot, hzone] using hr) (.inl (mem_eights z))
  have hshown := (Part.Calm.refl (eights.foldl (fun p z => p.zoneAdopt z) (p.membersNarrowed f))).rewrite .sac
  exact hheld.keep hshown.toQuiet (hshown.firm z)

/-! ## The sockets: a silent port that loses its role frees its camera (R143) -/

theorem Part.cameraResumed_portSilent (p : Part) (c k : Fin 6) (h : p.ctu.cameras[k.val].portSilent = false) :
    (p.cameraResumed c).ctu.cameras[k.val].portSilent = false := by
  unfold Part.cameraResumed
  simp only [Part.rewrite_frame, Part.modCamera_fields, modAt_get]
  split
  · rfl
  · exact h

theorem Part.portAdopt_unsilenced (p : Part) (i : Fin 16) (s : PortSettings) (c : Fin 6)
    (h : p.ctu.cameras[c.val].portSilent = false) : (p.portAdopt i s).ctu.cameras[c.val].portSilent = false := by
  unfold Part.portAdopt
  dsimp only
  (repeat' split) <;> simp [Part.cameraResumed_portSilent, h]

theorem Part.portAdopt_apart (p : Part) (i k : Fin 16) (s : PortSettings) (h : k ≠ i) :
    (p.portAdopt i s).spm.ports[k.val] = p.spm.ports[k.val] := by
  have hne : i.val ≠ k.val := fun e => h (Fin.ext e.symm)
  unfold Part.portAdopt
  dsimp only
  (repeat' split) <;> simp [modAt, hne]

theorem Part.portAdopt_frees (p : Part) (i : Fin 16) (s : PortSettings) (c : Fin 6)
    (hsilent : p.spm.ports[i.val].silent = true) (hrole : p.spm.ports[i.val].role = .camera c) (hs : s.role ≠ .camera c) :
    (p.portAdopt i s).ctu.cameras[c.val].portSilent = false := by
  unfold Part.portAdopt
  dsimp only
  rw [if_neg (fun e => hs (e.symm.trans hrole)), show p.spm.ports[i].silent = true from hsilent,
    show p.spm.ports[i].role = .camera c from hrole]
  simp [Part.cameraResumed]

theorem Part.portsTaken_frees (f : Profile) (i : Fin 16) (c : Fin 6) (hs : f.ports[i].role ≠ .camera c)
    (l : List (Fin 16)) (p : Part)
    (h : (i ∈ l ∧ p.spm.ports[i.val].silent = true ∧ p.spm.ports[i.val].role = .camera c) ∨
      p.ctu.cameras[c.val].portSilent = false) :
    (l.foldl (fun p i => p.portAdopt i f.ports[i]) p).ctu.cameras[c.val].portSilent = false := by
  induction l generalizing p with
  | nil => simpa using h
  | cons k l ih =>
    refine ih _ ?_
    rcases h with ⟨hi, hsilent, hrole⟩ | h
    · by_cases hk : i = k
      · subst hk
        exact .inr (p.portAdopt_frees i f.ports[i] c hsilent hrole hs)
      · rw [Part.portAdopt_apart _ _ _ _ hk]
        exact .inl ⟨(List.mem_cons.mp hi).resolve_left hk, hsilent, hrole⟩
    · exact .inr (p.portAdopt_unsilenced k _ c h)

theorem Part.portsAdopt_frees (p : Part) (f : Profile) (i : Fin 16) (c : Fin 6)
    (hsilent : p.spm.ports[i.val].silent = true) (hrole : p.spm.ports[i.val].role = .camera c)
    (hs : f.ports[i].role ≠ .camera c) : (p.portsAdopt f).ctu.cameras[c.val].portSilent = false := by
  have hfreed := Part.portsTaken_frees f i c hs sixteens p (.inl ⟨mem_sixteens i, hsilent, hrole⟩)
  obtain ⟨X, hX⟩ : ∃ X, X = sixteens.foldl (fun p i => p.portAdopt i f.ports[i]) p := ⟨_, rfl⟩
  have hq : p.portsAdopt f = X.rewrite .spm := by rw [hX]; rfl
  rw [← hX] at hfreed
  simpa [hq] using hfreed

/-! ## The time base and the tracker -/

theorem Part.syncAdopt_syncMode (p : Part) (mode : SyncMode) : (p.syncAdopt mode).mtu.syncMode = mode := by
  unfold Part.syncAdopt
  split
  next h => exact h
  next => simp

theorem Part.releaseStep_silent (p : Part) (i : Fin 16) :
    p.releaseStep.spm.ports[i.val].silent = p.spm.ports[i.val].silent := by
  unfold Part.releaseStep
  split
  · simp [Part.applyStep, Spm.shift]
  · rfl

theorem Part.syncAdopt_silent (p : Part) (mode : SyncMode) (i : Fin 16) :
    (p.syncAdopt mode).spm.ports[i.val].silent = p.spm.ports[i.val].silent := by
  unfold Part.syncAdopt
  dsimp only
  (repeat' split) <;> simp [Part.releaseStep_silent]

/-! ## The parts taken, in any state -/

/-- The blocks in front of the sockets have taken their parts. -/
def Part.socketsNext (p : Part) (f : Profile) : Part := (p.paceAdopted f).camerasAdopt.rewrite .rej

theorem Part.takeParts_eq (p : Part) (f : Profile) : p.takeParts f = ((p.socketsNext f).portsAdopt f).zonesAdopt f := rfl

theorem Part.socketsNext_frame (p : Part) (f : Profile) :
    (p.socketsNext f).mtu = ((p.profiledAs f).syncAdopt f.syncMode).mtu ∧
    (p.socketsNext f).cvt = ((p.profiledAs f).syncAdopt f.syncMode).cvt.adopted ∧
    (p.socketsNext f).spm = ((p.profiledAs f).syncAdopt f.syncMode).spm ∧
    (p.socketsNext f).sac = ((p.profiledAs f).syncAdopt f.syncMode).sac ∧
    (p.socketsNext f).rbp.rotation = f.rotation ∧ (p.socketsNext f).rbp.cursor = 0 := by
  have hrobots (q : Part) : (q.robotsAdopt f).rbp.rotation = f.rotation ∧ (q.robotsAdopt f).rbp.cursor = 0 := by
    unfold Part.robotsAdopt
    simp
  unfold Part.socketsNext Part.paceAdopted
  simp [Part.trackerAdopt_cvt, hrobots]

theorem Part.takeParts_rotation (p : Part) (f : Profile) :
    (p.takeParts f).rbp.rotation = f.rotation ∧ (p.takeParts f).rbp.cursor = 0 := by
  obtain ⟨-, -, -, -, hrotation, hcursor⟩ := p.socketsNext_frame f
  have hquiet := ((p.socketsNext f).portsAdopt f).zonesAdopt_quiet f
  rw [Part.takeParts_eq]
  exact ⟨hquiet.rotation.trans (by simp [hrotation]), hquiet.cursor.trans (by simp [hcursor])⟩

theorem Part.takeParts_mtu (p : Part) (f : Profile) : (p.takeParts f).mtu.syncMode = f.syncMode := by
  obtain ⟨hmtu, -⟩ := p.socketsNext_frame f
  simp [Part.takeParts_eq, hmtu, Part.syncAdopt_syncMode]

theorem Part.takeParts_cvt (p : Part) (f : Profile) :
    (p.takeParts f).cvt = ((p.profiledAs f).syncAdopt f.syncMode).cvt.adopted := by
  obtain ⟨-, hcvt, -⟩ := p.socketsNext_frame f
  simp [Part.takeParts_eq, hcvt]

theorem Part.takeParts_opens (p : Part) (f : Profile) (z : Fin 8) (hpresent : f.zones[z].doorPresent = true)
    (hdoor : p.sac.zones[z.val].door = true) : (p.takeParts f).HeldOpen z f.zones[z].robots := by
  obtain ⟨-, hcvt, -, hsac, -⟩ := p.socketsNext_frame f
  refine ((p.socketsNext f).portsAdopt f).zonesAdopt_opens f ?_ z hpresent ?_
  · simp [hcvt, Cvt.adopted, Part.profiledAs]
  · simp [hsac, Part.profiledAs, hdoor]

theorem Part.takeParts_frees (p : Part) (f : Profile) (i : Fin 16) (c : Fin 6)
    (hsilent : p.spm.ports[i.val].silent = true) (hrole : p.spm.ports[i.val].role = .camera c)
    (hs : f.ports[i].role ≠ .camera c) : (p.takeParts f).ctu.cameras[c.val].portSilent = false := by
  obtain ⟨-, -, hspm, -⟩ := p.socketsNext_frame f
  rw [Part.takeParts_eq, (Part.zonesAdopt_quiet _ f).silent c]
  refine (p.socketsNext f).portsAdopt_frees f i c ?_ ?_ hs
  · simpa [hspm, Part.syncAdopt_silent, Part.profiledAs] using hsilent
  · simpa [hspm, Part.profiledAs] using hrole

/-! ## The adoption, in any state -/

theorem Part.adopt_calm (p : Part) (ref : OrderRef) (f : Profile) : (p.takeParts f).Calm (p.adopt ref f) := by
  rw [Part.adopt_eq]
  generalize p.takeParts f = S
  have hended : S.Calm S.adoptionEnded := .of_rbp rfl rfl fun _ => rfl
  exact (hended.complete _ _ _).rewrite .profile

theorem Part.adopt_mtu (p : Part) (ref : OrderRef) (f : Profile) : (p.adopt ref f).mtu = (p.takeParts f).mtu := by
  simp [Part.adopt_eq, Part.adoptionEnded]

theorem Part.adopt_cvt (p : Part) (ref : OrderRef) (f : Profile) :
    let c := (p.adopt ref f).cvt
    c.profile = some f ∧ c.adoption = none ∧ c.tracker = .ready ∧ c.position = p.cvt.position ∧
      c.highWater = p.cvt.position ∧ c.depth = 0 := by
  have hcvt : (p.adopt ref f).cvt = (p.takeParts f).adoptionEnded.cvt := by simp [Part.adopt_eq]
  simp [hcvt, Part.adoptionEnded, Part.takeParts_cvt, Cvt.adopted, Part.profiledAs]

/-! ## COPY_END -/

/-- Settles O51: the copy is judged, and the verdict refuses the candidate or adopts it; of an adoption, what it does in
every state is told apart from the case in which it moves nothing but the blocks' own parts. -/
theorem copyEnds : Obligations.CopyEnds := by
  unfold Obligations.CopyEnds
  intro p w
  refine ⟨fun hnone => leads_after (f := Part.copyEnd) rfl (by unfold Part.copyEnd; rw [hnone]) rfl, ?_⟩
  intro a e ha href m f unsealed
  refine ⟨fun r hr => ?_, fun haccepted hsealed => ?_⟩
  · have hjudged := (p.copyEnd_judges a ha).trans (p.judgeCandidate_refuses a.ref m r hr)
    rw [href] at hjudged
    exact leads_after (f := Part.copyEnd) rfl hjudged ⟨p.refuseAdoption_refuses e.ref r, p.refuseAdoption_held e r,
      p.refuseAdoption_orphaned e r⟩
  · have hjudged := (p.copyEnd_judges a ha).trans (p.judgeCandidate_adopts a.ref m haccepted hsealed)
    rw [href] at hjudged
    refine leads_after (f := Part.copyEnd) rfl hjudged ?_
    intro opens stale
    have hcalm := p.adopt_calm e.ref f
    have hmtu := p.adopt_mtu e.ref f
    have hunder := p.adopt_under e f
    obtain ⟨hprofile, hadoption, htracker, hposition, hhighWater, hdepth⟩ := p.adopt_cvt e.ref f
    obtain ⟨hrotation, hcursor⟩ := p.takeParts_rotation f
    have hmode := p.takeParts_mtu f
    have hopened := p.takeParts_opens f
    have hfreed := p.takeParts_frees f
    generalize p.adopt e.ref f = q at *
    generalize p.takeParts f = S at *
    refine ⟨hprofile, hadoption, htracker, hposition, hhighWater, hdepth, by rw [hmtu, hmode],
      hcalm.rotation.trans hrotation, hcalm.cursor.trans hcursor, fun z hopens => ?_, fun i c hstale hrole => ?_,
      fun hshut hkept hpending hpace he => ?_⟩
    · obtain ⟨hpresent, hdoor⟩ := hopens
      have hheld := (hopened z hpresent hdoor).keep hcalm.toQuiet (hcalm.firm z)
      exact ⟨hheld.state, hheld.level, hheld.origin, hheld.badge, hheld.runReq⟩
    · obtain ⟨hsilent, hchanged⟩ := hstale
      exact (hcalm.silent c).trans (hfreed i c hsilent hrole fun hs => hchanged (hrole.trans hs.symm))
    · rw [f.clamps_result] at hunder
      exact hunder hpending hpace hkept hshut he

end Sys2Proof.Machine
end

section
/-! PROOFS. The invariants of the board (R20, R165, R186, R193): State.reset has them, and every step keeps them. -/

namespace Sys2Proof.Machine

/-! ## Right after power-on (R197) -/

theorem Part.powerOn_port (pins : Pins) (i : Fin 16) : (Part.powerOn pins).spm.ports[i].role = .unassigned := by
  fin_cases i <;> rfl

theorem Part.powerOn_zone (pins : Pins) (z : Fin 8) :
    (Part.powerOn pins).sac.zones[z].state = .sealed ∧ (Part.powerOn pins).sac.zones[z].doorRel = false := by
  fin_cases z <;> exact ⟨rfl, rfl⟩

/-- R144: before the first adoption no zone has a member. -/
theorem Part.powerOn_held (pins : Pins) (r : Fin 6) : (Part.powerOn pins).held r = false := rfl

theorem Part.powerOn_tidy (pins : Pins) : (Part.powerOn pins).tidy := ⟨rfl, rfl, rfl, rfl⟩

theorem Part.powerOn_depthHolds (pins : Pins) : (Part.powerOn pins).depthHolds := rfl

theorem Part.powerOn_mergesFit (pins : Pins) : (Part.powerOn pins).mergesFit := Nat.zero_le _

/-- Settles O58. -/
theorem resetIsSafe : Obligations.ResetIsSafe := by
  unfold Obligations.ResetIsSafe
  refine ⟨rfl, Part.powerOn_tidy _, Part.powerOn_depthHolds _, Part.powerOn_mergesFit _, fun i z hrole => ?_,
    fun z hrel => ?_, fun r hheld => ?_, fun _ z => (Part.powerOn_zone .low z).1⟩
  · exact absurd ((Part.powerOn_port .low i).symm.trans hrole) (by simp)
  · exact absurd ((Part.powerOn_zone .low z).2.symm.trans hrel) (by simp)
  · exact absurd ((Part.powerOn_held .low r).symm.trans hheld) (by simp)

/-! ## What a command keeps -/

/-- What EveryStepKeepsTheBoard says of one change of the part, the staging area apart. -/
structure Part.KeepsRecords (p q : Part) : Prop where
  tidy : q.tidy
  depth : q.depthHolds
  merges : p.mergesFit → q.mergesFit

/-- As above, with no byte of the staging area changed (R165). -/
structure Part.KeepsBoard (p q : Part) : Prop extends p.KeepsRecords q where
  staging : q.staging = p.staging

/-- A part that is safe as EveryStepKeepsTheBoard takes it. -/
structure Part.Sound (p : Part) : Prop where
  tidy : p.tidy
  depth : p.depthHolds

theorem Part.KeepsRecords.still {p q : Part} (h : p.Sound) (ht : q.tidy) (hposition : q.cvt.position = p.cvt.position)
    (hhigh : q.cvt.highWater = p.cvt.highWater) (hdepth : q.cvt.depth = p.cvt.depth)
    (hmerges : q.rej.counters.merges = p.rej.counters.merges) : p.KeepsRecords q :=
  ⟨ht, Part.depthHolds_of h.depth hposition hhigh hdepth, fun hm => Part.mergesFit_of hm hmerges⟩

/-- An operation that moves neither the conveyor nor MERGES. -/
theorem Part.KeepsBoard.still {p q : Part} (h : p.Sound) (ht : q.tidy ∧ q.staging = p.staging)
    (hposition : q.cvt.position = p.cvt.position) (hhigh : q.cvt.highWater = p.cvt.highWater)
    (hdepth : q.cvt.depth = p.cvt.depth) (hmerges : q.rej.counters.merges = p.rej.counters.merges) : p.KeepsBoard q :=
  ⟨.still h ht.1 hposition hhigh hdepth hmerges, ht.2⟩

/-- An operation that leaves the conveyor and the ejector alone. -/
theorem Part.KeepsBoard.frame {p q : Part} (h : p.Sound) (ht : q.tidy ∧ q.staging = p.staging) (hc : q.cvt = p.cvt)
    (hr : q.rej = p.rej) : p.KeepsBoard q := .still h ht (by rw [hc]) (by rw [hc]) (by rw [hc]) (by rw [hr])

/-- An operation that leaves the conveyor alone. -/
theorem Part.KeepsBoard.conveyor {p q : Part} (h : p.Sound) (ht : q.tidy ∧ q.staging = p.staging)
    (hposition : q.cvt.position = p.cvt.position) (hhigh : q.cvt.highWater = p.cvt.highWater)
    (hdepth : q.cvt.depth = p.cvt.depth) (hmerges : p.mergesFit → q.mergesFit) : p.KeepsBoard q :=
  ⟨⟨ht.1, Part.depthHolds_of h.depth hposition hhigh hdepth, hmerges⟩, ht.2⟩

/-! ## Time steps

A step moves the times that the ejector holds, not its counters (R8). -/

theorem Part.applyStep_merges (p : Part) (q : PendingStep) :
    (p.applyStep q).rej.counters.merges = p.rej.counters.merges := by
  unfold Part.applyStep
  simp [Part.shift, Rej.shift]

theorem Part.releaseStep_merges (p : Part) : p.releaseStep.rej.counters.merges = p.rej.counters.merges := by
  unfold Part.releaseStep
  split
  · exact Part.applyStep_merges _ _
  · rfl

theorem Part.timeStepOrder_merges (p : Part) (ref : OrderRef) (offset : Word) :
    (p.timeStepOrder ref offset).rej.counters.merges = p.rej.counters.merges := by
  unfold Part.timeStepOrder
  dsimp only
  split <;> simp [Part.applyStep_merges]

theorem Part.syncLevel_merges (p : Part) (level : Bool) :
    (p.syncLevel level).rej.counters.merges = p.rej.counters.merges := by
  unfold Part.syncLevel Part.syncPulse
  dsimp only
  split <;> simp [Part.releaseStep_merges, Part.setSyncLine]

theorem Part.syncLoss_merges (p : Part) : p.syncLoss.rej.counters.merges = p.rej.counters.merges := by
  unfold Part.syncLoss Part.loseSync
  dsimp only
  (repeat' split) <;> simp [Part.releaseStep_merges]

theorem Part.syncAdopt_merges (p : Part) (mode : SyncMode) :
    (p.syncAdopt mode).rej.counters.merges = p.rej.counters.merges := by
  unfold Part.syncAdopt
  dsimp only
  (repeat' split) <;> simp [Part.releaseStep_merges]

/-! ## Orders -/

theorem Part.countersClearOrder_mergesFit (p : Part) (ref : OrderRef) (h : p.mergesFit) :
    (p.countersClearOrder ref).mergesFit := by
  unfold Part.countersClearOrder
  split
  · exact Part.mergesFit_of p.clearCounts_mergesFit (by simp)
  · exact Part.mergesFit_of h (by simp)

/-- Only EJECT_TEST and COUNTERS_CLEAR reach the ejector's counters. -/
theorem Part.perform_mergesFit (p : Part) (ref : OrderRef) (o : Order) (h : p.mergesFit) :
    (p.perform ref o).mergesFit := by
  cases o with
  | countersClear => exact Part.countersClearOrder_mergesFit p ref h
  | ejectTest => exact Part.ejectTestOrder_mergesFit p ref h
  | timeStep offset => exact Part.mergesFit_of h (Part.timeStepOrder_merges p ref offset)
  | _ => exact Part.mergesFit_of h (by simp [Part.perform])

theorem Part.answer_mergesFit (p : Part) (ref : OrderRef) (order : Option Order) (busy : Bool) (h : p.mergesFit) :
    (p.answer ref order busy).mergesFit := by
  unfold Part.answer
  split
  · exact Part.mergesFit_of h (by simp)
  · split
    · exact Part.mergesFit_of h (by simp)
    · exact Part.perform_mergesFit _ _ _ h

theorem Part.endTake_mergesFit (p : Part) (ref : OrderRef) (h : p.mergesFit) : (p.endTake ref).mergesFit :=
  Part.mergesFit_of h (by simp)

theorem Part.take_mergesFit (p : Part) (n : Fin 48) (h : p.mergesFit) : (p.take n).mergesFit :=
  Part.endTake_mergesFit _ _ (Part.answer_mergesFit _ _ _ _ (Part.mergesFit_of h (by simp)))

theorem Part.markTimedOut_mergesFit (p : Part) (h : p.mergesFit) : p.markTimedOut.mergesFit := by
  unfold Part.markTimedOut
  split
  · split
    · exact p.enterCrawl_mergesFit h
    · exact h
  · exact h

theorem Part.ejectOutputEnd_merges (p : Part) : p.ejectOutputEnd.rej.counters.merges = p.rej.counters.merges := by
  unfold Part.ejectOutputEnd
  split
  · split <;> simp
  · rfl

theorem Part.takeAs_keepsBoard {p : Part} (h : p.Sound) (n : Fin 48) (o : Order) : p.KeepsBoard (p.takeAs n o) := by
  refine .conveyor h (p.takeAs_tidy n o h.tidy) (by simp) (by simp) (by simp) fun hm => ?_
  unfold Part.takeAs
  split
  · exact Part.take_mergesFit p n hm
  · exact hm

theorem Part.orderTake_keepsBoard {p : Part} (h : p.Sound) : p.KeepsBoard p.orderTake := by
  refine .conveyor h (p.orderTake_tidy h.tidy) (by simp) (by simp) (by simp) fun hm => ?_
  unfold Part.orderTake
  split
  · exact Part.take_mergesFit p _ hm
  · exact hm

/-! ## Resets and adoption -/

theorem Part.beginLineReset_keepsBoard {p : Part} (h : p.Sound) : p.KeepsBoard p.beginLineReset :=
  ⟨⟨(p.beginLineReset_tidy h.tidy).1, p.beginLineReset_depthHolds,
    fun hm => Part.mergesFit_of hm (by rw [p.beginLineReset_blocks.2.2.2.2.1]; rfl)⟩, (p.beginLineReset_tidy h.tidy).2⟩

theorem Part.controlLineReset_keepsBoard {p : Part} (h : p.Sound) : p.KeepsBoard p.controlLineReset := by
  unfold Part.controlLineReset
  split
  · exact .frame h ⟨h.tidy, rfl⟩ rfl rfl
  · exact Part.beginLineReset_keepsBoard h

theorem Part.pinLineReset_keepsBoard {p : Part} (h : p.Sound) : p.KeepsBoard p.pinLineReset := by
  unfold Part.pinLineReset
  split
  · exact .frame h ⟨h.tidy, rfl⟩ rfl rfl
  · have hset : (p.setLrst true).Sound := ⟨(p.setLrst_tidy true).1.mpr h.tidy, h.depth⟩
    obtain ⟨hrecords, hstaging⟩ := Part.beginLineReset_keepsBoard hset
    exact ⟨⟨hrecords.tidy, hrecords.depth, hrecords.merges⟩, hstaging⟩

theorem Part.trackerAdopt_merges (p : Part) : p.trackerAdopt.rej.counters.merges = p.rej.counters.merges := by
  unfold Part.trackerAdopt Part.enterCrawl
  dsimp only
  split <;> simp [Part.ejectorPaceLost]

theorem Part.adopt_merges (p : Part) (ref : OrderRef) (f : Profile) :
    (p.adopt ref f).rej.counters.merges = p.rej.counters.merges := by
  have htakes : (p.takeParts f).rej.counters.merges = p.rej.counters.merges := by
    unfold Part.takeParts
    simp [Part.trackerAdopt_merges, Part.syncAdopt_merges]
  unfold Part.adopt
  simpa using htakes

theorem Part.copyEnd_merges (p : Part) : p.copyEnd.rej.counters.merges = p.rej.counters.merges := by
  unfold Part.copyEnd Part.judgeCandidate
  split
  · split
    · simp
    · split
      · simp
      · exact Part.adopt_merges _ _ _
  · rfl

theorem Part.copyEnd_depthHolds (p : Part) (h : p.depthHolds) : p.copyEnd.depthHolds := by
  unfold Part.copyEnd
  split
  · exact Part.judgeCandidate_depthHolds _ _ _ h
  · exact h

theorem Part.copyEnd_keepsBoard {p : Part} (h : p.Sound) : p.KeepsBoard p.copyEnd :=
  ⟨⟨(p.copyEnd_tidy h.tidy).1, p.copyEnd_depthHolds h.depth, fun hm => Part.mergesFit_of hm p.copyEnd_merges⟩,
    (p.copyEnd_tidy h.tidy).2⟩

theorem Part.registerWrite_keepsBoard {p : Part} (h : p.Sound) (register : Fin 8) (value : Half) :
    p.KeepsBoard (p.registerWrite register value) := by
  unfold Part.registerWrite
  split
  · exact .frame h ⟨h.tidy, rfl⟩ rfl rfl
  · split
    · exact .frame h (p.intLevel_tidy value h.tidy) (by simp) (by simp)
    · split
      · exact .frame h (p.exchangeReset_tidy h.tidy) (by simp) (by simp)
      · exact Part.controlLineReset_keepsBoard h

/-! ## The commands -/

theorem Part.encoderPair_keepsBoard {p : Part} (h : p.Sound) (pair : Bool × Bool) (infeed : Bool) (choices : List Nat) :
    p.KeepsBoard (p.encoderPair pair infeed choices) :=
  ⟨⟨(p.encoderPair_tidy pair infeed choices h.tidy).1, p.encoderPair_depthHolds pair infeed choices h.depth,
    p.encoderPair_mergesFit pair infeed choices⟩, (p.encoderPair_tidy pair infeed choices h.tidy).2⟩

theorem Part.applyPower_keepsRecords (p : Part) (pins : Pins) : p.KeepsRecords (p.applyPower pins) :=
  ⟨p.applyPower_tidy pins, rfl, fun _ => Nat.zero_le _⟩

/-- R165: but for a power-on and a host memory write, no command changes a byte of the staging area. -/
theorem exec_keepsBoard {p : Part} {w : List Instr} {t : State} (h : p.Sound) :
    ∀ c : Instr, (∀ pins, c ≠ .powerOn pins) → (∀ a v n, c ≠ .hostMemoryWrite a v n) → exec c ⟨p, w⟩ = .next t →
      p.KeepsBoard t.part := by
  intro c hpower hwrite ht
  have htidy := h.tidy
  cases c with
  | powerOn pins => exact absurd rfl (hpower pins)
  | hostMemoryWrite a v n => exact absurd rfl (hwrite a v n)
  | timeTrim | timeStep | lineStart | lineStop | markReject | countersClear | robotRun | robotHalt | robotClear
  | rotationSet | windowSet | cameraService | verdict | cameraRestore | ejectTest | portAdmit | hallHold | hallRelease
  | accessRequest | accessEnd | accessExtend | resumeZone | profileAdopt | outcomeFlush | faultUnlock =>
    cases ht; exact Part.takeAs_keepsBoard h _ _
  | orderTake => cases ht; exact Part.orderTake_keepsBoard h
  | encoderCount a b infeed choices => cases ht; exact Part.encoderPair_keepsBoard h _ _ _
  | copyEnd => cases ht; exact Part.copyEnd_keepsBoard h
  | registerWriteDiscarded register value => cases ht; exact Part.registerWrite_keepsBoard h _ _
  | lineReset byPin =>
    cases ht
    cases byPin with
    | false => exact Part.controlLineReset_keepsBoard h
    | true => exact Part.pinLineReset_keepsBoard h
  | syncPulse level =>
    cases ht
    exact .still h (p.syncLevel_tidy level htidy) (by simp) (by simp) (by simp) (p.syncLevel_merges level)
  | syncLost => cases ht; exact .still h (p.syncLoss_tidy htidy) (by simp) (by simp) (by simp) p.syncLoss_merges
  | markTimeout =>
    cases ht
    exact .conveyor h (p.markTimedOut_tidy htidy) (by simp) (by simp) (by simp) p.markTimedOut_mergesFit
  | confirm level =>
    cases ht
    exact .conveyor h (p.confirmLine_tidy level htidy) (by simp) (by simp) (by simp) (p.confirmLine_mergesFit level)
  | ejectPulseStart =>
    cases ht
    exact .conveyor h (p.ejectPulseStart_tidy htidy) (by simp) (by simp) (by simp) p.ejectPulseStart_mergesFit
  | ejectOutputEnd =>
    cases ht
    exact .still h (p.ejectOutputEnd_tidy htidy) (by simp) (by simp) (by simp) p.ejectOutputEnd_merges
  | startupComplete => cases ht; exact .frame h (p.startupComplete_tidy htidy) (by simp) (by simp)
  | machineTimeCarry => cases ht; exact .frame h (p.carry_tidy htidy) (by simp) (by simp)
  | timeSnapshotRead => cases ht; exact .frame h (p.readTime_tidy htidy) (by simp) (by simp)
  | runAck | haltAck | robotFault | robotInputChange =>
    cases ht; exact .frame h (Part.robotLine_tidy _ _ _ _ htidy) (by simp) (by simp)
  | runTimeout robot => cases ht; exact .frame h (p.runTimedOut_tidy robot htidy) (by simp) (by simp)
  | haltTimeout robot => cases ht; exact .frame h (p.haltTimedOut_tidy robot htidy) (by simp) (by simp)
  | fillStrobe robot ok short => cases ht; exact .frame h (p.fillLines_tidy robot ok short htidy) (by simp) (by simp)
  | cameraFireTime camera => cases ht; exact .frame h (p.cameraFireTime_tidy camera htidy) (by simp) (by simp)
  | triggerPulseEnd camera => cases ht; exact .frame h (p.triggerPulseEnd_tidy camera htidy) (by simp) (by simp)
  | verdictStrobe camera pass fail tag =>
    cases ht; exact .frame h (p.verdictLines_tidy camera pass fail tag htidy) (by simp) (by simp)
  | linkEvent port level => cases ht; exact .frame h (p.linkEvent_tidy port level htidy) (by simp) (by simp)
  | actPulse port level => cases ht; exact .frame h (p.actPulse_tidy port level htidy) (by simp) (by simp)
  | portSilence port => cases ht; exact .frame h (p.portSilence_tidy port htidy) (by simp) (by simp)
  | doorChange zone level => cases ht; exact .frame h (p.doorChange_tidy zone level htidy) (by simp) (by simp)
  | doorDebounce zone => cases ht; exact .frame h (p.doorDebounce_tidy zone htidy) (by simp) (by simp)
  | reqChange zone level => cases ht; exact .frame h (p.reqChange_tidy zone level htidy) (by simp) (by simp)
  | buttonDebounce zone => cases ht; exact .frame h (p.buttonDebounce_tidy zone htidy) (by simp) (by simp)
  | accessExpiry zone => cases ht; exact .frame h (p.accessExpiry_tidy zone htidy) (by simp) (by simp)
  | handWrite cell value => cases ht; exact .frame h (p.handWrite_tidy cell value htidy) (by simp) (by simp)
  | seenWrite bulletin value => cases ht; exact .frame h (p.seenWrite_tidy bulletin value htidy) (by simp) (by simp)
  | pageAge => cases ht; exact .frame h (p.pageAge_tidy htidy) (by simp) (by simp)
  | pageStateWrite page value => cases ht; exact .frame h (p.pageStateWrite_tidy page value htidy) (by simp) (by simp)
  | intLevel value => cases ht; exact .frame h (p.intLevel_tidy value htidy) (by simp) (by simp)
  | exchangeReset => cases ht; exact .frame h (p.exchangeReset_tidy htidy) (by simp) (by simp)
  | exchangeResetEnd => cases ht; exact .frame h (p.exchangeResetEnd_tidy htidy) (by simp) (by simp)
  | lineResetEnd => cases ht; exact .frame h (p.lineResetEnd_tidy htidy) (by simp) (by simp)

/-- A host memory write moves the copy of a profile on, and nothing of the conveyor's or the ejector's state (R167). -/
theorem Part.hostMemoryWrite_keepsRecords {p : Part} (h : p.Sound) (offset : Nat) (value : Half) (progress : Nat) :
    p.KeepsRecords (p.hostMemoryWrite offset value progress) :=
  .still h (p.hostMemoryWrite_tidy offset value progress h.tidy) (by simp) (by simp) (by simp) (by simp)

/-- Settles O59. -/
theorem everyStepKeepsTheBoard : Obligations.EveryStepKeepsTheBoard := by
  unfold Obligations.EveryStepKeepsTheBoard
  intro p w t htidy hdepth hstep
  have h : p.Sound := ⟨htidy, hdepth⟩
  suffices hkeeps : p.KeepsRecords t.part ∧ ((∀ pins, w.head? ≠ some (.powerOn pins)) →
      (∀ a v n, w.head? ≠ some (.hostMemoryWrite a v n)) → t.part.staging = p.staging) from
    ⟨hkeeps.1.tidy, hkeeps.1.depth, hkeeps.1.merges, hkeeps.2⟩
  cases w with
  | nil =>
    cases hstep
    have hticks : p.KeepsBoard p.tick := .frame h (p.tick_tidy htidy) (by simp) (by simp)
    exact ⟨hticks.toKeepsRecords, fun _ _ => hticks.staging⟩
  | cons c rest =>
    change exec c ⟨p, rest⟩ = .next t at hstep
    by_cases hpower : ∃ pins, c = .powerOn pins
    · obtain ⟨pins, rfl⟩ := hpower
      cases hstep
      exact ⟨p.applyPower_keepsRecords pins, fun hnone _ => absurd rfl (hnone pins)⟩
    by_cases hwrite : ∃ a v n, c = .hostMemoryWrite a v n
    · obtain ⟨a, v, n, rfl⟩ := hwrite
      refine ⟨?_, fun _ hnone => absurd rfl (hnone a v n)⟩
      simp only [exec, execHostMemoryWrite] at hstep
      split at hstep
      · cases hstep; exact Part.hostMemoryWrite_keepsRecords h a v n
      · exact absurd hstep (by simp)
    have hkeeps := exec_keepsBoard h c (fun pins e => hpower ⟨pins, e⟩) (fun a v n e => hwrite ⟨a, v, n, e⟩) hstep
    exact ⟨hkeeps.toKeepsRecords, fun _ _ => hkeeps.staging⟩
end Sys2Proof.Machine
end

section
/-! PROOFS. The encoder (02_conveyor_position_and_pace.md, R19 to R21): what one pair does, case by case. -/

namespace Sys2Proof.Machine

/-- R19: the pair and the infeed sensor are sampled. -/
def Part.sensed (p : Part) (pair : Bool × Bool) (infeed : Bool) : Part :=
  { p with cvt := { p.cvt with decoder := some pair, infeed := infeed } }

theorem forwardCount_iff (a b : Bool × Bool) : forwardCount a b ↔ b = nextPair a := by
  obtain ⟨a1, a2⟩ := a
  obtain ⟨b1, b2⟩ := b
  cases a1 <;> cases a2 <;> cases b1 <;> cases b2 <;> simp [forwardCount, nextPair]

/-- R19: a pair is not the one after it, nor the one before that. -/
theorem nextPair_ne (a : Bool × Bool) : nextPair a ≠ a ∧ nextPair (nextPair a) ≠ a := by
  obtain ⟨a1, a2⟩ := a
  cases a1 <;> cases a2 <;> simp [nextPair]

/-- R19: a change of both lines is two counts either way. -/
theorem nextPair_not (a b : Bool) : nextPair (!a, !b) ≠ (a, b) ∧ nextPair (a, b) ≠ (!a, !b) := by
  cases a <;> cases b <;> simp [nextPair]

theorem Part.encoderPair_held {p : Part} {pair : Bool × Bool} (infeed : Bool) (choices : List Nat)
    (h : p.cvt.decoder = none ∨ p.cvt.decoder = some pair) :
      p.encoderPair pair infeed choices = p.sensed pair infeed := by
  unfold Part.encoderPair
  rcases h with h | h
  · simp only [h]; rfl
  · simp only [h, if_true]; rfl

theorem Part.encoderPair_error {p : Part} {a b : Bool} (infeed : Bool) (choices : List Nat)
    (h : p.cvt.decoder = some (!a, !b)) :
    p.encoderPair (a, b) infeed choices = (p.sensed (a, b) infeed).encoderError := by
  obtain ⟨h1, h2⟩ := nextPair_not a b
  unfold Part.encoderPair
  simp only [h]
  rw [if_neg (by cases a <;> simp), if_neg (Ne.symm h1), if_neg (Ne.symm h2)]
  rfl

theorem Part.encoderPair_forward {p : Part} {was pair : Bool × Bool} (infeed : Bool) (choices : List Nat)
    (hd : p.cvt.decoder = some was) (h : forwardCount was pair) :
    p.encoderPair pair infeed choices = (p.sensed pair infeed).forward choices := by
  obtain rfl := (forwardCount_iff _ _).mp h
  unfold Part.encoderPair
  simp only [hd]
  rw [if_neg (nextPair_ne was).1, if_pos trivial]
  rfl

theorem Part.encoderPair_backward {p : Part} {was pair : Bool × Bool} (infeed : Bool) (choices : List Nat)
    (hd : p.cvt.decoder = some was) (h : forwardCount pair was) :
    p.encoderPair pair infeed choices = (p.sensed pair infeed).backward := by
  obtain rfl := (forwardCount_iff _ _).mp h
  unfold Part.encoderPair
  simp only [hd]
  rw [if_neg (Ne.symm (nextPair_ne pair).1), if_neg (Ne.symm (nextPair_ne pair).2), if_pos trivial]
  rfl

/-- What an ENCODER_COUNT leads to, once the pair has been decoded. -/
theorem Part.encoderCount_leads {p q : Part} {pair : Bool × Bool} {infeed : Bool} {choices : List Nat} {P : Part → Prop}
    (w : List Instr) (hq : p.encoderPair pair infeed choices = q) (h : P q) :
    Leads (.encoderCount pair.1 pair.2 infeed choices) ⟨p, w⟩ P := by
  subst hq
  exact ⟨_, rfl, h⟩

/-! ## A change of one block along the way -/

theorem Part.Speaks.modCvt {p q : Part} {l : Tidings} {k : List Area} (h : p.Speaks q l k) (f : Cvt → Cvt) :
    p.Speaks (q.modCvt f) l k := h.same rfl rfl rfl
theorem Part.Speaks.modTrl {p q : Part} {l : Tidings} {k : List Area} (h : p.Speaks q l k) (f : Trl → Trl) :
    p.Speaks (q.modTrl f) l k := h.same rfl rfl rfl
theorem Part.Speaks.modRbp {p q : Part} {l : Tidings} {k : List Area} (h : p.Speaks q l k) (f : Rbp → Rbp) :
    p.Speaks (q.modRbp f) l k := h.same rfl rfl rfl
theorem Part.Speaks.modCtu {p q : Part} {l : Tidings} {k : List Area} (h : p.Speaks q l k) (f : Ctu → Ctu) :
    p.Speaks (q.modCtu f) l k := h.same rfl rfl rfl
theorem Part.Speaks.modRej {p q : Part} {l : Tidings} {k : List Area} (h : p.Speaks q l k) (f : Rej → Rej) :
    p.Speaks (q.modRej f) l k := h.same rfl rfl rfl

/-! ## A backward count (R20, R21) -/

/-- R20: the tracker once position has gone back; at the greatest depth high-water goes with it. -/
def Cvt.receded (c : Cvt) : Cvt :=
  { c with
    position := c.position - 1, depth := if c.depth = 2 ^ 31 - 1 then c.depth else c.depth + 1
    highWater := if c.depth = 2 ^ 31 - 1 then c.highWater - 1 else c.highWater }

theorem Part.backward_eq (p : Part) (h : p.cvt.depth ≤ 2 ^ 31 - 1) : p.backward =
    if p.tolerance < p.cvt.receded.depth ∧ p.cvt.excursion = false then
      ({ p with cvt := p.cvt.receded } : Part).beginExcursion
    else { p with cvt := p.cvt.receded } := by
  unfold Part.backward
  have hmoved : (p.modCvt fun c =>
      if c.depth < 2147483647 then { c with position := c.position - 1, depth := c.depth + 1 }
      else { c with position := c.position - 1, highWater := c.highWater - 1 }) = { p with cvt := p.cvt.receded } := by
    by_cases hd : p.cvt.depth = 2 ^ 31 - 1
    · simp [Part.modCvt, Cvt.receded, hd]
    · simp only [Part.modCvt, Cvt.receded, if_neg hd]
      rw [if_pos (by omega)]
  dsimp only
  rw [hmoved]
  rfl

/-- The tracker once an excursion has begun, before CRAWL is entered (R21). -/
def Cvt.excursed (c : Cvt) : Cvt := { c with excursion := true, reverseExcursions := inc16 c.reverseExcursions }

theorem Part.beginExcursion_eq (p : Part) : p.beginExcursion =
    (((p.modCvt Cvt.excursed).report .encoderReverse 0 0).raise .reverse 0).enterCrawl := rfl

theorem Part.beginExcursion_fault (p : Part) :
    p.beginExcursion.rpu.fault = p.rpu.fault.after .encoderReverse 0 0 p.now := by
  rw [Part.beginExcursion_eq]
  simp [Part.now]

/-- R21: an excursion that begins while there is no pace to lose. -/
theorem Part.beginExcursion_speaks (p : Part) (h : p.cvt.paceState ≠ .timed) :
    p.Speaks p.beginExcursion [(.fault .encoderReverse, 0), (.reverse, 0)]
      [.fault, .bulletin 9, .bulletin 1, .mirror .cvt] := by
  rw [Part.beginExcursion_eq, Part.enterCrawl_plain _ (by simpa [Cvt.excursed] using h)]
  exact (((((Part.Speaks.refl p).modCvt Cvt.excursed).report .encoderReverse 0 0).raise .reverse 0).modCvt
    Cvt.crawled).rewrite .cvt

theorem Part.beginExcursion_tells (p : Part) (h : p.cvt.paceState ≠ .timed) :
    p.tellsFault p.beginExcursion .encoderReverse 0 0 [(.reverse, 0)] := by
  have hspeaks := p.beginExcursion_speaks h
  exact Part.tellsFault_of hspeaks.rest (by rw [hspeaks.now, p.beginExcursion_fault])
    (by rw [hspeaks.bulletins, hspeaks.now])

theorem Part.beginExcursion_plain (p : Part) (h : p.cvt.paceState ≠ .timed) : p.beginExcursion =
    { p with cvt := p.beginExcursion.cvt, rpu := p.beginExcursion.rpu, mem := p.beginExcursion.mem } := by
  rw [Part.beginExcursion_eq, Part.enterCrawl_plain _ (by simpa [Cvt.excursed] using h)]
  apply Part.eq_of_fields <;> simp

theorem Part.encoderError_speaks (p : Part) :
    p.Speaks p.encoderError [(.encoderError, 0)] [.bulletin 1, .mirror .cvt] :=
  (((Part.Speaks.refl p).modCvt _).raise .encoderError 0).rewrite .cvt

theorem Part.encoderError_cvt (p : Part) :
    p.encoderError.cvt = { p.cvt with encoderErrors := min 65535 (p.cvt.encoderErrors + 1) } := by
  simp [Part.encoderError, inc16_eq]

/-- Settles O11. -/
theorem encoderPairIsDecoded : Obligations.EncoderPairIsDecoded := by
  unfold Obligations.EncoderPairIsDecoded
  constructor
  · intro p w a b infeed choices held
    refine ⟨fun h => ⟨_, rfl, p.encoderPair_held infeed choices h⟩, fun h =>
      Part.encoderCount_leads w (p.encoderPair_error infeed choices h) ⟨Part.encoderError_cvt _, rfl, ?_, ?_, ?_⟩⟩
    · exact (Part.encoderError_speaks (p.sensed (a, b) infeed)).tells rfl
    · exact Part.rewrite_mirrored _ _
    · exact (Part.encoderError_speaks (p.sensed (a, b) infeed)).storesOnly fun _ => id
  · intro p w was pair infeed choices hd hback deepest depth moved hdeep
    have hq := (p.encoderPair_backward infeed choices hd hback).trans (Part.backward_eq _ hdeep)
    refine ⟨fun h => Part.encoderCount_leads w (hq.trans (if_neg ?_)) rfl, fun hdepth hexcursion =>
      Part.encoderCount_leads w (hq.trans (if_pos ⟨hdepth, hexcursion⟩)) ?_⟩
    · rintro ⟨hlt, hout⟩
      rcases h with h | h
      · exact absurd hlt (Nat.not_lt.mpr h)
      · exact absurd (hout.symm.trans h) (by simp)
    · let X : Part := { p with cvt := moved }
      change X.beginExcursion.cvt = _ ∧ X.beginExcursion.rpu.fault = _ ∧ _
      refine ⟨?_, X.beginExcursion_fault, fun htimed => ⟨X.beginExcursion_plain htimed,
        X.beginExcursion_tells htimed, ?_, ?_⟩⟩
      · rw [Part.beginExcursion_eq, Part.enterCrawl_cvt]
        simp [Cvt.crawled, Cvt.excursed, X, inc16_eq, moved]
      · exact Part.enterCrawl_mirrored _
      · exact (X.beginExcursion_speaks htimed).storesOnly fun _ => id

end Sys2Proof.Machine
end

section
/-! PROOFS. A forward count (R20, R21, R23) and the high-water advance with what is due on it (R28 to R30). -/

namespace Sys2Proof.Machine

/-! ## A forward count at a depth (R20, R21) -/

theorem Part.forward_deep (p : Part) (choices : List Nat)
    (h : 1 < p.cvt.depth ∨ (p.cvt.depth = 1 ∧ p.cvt.excursion = false)) :
    p.forward choices = { p with cvt := { p.cvt with position := p.cvt.position + 1, depth := p.cvt.depth - 1 } } := by
  unfold Part.forward
  split
  next h0 => omega
  next d hd =>
    rw [hd] at h
    rw [if_neg (by
      rintro ⟨rfl, hexcursion⟩
      rcases h with h | ⟨-, h⟩
      · omega
      · exact absurd (h.symm.trans hexcursion) (by simp))]
    rw [hd]
    rfl

theorem Part.forward_last (p : Part) (choices : List Nat) (hd : p.cvt.depth = 1) (he : p.cvt.excursion = true) :
    p.forward choices = ({ p with cvt := { p.cvt with position := p.cvt.position + 1, depth := 0 } } :
      Part).endExcursion := by
  unfold Part.forward
  simp only [hd]
  rw [if_pos ⟨trivial, he⟩]
  rfl

theorem Part.endExcursion_cvt (p : Part) : p.endExcursion.cvt = { p.cvt with excursion := false } := by
  simp [Part.endExcursion]

theorem Part.endExcursion_speaks (p : Part) : p.Speaks p.endExcursion [(.reverseEnd, 0)] [.bulletin 1, .mirror .cvt] :=
  (((Part.Speaks.refl p).modCvt _).raise .reverseEnd 0).rewrite .cvt

theorem Part.endExcursion_tells (p : Part) : p.tells p.endExcursion [(.reverseEnd, 0)] :=
  p.endExcursion_speaks.tells (by simp [Part.endExcursion])

/-! ## The advance (R20, R23, R30) -/

theorem Part.forward_advances (p : Part) (choices : List Nat) (h : p.cvt.depth = 0) :
    p.forward choices = p.advance choices := by
  unfold Part.forward
  simp only [h]

theorem Part.advance_unprofiled (p : Part) (choices : List Nat) (h : p.cvt.profile = none) : p.advance choices =
    { p with cvt := { p.cvt with position := p.cvt.position + 1, highWater := p.cvt.highWater + 1 } } := by
  unfold Part.advance
  simp only [Part.modCvt, h]

theorem Part.advance_counted (p : Part) (f : Profile) (pair : Bool × Bool) (infeed : Bool) (choices : List Nat)
    (h : p.cvt.profile = some f) :
    let c := p.counted f pair infeed
    (p.sensed pair infeed).advance choices = Part.travel c.travelFuel choices (decide (c.cvt.phase = f.samplePhase))
      (decide (c.cvt.markCount = 0)) c f := by
  intro c
  have hmark : decide (f.spacing ≤ p.cvt.markCount + 1) = decide (c.cvt.markCount = 0) := by
    have hcount : c.cvt.markCount = if p.cvt.markCount + 1 < f.spacing then p.cvt.markCount + 1 else 0 := rfl
    rw [hcount, decide_eq_decide]
    split <;> omega
  have hcounted : ((p.sensed pair infeed).modCvt fun x => { x with
      position := x.position + 1, highWater := x.highWater + 1
      phase := if x.phase + 1 < f.pitch then x.phase + 1 else 0
      markCount := if decide (f.spacing ≤ p.cvt.markCount + 1) = true then 0 else x.markCount + 1 }) = c := by
    have hnext : (if decide (f.spacing ≤ p.cvt.markCount + 1) = true then 0 else p.cvt.markCount + 1) =
        if p.cvt.markCount + 1 < f.spacing then p.cvt.markCount + 1 else 0 := by
      simp only [decide_eq_true_eq]
      split <;> split <;> omega
    simp only [Part.modCvt, Part.sensed, hnext]
    rfl
  rw [← hmark, ← hcounted]
  unfold Part.advance
  have hsensed : ((p.sensed pair infeed).modCvt fun x => { x with
      position := x.position + 1, highWater := x.highWater + 1 }).cvt.profile = some f := h
  simp only [hsensed]
  rfl

/-! ## Nothing due, or one event alone (R29) -/

/-- R22, R28: no station of a record and no watch is reached. -/
structure Part.NoneDue (p : Part) (f : Profile) : Prop where
  stations : ∀ x ∈ p.trl.records, ∀ s ∈ x.stations, p.isReached (f.stationOf x s) = false
  watches : ∀ x ∈ p.cvt.watches, p.isReached x.target = false

theorem Part.NoneDue.nextArrival {p : Part} {f : Profile} (h : p.NoneDue f) : p.nextArrival f = none := by
  unfold Part.nextArrival
  refine List.findSome?_eq_none_iff.mpr fun x hx => ?_
  rw [List.find?_eq_none.mpr fun s hs => by simp [h.stations x hx s hs]]
  rfl

theorem Part.NoneDue.watched {p : Part} {f : Profile} (h : p.NoneDue f) :
    (p.cvt.watches.filter fun w => p.isReached w.target) = [] :=
  List.filter_eq_nil_iff.mpr fun x hx => by simp [h.watches x hx]

theorem Part.NoneDue.pendingEvents {p : Part} {f : Profile} (h : p.NoneDue f) (sample mark : Bool) :
    p.pendingEvents f sample mark = (if sample then [.sample] else []) ++ (if mark then [.mark] else []) := by
  unfold Part.pendingEvents
  rw [h.nextArrival, h.watched]
  rfl

theorem Part.NoneDue.travel {p : Part} {f : Profile} (h : p.NoneDue f) (n : Nat) (choices : List Nat) :
    Part.travel n choices false false p f = p := by
  cases n with
  | zero => rfl
  | succ n =>
    unfold Part.travel
    rw [h.pendingEvents]
    rfl

/-- R29: one event alone is due, and nothing after it. -/
theorem Part.travel_one {p : Part} {f : Profile} {e : Pending} {sample mark : Bool} (n : Nat) (choices : List Nat)
    (h : p.pendingEvents f sample mark = [e]) (hs : (sample && e != .sample) = false)
    (hm : (mark && e != .mark) = false)
    (hq : (p.raisePending f e).NoneDue f) : Part.travel (n + 1) choices sample mark p f = p.raisePending f e := by
  unfold Part.travel
  simp only [h, List.length_cons, List.length_nil, Nat.zero_add, Nat.mod_one, List.getElem?_cons_zero, hs, hm]
  exact hq.travel _ _

theorem Part.travelFuel_pos (p : Part) : ∃ n, p.travelFuel = n + 1 := ⟨_, rfl⟩

/-! ## What stays where it is -/

/-- What decides where the stations of a record lie, and which of them are still ahead (R28). -/
def Record.place (x : Record) : Position × Option (Fin 6) × List Station := (x.entryPos, x.robot, x.stations)

theorem Profile.stationOf_place (f : Profile) {x y : Record} (h : x.place = y.place) (s : Station) :
    f.stationOf x s = f.stationOf y s := by
  have hpos : x.entryPos = y.entryPos := congrArg (·.1) h
  have hrobot : x.robot = y.robot := congrArg (·.2.1) h
  unfold Profile.stationOf
  rw [hpos, hrobot]

/-- From `p` to `q` high-water stands, no watch is added, and every record is one of `p` at its place. -/
structure Part.Stays (p q : Part) : Prop where
  highWater : q.cvt.highWater = p.cvt.highWater
  watches : ∀ x ∈ q.cvt.watches, x ∈ p.cvt.watches
  records : ∀ x ∈ q.trl.records, ∃ y ∈ p.trl.records, y.place = x.place

theorem Part.Stays.quiet {p q : Part} {f : Profile} (h : p.Stays q) (hp : p.NoneDue f) : q.NoneDue f where
  stations := fun x hx s hs => by
    obtain ⟨y, hy, hplace⟩ := h.records x hx
    have hstations : y.stations = x.stations := congrArg (·.2.2) hplace
    rw [Part.isReached, h.highWater, ← f.stationOf_place hplace]
    exact hp.stations y hy s (by rw [hstations]; exact hs)
  watches := fun x hx => by
    rw [Part.isReached, h.highWater]
    exact hp.watches x (h.watches x hx)

theorem Part.Stays.trans {p q r : Part} (h : p.Stays q) (k : q.Stays r) : p.Stays r where
  highWater := k.highWater.trans h.highWater
  watches := fun x hx => h.watches x (k.watches x hx)
  records := fun x hx => by
    obtain ⟨y, hy, hyx⟩ := k.records x hx
    obtain ⟨z, hz, hzy⟩ := h.records y hy
    exact ⟨z, hz, hzy.trans hyx⟩

theorem Part.Stays.of_eq {p q : Part} (hc : q.cvt = p.cvt) (ht : q.trl = p.trl) : p.Stays q where
  highWater := by rw [hc]
  watches := fun x hx => by rw [← hc]; exact hx
  records := fun x hx => ⟨x, by rw [← ht]; exact hx, rfl⟩

theorem Part.Stays.refl (p : Part) : p.Stays p := .of_eq rfl rfl

/-- Another block changes. -/
theorem Part.Stays.same {p q r : Part} (h : p.Stays q) (hc : r.cvt = q.cvt) (ht : r.trl = q.trl) : p.Stays r :=
  h.trans (.of_eq hc ht)

theorem Part.Stays.rewrite {p q : Part} (h : p.Stays q) (m : MirrorId) : p.Stays (q.rewrite m) := h.same rfl rfl
theorem Part.Stays.raise {p q : Part} (h : p.Stays q) (n : News) (member : Byte) : p.Stays (q.raise n member) :=
  h.same rfl rfl
theorem Part.Stays.report {p q : Part} (h : p.Stays q) (k : FaultKind) (member : Byte) (seq : Word) :
    p.Stays (q.report k member seq) := h.same (by simp) (by simp)
theorem Part.Stays.modCamera {p q : Part} (h : p.Stays q) (c : Fin 6) (g : Camera → Camera) :
    p.Stays (q.modCamera c g) :=
  h.same rfl rfl
theorem Part.Stays.modRej {p q : Part} (h : p.Stays q) (g : Rej → Rej) : p.Stays (q.modRej g) := h.same rfl rfl

/-- The tracker changes, its watches and high-water apart. -/
theorem Part.Stays.modCvt {p q : Part} (h : p.Stays q) (g : Cvt → Cvt) (hh : (g q.cvt).highWater = q.cvt.highWater)
    (hw : (g q.cvt).watches = q.cvt.watches) : p.Stays (q.modCvt g) :=
  h.trans ⟨hh, fun _ hx => hw ▸ hx, fun x hx => ⟨x, hx, rfl⟩⟩

theorem Part.Stays.modRecord {p q : Part} (h : p.Stays q) (seq : Word) (g : Record → Record)
    (hg : ∀ x, (g x).place = x.place) : p.Stays (q.modRecord seq g) := by
  refine h.trans ⟨rfl, fun _ hx => hx, fun x hx => ?_⟩
  obtain ⟨y, hy, rfl⟩ := List.mem_map.mp hx
  refine ⟨y, hy, ?_⟩
  split
  · exact (hg y).symm
  · rfl

theorem Part.Stays.fold {α : Type} {p q : Part} (h : p.Stays q) (l : List α) (g : Part → α → Part)
    (hg : ∀ q a, Part.Stays q (g q a)) : p.Stays (l.foldl g q) := by
  induction l generalizing q with
  | nil => exact h
  | cons a l ih => exact ih (h.trans (hg q a))

/-! ## What one camera's work leaves -/

/-- The camera's output, its schedule and how often it has fired. -/
def Camera.output (k : Camera) : List Fire × Option OutputPulse × BitVec 5 × Nat :=
  (k.schedule, k.pulse, k.lastTag, k.counters.triggers)

/-- From `p` to `q` camera `c` worked: no other camera has changed, nor the host's flag, and every record stands at its
place. -/
structure Part.Works (c : Fin 6) (p q : Part) : Prop where
  rest : q = { p with trl := q.trl, ctu := q.ctu, rpu := q.rpu, mem := q.mem }
  others : ∀ d : Fin 6, d ≠ c → q.ctu.cameras[d] = p.ctu.cameras[d]
  host : q.ctu.cameras[c].hostService = p.ctu.cameras[c].hostService
  records : q.trl.records.map (fun x => (x.seq, x.place)) = p.trl.records.map fun x => (x.seq, x.place)

/-- The same, its output and its schedule left alone. -/
structure Part.Awaits (c : Fin 6) (p q : Part) : Prop extends Part.Works c p q where
  output : q.ctu.cameras[c].output = p.ctu.cameras[c].output

section
variable {c : Fin 6} {p q r : Part}

theorem Part.Works.refl (c : Fin 6) (p : Part) : p.Works c p := ⟨rfl, fun _ _ => rfl, rfl, rfl⟩

theorem Part.Works.trans (h : p.Works c q) (k : q.Works c r) : p.Works c r where
  rest := by rw [k.rest, h.rest]
  others := fun d hd => (k.others d hd).trans (h.others d hd)
  host := k.host.trans h.host
  records := k.records.trans h.records

theorem Part.Awaits.refl (c : Fin 6) (p : Part) : p.Awaits c p := ⟨.refl c p, rfl⟩

theorem Part.Awaits.trans (h : p.Awaits c q) (k : q.Awaits c r) : p.Awaits c r :=
  ⟨h.toWorks.trans k.toWorks, k.output.trans h.output⟩

theorem Part.Works.modCamera (h : p.Works c q) (g : Camera → Camera)
    (hg : ∀ k, (g k).hostService = k.hostService := by exact fun _ => rfl) : p.Works c (q.modCamera c g) := by
  refine h.trans ⟨rfl, fun d hd => modAt_other _ _ hd, ?_, rfl⟩
  rw [show (q.modCamera c g).ctu.cameras[c] = g q.ctu.cameras[c] from modAt_self _ _ _]
  exact hg _

theorem Part.Awaits.modCamera (h : p.Awaits c q) (g : Camera → Camera)
    (hg : ∀ k, (g k).output = k.output := by exact fun _ => rfl)
    (hhost : ∀ k, (g k).hostService = k.hostService := by exact fun _ => rfl) : p.Awaits c (q.modCamera c g) := by
  refine ⟨h.toWorks.modCamera g hhost, Eq.trans ?_ h.output⟩
  rw [show (q.modCamera c g).ctu.cameras[c] = g q.ctu.cameras[c] from modAt_self _ _ _]
  exact hg _

theorem Part.Awaits.rewrite (h : p.Awaits c q) (m : MirrorId) : p.Awaits c (q.rewrite m) :=
  h.trans ⟨⟨rfl, fun _ _ => rfl, rfl, rfl⟩, rfl⟩

theorem Part.Awaits.raise (h : p.Awaits c q) (n : News) (member : Byte) : p.Awaits c (q.raise n member) :=
  h.trans ⟨⟨rfl, fun _ _ => rfl, rfl, rfl⟩, rfl⟩

theorem Part.Awaits.evidence (h : p.Awaits c q) (seq : Word) (g : Record → Record)
    (hg : ∀ x, (g x).seq = x.seq ∧ (g x).place = x.place) : p.Awaits c (q.evidence seq g) := by
  refine h.trans ⟨⟨rfl, fun _ _ => rfl, rfl, ?_⟩, rfl⟩
  simp only [Part.evidence, Part.modRecord_fields, List.map_map]
  refine List.map_congr_left fun x _ => ?_
  simp only [Function.comp_apply]
  split
  · split
    · rw [(hg x).1, (hg x).2]
    · rfl
  · rfl

theorem Part.Awaits.setVerdict (h : p.Awaits c q) (seq : Word) (d : Fin 6) (v : Verdict) :
    p.Awaits c (q.setVerdict seq d v) := h.evidence seq _ fun _ => ⟨rfl, rfl⟩

theorem Part.Awaits.setTrigger (h : p.Awaits c q) (seq : Word) (d : Fin 6) (t : Time) :
    p.Awaits c (q.setTrigger seq d t) := h.evidence seq _ fun _ => ⟨rfl, rfl⟩

theorem Part.Awaits.noVerdict (h : p.Awaits c q) (seq : Word) : p.Awaits c (q.noVerdict seq c) :=
  ((h.setVerdict seq c .noVerdict).modCamera fun k => { k with counters := { k.counters with
    noVerdict := inc32 k.counters.noVerdict } }).rewrite .ctu

theorem Part.emptyAwaiting_awaits (c : Fin 6) (p : Part) : p.Awaits c (p.emptyAwaiting c) := by
  have hfold (l : List Word) (q : Part) (h : p.Awaits c q) :
    p.Awaits c (l.foldl (fun p seq => p.noVerdict seq c) q) := by
    induction l generalizing q with
    | nil => exact h
    | cons a l ih => exact ih _ (h.noVerdict a)
  exact hfold _ _ ((Part.Awaits.refl c p).modCamera fun k => { k with awaiting := [] })

theorem Part.degrade_awaits (c : Fin 6) (p : Part) (cause : DegradeCause) : p.Awaits c (p.degrade c cause) := by
  have htold := (((Part.Awaits.refl c p).modCamera fun k =>
    { k with degraded := true, degradeCause := some cause, missedRun := 0 }).raise cause.news
      (BitVec.ofNat 8 c.val)).rewrite .ctu
  unfold Part.degrade
  dsimp only
  split
  · exact .refl c p
  · split
    · exact htold.trans (Part.emptyAwaiting_awaits c _)
    · exact htold

theorem Part.gainMissed_awaits (c : Fin 6) (p : Part) : p.Awaits c (p.gainMissed c) := by
  have hrun := ((Part.Awaits.refl c p).modCamera fun k =>
    { k with missedRun := inc8 p.ctu.cameras[c].missedRun }).rewrite .ctu
  unfold Part.gainMissed
  dsimp only
  split
  · exact hrun.trans (Part.degrade_awaits c _ _)
  · exact hrun

theorem Part.makeRoom_awaits (n : Nat) (first : Bool) (c : Fin 6) (p : Part) (seq : Word) :
    p.Awaits c (Part.makeRoom n first p c seq) := by
  induction n generalizing first p with
  | zero => exact .refl c p
  | succ n ih =>
    unfold Part.makeRoom
    split
    · split
      · exact .refl c p
      next oldest rest _ =>
        have hgone := ((Part.Awaits.refl c p).modCamera fun k => { k with awaiting := rest }).noVerdict oldest
        dsimp only
        split
        · exact ((hgone.raise _ _).trans (Part.gainMissed_awaits c _)).trans (ih _ _)
        · exact (hgone.trans (Part.gainMissed_awaits c _)).trans (ih _ _)
    · exact .refl c p

theorem Part.joinAwaiting_awaits (c : Fin 6) (p : Part) (seq : Word) : p.Awaits c (p.joinAwaiting c seq) := by
  have hroom := Part.makeRoom_awaits (p.ctu.cameras[c].awaiting.length + 1) true c p seq
  unfold Part.joinAwaiting
  dsimp only
  split
  · exact (hroom.setVerdict seq c .triggered).modCamera _
  · exact hroom

theorem Part.happen_works (c : Fin 6) (p : Part) : p.Works c (p.happen c) := by
  unfold Part.happen
  split
  next x rest k _ _ =>
    have hfired := ((Part.Works.refl c p).modCamera fun m => { m with
      schedule := rest, pulse := some ⟨p.now + BitVec.ofNat 48 k.width, !k.activeLow⟩, lastTag := tagOf x.seq
      counters := { m.counters with triggers := inc32 m.counters.triggers } }).trans
        ((Part.Awaits.refl c _).setTrigger x.seq c p.now).toWorks
    dsimp only
    split
    · exact hfired.trans ((Part.joinAwaiting_awaits c _ x.seq).rewrite .ctu).toWorks
    · exact hfired.trans ((Part.Awaits.refl c _).rewrite .ctu).toWorks
  next => exact .refl c p

theorem Part.fallDue_works (c : Fin 6) (p : Part) (seq : Word) : p.Works c (p.fallDue c seq) := by
  have hmarked := (Part.Works.refl c p).modCamera fun k => { k with schedule := markThrough seq k.schedule }
  unfold Part.fallDue
  split
  · dsimp only
    split
    · exact hmarked.trans (Part.happen_works c _)
    · exact hmarked
  · exact .refl c p

theorem Part.repaceFire_works (c : Fin 6) (p : Part) (seq : Word) : p.Works c (p.repaceFire c seq) := by
  unfold Part.repaceFire
  split
  · exact .refl c p
  next x k _ =>
    split
    · exact .refl c p
    next eta _ =>
      have htimed : p.Works c (p.setFireTime c seq (some (eta - BitVec.ofNat 48 k.lead))) :=
        (Part.Works.refl c p).modCamera _
      dsimp only
      split
      · exact htimed.trans (Part.fallDue_works c _ seq)
      · exact htimed

theorem Part.repaceCamera_works (c : Fin 6) (p : Part) : p.Works c (p.repaceCamera c) := by
  have hfold (l : List Word) (q : Part) (h : p.Works c q) :
    p.Works c (l.foldl (fun p seq => p.repaceFire c seq) q) := by
    induction l generalizing q with
    | nil => exact h
    | cons a l ih => exact ih _ (h.trans (Part.repaceFire_works c q a))
  unfold Part.repaceCamera
  split
  · exact hfold _ _ (.refl c p)
  · exact .refl c p

theorem Part.cameraStation_works (c : Fin 6) (p : Part) (seq : Word) : p.Works c (p.cameraStation c seq) := by
  have hfalls (x : Fire) : p.Works c (((if (x.time.isSome && p.cvt.paceState == .timed) = true then
      p.countCamera c fun n => { n with latePosition := inc32 n.latePosition } else p).setFireTime c seq none).fallDue c
        seq) := by
    refine Part.Works.trans ?_ (Part.fallDue_works c _ seq)
    refine Part.Works.modCamera ?_ _
    split
    · exact (Part.Works.refl c p).modCamera _
    · exact .refl c p
  unfold Part.cameraStation
  split
  · exact ((Part.Works.refl c p).modCamera _).trans ((Part.Awaits.refl c _).setVerdict seq c _).toWorks
  · split
    · exact .refl c p
    · exact hfalls _
  · split
    · exact .refl c p
    · exact hfalls _
  · exact .refl c p
  · split
    · split
      · exact ((Part.Awaits.refl c p).noVerdict seq).toWorks
      · exact .refl c p
    · exact .refl c p

theorem Part.Works.stays (h : p.Works c q) : p.Stays q where
  highWater := by rw [h.rest]
  watches := fun x hx => by rw [h.rest] at hx; exact hx
  records := fun x hx => by
    have hmem : (x.seq, x.place) ∈ p.trl.records.map fun x => (x.seq, x.place) := by
      rw [← h.records]
      exact List.mem_map_of_mem hx
    obtain ⟨y, hy, hxy⟩ := List.mem_map.mp hmem
    exact ⟨y, hy, congrArg Prod.snd hxy⟩

end

theorem Part.camerasNewPace_stays (p : Part) : p.Stays p.camerasNewPace :=
  (Part.Stays.refl p).fold _ _ fun q c => (Part.repaceCamera_works c q).stays

theorem Part.cameraStation_stays (p : Part) (c : Fin 6) (seq : Word) : p.Stays (p.cameraStation c seq) :=
  (Part.cameraStation_works c p seq).stays

/-! ## So do removals and the ejector -/

theorem Part.Stays.setEject {p q : Part} (h : p.Stays q) (seq : Word) (e : EjectState) : p.Stays (q.setEject seq e) :=
  h.modRecord seq _ fun _ => rfl

theorem Part.listEmptied_stays (p : Part) : p.Stays p.listEmptied := by
  unfold Part.listEmptied
  split
  · refine ((((Part.Stays.refl p).modCvt (fun c => { c with tracker := .ready, drainOrder := none }) rfl rfl).same ?_
      ?_))
    · simp
    · simp
  · exact .refl p

theorem Part.remove_stays (p : Part) (seq : Word) : p.Stays (p.remove seq) := by
  unfold Part.remove
  split
  · exact .refl p
  next r _ =>
    dsimp only
    have hgone : p.Stays ((((p.modTrl fun t =>
      { t with records := t.records.filter fun x => x.seq != seq }).handOutcome 1
        r.outcome).modTrl fun t => t.countRemoval r).rewrite .trl) := by
      refine ⟨by simp, fun x hx => by simpa using hx, fun x hx => ?_⟩
      have hmem : x ∈ p.trl.records.filter fun x => x.seq != seq := by
        revert hx
        simp only [Part.rewrite_frame, Part.modTrl_fields, Trl.countRemoval]
        split <;> simp
      exact ⟨x, (List.mem_filter.mp hmem).1, rfl⟩
    split
    · exact hgone.trans (Part.listEmptied_stays _)
    · exact hgone

theorem Part.unconfirm_stays (p : Part) (seq : Word) (news : News) : p.Stays (p.unconfirm seq news) := by
  have hfirst := ((Part.Stays.refl p).modRej fun e =>
    { e with confirm := e.confirm.filter fun s => s != seq
             counters := { e.counters with unconfirmed := inc32 e.counters.unconfirmed } }).setEject seq .unconfirmed
  exact (((hfirst.report .ejectUnconfirmed 0 seq).raise news 0).rewrite .rej).trans (Part.remove_stays _ seq)

theorem Part.pushOut_stays (p : Part) : p.Stays p.pushOut := by
  unfold Part.pushOut
  split
  · split
    · exact p.unconfirm_stays _ _
    · exact .refl p
  · exact .refl p

theorem Part.fireMember_stays (p : Part) (seq : Word) : p.Stays (p.fireMember seq) := by
  have hfired := (Part.Stays.refl p).setEject seq .fired
  unfold Part.fireMember
  dsimp only
  split
  · exact (hfired.trans (Part.pushOut_stays _)).modRej _
  · exact hfired.trans (Part.remove_stays _ seq)

theorem Part.fireMembers_stays (p : Part) (seqs : List Word) : p.Stays (p.fireMembers seqs) :=
  (Part.Stays.refl p).fold _ _ fun q seq => q.fireMember_stays seq

theorem Part.drive_stays (p : Part) (ending : Time) : p.Stays (p.drive ending) := .of_eq (by simp) (by simp)

theorem Part.startPulse_stays (p : Part) (q : Pulse) (ending : Time) : p.Stays (p.startPulse q ending) :=
  ((((Part.Stays.refl p).modRej _).trans (Part.drive_stays _ ending)).trans
    (Part.fireMembers_stays _ q.members)).rewrite .rej

theorem Part.startByTime_stays (p : Part) (q : Pulse) : p.Stays (p.startByTime q) := by
  unfold Part.startByTime
  split
  · exact p.startPulse_stays q _
  · exact .refl p

theorem Part.ejectorNewPace_stays (p : Part) : p.Stays p.ejectorNewPace :=
  ((((Part.Stays.refl p).modRej _).trans (Part.fireMembers_stays _ _)).fold _ _ fun q x =>
    q.startByTime_stays x).rewrite .rej

theorem Part.ejectorStation_stays (p : Part) (seq : Word) : p.Stays (p.ejectorStation seq) := by
  unfold Part.ejectorStation
  split
  · split
    · exact p.remove_stays seq
    · unfold Part.ejectorArrival
      split
      · exact .refl p
      · dsimp only
        split
        · exact p.startPulse_stays _ _
        · exact ((Part.Stays.refl p).modRej _).trans (Part.startPulse_stays _ _ _)
    · exact .refl p
  · exact .refl p

theorem Part.confirmEnd_stays (p : Part) (seq : Word) : p.Stays (p.confirmEnd seq) := by
  unfold Part.confirmEnd
  split
  · exact p.unconfirm_stays seq _
  · exact .refl p

/-! ## And a mark -/

theorem Part.enterCrawl_stays (p : Part) : p.Stays p.enterCrawl := by
  refine ⟨by rw [p.enterCrawl_cvt]; rfl, fun x hx => by rw [p.enterCrawl_cvt] at hx; exact hx, fun x hx => ⟨x, ?_, rfl⟩⟩
  simpa using hx

theorem Part.judgePace_stays (p : Part) (f : Profile) : p.Stays (p.judgePace f) := by
  unfold Part.judgePace
  split
  · exact p.enterCrawl_stays
  next pace _ =>
    have hpaced := (Part.Stays.refl p).modCvt (fun c => { c with pace := pace, paceState := .timed }) rfl rfl
    dsimp only
    split
    · exact ((hpaced.rewrite .cvt).trans (Part.camerasNewPace_stays _)).trans (Part.ejectorNewPace_stays _)
    · exact (((hpaced.raise .paceTimed 0).rewrite .cvt).trans (Part.camerasNewPace_stays _)).trans
        (Part.ejectorNewPace_stays _)

theorem Part.mark_stays (p : Part) (f : Profile) : p.Stays (p.mark f) := by
  have hjoined := (Part.Stays.refl p).modCvt (fun c => { c with marks := joinMark c.marks ⟨p.now, c.highWater⟩ })
    rfl rfl
  unfold Part.mark
  dsimp only
  split
  · exact (hjoined.modCvt _ rfl rfl).rewrite .cvt
  · split
    · exact hjoined.rewrite .cvt
    · exact hjoined.trans (Part.judgePace_stays _ f)
  · exact hjoined.trans (Part.judgePace_stays _ f)

/-! ## The advance with one event due -/

/-- An advance is the count at depth 0, and then what is due on it. -/
theorem Part.advances_travel {p : Part} {f : Profile} {was pair : Bool × Bool} (infeed : Bool) (choices : List Nat)
    (hd : p.cvt.decoder = some was) (hforward : forwardCount was pair) (hdepth : p.cvt.depth = 0)
    (hprofile : p.cvt.profile = some f) :
    let c := p.counted f pair infeed
    p.encoderPair pair infeed choices = Part.travel c.travelFuel choices (decide (c.cvt.phase = f.samplePhase))
      (decide (c.cvt.markCount = 0)) c f := by
  rw [p.encoderPair_forward infeed choices hd hforward, Part.forward_advances (p.sensed pair infeed) choices hdepth]
  exact p.advance_counted f pair infeed choices hprofile

/-- The same where one event alone is due: it is raised, and no more. -/
theorem Part.advances_raises {p : Part} {f : Profile} {was pair : Bool × Bool} {infeed : Bool} {e : Pending}
    (choices : List Nat) (h : p.advances f was pair infeed e)
    (hpending : (p.counted f pair infeed).pendingEvents f (decide (e = .sample)) (decide (e = .mark)) = [e])
    (hq : ((p.counted f pair infeed).raisePending f e).NoneDue f) :
    p.encoderPair pair infeed choices = (p.counted f pair infeed).raisePending f e := by
  obtain ⟨hd, hforward, hdepth, hprofile, -, -, hsample, hmark⟩ := h
  rw [Part.advances_travel infeed choices hd hforward hdepth hprofile]
  obtain ⟨n, hn⟩ := (p.counted f pair infeed).travelFuel_pos
  rw [hn, decide_eq_decide.mpr hsample, decide_eq_decide.mpr hmark]
  refine Part.travel_one n choices hpending ?_ ?_ hq
  · by_cases he : e = .sample <;> simp [he]
  · by_cases he : e = .mark <;> simp [he]

/-- Nothing is due but `e`, which is neither an arrival nor a watch. -/
theorem Part.advances_noneDue {p : Part} {f : Profile} {was pair : Bool × Bool} {infeed : Bool} {e : Pending}
    (h : p.advances f was pair infeed e) (he : e = .sample ∨ e = .mark) : (p.counted f pair infeed).NoneDue f := by
  obtain ⟨-, -, -, -, hstations, hwatches, -, -⟩ := h
  refine ⟨fun x hx s hs => ?_, fun x hx => ?_⟩
  · refine Bool.eq_false_iff.mpr fun hreached => ?_
    have hdue : e = .arrival x.seq s := (hstations x hx s hs).mp hreached
    rcases he with rfl | rfl <;> exact absurd hdue (by simp)
  · refine Bool.eq_false_iff.mpr fun hreached => ?_
    have hdue : e = .watch x := (hwatches x hx).mp hreached
    rcases he with rfl | rfl <;> exact absurd hdue (by simp)

/-- R24: the advance on which the sample alone is due. -/
theorem Part.advances_sample {p : Part} {f : Profile} {was pair : Bool × Bool} {infeed : Bool} (choices : List Nat)
    (h : p.advances f was pair infeed .sample) (hq : (p.counted f pair infeed).sample.NoneDue f) :
    p.encoderPair pair infeed choices = (p.counted f pair infeed).sample :=
  p.advances_raises choices h (by rw [(Part.advances_noneDue h (.inl rfl)).pendingEvents]; rfl) hq

/-- R30: the advance on which the mark alone is due. -/
theorem Part.advances_mark {p : Part} {f : Profile} {was pair : Bool × Bool} {infeed : Bool} (choices : List Nat)
    (h : p.advances f was pair infeed .mark) : p.encoderPair pair infeed choices = (p.counted f pair infeed).mark f :=
  p.advances_raises choices h (by rw [(Part.advances_noneDue h (.inr rfl)).pendingEvents]; rfl)
    (((p.counted f pair infeed).mark_stays f).quiet (Part.advances_noneDue h (.inr rfl)))

/-- R28: once the one arrival due has been raised, no station and no watch is reached. -/
theorem Part.arrives_noneDue {p : Part} {f : Profile} {was pair : Bool × Bool} {infeed : Bool} {r : Record}
    {s : Station}
    (h : p.arrives f was pair infeed r s) : ((p.counted f pair infeed).past r.seq s).NoneDue f := by
  obtain ⟨⟨-, -, -, -, hstations, hwatches, -, -⟩, -, -, -, -⟩ := h
  refine ⟨fun x hx t ht => ?_, fun x hx => ?_⟩
  · obtain ⟨y, hy, rfl⟩ := List.mem_map.mp hx
    have hyt : t ∈ y.stations ∧ (y.seq = r.seq → t ≠ s) := by
      by_cases hseq : y.seq = r.seq
      · rw [if_pos hseq] at ht
        obtain ⟨hmem, hne⟩ := List.mem_filter.mp ht
        exact ⟨hmem, fun _ => by simpa using hne⟩
      · rw [if_neg hseq] at ht
        exact ⟨ht, fun hc => absurd hc hseq⟩
    refine Bool.eq_false_iff.mpr fun hreached => ?_
    have hsame : f.stationOf (if y.seq = r.seq then { y with stations := y.stations.filter (· != s) } else y) t =
        f.stationOf y t := by split <;> rfl
    rw [hsame] at hreached
    have hdue : Pending.arrival r.seq s = .arrival y.seq t := (hstations y hy t hyt.1).mp hreached
    obtain ⟨hseq, hst⟩ := Pending.arrival.inj hdue
    exact hyt.2 hseq.symm hst.symm
  · refine Bool.eq_false_iff.mpr fun hreached => ?_
    exact absurd ((hwatches x hx).mp hreached) (by simp)

theorem Part.arrives_pending {p : Part} {f : Profile} {was pair : Bool × Bool} {infeed : Bool} {r : Record}
    {s : Station}
    (h : p.arrives f was pair infeed r s) : (p.counted f pair infeed).pendingEvents f false false =
      [.arrival r.seq s] := by
  obtain ⟨⟨-, -, -, -, hstations, hwatches, -, -⟩, hr, -, hs, -⟩ := h
  have hreach (x : Record) (hx : x ∈ p.trl.records) (t : Station) (ht : t ∈ x.stations) :
      (p.counted f pair infeed).isReached (f.stationOf x t) = true ↔ Pending.arrival r.seq s = .arrival x.seq t :=
    hstations x hx t ht
  have hwatched : ((p.counted f pair infeed).cvt.watches.filter fun w =>
      (p.counted f pair infeed).isReached w.target) = [] :=
    List.filter_eq_nil_iff.mpr fun x hx hreached => absurd ((hwatches x hx).mp hreached) (by simp)
  have harrival : (p.counted f pair infeed).nextArrival f = some (.arrival r.seq s) := by
    have hfound (x : Record) (hx : x ∈ p.trl.records) (a : Pending)
        (ha : ((x.stations.find? fun t => (p.counted f pair infeed).isReached (f.stationOf x t)).map fun t =>
          Pending.arrival x.seq t) = some a) : a = .arrival r.seq s := by
      obtain ⟨t, ht, rfl⟩ := Option.map_eq_some_iff.mp ha
      exact ((hreach x hx t (List.mem_of_find?_eq_some ht)).mp (by simpa using List.find?_some ht)).symm
    unfold Part.nextArrival
    cases hsome : (p.counted f pair infeed).trl.records.findSome? fun x =>
        (x.stations.find? fun t => (p.counted f pair infeed).isReached (f.stationOf x t)).map fun t =>
          Pending.arrival x.seq t with
    | none =>
      have hnone := List.findSome?_eq_none_iff.mp hsome r hr
      rw [Option.map_eq_none_iff] at hnone
      exact absurd ((hreach r hr s hs).mpr rfl) (by simpa using List.find?_eq_none.mp hnone s hs)
    | some a =>
      obtain ⟨x, hx, ha⟩ := List.exists_of_findSome?_eq_some hsome
      rw [hfound x hx a ha]
  unfold Part.pendingEvents
  rw [harrival, hwatched]
  rfl

/-- R28: the advance on which one arrival alone is due. -/
theorem Part.arrives_raises {p : Part} {f : Profile} {was pair : Bool × Bool} {infeed : Bool} {r : Record} {s : Station}
    (choices : List Nat) (h : p.arrives f was pair infeed r s)
    (hstays : ((p.counted f pair infeed).past r.seq s).Stays
      (((p.counted f pair infeed).past r.seq s).arrive r.seq s)) :
    p.encoderPair pair infeed choices = ((p.counted f pair infeed).past r.seq s).arrive r.seq s :=
  p.advances_raises choices h.1 (Part.arrives_pending h) (hstays.quiet (Part.arrives_noneDue h))

/-- Settles O12. -/
theorem forwardCountAdvances : Obligations.ForwardCountAdvances := by
  unfold Obligations.ForwardCountAdvances
  intro p w was pair infeed choices hd hforward moved advanced
  have hq := p.encoderPair_forward infeed choices hd hforward
  refine ⟨fun h => Part.encoderCount_leads w (hq.trans (Part.forward_deep _ choices h)) rfl, fun hdepth he => ?_,
    fun hdepth hnone => Part.encoderCount_leads w
      ((hq.trans (Part.forward_advances _ choices hdepth)).trans (Part.advance_unprofiled _ choices hnone)) rfl,
    fun f hdepth hprofile => ?_⟩
  · let X : Part := { p with cvt := { moved with depth := 0 } }
    exact Part.encoderCount_leads w (hq.trans (Part.forward_last _ choices hdepth he)) ⟨X.endExcursion_cvt, rfl,
      X.endExcursion_tells, Part.rewrite_mirrored _ _, X.endExcursion_speaks.storesOnly fun _ => id⟩
  · intro phase
    refine Part.encoderCount_leads w (Part.advances_travel infeed choices hd hforward hdepth hprofile)
      ⟨by simp [Part.counted], by simp [Part.counted], by simpa [Part.counted] using hdepth,
        by simp [Part.counted]; rfl,
        by simpa [Part.counted] using hprofile, fun hstations hwatches hphase hmark => ?_⟩
    have hnone : (p.counted f pair infeed).NoneDue f :=
      ⟨fun x hx s hs => Bool.eq_false_iff.mpr (hstations x hx s hs), fun x hx => Bool.eq_false_iff.mpr (hwatches x hx)⟩
    have hcount : (p.counted f pair infeed).cvt.markCount = p.cvt.markCount + 1 := if_pos hmark
    have hsample : ¬ (p.counted f pair infeed).cvt.phase = f.samplePhase := hphase
    rw [decide_eq_false hsample, decide_eq_false (by omega), hnone.travel]
    simp only [Part.counted, if_pos hmark]
    rfl

end Sys2Proof.Machine
end

section
/-! PROOFS. The mark timeout (R31, R38, R115), LINE_START and LINE_STOP (R26, R27). -/

namespace Sys2Proof.Machine

/-! ## The loss of pace -/

theorem Part.markTimedOut_eq {p : Part} {f : Profile} {m : Mark} (hprofile : p.cvt.profile = some f)
    (hlast : p.cvt.marks.getLast? = some m) : p.markTimedOut =
      if (f.spacing * f.crawlLimit / 65536 : Nat) < (p.now - m.stamp).toInt then p.enterCrawl else p := by
  unfold Part.markTimedOut Part.markOverdue
  simp only [hprofile, hlast, decide_eq_true_eq]
  rfl

theorem Part.enterCrawl_fault (p : Part) : p.enterCrawl.rpu.fault = p.rpu.fault := by simp

theorem Part.enterCrawl_tells (p : Part) :
    p.tells p.enterCrawl (if p.cvt.paceState = .timed then [(.paceCrawl, 0)] else []) :=
  p.enterCrawl_speaks.tells p.enterCrawl_fault

/-- R38, R115: what losing a pace leaves of the fires and of the pulses. -/
theorem Part.enterCrawl_untimes (p : Part) (h : p.cvt.paceState = .timed) :
    p.enterCrawl = { p with
      cvt := p.enterCrawl.cvt, ctu := p.enterCrawl.ctu, rej := p.enterCrawl.rej, rpu := p.enterCrawl.rpu
      mem := p.enterCrawl.mem } ∧
    p.enterCrawl.ctu.cameras = p.ctu.cameras.map (fun k =>
      { k with schedule := k.schedule.map fun x => { x with time := none } }) ∧
    p.enterCrawl.rej = { p.rej with
      schedule := (p.rej.schedule.flatMap (·.members)).map fun seq => { members := [seq], times := none } } := by
  rw [p.enterCrawl_timed h, Part.camerasPaceLost_eq]
  refine ⟨rfl, rfl, ?_⟩
  rw [← flatMap_split]
  rfl

theorem Part.enterCrawl_plainly (p : Part) (h : p.cvt.paceState ≠ .timed) : p.enterCrawl = { p with
      cvt := p.enterCrawl.cvt, rpu := p.enterCrawl.rpu, mem := p.enterCrawl.mem } ∧
    Memory.storesOnly p.mem p.enterCrawl.mem [.mirror .cvt] := by
  rw [p.enterCrawl_plain h]
  exact ⟨rfl, (((Part.Speaks.refl p).modCvt _).rewrite .cvt).storesOnly fun _ => id⟩

/-- Settles O15. -/
theorem markTimeoutEntersCrawl : Obligations.MarkTimeoutEntersCrawl := by
  unfold Obligations.MarkTimeoutEntersCrawl
  intro p w f m hprofile hlast
  have hq := Part.markTimedOut_eq hprofile hlast
  refine ⟨fun h => leads_after (f := Part.markTimedOut) rfl (hq.trans (if_neg (Int.not_lt.mpr h))) rfl, fun h =>
    leads_after (f := Part.markTimedOut) rfl (hq.trans (if_pos h))
      ⟨p.enterCrawl_cvt, p.enterCrawl_mirrored, fun hpace => ?_, fun hpace => ?_⟩⟩
  · obtain ⟨heq, hstores⟩ := p.enterCrawl_plainly hpace
    have htells := p.enterCrawl_tells
    rw [if_neg hpace] at htells
    exact ⟨heq, htells, hstores⟩
  · obtain ⟨heq, hcameras, hrej⟩ := p.enterCrawl_untimes hpace
    have htells := p.enterCrawl_tells
    rw [if_pos hpace] at htells
    exact ⟨heq, hcameras, hrej, htells, p.enterCrawl_speaks.storesOnly (by simp)⟩

/-! ## LINE_START (R26) -/

theorem Part.lineStartOrder_ready (p : Part) (ref : OrderRef) (h : p.cvt.tracker = .ready) : p.lineStartOrder ref =
    (((p.modCvt fun c => { c with tracker := .tracking }).raise .started 0).rewrite .cvt).complete ref .ok 0 := by
  unfold Part.lineStartOrder
  rw [h]

theorem Part.lineStartOrder_draining (p : Part) (ref drain : OrderRef) (h : p.cvt.tracker = .draining)
    (hdrain : p.cvt.drainOrder = some drain) : p.lineStartOrder ref =
    (((((p.modCvt fun c => { c with tracker := .tracking, drainOrder := none }).complete drain .superseded
      0).raise .started
      0).rewrite .cvt).complete ref .ok 0) := by
  unfold Part.lineStartOrder
  simp only [h, hdrain, Part.completeIf]

theorem Part.lineStartOrder_refused (p : Part) (ref : OrderRef)
    (h : p.cvt.tracker = .unprofiled ∨ p.cvt.tracker = .tracking) :
    p.lineStartOrder ref = p.complete ref .state 0 := by
  unfold Part.lineStartOrder
  rcases h with h | h <;> rw [h]

/-! ## LINE_STOP (R27) -/

theorem Part.lineStopOrder_empty (p : Part) (ref : OrderRef) (h : p.cvt.tracker = .tracking) (hr : p.trl.records = []) :
    p.lineStopOrder ref =
      (((p.modCvt fun c => { c with tracker := .ready }).rewrite .cvt).robotsReady).complete ref .ok 0 := by
  unfold Part.lineStopOrder
  rw [h]
  exact if_pos (by rw [hr]; rfl)

theorem Part.lineStopOrder_drains (p : Part) (ref : OrderRef) (h : p.cvt.tracker = .tracking)
    (hr : p.trl.records ≠ []) :
    p.lineStopOrder ref =
      ((p.modCvt fun c => { c with tracker := .draining, drainOrder := some ref }).raise .draining 0).rewrite .cvt := by
  unfold Part.lineStopOrder
  rw [h]
  exact if_neg (by simpa using hr)

theorem Part.lineStopOrder_refused (p : Part) (ref : OrderRef) (h : p.cvt.tracker ≠ .tracking) :
    p.lineStopOrder ref = p.complete ref .state 0 := by
  unfold Part.lineStopOrder
  cases ht : p.cvt.tracker with
  | tracking => exact absurd ht h
  | _ => rfl

theorem Part.adoptWindow_idle (p : Part) (r : Fin 6) (h : p.rbp.robots[r].pendingWindow = none) :
    p.adoptWindow r = p := by
  unfold Part.adoptWindow
  rw [h]

/-- R76, R81: entering READY with nothing pending. -/
theorem Part.robotsReady_idle (p : Part) (hrotation : p.rbp.pendingRotation = none)
    (hwindows : ∀ r : Fin 6, p.rbp.robots[r].pendingWindow = none) : p.robotsReady = p := by
  unfold Part.robotsReady
  simp only [hrotation, sixes_foldl]
  simp only [Part.adoptWindow_idle p _ (hwindows _)]

/-! Completing an order does not look at the tracker. -/

theorem Part.modOdk_modCvt (p : Part) (g : Cvt → Cvt) (h : Odk → Odk) :
    (p.modCvt g).modOdk h = (p.modOdk h).modCvt g := rfl
theorem Part.writeResult_modCvt (p : Part) (g : Cvt → Cvt) (n : Fin 48) (kind tag k : Nat) (c : Completion) :
    (p.modCvt g).writeResult n kind tag k c = (p.writeResult n kind tag k c).modCvt g := rfl
theorem Part.raise_modCvt (p : Part) (g : Cvt → Cvt) (k : News) (member : Byte) :
    (p.modCvt g).raise k member = (p.raise k member).modCvt g := rfl
theorem Part.rewriteOdk_modCvt (p : Part) (g : Cvt → Cvt) : (p.modCvt g).rewrite .odk = (p.rewrite .odk).modCvt g := rfl

theorem Part.complete_modCvt (p : Part) (g : Cvt → Cvt) (ref : OrderRef) (r : Result) (d : Byte) :
    (p.modCvt g).complete ref r d = (p.complete ref r d).modCvt g := by
  unfold Part.complete
  split
  next h => rw [show p.odk.entry ref = none from h]
  next e h =>
    rw [show p.odk.entry ref = some e from h]
    dsimp only
    rw [Part.modOdk_modCvt, Part.rewriteOdk_modCvt, Part.writeResult_modCvt, Part.raise_modCvt, Part.rewriteOdk_modCvt]
    split
    · rfl
    · split <;> rfl

/-- An order answered at its take, where held orders have completed beside it and `others` are left in flight. -/
theorem Part.answered_among {p : Part} {n : Fin 48} {o : Order} (h : p.canTake n o) (X : Part) (r : Result) (d : Byte)
    (others : List InFlight) (hothers : ∀ e ∈ others, e.ref ≠ p.nextRef n)
    (hp : (p.markTaken n).perform (p.nextRef n) o = X.complete (p.nextRef n) r d) (hX : X.odk = p.takingOdk n others) :
    p.answersAmong (p.takeAs n o) n ⟨r, d⟩ others ∧ X.Settled (p.takeAs n o) n := by
  rw [Part.takeAs_eq h, hp]
  exact p.answered_of n X r d others hothers hX

/-- Beside the desk, only the tracker changed. -/
theorem Part.Settled.only_cvt {p X q : Part} {n : Fin 48} (hs : X.Settled q n)
    (hX : X = { p with cvt := X.cvt, odk := X.odk, rpu := X.rpu, mem := X.mem }) :
    q = { p with cvt := q.cvt, odk := q.odk, rpu := q.rpu, mem := q.mem } := by
  refine hs.eq.trans ?_
  rw [hs.cvt, hX]

/-- R26: LINE_START in READY. -/
theorem Part.lineStart_starts {p : Part} {n : Fin 48} (h : p.canTake n .lineStart) (ht : p.cvt.tracker = .ready) :
    let q := p.takeAs n .lineStart
    q.cvt = { p.cvt with tracker := .tracking } ∧
    q = { p with cvt := q.cvt, odk := q.odk, rpu := q.rpu, mem := q.mem } ∧ p.answers q n .ok ∧
    p.tells q [(.started, 0)] ∧ q.mirrored .cvt ∧
    Memory.storesOnly p.mem q.mem [.cell n, .bulletin 1, .mirror .cvt, .mirror .odk] := by
  intro q
  obtain ⟨hanswers, hs⟩ := Part.answered_at_once h _ .ok 0
    (Part.lineStartOrder_ready (p.markTaken n) (p.nextRef n) ht) rfl
  have htold := (((((Part.Speaks.refl p).markTaken n).modCvt _).raise .started 0).rewrite .cvt).settled hs
  exact ⟨hs.cvt, hs.only_cvt (by apply Part.eq_of_fields <;> simp), hanswers,
    htold.tells hs.fault, hs.mirrored .cvt (by decide) (Part.rewrite_mirrored _ _),
    htold.storesOnly (by simp [News.bulletin])⟩

/-- R26: LINE_START in DRAINING. -/
theorem Part.lineStart_resumes {p : Part} {n : Fin 48} {e : InFlight} (h : p.canTake n .lineStart)
    (ht : p.cvt.tracker = .draining) (hdrain : p.cvt.drainOrder = some e.ref) (he : p.odk.holds e) :
    let q := p.takeAs n .lineStart
    q.cvt = { p.cvt with tracker := .tracking, drainOrder := none } ∧
    q = { p with cvt := q.cvt, odk := q.odk, rpu := q.rpu, mem := q.mem } ∧
    p.answersAmong q n ⟨.ok, 0⟩ (p.odk.without e.ref) ∧ q.shows e .superseded ∧ p.tells q [e.told, (.started, 0)] ∧
    Memory.storesOnly p.mem q.mem
      [.cell n, .cell e.ref.cell, .bulletin 0, .bulletin 1, .mirror .cvt, .mirror .odk] := by
  intro q
  obtain ⟨hodk, -, hshown, hheld⟩ := Part.concluded_beside h he .superseded 0
  obtain ⟨-, hcell, hothers, -⟩ := Part.canTake_other h he
  have hperform := Part.lineStartOrder_draining (p.markTaken n) (p.nextRef n) e.ref ht hdrain
  rw [Part.complete_modCvt] at hperform
  generalize hX : (p.markTaken n).complete e.ref .superseded 0 = X at *
  have hframe : X = { p with odk := X.odk, rpu := X.rpu, mem := X.mem } ∧ X.rpu.fault = p.rpu.fault := by
    subst hX
    exact ⟨by apply Part.eq_of_fields <;> simp, by simp⟩
  obtain ⟨hanswers, hs⟩ := Part.answered_among h _ .ok 0 _ hothers hperform (by exact hodk)
  have htold := (((hheld.modCvt _).raise .started 0).rewrite .cvt).settled hs
  have hcvt : q.cvt = { p.cvt with tracker := .tracking, drainOrder := none } := hs.cvt.trans (by rw [hframe.1]; rfl)
  refine ⟨hcvt, hs.eq.trans ?_, hanswers, (hs.cell _ hcell).trans ?_, htold.tells (hs.fault.trans hframe.2),
    htold.storesOnly (by simp [News.bulletin])⟩
  · rw [hcvt, hframe.1]
    rfl
  · rw [Part.rewrite_cell, Part.raise_cell]
    exact hshown.trans (by rw [htold.now])

/-- R27: LINE_STOP in TRACKING with an empty list. -/
theorem Part.lineStop_stops {p : Part} {n : Fin 48} (h : p.canTake n .lineStop) (ht : p.cvt.tracker = .tracking)
    (hr : p.trl.records = []) : (p.takeAs n .lineStop).cvt = { p.cvt with tracker := .ready } := by
  rw [Part.takeAs_eq h, show (p.markTaken n).perform (p.nextRef n) .lineStop = _ from
    Part.lineStopOrder_empty (p.markTaken n) (p.nextRef n) ht hr]
  simp

/-- R27: the same with nothing pending at the Robot Pacer. -/
theorem Part.lineStop_stopsAlone {p : Part} {n : Fin 48} (h : p.canTake n .lineStop) (ht : p.cvt.tracker = .tracking)
    (hr : p.trl.records = []) (hrotation : p.rbp.pendingRotation = none)
    (hwindows : ∀ r : Fin 6, p.rbp.robots[r].pendingWindow = none) :
    let q := p.takeAs n .lineStop
    q = { p with cvt := q.cvt, odk := q.odk, rpu := q.rpu, mem := q.mem } ∧ p.answers q n .ok ∧ p.tells q [] ∧
    q.mirrored .cvt ∧ Memory.storesOnly p.mem q.mem [.cell n, .mirror .cvt, .mirror .odk] := by
  intro q
  have hperform := Part.lineStopOrder_empty (p.markTaken n) (p.nextRef n) ht hr
  rw [Part.robotsReady_idle (((p.markTaken n).modCvt _).rewrite .cvt) hrotation hwindows] at hperform
  obtain ⟨hanswers, hs⟩ := Part.answered_at_once h _ .ok 0 hperform rfl
  have htold := ((((Part.Speaks.refl p).markTaken n).modCvt _).rewrite .cvt).settled hs
  exact ⟨hs.only_cvt (by apply Part.eq_of_fields <;> simp), hanswers,
    htold.tells hs.fault, hs.mirrored .cvt (by decide) (Part.rewrite_mirrored _ _), htold.storesOnly (by simp)⟩

/-- R27: LINE_STOP in TRACKING with records in the list. -/
theorem Part.lineStop_drains {p : Part} {n : Fin 48} (h : p.canTake n .lineStop) (ht : p.cvt.tracker = .tracking)
    (hr : p.trl.records ≠ []) :
    let q := p.takeAs n .lineStop
    q.cvt = { p.cvt with tracker := .draining, drainOrder := some (p.nextRef n) } ∧
    q = { p with cvt := q.cvt, odk := q.odk, rpu := q.rpu, mem := q.mem } ∧ p.keeps q n ∧ p.tells q [(.draining, 0)] ∧
    Memory.storesOnly p.mem q.mem [.cell n, .bulletin 1, .mirror .cvt, .mirror .odk] := by
  intro q
  obtain ⟨hkeeps, hs⟩ := Part.kept_on h _ (Part.lineStopOrder_drains (p.markTaken n) (p.nextRef n) ht hr) rfl
    (by rw [Part.rewrite_cell, Part.raise_cell]; exact p.markTaken_read n)
  have htold := (((((Part.Speaks.refl p).markTaken n).modCvt _).raise .draining 0).rewrite .cvt).settled hs
  exact ⟨hs.cvt, hs.only_cvt (by apply Part.eq_of_fields <;> simp), hkeeps,
    htold.tells hs.fault, htold.storesOnly (by simp [News.bulletin])⟩

/-- Settles O16. -/
theorem lineStartsAndStops : Obligations.LineStartsAndStops := by
  unfold Obligations.LineStartsAndStops
  constructor
  · intro p w n h
    refine ⟨fun ht => ⟨_, rfl, Part.lineStart_starts h ht⟩,
      fun e ht hdrain he => ⟨_, rfl, Part.lineStart_resumes h ht hdrain he⟩, fun ht => ⟨_, rfl, ?_⟩⟩
    exact Part.refused_of h .state 0 (Part.lineStartOrder_refused (p.markTaken n) (p.nextRef n) ht)
  · intro p w n h
    refine ⟨fun ht hr => ⟨_, rfl, Part.lineStop_stops h ht hr, Part.lineStop_stopsAlone h ht hr⟩,
      fun ht hr => ⟨_, rfl, Part.lineStop_drains h ht hr⟩, fun ht => ⟨_, rfl, ?_⟩⟩
    exact Part.refused_of h .state 0 (Part.lineStopOrder_refused (p.markTaken n) (p.nextRef n) ht)

end Sys2Proof.Machine
end

section
/-! PROOFS. A record leaves the transit list (R53 to R56), and CONFIRM (R120). -/

namespace Sys2Proof.Machine

/-! ## A removal -/

/-- R53: the list without the record `r`, its outcome handed over. -/
def Part.gone (p : Part) (r : Record) : Part :=
  (((p.modTrl fun t => { t with records := t.records.filter fun x => x.seq != r.seq }).handOutcome 1 r.outcome).modTrl
    fun t => t.countRemoval r).rewrite .trl

theorem Part.gone_trl (p : Part) (r : Record) : (p.gone r).trl =
    ({ p.trl with records := p.trl.records.filter fun x => x.seq != r.seq } : Trl).countRemoval r := by
  simp [Part.gone]

theorem Trl.countRemoval_records (t : Trl) (r : Record) : (t.countRemoval r).records = t.records := by
  unfold Trl.countRemoval
  split <;> rfl

theorem Part.gone_eq (p : Part) (r : Record) :
    p.gone r = { p with trl := (p.gone r).trl, rpu := (p.gone r).rpu, mem := (p.gone r).mem } := by
  unfold Part.gone
  apply Part.eq_of_fields <;> simp

theorem Part.gone_fault (p : Part) (r : Record) : (p.gone r).rpu.fault = p.rpu.fault := by simp [Part.gone]

theorem Part.gone_mirrored (p : Part) (r : Record) : (p.gone r).mirrored .trl := Part.rewrite_mirrored _ _

/-- R54: what goes before the record is handed over, the record, and what comes after it. -/
theorem Part.Plain.gone_then {p q e : Part} {l t l' : Tidings} {k j k' : List Area} (h : p.Plain q l k) (r : Record)
    (h' : (q.gone r).Plain e l' k') (hk' : ∀ x ∈ k', x.besideRecords) (ht : t = l ++ l')
    (hj : k ++ [Area.mirror .trl] ++ k' ⊆ j) : p.records e 1 r.outcome t j := by
  let A : Part := q.modTrl fun t => { t with records := t.records.filter fun x => x.seq != r.seq }
  have hbefore : p.Plain A l k := h.same rfl rfl rfl
  have hgone : (A.handOutcome 1 r.outcome).Plain (q.gone r) [] [.mirror .trl] :=
    ((Part.Plain.refl (A.handOutcome 1 r.outcome)).same (r := (A.handOutcome 1 r.outcome).modTrl fun t =>
      t.countRemoval r) rfl rfl rfl).rewrite .trl
  refine Part.records_as 1 r.outcome r.outcome_length hbefore (hgone.trans h') (fun x hx => ?_) (by simp [ht]) ?_
  · rcases List.mem_append.mp hx with hx | hx
    · obtain rfl := List.mem_singleton.mp hx
      trivial
    · exact hk' x hx
  · rwa [← List.append_assoc]

theorem Part.Plain.gone {p q : Part} {l t : Tidings} {k j : List Area} (h : p.Plain q l k) (r : Record)
    (ht : t = l) (hj : k ++ [.mirror .trl] ⊆ j) : p.records (q.gone r) 1 r.outcome t j :=
  h.gone_then r (Part.Plain.refl _) (by simp) (by simp [ht]) (by simpa using hj)

theorem Part.remove_eq {p : Part} {seq : Word} {r : Record} (h : p.record seq = some r) : p.remove seq =
    if p.trl.records.filter (fun x => x.seq != seq) = [] then (p.gone r).listEmptied else p.gone r := by
  obtain rfl := Part.record_seq h
  have hlist : (p.gone r).trl.records = p.trl.records.filter fun x => x.seq != r.seq := by
    rw [Part.gone_trl, Trl.countRemoval_records]
  unfold Part.remove
  rw [h]
  change (if (p.gone r).trl.records.isEmpty = true then _ else _) = _
  simp only [hlist, List.isEmpty_iff]
  rfl

theorem Part.remove_trl {p : Part} {seq : Word} {r : Record} (h : p.record seq = some r) : (p.remove seq).trl =
    ({ p.trl with records := p.trl.records.filter fun x => x.seq != seq } : Trl).countRemoval r := by
  rw [Part.remove_eq h, ← Part.record_seq h]
  split <;> simp [Part.gone_trl]

/-- R27: no drain ends with the removal. -/
def Part.staysOn (p : Part) (seq : Word) : Prop := p.cvt.tracker ≠ .draining ∨ ∃ x ∈ p.trl.records, x.seq ≠ seq

theorem Part.remove_alone {p : Part} {seq : Word} {r : Record} (h : p.record seq = some r) (hstays : p.staysOn seq) :
    p.remove seq = p.gone r := by
  rw [Part.remove_eq h]
  split
  next hempty =>
    rcases hstays with ht | ⟨x, hx, hne⟩
    · exact Part.listEmptied_idle _ (by rw [p.gone_eq r]; exact ht)
    · exact absurd (List.filter_eq_nil_iff.mp hempty x hx) (by simpa using hne)
  next => rfl

/-- R27: the last record to leave ends the drain. -/
theorem Part.remove_last {p : Part} {seq : Word} {r : Record} (h : p.record seq = some r)
    (ht : p.cvt.tracker = .draining)
    (hlast : p.trl.records.filter (fun x => x.seq != seq) = []) :
    (p.remove seq).cvt.tracker = .ready ∧ (p.remove seq).cvt.drainOrder = none := by
  rw [Part.remove_eq h, if_pos hlast]
  unfold Part.listEmptied
  rw [if_pos (by rw [p.gone_eq r]; exact ht)]
  simp

/-! ## An eject state is written, and the record leaves -/

/-- `q` has the list of `p` but for the eject state of `seq`. -/
theorem Part.without_of {p q : Part} {seq : Word} {r : Record} {e : EjectState} (h : p.record seq = some r)
    (hd : r.decision = .reject) (hq : q.trl = (p.setEject seq e).trl) :
    q.record seq = some { r with eject := e } ∧ (q.remove seq).trl = p.trl.without { r with eject := e } := by
  have hrecord : q.record seq = some { r with eject := e } := by
    have hset := Part.setEject_record p seq e r h
    unfold Part.record at hset ⊢
    rw [hq]
    exact hset
  refine ⟨hrecord, ?_⟩
  rw [Part.remove_trl hrecord, hq]
  simp only [Trl.countRemoval, hd, Trl.without, Part.record_seq h, Part.setEject, Part.modRecord_fields, filter_eject,
    up_eq]

theorem Part.staysOn_setEject {p q : Part} {seq : Word} {e : EjectState} (h : p.staysOn seq)
    (ht : q.cvt.tracker = p.cvt.tracker) (hq : q.trl = (p.setEject seq e).trl) : q.staysOn seq := by
  refine h.imp (fun h => by rw [ht]; exact h) fun ⟨x, hx, hne⟩ => ⟨x, ?_, hne⟩
  rw [hq]
  exact List.mem_map.mpr ⟨x, hx, if_neg hne⟩

/-! ## CONFIRM (R120) -/

/-- R120: CONFIRM is sampled. -/
def Part.confirmSampled (p : Part) (level : Bool) : Part := p.modRej fun e => { e with confirmLine := level }

theorem Part.confirmLine_eq (p : Part) (level : Bool) : p.confirmLine level =
    if (level = true ∧ p.rej.confirmLine = false) ∧ p.confirming = true then (p.confirmSampled level).confirmation
    else p.confirmSampled level := by
  unfold Part.confirmLine Part.confirmSampled
  cases level <;> cases h : p.rej.confirmLine <;> simp [Part.confirming]

theorem Part.confirmation_stray (p : Part) (h : p.rej.confirm = []) : p.confirmation =
    ((p.modRej fun e => { e with counters := { e.counters with strayEject := inc32 e.counters.strayEject } }).raise
      .strayEject 0).rewrite .rej := by
  unfold Part.confirmation
  rw [h]
  rfl

/-- R120: the oldest fired container has been confirmed, and is about to leave. -/
def Part.confirmed (p : Part) (seq : Word) (rest : List Word) : Part :=
  ((p.modRej fun e => { e with
    confirm := rest, counters := { e.counters with confirmed := inc32 e.counters.confirmed } }).setEject seq
      .confirmed).rewrite .rej

theorem Part.confirmation_confirms (p : Part) (seq : Word) (rest : List Word) (h : p.rej.confirm = seq :: rest) :
    p.confirmation = (p.confirmed seq rest).remove seq := by
  unfold Part.confirmation
  rw [h]
  rfl

theorem Part.confirmed_rej (p : Part) (seq : Word) (rest : List Word) : (p.confirmed seq rest).rej = { p.rej with
    confirm := rest, counters := { p.rej.counters with confirmed := up p.rej.counters.confirmed } } := by
  simp [Part.confirmed, up_eq]

/-- R120: what a stray confirmation leaves. -/
theorem Part.stray_leaves (p : Part) (level : Bool) :
    let q := (((p.confirmSampled level).modRej fun e =>
      { e with counters := { e.counters with strayEject := inc32 e.counters.strayEject } }).raise .strayEject
        0).rewrite .rej
    q.rej = { p.rej with
      confirmLine := level, counters := { p.rej.counters with strayEject := up p.rej.counters.strayEject } } ∧
    q = { p with rej := q.rej, rpu := q.rpu, mem := q.mem } ∧ p.tells q [(.strayEject, 0)] ∧ q.mirrored .rej ∧
    Memory.storesOnly p.mem q.mem [.bulletin 4, .mirror .rej] := by
  intro q
  have htold := ((((Part.Speaks.refl p).modRej fun e => { e with confirmLine := level }).modRej fun e =>
    { e with counters := { e.counters with strayEject := inc32 e.counters.strayEject } }).raise .strayEject
      0).rewrite .rej
  refine ⟨?_, ?_, htold.tells ?_, Part.rewrite_mirrored _ _, htold.storesOnly (by simp [News.bulletin])⟩
  · simp [q, Part.confirmSampled, up_eq]
  · apply Part.eq_of_fields <;> simp [q, Part.confirmSampled]
  · simp

/-- R120: what a confirmation leaves, `r` being the container. -/
theorem Part.confirmed_leaves {p : Part} {level : Bool} {seq : Word} {rest : List Word} {r : Record}
    (hr : p.record seq = some r) (hd : r.decision = .reject) :
    let q := ((p.confirmSampled level).confirmed seq rest).remove seq
    q.trl = p.trl.without { r with eject := .confirmed } ∧
    (p.cvt.tracker ≠ .draining →
      q = { p with trl := q.trl, rej := q.rej, rpu := q.rpu, mem := q.mem } ∧ q.rpu.fault = p.rpu.fault ∧
      p.records q 1 { r with eject := EjectState.confirmed }.outcome [] [.mirror .trl, .mirror .rej]) ∧
    (p.cvt.tracker = .draining → p.trl.records = [r] → q.cvt.tracker = .ready ∧ q.cvt.drainOrder = none) := by
  intro q
  have htrl : ((p.confirmSampled level).confirmed seq rest).trl = (p.setEject seq .confirmed).trl := rfl
  obtain ⟨hrecord, hwithout⟩ := Part.without_of hr hd htrl
  refine ⟨hwithout, fun ht => ?_, fun ht hlast => Part.remove_last hrecord ht ?_⟩
  · have hstays : ((p.confirmSampled level).confirmed seq rest).staysOn seq := .inl ht
    have hbefore : p.Plain ((p.confirmSampled level).confirmed seq rest) [] [.mirror .rej] :=
      ((Part.Plain.refl p).same (r := ((p.confirmSampled level).modRej _).setEject seq .confirmed) rfl rfl
        rfl).rewrite .rej
    rw [show q = _ from Part.remove_alone hrecord hstays]
    refine ⟨(Part.gone_eq _ _).trans ?_, (Part.gone_fault _ _).trans ?_, hbefore.gone _ rfl (by simp)⟩
    · apply Part.eq_of_fields <;> simp [Part.gone, Part.confirmed, Part.confirmSampled]
    · simp [Part.confirmed, Part.confirmSampled]
  · rw [htrl]
    simp [Part.setEject, hlast, Part.record_seq hr]

/-- Settles O36. -/
theorem confirmIsJudged : Obligations.ConfirmIsJudged := by
  unfold Obligations.ConfirmIsJudged
  intro p w level rises held
  have hq := p.confirmLine_eq level
  refine ⟨fun h => ?_, fun hrises hconfirming hempty => ?_, fun seq rest r hrises hconfirming hlist hr hd => ?_⟩
  · refine leads_after (f := fun p => p.confirmLine level) rfl (hq.trans (if_neg ?_)) rfl
    rintro ⟨hrises, hconfirming⟩
    rcases h with h | h
    · exact h hrises
    · exact absurd (h.symm.trans hconfirming) (by simp)
  · have hstray := (hq.trans (if_pos ⟨hrises, hconfirming⟩)).trans
      (Part.confirmation_stray (p.confirmSampled level) hempty)
    exact leads_after (f := fun p => p.confirmLine level) rfl hstray (p.stray_leaves level)
  · have hleaves := (hq.trans (if_pos ⟨hrises, hconfirming⟩)).trans
      (Part.confirmation_confirms (p.confirmSampled level) seq rest hlist)
    refine leads_after (f := fun p => p.confirmLine level) rfl hleaves ⟨?_, Part.confirmed_leaves hr hd⟩
    rw [Part.remove_frame _ _ |>.2.2.1, Part.confirmed_rej]
    rfl

end Sys2Proof.Machine
end

section
/-! PROOFS. Marks and pace (R30 to R33): the window, the pace it gives, and what a mark leaves. -/

namespace Sys2Proof.Machine

/-! ## The window -/

/-- R30: the marks once the one of this advance has joined, at the high-water it brings. -/
def Part.window (p : Part) : List Mark :=
  p.cvt.marks.drop (p.cvt.marks.length - 8) ++ [⟨p.now, p.cvt.highWater + 1⟩]

/-- R33: the pace over a list of marks that ends at time `now`, with mark spacing `spacing`. -/
def paceOver (marks : List Mark) (now : Time) (spacing : Nat) : Nat :=
  max 1 ((now - (marks.headD ⟨now, 0⟩).stamp).toNat * 65536 / ((marks.length - 1) * spacing))

theorem joinMark_eq (marks : List Mark) (m : Mark) (h : marks.length ≤ 9) :
    joinMark marks m = marks.drop (marks.length - 8) ++ [m] := by
  unfold joinMark
  split
  next hfull => rw [show marks.length - 8 = 1 by omega]
  next hroom => rw [show marks.length - 8 = 0 by omega, List.drop_zero]

theorem computePace_joined (l : List Mark) (now : Time) (x : Position) (spacing limit : Nat) :
    computePace (l ++ [⟨now, x⟩]) spacing limit =
      if paceOver (l ++ [⟨now, x⟩]) now spacing ≤ 4294967295 ∧ paceOver (l ++ [⟨now, x⟩]) now spacing ≤ limit then
        some (paceOver (l ++ [⟨now, x⟩]) now spacing)
      else none := by
  unfold computePace
  rw [List.getLast?_concat]
  cases l <;> rfl

/-- R30: the part with the mark of this advance in its window. -/
def Part.marked (p : Part) (f : Profile) (pair : Bool × Bool) (infeed : Bool) : Part :=
  { p.counted f pair infeed with cvt := { (p.counted f pair infeed).cvt with marks := p.window } }

section
variable {p : Part} (f : Profile) (pair : Bool × Bool) (infeed : Bool)

theorem Part.counted_joined (h : p.cvt.marks.length ≤ 9) :
    ((p.counted f pair infeed).modCvt fun c => { c with marks := joinMark c.marks ⟨p.now, c.highWater⟩ }) =
      p.marked f pair infeed := by
  simp only [Part.modCvt, Part.counted, Part.marked, Part.window, joinMark_eq _ _ h]

theorem Part.mark_crawl (h : p.cvt.marks.length ≤ 9) (hs : p.cvt.paceState = .crawl) :
    (p.counted f pair infeed).mark f =
    ((p.marked f pair infeed).modCvt fun c => { c with paceState := .warming }).rewrite .cvt := by
  rw [← Part.counted_joined f pair infeed h]
  unfold Part.mark
  simp only [Part.modCvt, Part.counted, hs]
  rfl

theorem Part.mark_warming (h : p.cvt.marks.length ≤ 9) (hs : p.cvt.paceState = .warming) (hn : p.window.length < 3) :
    (p.counted f pair infeed).mark f = (p.marked f pair infeed).rewrite .cvt := by
  have hfew : (p.marked f pair infeed).cvt.marks.length < 3 := hn
  rw [← Part.counted_joined f pair infeed h] at hfew ⊢
  have hstate : (p.counted f pair infeed).cvt.paceState = .warming := hs
  unfold Part.mark
  simp only [Part.modCvt_fields, hstate] at hfew ⊢
  exact if_pos hfew

/-- R32: from the third mark on the window is judged. -/
theorem Part.mark_judges (h : p.cvt.marks.length ≤ 9)
    (hs : p.cvt.paceState = .timed ∨ p.cvt.paceState = .warming ∧ 3 ≤ p.window.length) :
    (p.counted f pair infeed).mark f = (p.marked f pair infeed).judgePace f := by
  have hmany : p.cvt.paceState = .timed ∨ p.cvt.paceState = .warming ∧
    ¬ (p.marked f pair infeed).cvt.marks.length < 3 :=
    hs.imp_right fun hs => ⟨hs.1, Nat.not_lt.mpr hs.2⟩
  rw [← Part.counted_joined f pair infeed h] at hmany ⊢
  unfold Part.mark
  rcases hmany with hs | ⟨hs, hmany⟩
  · have hstate : (p.counted f pair infeed).cvt.paceState = .timed := hs
    simp only [Part.modCvt_fields, hstate]
    rfl
  · have hstate : (p.counted f pair infeed).cvt.paceState = .warming := hs
    simp only [Part.modCvt_fields, hstate] at hmany ⊢
    exact if_neg hmany

/-- R33: the part once its window has given this pace, before anyone has heard of it. -/
def Part.paced (p : Part) (f : Profile) (pair : Bool × Bool) (infeed : Bool) : Part :=
  let d := p.counted f pair infeed
  { d with cvt := { d.cvt with marks := p.window, pace := paceOver p.window p.now f.spacing, paceState := .timed } }

/-- R32: the pace is told, where there was none. -/
def Part.paceTold (p : Part) (f : Profile) (pair : Bool × Bool) (infeed : Bool) : Part :=
  (if p.cvt.paceState = .timed then p.paced f pair infeed
    else (p.paced f pair infeed).raise .paceTimed 0).rewrite .cvt

theorem Part.marked_computePace : computePace (p.marked f pair infeed).cvt.marks f.spacing f.crawlLimit =
    if paceOver p.window p.now f.spacing ≤ 4294967295 ∧ paceOver p.window p.now f.spacing ≤ f.crawlLimit then
      some (paceOver p.window p.now f.spacing)
    else none := computePace_joined _ _ _ _ _

theorem Part.judgePace_paced (h : paceOver p.window p.now f.spacing ≤ 4294967295 ∧
    paceOver p.window p.now f.spacing ≤ f.crawlLimit) :
    (p.marked f pair infeed).judgePace f = (p.paceTold f pair infeed).handPace := by
  unfold Part.judgePace
  rw [Part.marked_computePace, if_pos h]
  rfl

theorem Part.judgePace_beyond (h : ¬ (paceOver p.window p.now f.spacing ≤ 4294967295 ∧
    paceOver p.window p.now f.spacing ≤ f.crawlLimit)) :
    (p.marked f pair infeed).judgePace f = (p.marked f pair infeed).enterCrawl := by
  unfold Part.judgePace
  rw [Part.marked_computePace, if_neg h]

theorem Part.paceTold_speaks : p.Speaks (p.paceTold f pair infeed)
    (if p.cvt.paceState = .timed then [] else [(.paceTimed, 0)]) [.bulletin 1, .mirror .cvt] := by
  have hpaced : p.Speaks (p.paced f pair infeed) [] [] := .refl_of rfl rfl rfl
  unfold Part.paceTold
  split
  · exact (hpaced.rewrite .cvt).mono (by simp)
  · exact (hpaced.raise .paceTimed 0).rewrite .cvt

theorem Part.paceTold_fields : (p.paceTold f pair infeed).cvt = (p.paced f pair infeed).cvt ∧
    p.paceTold f pair infeed = { p.paced f pair infeed with
      rpu := (p.paceTold f pair infeed).rpu, mem := (p.paceTold f pair infeed).mem } := by
  unfold Part.paceTold
  split
  · exact ⟨rfl, rfl⟩
  · exact ⟨rfl, rfl⟩

end

/-! ## Nothing to hand a pace to -/

theorem Part.camerasNewPace_idle (p : Part) (h : ∀ c : Fin 6, p.ctu.cameras[c].schedule = []) :
    p.camerasNewPace = p := by
  have hone (c : Fin 6) : p.repaceCamera c = p := by
    unfold Part.repaceCamera
    rw [h c]
    simp
  unfold Part.camerasNewPace
  rw [sixes_foldl]
  simp only [hone]

/-- R114: the walk over the schedule with its times asked afresh. -/
def Part.walk (p : Part) : Walk := (p.rej.schedule.map p.repacePulse).foldl Walk.step
  { output := p.rej.output.map (·.ending), joined := [], merges := 0, pulses := [] }

/-- R114: the ejector once its schedule has been recomputed. -/
def Rej.walked (e : Rej) (w : Walk) : Rej := { e with
  schedule := w.pulses
  output := match e.output, w.output with
    | some q, some t => some { q with ending := t }
    | q, _ => q
  counters := { e.counters with merges := add32 e.counters.merges w.merges } }

/-- R114: the part once its schedule has been recomputed; what is due then starts. -/
def Part.rewalked (p : Part) : Part := (p.modRej fun e => e.walked p.walk).fireMembers p.walk.joined

theorem Part.ejectorNewPace_eq (p : Part) : p.ejectorNewPace =
    ((p.walk.pulses.filter fun q => q.startReached p.rewalked.now).foldl
      (fun p q => p.startByTime q) p.rewalked).rewrite
      .rej := rfl

/-- A walk that joins nothing to the output and merges nothing changes the schedule only. -/
theorem Rej.walked_apart {e : Rej} {w : Walk} (ho : w.output = e.output.map (·.ending)) (hw : w.merges = 0)
    (hm : e.counters.merges ≤ 4294967295) : e.walked w = { e with schedule := w.pulses } := by
  have hmerges : add32 e.counters.merges 0 = e.counters.merges := Nat.min_eq_right hm
  unfold Rej.walked
  rw [ho, hw, hmerges]
  cases he : e.output <;> rfl

theorem Part.ejectorNewPace_idle (p : Part) (h : p.rej.schedule = []) (hm : p.mergesFit) :
    p.ejectorNewPace = p.rewrite .rej := by
  have hwalk : p.walk = { output := p.rej.output.map (·.ending), joined := [], merges := 0, pulses := [] } := by
    unfold Part.walk
    rw [h]
    rfl
  have hsame : p.rewalked = p := by
    unfold Part.rewalked
    rw [hwalk]
    refine Part.eq_of_fields rfl rfl rfl rfl rfl ?_ rfl rfl rfl rfl rfl rfl rfl rfl
    exact (Rej.walked_apart rfl rfl hm).trans (by rw [← h])
  rw [p.ejectorNewPace_eq, hsame, hwalk]
  rfl

theorem Part.handPace_idle (p : Part) (h : ∀ c : Fin 6, p.ctu.cameras[c].schedule = []) (hr : p.rej.schedule = [])
    (hm : p.mergesFit) : p.handPace = p.rewrite .rej := by
  unfold Part.handPace
  rw [p.camerasNewPace_idle h, p.ejectorNewPace_idle hr hm]

/-! ## A mark while nothing hangs on the pace -/

/-- R30: with no record and no watch, an advance that brings the mark count to its spacing takes a mark alone. -/
theorem Part.advances_bare {p : Part} {f : Profile} {was pair : Bool × Bool} (infeed : Bool)
    (hd : p.cvt.decoder = some was) (hforward : forwardCount was pair) (hdepth : p.cvt.depth = 0)
    (hprofile : p.cvt.profile = some f) (hrecords : p.trl.records = []) (hwatches : p.cvt.watches = [])
    (hcount : f.spacing ≤ p.cvt.markCount + 1)
    (hphase : (if p.cvt.phase + 1 < f.pitch then p.cvt.phase + 1 else 0) ≠ f.samplePhase) :
    p.advances f was pair infeed .mark := by
  refine ⟨hd, hforward, hdepth, hprofile, fun r hr => ?_, fun x hx => ?_, ?_, ?_⟩
  · simp [hrecords] at hr
  · simp [hwatches] at hx
  · exact iff_of_false hphase (by simp)
  · exact iff_of_true (if_neg (Nat.not_lt.mpr hcount)) rfl

/-- What a mark tells on CONVEYOR, and the areas it may store to. -/
def Part.marksTold (p q : Part) (l : Tidings) : Prop :=
  p.tells q l ∧ q.mirrored .cvt ∧ Memory.storesOnly p.mem q.mem [.bulletin 1, .mirror .cvt, .mirror .rej]

/-- A mark that changes only the tracker. -/
def Part.marksOnly (p q : Part) (l : Tidings) : Prop :=
  q = { p with cvt := q.cvt, rpu := q.rpu, mem := q.mem } ∧ p.marksTold q l

section
variable {p : Part} {f : Profile} (pair : Bool × Bool) (infeed : Bool)

theorem Ctu.ext_cameras {b b' : Ctu} (h : b.cameras = b'.cameras) : b = b' := by
  cases b
  cases b'
  exact congrArg Ctu.mk h

/-- R38, R115: no fire and no pulse to lose. -/
theorem Part.enterCrawl_idle (p : Part) (hrej : p.rej.schedule = [])
    (hcameras : ∀ c : Fin 6, p.ctu.cameras[c].schedule = []) :
    p.enterCrawl = { p with cvt := p.enterCrawl.cvt, rpu := p.enterCrawl.rpu, mem := p.enterCrawl.mem } := by
  by_cases htimed : p.cvt.paceState = .timed
  · obtain ⟨heq, hcameras', hrej'⟩ := p.enterCrawl_untimes htimed
    have hctu : p.enterCrawl.ctu = p.ctu := by
      refine Ctu.ext_cameras ?_
      rw [hcameras']
      refine Vector.ext fun i hi => ?_
      have hempty : p.ctu.cameras[i].schedule = [] := hcameras ⟨i, hi⟩
      rw [Vector.getElem_map, hempty, List.map_nil, ← hempty]
    have hsame : p.enterCrawl.rej = p.rej := by
      rw [hrej', hrej, List.flatMap_nil, List.map_nil, ← hrej]
    rw [hctu, hsame] at heq
    exact heq
  · exact (p.enterCrawl_plainly htimed).1

/-- R32: a mark that gives no pace yet. -/
theorem Part.marksOnly_unpaced {X : Part} (hX : X = { p with cvt := X.cvt }) : p.marksOnly (X.rewrite .cvt) [] := by
  have htold : p.Speaks (X.rewrite .cvt) [] [.mirror .cvt] :=
    (Part.Speaks.refl_of (by rw [hX]) (by rw [hX]) (by rw [hX])).rewrite .cvt
  refine ⟨?_, htold.tells (by rw [hX]; simp), Part.rewrite_mirrored _ _, htold.storesOnly (by simp)⟩
  rw [hX]
  rfl

theorem Part.marksOnly_paced (hrej : p.rej.schedule = []) (hcameras : ∀ c : Fin 6, p.ctu.cameras[c].schedule = [])
    (hm : p.mergesFit) : (p.paceTold f pair infeed).handPace.cvt = (p.paced f pair infeed).cvt ∧
    p.marksOnly (p.paceTold f pair infeed).handPace (if p.cvt.paceState = .timed then [] else [(.paceTimed, 0)]) := by
  obtain ⟨hcvt, hfields⟩ := Part.paceTold_fields (p := p) f pair infeed
  have hctu : (p.paceTold f pair infeed).ctu = p.ctu := by rw [hfields]; rfl
  have hr : (p.paceTold f pair infeed).rej = p.rej := by rw [hfields]; rfl
  rw [Part.handPace_idle _ (by rw [hctu]; exact hcameras) (by rw [hr]; exact hrej)
    (by unfold Part.mergesFit; rw [hr]; exact hm)]
  have htold := (Part.paceTold_speaks (p := p) f pair infeed).rewrite .rej
  refine ⟨hcvt, ?_, htold.tells ?_, Part.mirrored_rewritten _ _ _ (Part.rewrite_mirrored _ _),
    htold.storesOnly (by simp)⟩
  · rw [hfields]
    rfl
  · unfold Part.paceTold
    split <;> simp [Part.paced, Part.counted]

theorem Part.marksOnly_beyond (hrej : p.rej.schedule = []) (hcameras : ∀ c : Fin 6, p.ctu.cameras[c].schedule = []) :
    p.marksOnly (p.marked f pair infeed).enterCrawl (if p.cvt.paceState = .timed then [(.paceCrawl, 0)] else []) := by
  have htold := (Part.Speaks.refl_of (p := p) (q := p.marked f pair infeed) rfl rfl rfl).trans
    (p.marked f pair infeed).enterCrawl_speaks
  refine ⟨?_, htold.tells (Part.enterCrawl_fault _), Part.enterCrawl_mirrored _, htold.storesOnly (by simp)⟩
  exact (p.marked f pair infeed).enterCrawl_idle hrej hcameras

/-- R32, R33: what a window with enough marks leaves. -/
theorem Part.judgePace_leaves (hrej : p.rej.schedule = []) (hcameras : ∀ c : Fin 6, p.ctu.cameras[c].schedule = [])
    (hm : p.mergesFit) :
    let q := (p.marked f pair infeed).judgePace f
    let pace := paceOver p.window p.now f.spacing
    let within := pace ≤ 4294967295 ∧ pace ≤ f.crawlLimit
    q.cvt.markCount = (p.counted f pair infeed).cvt.markCount ∧ q.cvt.highWater = p.cvt.highWater + 1 ∧
    q = { p with cvt := q.cvt, rpu := q.rpu, mem := q.mem } ∧
    (within → q.cvt.marks = p.window ∧ q.cvt.paceState = .timed ∧ q.cvt.pace = pace ∧
      p.marksTold q (if p.cvt.paceState = .timed then [] else [(.paceTimed, 0)])) ∧
    (¬ within → q.cvt.marks = [] ∧ q.cvt.paceState = .crawl ∧ q.cvt.pace = 0 ∧
      p.marksTold q (if p.cvt.paceState = .timed then [(.paceCrawl, 0)] else [])) := by
  intro q pace within
  by_cases hwithin : within
  · obtain ⟨hcvt, hleft⟩ := Part.marksOnly_paced (f := f) pair infeed hrej hcameras hm
    rw [show q = _ from Part.judgePace_paced f pair infeed hwithin]
    exact ⟨(congrArg Cvt.markCount hcvt :), (congrArg Cvt.highWater hcvt :), hleft.1,
      fun _ => ⟨(congrArg Cvt.marks hcvt :),
      (congrArg Cvt.paceState hcvt :), (congrArg Cvt.pace hcvt :), hleft.2⟩, fun h => absurd hwithin h⟩
  · have hleft := Part.marksOnly_beyond (f := f) pair infeed hrej hcameras
    rw [show q = _ from Part.judgePace_beyond f pair infeed hwithin]
    have hcvt := (p.marked f pair infeed).enterCrawl_cvt
    exact ⟨(congrArg Cvt.markCount hcvt :), (congrArg Cvt.highWater hcvt :), hleft.1, fun h => absurd h hwithin,
      fun _ => ⟨(congrArg Cvt.marks hcvt :), (congrArg Cvt.paceState hcvt :), (congrArg Cvt.pace hcvt :), hleft.2⟩⟩

end

/-- Settles O13. -/
theorem marksGiveThePace : Obligations.MarksGiveThePace := by
  unfold Obligations.MarksGiveThePace
  intro p w f was pair infeed choices hd hforward hdepth hprofile hrecords hwatches hrej hcameras hm hcount hphase
    marks span
    pace hlen
  have hq := Part.advances_mark choices
    (Part.advances_bare infeed hd hforward hdepth hprofile hrecords hwatches hcount hphase)
  have hzero : (p.counted f pair infeed).cvt.markCount = 0 := if_neg (Nat.not_lt.mpr hcount)
  by_cases hs : p.cvt.paceState = .crawl
  · have hne (s : PaceState) (h : s ≠ .crawl) : p.cvt.paceState ≠ s := fun h' => h (h'.symm.trans hs)
    obtain ⟨heq, htold⟩ := Part.marksOnly_unpaced (p := p)
      (X := (p.marked f pair infeed).modCvt fun c => { c with paceState := .warming }) rfl
    exact Part.encoderCount_leads w (hq.trans (Part.mark_crawl f pair infeed hlen hs))
      ⟨hzero, rfl, heq, fun _ => ⟨rfl, rfl, rfl, htold⟩, fun h => absurd h (hne _ (by simp)),
        fun h => (h.elim (hne _ (by simp)) fun h => hne _ (by simp) h.1).elim⟩
  by_cases hfew : p.cvt.paceState = .warming ∧ marks.length < 3
  · obtain ⟨hs', hlt⟩ := hfew
    obtain ⟨heq, htold⟩ := Part.marksOnly_unpaced (p := p) (X := p.marked f pair infeed) rfl
    refine Part.encoderCount_leads w (hq.trans (Part.mark_warming f pair infeed hlen hs' hlt))
      ⟨hzero, rfl, heq, fun h => absurd h hs, fun _ _ => ⟨rfl, hs', rfl, htold⟩, fun h => ?_⟩
    rcases h with h | ⟨-, h⟩
    · exact absurd (hs'.symm.trans h) (by simp)
    · exact absurd hlt (Nat.not_lt.mpr h)
  have henough : p.cvt.paceState = .timed ∨ p.cvt.paceState = .warming ∧ 3 ≤ marks.length := by
    cases hpace : p.cvt.paceState with
    | crawl => exact absurd hpace hs
    | warming => exact .inr ⟨rfl, Nat.not_lt.mp fun h => hfew ⟨hpace, h⟩⟩
    | timed => exact .inl rfl
  obtain ⟨hmarkCount, hhigh, heq, hpaced⟩ := Part.judgePace_leaves (f := f) pair infeed hrej hcameras hm
  exact Part.encoderCount_leads w (hq.trans (Part.mark_judges f pair infeed hlen henough))
    ⟨hmarkCount.trans hzero, hhigh, heq, fun h => absurd h hs, fun h hlt => absurd ⟨h, hlt⟩ hfew, fun _ => hpaced⟩

end Sys2Proof.Machine
end

section
/-! PROOFS. The ejector station and the confirm end (R51, R116, R117, R121, R122). -/

namespace Sys2Proof.Machine

/-! ## The record that has arrived -/

/-- R28: the record with the arrival at its station `s` behind it. -/
def Record.past (r : Record) (s : Station) : Record := { r with stations := r.stations.filter (· != s) }

theorem Part.past_record_other {p : Part} {seq other : Word} {s : Station} {x : Record} (h : p.record other = some x)
    (hne : other ≠ seq) : (p.past seq s).record other = some x := by
  have hx := Part.record_seq h
  unfold Part.record at h ⊢
  simp only [Part.past, Trl.each]
  rw [find_map_seq _ _ _ (by intro y; split <;> rfl), h, Option.map_some, if_neg (by rw [hx]; exact hne)]

theorem Part.past_record {p : Part} {seq : Word} {s : Station} {r : Record} (h : p.record seq = some r) :
    (p.past seq s).record seq = some (r.past s) := by
  have hr := Part.record_seq h
  unfold Part.record at h ⊢
  simp only [Part.past, Trl.each]
  rw [find_map_seq _ _ _ (by intro y; split <;> rfl), h, Option.map_some, if_pos hr]
  rfl

theorem Part.record_of_unique {p : Part} {r : Record} (hr : r ∈ p.trl.records)
    (hunique : ∀ x ∈ p.trl.records, x.seq = r.seq → x = r) : p.record r.seq = some r := by
  unfold Part.record
  cases hfind : p.trl.records.find? fun x => x.seq == r.seq with
  | none => exact absurd (List.find?_eq_none.mp hfind r hr) (by simp)
  | some x =>
    rw [hunique x (List.mem_of_find?_eq_some hfind) (by simpa using List.find?_some hfind)]

section
variable {p : Part} {f : Profile} {was pair : Bool × Bool} {infeed : Bool} {r : Record} {s : Station}

/-- R28: the list's record of the container that has arrived. -/
theorem Part.arrives_record (h : p.arrives f was pair infeed r s) :
    ((p.counted f pair infeed).past r.seq s).record r.seq = some (r.past s) := by
  obtain ⟨-, hr, hunique, -, -⟩ := h
  exact Part.past_record (p := p.counted f pair infeed) (Part.record_of_unique (p := p) hr hunique)

/-- Nothing is told or stored by an arrival before its owner acts. -/
theorem Part.past_plain (p : Part) (f : Profile) (pair : Bool × Bool) (infeed : Bool) (seq : Word) (s : Station) :
    p.Plain ((p.counted f pair infeed).past seq s) [] [] := .refl_of rfl rfl rfl

theorem Part.past_staysOn (f : Profile) (pair : Bool × Bool) (infeed : Bool) {seq : Word} (s : Station)
    (h : p.cvt.tracker ≠ .draining ∨ ∃ x ∈ p.trl.records, x.seq ≠ seq) :
    ((p.counted f pair infeed).past seq s).staysOn seq := by
  refine h.imp id fun ⟨x, hx, hne⟩ => ⟨x, List.mem_map.mpr ⟨x, hx, if_neg hne⟩, hne⟩

end

/-! ## The output (R117) -/

theorem Part.ejectInactive_of {p : Part} {f : Profile} (h : p.cvt.profile = some f) :
    p.ejectInactive = f.ejectActiveLow := by
  unfold Part.ejectInactive
  rw [h]

theorem Part.ejectWidth_of {p : Part} {f : Profile} (h : p.cvt.profile = some f) :
    p.ejectWidth = BitVec.ofNat 48 f.ejectWidth := by
  unfold Part.ejectWidth
  rw [h]

theorem Time.later_eq (a b : Time) : Time.later a b = latest a b := by
  unfold Time.later latest Time.before
  simp

theorem Part.drive_eq {p : Part} {f : Profile} (ending : Time) (h : p.cvt.profile = some f) :
    p.drive ending = { p with rej := p.rej.driven ending f.ejectActiveLow } := by
  unfold Part.drive Rej.driven
  cases p.rej.output with
  | none =>
    simp only [Part.ejectInactive_of h, up_eq]
    rfl
  | some o =>
    simp only [Time.later_eq, up_eq]
    rfl

/-- R117: the part as a pulse leaves the schedule and drives the output. -/
def Part.driving (p : Part) (u : Pulse) (ending : Time) (inactive : Bool) : Part :=
  { p with rej := ({ p.rej with schedule := p.rej.schedule.filter fun x => x != u } : Rej).driven ending inactive }

theorem Part.startPulse_eq {p : Part} {f : Profile} (u : Pulse) (ending : Time) (h : p.cvt.profile = some f) :
    p.startPulse u ending = ((p.driving u ending f.ejectActiveLow).fireMembers u.members).rewrite .rej := by
  have hdrive := Part.drive_eq (p := p.modRej fun e => { e with schedule := e.schedule.filter fun x => x != u })
    ending h
  unfold Part.startPulse
  dsimp only
  rw [hdrive]
  rfl

theorem filter_ne_apart {α : Type} [BEq α] [LawfulBEq α] {before after : List α} {u : α}
    (h : ∀ x ∈ before ++ after, x ≠ u) :
    (before ++ u :: after).filter (fun x => x != u) = before ++ after := by
  rw [List.filter_append, List.filter_cons_of_neg (by simp), ← List.filter_append]
  exact List.filter_eq_self.mpr fun x hx => by simpa using h x hx

/-! ## The pulse that starts at the station (R116) -/

/-- R116: the ejector as the pulse `u` starts by position, or late: at the later of its end and a full width, `own`. -/
def Rej.started (e : Rej) (u : Pulse) (own : Time) (inactive : Bool) : Rej :=
  let rest : Rej := { e with schedule := e.schedule.filter fun x => x != u }
  match u.times with
  | none => rest.driven own inactive
  | some t => ({ rest with counters := { rest.counters with latePulse := up rest.counters.latePulse } } : Rej).driven
      (latest t.ending own) inactive

/-- R116: the part as the pulse `u` starts, its members still to be fired. -/
def Part.starting (p : Part) (u : Pulse) (f : Profile) : Part :=
  { p with rej := p.rej.started u (p.now + BitVec.ofNat 48 f.ejectWidth) f.ejectActiveLow }

theorem Rej.driven_confirm (e : Rej) (ending : Time) (inactive : Bool) :
    (e.driven ending inactive).confirm = e.confirm := by
  unfold Rej.driven
  split <;> rfl

theorem Part.starting_confirm (p : Part) (u : Pulse) (f : Profile) : (p.starting u f).rej.confirm = p.rej.confirm := by
  unfold Part.starting Rej.started
  dsimp only
  split <;> exact Rej.driven_confirm _ _ _

theorem Part.ejectorArrival_starts {p : Part} {f : Profile} {seq : Word} {u : Pulse} (hf : p.cvt.profile = some f)
    (hu : (p.rej.schedule.find? fun q => q.members.head? == some seq) = some u) :
    p.ejectorArrival seq = ((p.starting u f).fireMembers u.members).rewrite .rej := by
  unfold Part.ejectorArrival Part.starting Rej.started
  rw [hu]
  cases ht : u.times with
  | none =>
    simp only [ht, Part.ejectWidth_of hf]
    exact Part.startPulse_eq u _ hf
  | some t =>
    simp only [ht, Part.ejectWidth_of hf, Time.later_eq, ← up_eq]
    exact Part.startPulse_eq (p := p.countEject fun n => { n with latePulse := inc32 n.latePulse }) u _ hf

theorem Part.ejectorStation_pass {p : Part} {seq : Word} {r : Record} (h : p.record seq = some r)
    (hd : r.decision = .pass) :
    p.ejectorStation seq = p.remove seq := by
  unfold Part.ejectorStation
  rw [h]
  simp only [hd]

theorem Part.ejectorStation_reject {p : Part} {seq : Word} {r : Record} (h : p.record seq = some r)
    (hd : r.decision = .reject) : p.ejectorStation seq = p.ejectorArrival seq := by
  unfold Part.ejectorStation
  rw [h]
  simp only [hd]

theorem Part.ejectorArrival_none {p : Part} {seq : Word} (h : ∀ u ∈ p.rej.schedule, u.members.head? ≠ some seq) :
    p.ejectorArrival seq = p := by
  unfold Part.ejectorArrival
  rw [List.find?_eq_none.mpr fun u hu => by simpa using h u hu]

theorem find_headed {l before after : List Pulse} {u : Pulse} {seq : Word} (hl : l = before ++ u :: after)
    (hu : u.members.head? = some seq) (hbefore : ∀ x ∈ before, x.members.head? ≠ some seq) :
    (l.find? fun q => q.members.head? == some seq) = some u :=
  List.find?_eq_some_iff_append.mpr ⟨by simp [hu], before, after, hl, fun x hx => by simpa using hbefore x hx⟩

/-! ## A fired container leaves unconfirmed (R121, R122) -/

/-- R121, R122: what goes before the removal. -/
def Part.unconfirmed (p : Part) (seq : Word) (news : News) : Part :=
  ((((p.modRej fun e => { e with
    confirm := e.confirm.filter fun s => s != seq
    counters := { e.counters with unconfirmed := inc32 e.counters.unconfirmed } }).setEject seq .unconfirmed).report
      .ejectUnconfirmed 0 seq).raise news 0).rewrite .rej

theorem Part.unconfirm_eq (p : Part) (seq : Word) (news : News) :
    p.unconfirm seq news = (p.unconfirmed seq news).remove seq := rfl

theorem Part.unconfirmed_trl (p : Part) (seq : Word) (news : News) :
    (p.unconfirmed seq news).trl = (p.setEject seq .unconfirmed).trl := by
  simp [Part.unconfirmed, Part.setEject]

theorem Part.unconfirmed_rej (p : Part) (seq : Word) (news : News) : (p.unconfirmed seq news).rej = { p.rej with
    confirm := p.rej.confirm.filter fun s => s != seq
    counters := { p.rej.counters with unconfirmed := up p.rej.counters.unconfirmed } } := by
  simp [Part.unconfirmed, up_eq]

theorem Part.unconfirmed_eq (p : Part) (seq : Word) (news : News) : p.unconfirmed seq news = { p with
    trl := (p.unconfirmed seq news).trl, rej := (p.unconfirmed seq news).rej, rpu := (p.unconfirmed seq news).rpu
    mem := (p.unconfirmed seq news).mem } := by
  apply Part.eq_of_fields <;> simp [Part.unconfirmed]

theorem Part.unconfirmed_fault (p : Part) (seq : Word) (news : News) :
    (p.unconfirmed seq news).rpu.fault = p.rpu.fault.after .ejectUnconfirmed 0 seq p.now := by
  simp [Part.unconfirmed, Part.now]

theorem Part.Plain.unconfirmed {p q : Part} {l : Tidings} {k : List Area} (h : p.Plain q l k) (seq : Word) (news : News)
    (hn : news.bulletin ≠ 8) : p.Plain (q.unconfirmed seq news)
    (l ++ [(News.fault .ejectUnconfirmed, 0)] ++ [(news, 0)])
      (k ++ [Area.fault, .bulletin 9] ++ [Area.bulletin news.bulletin] ++ [Area.mirror .rej]) := by
  have hbefore : p.Plain ((q.modRej fun e => { e with
      confirm := e.confirm.filter fun s => s != seq
      counters := { e.counters with unconfirmed := inc32 e.counters.unconfirmed } }).setEject seq .unconfirmed) l k :=
    h.same (by simp) (by simp) (by simp)
  have htold := (hbefore.report .ejectUnconfirmed 0 seq).raise news 0 hn
  exact htold.rewrite .rej

/-- The record of `x`, the only one to leave. -/
theorem Part.unconfirm_alone {p : Part} {seq : Word} {x : Record} (news : News) (h : p.record seq = some x)
    (hd : x.decision = .reject) (hstays : p.staysOn seq) :
    p.unconfirm seq news = (p.unconfirmed seq news).gone { x with eject := .unconfirmed } ∧
    (p.unconfirm seq news).trl = p.trl.without x := by
  obtain ⟨hrecord, hwithout⟩ := Part.without_of h hd (p.unconfirmed_trl seq news)
  refine ⟨?_, hwithout⟩
  rw [Part.unconfirm_eq]
  exact Part.remove_alone hrecord (Part.staysOn_setEject hstays (by rw [p.unconfirmed_eq seq news])
    (p.unconfirmed_trl seq news))

/-! ## Members fired (R117, R122) -/

theorem Part.setEject_record_other {p : Part} {seq other : Word} {x : Record} (e : EjectState)
    (h : p.record other = some x)
    (hne : other ≠ seq) : (p.setEject seq e).record other = some x := by
  have hx := Part.record_seq h
  unfold Part.record at h ⊢
  simp only [Part.setEject, Part.modRecord_fields]
  rw [find_map_seq _ _ _ (by intro y; split <;> rfl), h, Option.map_some, if_neg (by rw [hx]; exact hne)]

theorem Part.setEject_fired (p : Part) (seq : Word) : (p.setEject seq .fired).trl = p.trl.fired [seq] := by
  simp [Part.setEject, Trl.fired, Trl.each, Part.modRecord]

theorem Part.fireMembers_leaves {p : Part} {seq : Word} (h : p.confirming = false) :
    p.fireMembers [seq] = (p.setEject seq .fired).remove seq := by
  have hout : (p.setEject seq .fired).confirming = false := h
  simp only [Part.fireMembers, List.foldl_cons, List.foldl_nil, Part.fireMember, hout]
  rfl

/-- R122: the confirm list has 8 entries, and its oldest makes room. -/
theorem Part.fireMembers_full {p : Part} {seq oldest : Word} {others : List Word} (h : p.confirming = true)
    (hl : p.rej.confirm = oldest :: others) (hn : others.length = 7) : p.fireMembers [seq] =
      ((p.setEject seq .fired).unconfirm oldest .confirmFull).modRej fun e =>
        { e with confirm := e.confirm ++ [seq] } := by
  have hout : (p.setEject seq .fired).confirming = true := h
  have hlist : (p.setEject seq .fired).rej.confirm = oldest :: others := hl
  simp only [Part.fireMembers, List.foldl_cons, List.foldl_nil, Part.fireMember, hout, if_true, Part.pushOut, hlist]
  rw [if_pos (by simp [hn])]

/-! ## A REJECT at its ejector station -/

section
variable {p c : Part} {f : Profile} {r : Record} {u : Pulse}

/-- R117: the members join the confirm list. -/
theorem Part.starts_confirming (hc : c.confirming = true) (hl : c.rej.confirm.length + u.members.length ≤ 8) :
    ((c.starting u f).fireMembers u.members).rewrite .rej = ({ c with
      trl := c.trl.fired u.members
      rej := { (c.starting u f).rej with confirm := c.rej.confirm ++ u.members } } : Part).rewrite .rej := by
  have hconfirm := c.starting_confirm u f
  rw [Part.fireMembers_confirming u.members (c.starting u f) hc (by rw [hconfirm]; exact hl), hconfirm]
  rfl

/-- R122: the oldest of a full confirm list is pushed out. -/
theorem Part.starts_pushing {oldest : Word} {others : List Word} {x : Record} (hp : p.Plain c [] []) 
    (hnow : c.now = p.now) (hfault : c.rpu.fault = p.rpu.fault) (hr : r ∈ c.trl.records)
    (hc : c.confirming = true) (hu : u.members = [r.seq]) (hlist : c.rej.confirm = oldest :: others)
    (hn : others.length = 7) (hold : oldest ∉ others) (hne : oldest ≠ r.seq) (hx : c.record oldest = some x)
    (hd : x.decision = .reject) :
    let q := ((c.starting u f).fireMembers u.members).rewrite .rej
    let driven := (c.starting u f).rej
    q.rej = { driven with
      confirm := others ++ [r.seq], counters :=
        { driven.counters with unconfirmed := up driven.counters.unconfirmed } } ∧
    q.rpu.fault = p.rpu.fault.after .ejectUnconfirmed 0 x.seq p.now ∧
    q = { c with trl := q.trl, rej := q.rej, rpu := q.rpu, mem := q.mem } ∧
    p.records q 1 { x with eject := EjectState.unconfirmed }.outcome [(.fault .ejectUnconfirmed, 0), (.confirmFull, 0)]
      [.fault, .bulletin 9, .bulletin 4, .mirror .trl, .mirror .rej] ∧
    q.mirrored .rej ∧ q.trl = (c.trl.fired [r.seq]).without x := by
  intro q driven
  let Z := (c.starting u f).setEject r.seq .fired
  have hZ : Z.record oldest = some x := Part.setEject_record_other .fired hx hne
  have hstays : Z.staysOn oldest := .inr ⟨_, List.mem_map.mpr ⟨r, hr, rfl⟩, by rw [if_pos rfl]; exact hne.symm⟩
  obtain ⟨hgone, htrl⟩ := Part.unconfirm_alone .confirmFull hZ hd hstays
  have hconfirm : (c.starting u f).rej.confirm = oldest :: others := (c.starting_confirm u f).trans hlist
  let W := (Z.unconfirmed oldest .confirmFull).gone { x with eject := .unconfirmed }
  have hZW : Z.unconfirm oldest .confirmFull = W := hgone
  have hq : q = (W.modRej fun e => { e with confirm := e.confirm ++ [r.seq] }).rewrite .rej := by
    rw [← hZW, ← Part.fireMembers_full (p := c.starting u f) hc hconfirm hn, ← hu]
  have hseq := Part.record_seq hx
  have hW : p.Plain (Z.unconfirmed oldest .confirmFull) _ _ :=
    (hp.same (r := Z) rfl rfl rfl).unconfirmed oldest .confirmFull (by decide)
  have hafter : W.Plain ((W.modRej fun e => { e with confirm := e.confirm ++ [r.seq] }).rewrite .rej) _ _ :=
    ((Part.Plain.refl W).same (r := W.modRej fun e => { e with confirm := e.confirm ++ [r.seq] }) rfl rfl
      rfl).rewrite .rej
  have hfilter : (oldest :: others).filter (fun s => s != oldest) = others := by
    rw [List.filter_cons_of_neg (by simp)]
    exact List.filter_eq_self.mpr fun s hs => by simpa using fun h => hold (by rwa [← h])
  have hrej : W.rej = { driven with
      confirm := others, counters := { driven.counters with unconfirmed := up driven.counters.unconfirmed } } := by
    rw [show W.rej = (Z.unconfirmed oldest .confirmFull).rej by rw [show W = _ from Part.gone_eq _ _],
      Part.unconfirmed_rej, show Z.rej = driven from rfl, hconfirm, hfilter]
  rw [hq]
  refine ⟨?_, ?_, ?_, hW.gone_then _ hafter (by simp [Area.besideRecords]) (by simp) (by simp [News.bulletin]),
    Part.rewrite_mirrored _ _, ?_⟩
  · simp only [Part.rewrite_frame, Part.modRej_fields, hrej]
  · have hW' : W.rpu.fault = _ := (Part.gone_fault _ _).trans (Part.unconfirmed_fault Z oldest .confirmFull)
    simp only [Part.rewrite_frame, Part.modRej_fields, hW', hseq]
    rw [← hfault, ← hnow]
    rfl
  · apply Part.eq_of_fields <;> simp [W, Part.gone, Part.unconfirmed, Z, Part.starting]
  · simp only [Part.rewrite_frame, Part.modRej_fields]
    rw [← hZW, htrl, Part.setEject_fired]
    rfl

/-- R117: with the confirm span 0 the fired member leaves at once. -/
theorem Part.starts_leaving (hp : p.Plain c [] []) (hfault : c.rpu.fault = p.rpu.fault) (hr : c.record r.seq = some r)
    (hd : r.decision = .reject) (hc : c.confirming = false) (hu : u.members = [r.seq]) (hstays : c.staysOn r.seq) :
    let q := ((c.starting u f).fireMembers u.members).rewrite .rej
    q.rej = (c.starting u f).rej ∧ q.trl = c.trl.without { r with eject := .fired } ∧
    q = { c with trl := q.trl, rej := q.rej, rpu := q.rpu, mem := q.mem } ∧ q.rpu.fault = p.rpu.fault ∧
    p.records q 1 { r with eject := EjectState.fired }.outcome [] [.mirror .trl, .mirror .rej] := by
  intro q
  let Z := (c.starting u f).setEject r.seq .fired
  have htrl : Z.trl = (c.setEject r.seq .fired).trl := rfl
  obtain ⟨hrecord, hwithout⟩ := Part.without_of hr hd htrl
  let W := Z.gone { r with eject := .fired }
  have hZW : Z.remove r.seq = W := Part.remove_alone hrecord (Part.staysOn_setEject hstays rfl htrl)
  have hq : q = W.rewrite .rej := by
    rw [← hZW, ← Part.fireMembers_leaves (p := c.starting u f) hc, ← hu]
  have hplain : p.Plain Z [] [] := hp.same rfl rfl rfl
  rw [hq]
  refine ⟨?_, ?_, ?_, ?_, hplain.gone_then _ ((Part.Plain.refl W).rewrite .rej) (by simp [Area.besideRecords]) (by simp)
    (by simp)⟩
  · simp [W, Part.gone, Z]
  · rw [← hwithout, hZW]
    simp
  · apply Part.eq_of_fields <;> simp [W, Part.gone, Z, Part.starting]
  · have hW : W.rpu.fault = _ := Part.gone_fault _ _
    simp only [Part.rewrite_frame, hW, ← hfault]
    rfl

/-! ## The confirm end (R121) -/

theorem Part.rewrite_counts (p : Part) (m m' : MirrorId) (h : m ≠ m') :
    (p.rewrite m').rpu.updateCounts[m.index] = p.rpu.updateCounts[m.index] := by
  unfold Part.rewrite
  simp only [Part.store_fields, Part.modRpu_fields]
  exact modAt_other _ _ (by cases m <;> cases m' <;> first | exact absurd rfl h | decide)

theorem Part.closePage_counts (p : Part) (i : Fin 8) (cause : CloseCause) (m : MirrorId) (h : m ≠ .rpu) :
    (p.closePage i cause).rpu.updateCounts[m.index] = p.rpu.updateCounts[m.index] := by
  unfold Part.closePage
  dsimp only
  rw [Part.rewrite_counts _ _ _ h]
  split <;> rfl

theorem Part.handOutcome_counts (p : Part) (kind : Byte) (body : List Byte) (m : MirrorId) (h : m ≠ .rpu) :
    (p.handOutcome kind body).rpu.updateCounts[m.index] = p.rpu.updateCounts[m.index] := by
  unfold Part.handOutcome
  dsimp only
  split
  · unfold Part.fillPage
    dsimp only
    split
    · rw [Part.closePage_counts _ _ _ _ h]
      rfl
    · rw [Part.rewrite_counts _ _ _ h]
      rfl
  · unfold Part.dropOutcome
    dsimp only
    rw [Part.rewrite_counts _ _ _ h]
    split <;> rfl

/-- A mirror record of another block stands apart from what an outcome record stores to. -/
theorem Area.apart_rej {x : Area} {p : Part} (hr : p.roomy) (hx : x ∈ p.outcomeAreas) :
    MirrorId.rej.base + MirrorId.rej.size ≤ x.base ∨ x.base + x.size ≤ MirrorId.rej.base := by
  unfold Part.outcomeAreas at hx
  cases hpage : p.fillingPage with
  | none =>
    simp only [hpage, List.mem_cons, List.not_mem_nil, or_false] at hx
    rcases hx with rfl | rfl | rfl <;> decide
  | some i =>
    have hroom := hr i hpage
    have hi := i.isLt
    simp only [hpage, List.mem_cons, List.not_mem_nil, or_false] at hx
    rcases hx with rfl | rfl | rfl | rfl | rfl
    · right
      simp only [Area.base, Area.size, recordBase, MirrorId.base]
      omega
    · right
      simp only [Area.base, Area.size, entryBase, MirrorId.base]
      omega
    · have hnext := (i + 1).isLt
      right
      simp only [Area.base, Area.size, entryBase, MirrorId.base]
      omega
    · decide
    · decide

/-- R193: the ejector's mirror record shows the part after an outcome record too. -/
theorem Part.handOutcome_mirrors {p : Part} (kind : Byte) (body : List Byte) (hb : body.length = 24) (hr : p.roomy)
    (h : p.mirrored .rej) : (p.handOutcome kind body).mirrored .rej := by
  have hbytes : mirrorBytes (p.handOutcome kind body) .rej = mirrorBytes p .rej := by
    unfold mirrorBytes
    rw [p.handOutcome_counts kind body .rej (by decide)]
    simp only [mirrorFields, rejFields, Part.handOutcome_frame]
  unfold Part.mirrored at *
  rw [hbytes, ← h]
  exact Memory.read_of_storesOnly (p.handOutcome_stores kind body hb (fun _ => id) (Memory.storesOnly_refl _ _))
    fun x hx => Area.apart_rej hr hx

theorem Part.gone_mirrors {p : Part} (r : Record) (hr : p.roomy) (h : p.mirrored .rej) : (p.gone r).mirrored .rej := by
  let A : Part := p.modTrl fun t => { t with records := t.records.filter fun x => x.seq != r.seq }
  have hA : A.mirrored .rej := h
  have hhanded : (A.handOutcome 1 r.outcome).mirrored .rej :=
    Part.handOutcome_mirrors 1 r.outcome r.outcome_length hr hA
  exact Part.mirrored_rewritten ((A.handOutcome 1 r.outcome).modTrl fun t => t.countRemoval r) .rej .trl hhanded

/-- R121: a container still in the confirm list leaves it unconfirmed. -/
theorem Part.confirmEnd_unconfirms (hp : p.Plain c [] []) (hnow : c.now = p.now) (hfault : c.rpu.fault = p.rpu.fault)
    (hr : c.record r.seq = some r) (hd : r.decision = .reject) (hin : r.seq ∈ c.rej.confirm)
    (hstays : c.staysOn r.seq) :
    let q := c.confirmEnd r.seq
    q.rej = { c.rej with
      confirm := c.rej.confirm.filter (· != r.seq)
      counters := { c.rej.counters with unconfirmed := up c.rej.counters.unconfirmed } } ∧
    q.rpu.fault = p.rpu.fault.after .ejectUnconfirmed 0 r.seq p.now ∧
    q = { c with trl := q.trl, rej := q.rej, rpu := q.rpu, mem := q.mem } ∧
    p.records q 1 { r with eject := EjectState.unconfirmed }.outcome
      [(.fault .ejectUnconfirmed, 0), (.unconfirmed, 0)]
        [.fault, .bulletin 9, .bulletin 4, .mirror .trl, .mirror .rej] ∧
    (p.roomy → q.mirrored .rej) ∧ q.trl = c.trl.without r := by
  intro q
  obtain ⟨hgone, htrl⟩ := Part.unconfirm_alone .unconfirmed hr hd hstays
  have hend : c.confirmEnd r.seq = c.unconfirm r.seq .unconfirmed := if_pos hin
  let B := c.unconfirmed r.seq .unconfirmed
  have hB : p.Plain B _ _ := hp.unconfirmed r.seq .unconfirmed (by decide)
  have hroomy (h : p.roomy) : B.roomy := fun i hi => by
    rw [hB.pages]
    exact h i (by rw [← hi, Part.fillingPage_congr hB.pages])
  have hq : q = B.gone { r with eject := .unconfirmed } := hend.trans hgone
  have hfields := Part.gone_eq B { r with eject := .unconfirmed }
  rw [hq]
  refine ⟨?_, ?_, ?_, hB.gone _ (by simp) (by simp [News.bulletin]),
    fun h => Part.gone_mirrors _ (hroomy h) (Part.rewrite_mirrored _ _), ?_⟩
  · rw [hfields]
    exact c.unconfirmed_rej r.seq .unconfirmed
  · rw [Part.gone_fault, Part.unconfirmed_fault, hfault, hnow]
  · apply Part.eq_of_fields <;> simp [Part.gone, B, Part.unconfirmed]
  · rw [← hgone, htrl]

end

/-- Settles O35. -/
theorem ejectorStationIsActedOn : Obligations.EjectorStationIsActedOn := by
  unfold Obligations.EjectorStationIsActedOn
  intro p w f was pair infeed choices r count unconfirms stays
  refine ⟨fun h => ?_, fun h => ?_⟩
  · intro c
    have hrecord : c.record r.seq = some (r.past .ejector) := Part.arrives_record h
    have hq := Part.arrives_raises choices h (Part.ejectorStation_stays _ r.seq)
    have hp : p.Plain c [] [] := p.past_plain f pair infeed r.seq .ejector
    have hprofile : c.cvt.profile = some f := h.1.2.2.2.1
    refine ⟨fun hd => ?_, fun hd hnone => ?_, fun before u after hd hschedule hhead hbefore hdistinct => ?_⟩
    · have hremove := hq.trans (Part.ejectorStation_pass hrecord hd)
      refine Part.encoderCount_leads w hremove ⟨?_, fun hstays => ?_, fun ht hlast => Part.remove_last hrecord ht ?_⟩
      · rw [Part.remove_trl hrecord]
        simp only [Trl.countRemoval, Record.past, hd, up_eq]
        rfl
      · rw [Part.remove_alone hrecord (Part.past_staysOn f pair infeed .ejector hstays)]
        exact ⟨Part.gone_eq _ _, Part.gone_fault _ _, Part.gone_mirrored _ _, hp.gone _ rfl (by simp)⟩
      · simp [Part.past, Trl.each, Part.counted, hlast]
    · exact Part.encoderCount_leads w ((hq.trans (Part.ejectorStation_reject hrecord hd)).trans
        (Part.ejectorArrival_none hnone)) rfl
    · intro own rest driven
      have hdriven : (c.starting u f).rej = driven := by
        have hfilter : p.rej.schedule.filter (fun x => x != u) = before ++ after := by
          rw [hschedule, filter_ne_apart hdistinct]
        change p.rej.started u own f.ejectActiveLow = driven
        cases hu : u.times <;> simp only [Rej.started, driven, rest, hu, hfilter]
      have hstarts := (hq.trans (Part.ejectorStation_reject hrecord hd)).trans
        (Part.ejectorArrival_starts hprofile (find_headed hschedule hhead hbefore))
      rw [← hdriven]
      refine ⟨fun hconfirming hlen => ?_, fun oldest others x hconfirming hu hlist hn hold hne hx hxd => ?_,
        fun hconfirming hu hstays => ?_⟩
      · refine Part.encoderCount_leads w (hstarts.trans (Part.starts_confirming hconfirming hlen)) ?_
        have htold := ((Part.Speaks.refl_of (p := p) (q := { c with
          trl := c.trl.fired u.members
          rej := { (c.starting u f).rej with confirm := c.rej.confirm ++ u.members } }) rfl rfl rfl).rewrite .rej)
        exact ⟨rfl, htold.tells (by simp [c, Part.past, Part.counted]), Part.rewrite_mirrored _ _,
          htold.storesOnly (by simp)⟩
      · have hrecord' : (p.counted f pair infeed).record oldest = some x := hx
        obtain ⟨hrej, hfault, heq, hrecords, hmirrored, htrl⟩ :=
          Part.starts_pushing (f := f) (r := r.past .ejector) hp rfl
          rfl (List.mem_of_find?_eq_some hrecord) hconfirming hu hlist hn hold hne
            (Part.past_record_other hrecord' hne) hxd
        exact Part.encoderCount_leads w hstarts ⟨⟨hrej, hfault, heq, hrecords⟩, hmirrored, htrl⟩
      · exact Part.encoderCount_leads w hstarts
          (Part.starts_leaving (r := r.past .ejector) hp rfl hrecord hd hconfirming hu
          (Part.past_staysOn f pair infeed .ejector hstays))
  · intro c
    have hrecord : c.record r.seq = some (r.past .confirmEnd) := Part.arrives_record h
    have hq := Part.arrives_raises choices h (Part.confirmEnd_stays _ r.seq)
    have hp : p.Plain c [] [] := p.past_plain f pair infeed r.seq .confirmEnd
    refine ⟨fun hout => Part.encoderCount_leads w (hq.trans (if_neg hout)) rfl, fun hin hd hstays =>
      Part.encoderCount_leads w hq ?_⟩
    obtain ⟨hrej, hfault, heq, hrecords, hmirrored, htrl⟩ := Part.confirmEnd_unconfirms
      (r := r.past .confirmEnd) hp rfl rfl hrecord hd hin
      (Part.past_staysOn f pair infeed .confirmEnd hstays)
    exact ⟨⟨hrej, hfault, heq, hrecords⟩, hmirrored, htrl⟩

end Sys2Proof.Machine
end

section
/-! PROOFS. A fire that happens (R91, R97, R100), and a container at its camera's station (R99). -/

namespace Sys2Proof.Machine

theorem Part.rewrite_ctu (p : Part) (m : MirrorId) : (p.rewrite m).ctu = p.ctu := rfl
theorem Part.rewrite_trl (p : Part) (m : MirrorId) : (p.rewrite m).trl = p.trl := rfl

/-! ## The awaiting list (R100) -/

theorem Camera.full_false {k : Camera} {seq : Word} :
    k.full seq = false ↔ k.awaiting.length < 16 ∧ ∀ x ∈ k.awaiting, tagOf x ≠ tagOf seq := by
  simp [Camera.full]

theorem Camera.full_true {k : Camera} {seq : Word} :
    k.full seq = true ↔ 16 ≤ k.awaiting.length ∨ ∃ x ∈ k.awaiting, tagOf x = tagOf seq := by
  simp [Camera.full]

theorem Part.makeRoom_roomy {p : Part} {c : Fin 6} {seq : Word} (n : Nat) (first : Bool)
    (h : p.ctu.cameras[c].full seq = false) : Part.makeRoom n first p c seq = p := by
  cases n with
  | zero => rfl
  | succ n =>
    unfold Part.makeRoom
    rw [h]
    rfl

/-- R97: the container joins the list as it stands. -/
def Part.awaited (p : Part) (c : Fin 6) (seq : Word) : Part :=
  (p.setVerdict seq c .triggered).modCamera c fun k => { k with awaiting := k.awaiting ++ [seq] }

theorem Part.joinAwaiting_roomy {p : Part} {c : Fin 6} {seq : Word} (h : p.ctu.cameras[c].full seq = false)
    (hs : p.cameraState c = .active) : p.joinAwaiting c seq = p.awaited c seq := by
  unfold Part.joinAwaiting
  rw [Part.makeRoom_roomy _ _ h]
  exact if_pos hs

theorem Part.gainMissed_below {p : Part} {c : Fin 6}
    (h : p.missedThreshold c = 0 ∨ inc8 p.ctu.cameras[c].missedRun ≠ p.missedThreshold c) :
    p.gainMissed c = (p.modCamera c fun k => { k with missedRun := inc8 k.missedRun }).rewrite .ctu := by
  unfold Part.gainMissed
  have hsame : ((p.modCamera c fun k => { k with missedRun := inc8 p.ctu.cameras[c].missedRun }).rewrite
      .ctu).missedThreshold c = p.missedThreshold c := Part.missedThreshold_congr c rfl
  dsimp only
  rw [if_neg (by rw [hsame]; rintro ⟨h0, hrun⟩; exact h.elim h0 (· hrun))]
  rfl

/-- R100: the oldest entry has made room, which degrades nothing. -/
def Part.roomMade (p : Part) (c : Fin 6) (oldest : Word) (others : List Word) : Part :=
  (((((p.modCamera c fun k => { k with awaiting := others }).noVerdict oldest c).raise .awaitFull
    (BitVec.ofNat 8 c.val)).modCamera c fun k => { k with missedRun := inc8 k.missedRun }).rewrite .ctu)

/-- R100: the camera once its oldest entry has made room, `others` being left. -/
def Camera.pushed (k : Camera) (others : List Word) : Camera := { k with
  awaiting := others, missedRun := inc8 k.missedRun
  counters := { k.counters with noVerdict := up k.counters.noVerdict } }

theorem Part.roomMade_ctu (p : Part) (c : Fin 6) (oldest : Word) (others : List Word) :
    (p.roomMade c oldest others).ctu = p.ctu.put c (p.ctu.cameras[c].pushed others) := by
  simp only [Part.roomMade, Part.rewrite_frame, Part.raise_frame, Part.modCamera_ctu, Part.noVerdict_ctu, Ctu.put_get,
    Ctu.put_put, Fin.getElem_fin, Camera.pushed]

theorem Part.roomMade_trl (p : Part) (c : Fin 6) (oldest : Word) (others : List Word) :
    (p.roomMade c oldest others).trl = p.trl.each (·.judged oldest c .noVerdict) := by
  simp [Part.roomMade, Part.noVerdict_trl]

theorem Part.joinAwaiting_pushes {p : Part} {c : Fin 6} {seq oldest : Word} {others : List Word}
    (hfull : p.ctu.cameras[c].full seq = true) (hlist : p.ctu.cameras[c].awaiting = oldest :: others)
    (hroom : others.length < 16 ∧ ∀ x ∈ others, tagOf x ≠ tagOf seq)
    (hmissed : p.missedThreshold c = 0 ∨ inc8 p.ctu.cameras[c].missedRun ≠ p.missedThreshold c)
    (hs : p.cameraState c = .active) : p.joinAwaiting c seq = (p.roomMade c oldest others).awaited c seq := by
  have hctu := p.roomMade_ctu c oldest others
  have hcamera : (p.roomMade c oldest others).ctu.cameras[c] = p.ctu.cameras[c].pushed others := by
    rw [hctu]
    exact Ctu.put_get _ _ _
  have hgained : (((p.modCamera c fun k => { k with awaiting := others }).noVerdict oldest c).raise .awaitFull
      (BitVec.ofNat 8 c.val)).gainMissed c = p.roomMade c oldest others := by
    refine Part.gainMissed_below ?_
    simp only [Part.raise_frame, Part.noVerdict_ctu, Part.modCamera_ctu, Fin.getElem_fin, Ctu.put_get]
    rw [Part.missedThreshold_congr (p := p) c (by simp)]
    exact hmissed
  have hmade : Part.makeRoom (p.ctu.cameras[c].awaiting.length + 1) true p c seq = p.roomMade c oldest others := by
    unfold Part.makeRoom
    rw [if_pos hfull]
    simp only [hlist, if_true, hgained]
    refine Part.makeRoom_roomy _ _ ?_
    rw [hcamera]
    exact Camera.full_false.mpr hroom
  unfold Part.joinAwaiting
  dsimp only
  rw [hmade]
  refine if_pos ?_
  rw [← hs]
  refine Part.cameraState_congr c (by simp [Part.roomMade]) ?_ ?_ ?_ <;> rw [hcamera] <;> rfl

/-! ## A fire happens (R91, R97) -/

/-- R91, R97: the camera once the fire of `seq` has left its schedule as `rest` and turned the output on. -/
def Camera.firing (k : Camera) (now : Time) (s : CameraSettings) (seq : Word) (rest : List Fire) : Camera := { k with
  schedule := rest, pulse := some ⟨now + BitVec.ofNat 48 s.width, !s.activeLow⟩, lastTag := seq.setWidth 5
  counters := { k.counters with triggers := up k.counters.triggers } }

/-- R91, R97: the part once the fire has turned the output on and its trigger time is recorded. -/
def Part.firing (p : Part) (c : Fin 6) (s : CameraSettings) (k : Camera) (seq : Word) (rest : List Fire) : Part :=
  { p with ctu := p.ctu.put c (k.firing p.now s seq rest), trl := p.trl.each (·.fired seq c p.now false) }

/-- The camera of the part stands as `k`, the fire `y` at the head of its schedule. -/
def Part.loaded (p : Part) (c : Fin 6) (k : Camera) (y : Fire) (rest : List Fire) : Part :=
  { p with ctu := p.ctu.put c { k with schedule := y :: rest } }

theorem Part.happen_eq {p : Part} {c : Fin 6} {s : CameraSettings} {k : Camera} {y : Fire} {rest : List Fire}
    (hs : p.cameraSettings c = some s) : (p.loaded c k y rest).happen c =
      (if (p.loaded c k y rest).cameraState c = .active then (p.firing c s k y.seq rest).joinAwaiting c y.seq
        else p.firing c s k y.seq rest).rewrite .ctu := by
  have hcamera : (p.loaded c k y rest).ctu.cameras[c.val] = { k with schedule := y :: rest } := Ctu.put_get _ _ _
  have hsettings : (p.loaded c k y rest).cameraSettings c = some s := hs
  have hfiring : ((p.loaded c k y rest).modCamera c fun m => { m with
      schedule := rest, pulse := some ⟨p.now + BitVec.ofNat 48 s.width, !s.activeLow⟩, lastTag := tagOf y.seq
      counters := { m.counters with triggers := inc32 m.counters.triggers } }).setTrigger y.seq c p.now =
      p.firing c s k y.seq rest := by
    refine Part.eq_of_fields rfl rfl (Part.setTrigger_trl _ _ _ _) rfl ?_ rfl rfl rfl rfl rfl rfl rfl rfl rfl
    simp only [Part.setTrigger_frame, Part.modCamera_ctu, hcamera, up_eq]
    exact Ctu.put_put _ _ _ _
  unfold Part.happen
  simp only [Fin.getElem_fin, hcamera, hsettings]
  rw [← hfiring]
  rfl

section
variable {p : Part} {c : Fin 6} {s : CameraSettings} {k : Camera} {seq : Word} {rest : List Fire}

theorem Part.firing_camera : (p.firing c s k seq rest).ctu.cameras[c.val] = k.firing p.now s seq rest :=
    Ctu.put_get _ _ _

/-- R97: the camera once the container has joined its awaiting list. -/
def Camera.joined (k : Camera) (seq : Word) : Camera := { k with awaiting := k.awaiting ++ [seq] }

theorem Part.awaited_ctu (p : Part) (c : Fin 6) (seq : Word) :
    (p.awaited c seq).ctu = p.ctu.put c (p.ctu.cameras[c.val].joined seq) := by
  simp only [Part.awaited, Part.modCamera_ctu, Part.setVerdict_frame, Camera.joined]

theorem Part.awaited_trl (p : Part) (c : Fin 6) (seq : Word) :
    (p.awaited c seq).trl = p.trl.each (·.judged seq c .triggered) := by
  simp [Part.awaited, Part.setVerdict_trl]

theorem Part.Speaks.awaited {p q : Part} {l : Tidings} {k : List Area} (h : p.Speaks q l k) (c : Fin 6) (seq : Word) :
    p.Speaks (q.awaited c seq) l k := h.same (by simp [Part.awaited]) (by simp [Part.awaited]) (by simp [Part.awaited])

theorem Part.Speaks.noVerdict {p q : Part} {l : Tidings} {k : List Area} (h : p.Speaks q l k) (seq : Word) (c : Fin 6) :
    p.Speaks (q.noVerdict seq c) l (k ++ [.mirror .ctu]) := by
  have hcounted : p.Speaks ((q.setVerdict seq c .noVerdict).countCamera c fun n =>
      { n with noVerdict := inc32 n.noVerdict }) l k := h.same (by simp) (by simp) (by simp)
  exact hcounted.rewrite .ctu

theorem Part.Speaks.roomMade {p q : Part} {l : Tidings} {k : List Area} (h : p.Speaks q l k) (c : Fin 6) (oldest : Word)
    (others : List Word) : p.Speaks (q.roomMade c oldest others) (l ++ [(News.awaitFull, BitVec.ofNat 8 c.val)])
      (k ++ [Area.mirror .ctu] ++ [Area.bulletin 3] ++ [Area.mirror .ctu]) := by
  have hshort : p.Speaks (q.modCamera c fun k => { k with awaiting := others }) l k := h.same rfl rfl rfl
  have htold := (hshort.noVerdict oldest c).raise .awaitFull (BitVec.ofNat 8 c.val)
  have hrun : p.Speaks (((((q.modCamera c fun k => { k with awaiting := others }).noVerdict oldest c).raise .awaitFull
    (BitVec.ofNat 8 c.val)).modCamera c fun k => { k with missedRun := inc8 k.missedRun })) _ _ :=
    htold.same (by simp) (by simp) (by simp)
  exact hrun.rewrite .ctu

/-- R91, R97, R100: what a fire that happens leaves, the camera standing as `k` but for its schedule. -/
theorem Part.happen_happens {y : Fire} (hs : p.cameraSettings c = some s)
    (hstate : (p.loaded c k y rest).cameraState c = p.cameraState c) :
    p.happens ((p.loaded c k y rest).happen c) c s k y.seq rest := by
  have hcamera : (p.firing c s k y.seq rest).ctu.cameras[c] = k.firing p.now s y.seq rest := Ctu.put_get _ _ _
  have hfired : p.Speaks (p.firing c s k y.seq rest) [] [] := .refl_of rfl rfl rfl
  rw [Part.happen_eq hs, hstate]
  have hactive (h : p.cameraState c = .active) : (p.firing c s k y.seq rest).cameraState c = .active := by
    rw [← h, ← hstate]
    refine Part.cameraState_congr c rfl ?_ ?_ ?_ <;> rw [hcamera] <;> simp [Part.loaded, Camera.firing]
  refine ⟨?_, Part.rewrite_mirrored _ _, fun hdegraded => ?_, fun h hlen htags => ?_,
    fun oldest others h hlist hfull hlen htags hmissed => ?_⟩
  · split <;> (apply Part.eq_of_fields <;> simp [Part.firing])
  · rw [if_neg (by rw [hdegraded]; simp)]
    have htold := hfired.rewrite .ctu
    exact ⟨rfl, rfl, htold.tells (by simp [Part.firing]), htold.storesOnly (by simp)⟩
  · have hroom : (p.firing c s k y.seq rest).ctu.cameras[c].full y.seq = false := by
      rw [hcamera]
      exact Camera.full_false.mpr ⟨hlen, htags⟩
    rw [if_pos h, Part.joinAwaiting_roomy hroom (hactive h)]
    have htold := (hfired.awaited c y.seq).rewrite .ctu
    refine ⟨?_, ?_, htold.tells (by simp [Part.firing, Part.awaited]), htold.storesOnly (by simp)⟩
    · rw [Part.rewrite_ctu, Part.awaited_ctu, Part.firing_camera]
      exact Ctu.put_put _ _ _ _
    · rw [Part.rewrite_trl, Part.awaited_trl]
      exact (Trl.each_each _ _ _).trans (Trl.each_congr _ fun x => Record.fired_triggered x _ _ _)
  · have hfull' : (p.firing c s k y.seq rest).ctu.cameras[c].full y.seq = true := by
      rw [hcamera]
      exact Camera.full_true.mpr hfull
    have hlist' : (p.firing c s k y.seq rest).ctu.cameras[c].awaiting = oldest :: others := by
      rw [hcamera]
      exact hlist
    have hmissed' : (p.firing c s k y.seq rest).missedThreshold c = 0 ∨
        inc8 (p.firing c s k y.seq rest).ctu.cameras[c].missedRun ≠ (p.firing c s k y.seq rest).missedThreshold c := by
      rw [hcamera, inc8_eq]
      exact hmissed
    rw [if_pos h, Part.joinAwaiting_pushes hfull' hlist' ⟨hlen, htags⟩ hmissed' (hactive h)]
    have htold := ((hfired.roomMade c oldest others).awaited c y.seq).rewrite .ctu
    refine ⟨?_, ?_, htold.tells (by simp [Part.firing, Part.awaited, Part.roomMade]), htold.storesOnly (by simp)⟩
    · have hpushed : ((p.firing c s k y.seq rest).roomMade c oldest others).ctu.cameras[c.val] =
          (k.firing p.now s y.seq rest).pushed others := by
        rw [Part.roomMade_ctu, hcamera]
        exact Ctu.put_get _ _ _
      have hput : ((p.firing c s k y.seq rest).roomMade c oldest others).ctu =
          p.ctu.put c ((k.firing p.now s y.seq rest).pushed others) := by
        rw [Part.roomMade_ctu, hcamera]
        exact Ctu.put_put _ _ _ _
      rw [Part.rewrite_ctu, Part.awaited_ctu, hpushed, hput, Ctu.put_put]
      simp only [Camera.joined, Camera.pushed, Camera.firing, inc8_eq]
    · rw [Part.rewrite_trl, Part.awaited_trl, Part.roomMade_trl]
      rfl

end

/-! ## At the station (R99) -/

section
variable {p : Part} {c : Fin 6} {seq : Word} {before after : List Fire} {x : Fire}

theorem Camera.fire_none {k : Camera} (h : ∀ x ∈ k.schedule, x.seq ≠ seq) : k.fire seq = none :=
  List.find?_eq_none.mpr fun x hx => by simpa using h x hx

theorem Camera.fire_some {k : Camera} (hk : k.schedule = before ++ x :: after) (hx : x.seq = seq)
    (hothers : ∀ y ∈ before ++ after, y.seq ≠ seq) : k.fire seq = some x :=
  List.find?_eq_some_iff_append.mpr ⟨by simp [hx], before, after, hk, fun y hy => by
    simpa using hothers y (List.mem_append_left _ hy)⟩

theorem Part.cameraStation_missing (h : p.ctu.cameras[c].fire seq = none) {r : Record} (hr : p.record seq = some r) :
    p.cameraStation c seq = if r.views[c].map (·.verdict) = some .notYet then p.noVerdict seq c else p := by
  unfold Part.cameraStation
  simp only [h, hr, Option.bind_some]
  cases r.views[c] with
  | none => rfl
  | some w => simp

theorem Part.cameraStation_service {f : Profile} (h : p.ctu.cameras[c].fire seq = some x)
    (hs : p.cameraState c = .service)
    (hf : p.cvt.profile = some f) : p.cameraStation c seq =
      (p.modCamera c fun k => { k with schedule := k.schedule.filter fun g => g.seq != x.seq }).setVerdict seq c
        (if f.cameras[c].required = true then .cameraOut else .exempt) := by
  unfold Part.cameraStation
  simp only [h, hs, Part.cameraSettings, hf, Option.map_some]

/-- R99: the camera once the fire of `seq` has fallen due by position; late while the tracker is TIMED. -/
theorem Part.cameraStation_fires (h : p.ctu.cameras[c].fire seq = some x)
    (hs : p.cameraState c = .active ∨ p.cameraState c = .degraded) : p.cameraStation c seq =
      if x.due = true then p else
        ((if x.time ≠ none ∧ p.cvt.paceState = .timed then
          p.countCamera c fun n => { n with latePosition := inc32 n.latePosition } else p).setFireTime c seq
            none).fallDue c
            seq := by
  have hlate : (x.time.isSome && p.cvt.paceState == .timed) = true ↔ x.time ≠ none ∧ p.cvt.paceState = .timed := by
    simp [Option.isSome_iff_ne_none]
  unfold Part.cameraStation
  rcases hs with hs | hs <;> simp only [h, hs, hlate]

theorem markThrough_apart (hx : x.seq = seq) (hbefore : ∀ y ∈ before, y.seq ≠ seq) :
    markThrough seq (before ++ x :: after) = before.map (fun y => { y with due := true }) ++
      { x with due := true } :: after := by
  induction before with
  | nil => simp [markThrough, hx]
  | cons y ys ih =>
    have hy : y.seq ≠ seq := hbefore y List.mem_cons_self
    simp [markThrough, hy, ih fun z hz => hbefore z (List.mem_cons_of_mem _ hz)]

theorem map_unmatched {l : List Fire} (g : Fire → Fire) (h : ∀ y ∈ l, y.seq ≠ seq) :
    l.map (fun y => if y.seq = seq then g y else y) = l :=
  (List.map_congr_left fun y hy => if_neg (h y hy)).trans (List.map_id _)

theorem filter_fire {l : List Fire} (hl : l = before ++ x :: after) (hothers : ∀ y ∈ before ++ after, y.seq ≠ x.seq) :
    l.filter (fun y => y.seq != x.seq) = before ++ after := by
  rw [hl, List.filter_append, List.filter_cons_of_neg (by simp), ← List.filter_append]
  exact List.filter_eq_self.mpr fun y hy => by simpa using hothers y hy

/-- The part with its camera `c` as `k`. -/
def Part.withCamera (p : Part) (c : Fin 6) (k : Camera) : Part := { p with ctu := p.ctu.put c k }

theorem Part.withCamera_camera (p : Part) (c : Fin 6) (k : Camera) : (p.withCamera c k).ctu.cameras[c.val] = k :=
  Ctu.put_get _ _ _

theorem Part.withCamera_modCamera (p : Part) (c : Fin 6) (k : Camera) (g : Camera → Camera) :
    (p.withCamera c k).modCamera c g = p.withCamera c (g k) := by
  refine Part.eq_of_fields rfl rfl rfl rfl ?_ rfl rfl rfl rfl rfl rfl rfl rfl rfl
  rw [Part.modCamera_ctu, Part.withCamera_camera]
  exact Ctu.put_put _ _ _ _

theorem Part.withCamera_self (p : Part) (c : Fin 6) : p.withCamera c p.ctu.cameras[c.val] = p := by
  refine Part.eq_of_fields rfl rfl rfl rfl ?_ rfl rfl rfl rfl rfl rfl rfl rfl rfl
  exact Ctu.put_self _ _

/-- R97: the fire of `x` falls due, and with it those before it; the oldest happens if no pulse is on. -/
theorem Part.fallDue_marks {k : Camera} (hk : k.schedule = before ++ x :: after) (hx : x.seq = seq)
    (hothers : ∀ y ∈ before ++ after, y.seq ≠ seq) :
    let due := before.map (fun y => { y with due := true }) ++ { x with due := true } :: after
    (p.withCamera c k).fallDue c seq = if k.pulse = none then (p.withCamera c { k with schedule := due }).happen c
      else p.withCamera c { k with schedule := due } := by
  intro due
  have hdue : markThrough seq k.schedule = due := by
    rw [hk, markThrough_apart hx fun y hy => hothers y (List.mem_append_left _ hy)]
  have hfire : ((p.withCamera c k).ctu.cameras[c].fire seq).isSome = true := by
    rw [show (p.withCamera c k).ctu.cameras[c] = k from p.withCamera_camera c k, Camera.fire_some hk hx hothers]
    rfl
  have hmarked : ((p.withCamera c k).modCamera c fun k => { k with schedule := markThrough seq k.schedule }) =
      p.withCamera c { k with schedule := due } := by
    rw [Part.withCamera_modCamera, hdue]
  unfold Part.fallDue
  rw [if_pos hfire]
  dsimp only
  rw [hmarked]
  simp only [Fin.getElem_fin, Part.withCamera_camera, Option.isNone_iff_eq_none]

/-- R91: what a fire that happens leaves of the camera's output and schedule. -/
theorem Part.happen_output {s : CameraSettings} {k : Camera} {y : Fire} {rest : List Fire}
    (hs : p.cameraSettings c = some s) :
    ((p.loaded c k y rest).happen c).ctu.cameras[c].output = (k.firing p.now s y.seq rest).output := by
  have hcamera : (p.firing c s k y.seq rest).ctu.cameras[c] = k.firing p.now s y.seq rest := Ctu.put_get _ _ _
  rw [Part.happen_eq hs, ← hcamera]
  split
  · exact (Part.joinAwaiting_awaits c _ y.seq).output
  · rfl

/-- R97: the only fire of a camera falls due: it happens, or waits behind a pulse. -/
theorem Part.fallDue_single {s : CameraSettings} (hs : p.cameraSettings c = some s)
    (hk : p.ctu.cameras[c].schedule = [x]) :
    (p.ctu.cameras[c].pulse = none → (p.fallDue c x.seq).ctu.cameras[c].output =
      ([], some ⟨p.now + BitVec.ofNat 48 s.width, !s.activeLow⟩, x.seq.setWidth 5,
        up p.ctu.cameras[c].counters.triggers)) ∧
    (p.ctu.cameras[c].pulse ≠ none →
      p.fallDue c x.seq = p.withCamera c { p.ctu.cameras[c] with schedule := [{ x with due := true }] }) := by
  have hmarks := Part.fallDue_marks (p := p) (c := c) (k := p.ctu.cameras[c]) (before := []) (after := []) hk rfl
    (by simp)
  dsimp only at hmarks
  rw [show p.withCamera c p.ctu.cameras[c] = p from p.withCamera_self c] at hmarks
  refine ⟨fun hoff => ?_, fun hon => hmarks.trans (if_neg hon)⟩
  rw [hmarks, if_pos hoff]
  exact Part.happen_output (k := p.ctu.cameras[c]) (y := { x with due := true }) (rest := []) hs

theorem Part.setFireTime_single (t : Option Time) (hk : p.ctu.cameras[c].schedule = [x]) :
    (p.setFireTime c x.seq t).ctu.cameras[c] = { p.ctu.cameras[c] with schedule := [{ x with time := t }] } := by
  have hset : (p.setFireTime c x.seq t).ctu.cameras[c] = { p.ctu.cameras[c] with
      schedule := p.ctu.cameras[c].schedule.map fun y => if y.seq = x.seq then { y with time := t } else y } :=
    modAt_self _ _ _
  rw [hset, hk, List.map_cons, List.map_nil, if_pos rfl]

/-- R99: the camera as its container reaches the station, late while the tracker is TIMED and the fire had a time. -/
def Camera.lateFor (k : Camera) (x : Fire) (s : PaceState) : Camera :=
  if x.time ≠ none ∧ s = .timed then
    { k with counters := { k.counters with latePosition := up k.counters.latePosition } }
  else k

theorem Part.station_falls (hk : p.ctu.cameras[c].schedule = before ++ x :: after) (hx : x.seq = seq)
    (hothers : ∀ y ∈ before ++ after, y.seq ≠ seq) (hs : p.cameraState c = .active ∨ p.cameraState c = .degraded)
    (hdue : x.due = false) :
    let late := p.ctu.cameras[c].lateFor x p.cvt.paceState
    let due := before.map (fun y => { y with due := true }) ++ ⟨x.seq, none, true⟩ :: after
    p.cameraStation c seq = if late.pulse = none then (p.withCamera c { late with schedule := due }).happen c
      else p.withCamera c { late with schedule := due } := by
  intro late due
  have hcounted : (if x.time ≠ none ∧ p.cvt.paceState = .timed then
      p.countCamera c fun n => { n with latePosition := inc32 n.latePosition } else p) = p.withCamera c late := by
    unfold late Camera.lateFor
    split
    · simp only [← up_eq]
      rfl
    · exact (p.withCamera_self c).symm
  have hschedule : late.schedule = before ++ x :: after := by
    rw [← hk]
    unfold late Camera.lateFor
    split <;> rfl
  have huntimed : (p.withCamera c late).setFireTime c seq none =
      p.withCamera c { late with schedule := before ++ ⟨x.seq, none, x.due⟩ :: after } := by
    unfold Part.setFireTime
    have hbefore := map_unmatched (fun g : Fire => { g with time := none })
      fun y hy => hothers y (List.mem_append_left _ hy)
    have hafter := map_unmatched (fun g : Fire => { g with time := none })
      fun y hy => hothers y (List.mem_append_right _ hy)
    rw [Part.withCamera_modCamera, hschedule, List.map_append, List.map_cons, hbefore, hafter, if_pos hx]
  rw [Part.cameraStation_fires (Camera.fire_some hk hx hothers) hs, if_neg (by rw [hdue]; simp), hcounted, huntimed]
  exact Part.fallDue_marks (k := { late with schedule := before ++ ⟨x.seq, none, x.due⟩ :: after }) rfl hx hothers

end

/-- Settles O32. -/
theorem cameraStationIsActedOn : Obligations.CameraStationIsActedOn := by
  unfold Obligations.CameraStationIsActedOn
  intro p w f was pair infeed choices r m h c count k judges
  have hrecord : c.record r.seq = some (r.past (.camera m)) := Part.arrives_record h
  have hq := Part.arrives_raises choices h (Part.cameraStation_stays _ m r.seq)
  have hprofile : c.cvt.profile = some f := h.1.2.2.2.1
  have hp : p.Speaks c [] [] := .refl_of rfl rfl rfl
  refine ⟨fun hmissing => ?_, fun before x after hk hx hothers => ?_⟩
  · have hstation := hq.trans (Part.cameraStation_missing (p := c) (Camera.fire_none hmissing) hrecord)
    refine ⟨fun hview => Part.encoderCount_leads w (hstation.trans (if_pos hview)) ⟨⟨?_, ?_⟩, Part.rewrite_mirrored _ _,
      (hp.noVerdict r.seq m).storesOnly (by simp)⟩,
        fun hview => Part.encoderCount_leads w (hstation.trans (if_neg hview)) rfl⟩
    · rw [← c.noVerdict_trl r.seq m]
      refine Part.eq_of_fields (by simp) (by simp) rfl (by simp)
        (c.noVerdict_ctu r.seq m) ?_ ?_ ?_ ?_ rfl ?_ ?_ rfl ?_ <;> simp
    · exact (hp.noVerdict r.seq m).tells (by simp [c, Part.past, Part.counted])
  have hfire : c.ctu.cameras[m].fire r.seq = some x := Camera.fire_some hk hx hothers
  refine ⟨fun hs => ?_, fun hs => ⟨fun hdue => ?_, fun hdue => ?_⟩⟩
  · refine Part.encoderCount_leads w (hq.trans (Part.cameraStation_service (p := c) hfire hs hprofile)) ⟨⟨?_, ?_⟩, ?_⟩
    · rw [← Part.setVerdict_trl, ← filter_fire hk (by rw [hx]; exact hothers)]
      refine Part.eq_of_fields (by simp) (by simp) rfl (by simp) (by simp; rfl) ?_ ?_ ?_ ?_ rfl ?_ ?_ rfl
        ?_ <;> simp
    · exact (hp.same (by simp) (by simp) (by simp)).tells (by simp [c, Part.past, Part.counted])
    · exact (hp.same (by simp) (by simp) (by simp)).storesOnly (by simp)
  · exact Part.encoderCount_leads w ((hq.trans (Part.cameraStation_fires (p := c) hfire hs)).trans (if_pos hdue)) rfl
  · have hstation := hq.trans (Part.station_falls (p := c) hk hx hothers hs hdue)
    intro late marked
    have hlate : c.ctu.cameras[m].lateFor x c.cvt.paceState = late := rfl
    have hpulse : late.pulse = k.pulse := by
      unfold late
      split <;> rfl
    have hdues : before.map (fun y => { y with due := true }) ++ ⟨x.seq, none, true⟩ :: after = marked ++ after :=
      List.append_cons _ _ _
    rw [hlate, hdues] at hstation
    refine ⟨fun hon => ?_, fun y ys hoff hhead => ?_⟩
    · exact Part.encoderCount_leads w (hstation.trans (if_neg (by rw [hpulse]; exact hon))) rfl
    · rw [if_pos (hpulse.trans hoff), hhead] at hstation
      have hstate : (c.loaded m late y (ys ++ after)).cameraState m = c.cameraState m := by
        have hcamera : (c.loaded m late y (ys ++ after)).ctu.cameras[m] =
          { late with schedule := y :: (ys ++ after) } :=
          Ctu.put_get _ _ _
        refine Part.cameraState_congr m rfl ?_ ?_ ?_ <;> rw [hcamera] <;> (unfold late; split <;> rfl)
      have hsettings : c.cameraSettings m = some f.cameras[m] := by
        unfold Part.cameraSettings
        rw [hprofile]
        rfl
      exact Part.encoderCount_leads w hstation (Part.happen_happens hsettings hstate)

end Sys2Proof.Machine
end

section
/-! PROOFS. A new pace reaches the pending fires and pulses (R34, R36, R97, R114, R117). -/

namespace Sys2Proof.Machine

/-! ## The projection while the newest mark is at high-water (R34) -/

theorem toNat_of_pos {x : Position} (h : 0 < x.toInt) : x.toInt.toNat = x.toNat := by
  rw [BitVec.toInt_eq_toNat_cond] at h ⊢
  split at h <;> split <;> omega

section
variable {p : Part} (f : Profile) (pair : Bool × Bool) (infeed : Bool)

/-- R34: the projection by the pace of this window. -/
theorem Part.paced_project {q : Part} (hq : q.cvt = (p.paced f pair infeed).cvt) (x : Position) : q.project x =
    if 0 < (x - (p.paced f pair infeed).cvt.highWater).toInt then
      some ((p.paced f pair infeed).etaOf (paceOver p.window p.now f.spacing) x)
    else none := by
  have hlast : (p.paced f pair infeed).cvt.marks.getLast? = some ⟨p.now, p.cvt.highWater + 1⟩ := List.getLast?_concat ..
  have hstate : (p.paced f pair infeed).cvt.paceState = .timed := rfl
  have hpos : (p.paced f pair infeed).cvt.highWater = p.cvt.highWater + 1 := rfl
  unfold Part.project
  rw [hq]
  simp only [hlast, hstate, hpos]
  split
  next h => rw [if_neg (by omega)]
  next h =>
    rw [if_pos (by omega), toNat_of_pos (by omega)]
    rfl

/-- R97: the time that the pending fire of `seq` on camera `m` has by the new pace, its target still ahead. -/
def Part.fireTime (p : Part) (f : Profile) (pair : Bool × Bool) (infeed : Bool) (m : Fin 6) (seq : Word) :
    Option Time :=
  (p.record seq).bind fun r =>
    let target := r.entryPos + counts f.cameras[m].station
    if 0 < (target - (p.paced f pair infeed).cvt.highWater).toInt then
      some ((p.paced f pair infeed).etaOf (paceOver p.window p.now f.spacing) target - BitVec.ofNat 48
        f.cameras[m].lead)
    else none

/-- `q` has the new pace and the places of the records of `p`; its cameras may have worked. -/
structure Part.HasPace (p : Part) (f : Profile) (pair : Bool × Bool) (infeed : Bool) (q : Part) : Prop where
  cvt : q.cvt = (p.paced f pair infeed).cvt
  now : q.now = p.now
  records : q.trl.records.map (fun x => (x.seq, x.place)) = p.trl.records.map fun x => (x.seq, x.place)

end

theorem Part.record_place {p q : Part}
    (h : q.trl.records.map (fun x => (x.seq, x.place)) = p.trl.records.map fun x => (x.seq, x.place)) (seq : Word) :
    (q.record seq).map Record.place = (p.record seq).map Record.place := by
  have hfind (l : List Record) : (l.find? fun r => r.seq == seq).map Record.place =
      ((l.map fun x => (x.seq, x.place)).find? fun y => y.1 == seq).map Prod.snd := by
    rw [List.find?_map, Option.map_map]
    rfl
  unfold Part.record
  rw [hfind, hfind, h]

/-- Records at one place lead to one target. -/
theorem Part.record_entry {p q : Part}
    (h : q.trl.records.map (fun x => (x.seq, x.place)) = p.trl.records.map fun x => (x.seq, x.place)) (seq : Word) :
    (q.record seq).map Record.entryPos = (p.record seq).map Record.entryPos := by
  have hplace := congrArg (Option.map Prod.fst) (Part.record_place h seq)
  rwa [Option.map_map, Option.map_map] at hplace

section
variable {p q : Part} {f : Profile} {pair : Bool × Bool} {infeed : Bool} {m : Fin 6}

theorem Part.HasPace.works {r : Part} (h : p.HasPace f pair infeed q) (k : q.Works m r) :
    p.HasPace f pair infeed r where
  cvt := by rw [k.rest]; exact h.cvt
  now := by rw [k.rest]; exact h.now
  records := k.records.trans h.records

theorem Part.HasPace.profile (h : p.HasPace f pair infeed q) (hf : p.cvt.profile = some f) :
    q.cvt.profile = some f := by
  rw [h.cvt]
  exact hf

theorem Part.HasPace.confirming (h : p.HasPace f pair infeed q) (hf : p.cvt.profile = some f)
    (hc : p.confirming = true) :
    q.confirming = true := by
  unfold Part.confirming at hc ⊢
  rw [h.profile hf]
  rwa [hf] at hc

/-- R36: the projection asked afresh for the fire of `seq`. -/
theorem Part.HasPace.target (h : p.HasPace f pair infeed q) (hf : p.cvt.profile = some f) (seq : Word) :
    (q.cameraTarget m seq).bind (fun y => (q.project y.1).map (· - BitVec.ofNat 48 y.2.lead)) =
      p.fireTime f pair infeed m seq := by
  have hentry := Part.record_entry h.records seq
  have hsettings : q.cameraSettings m = some f.cameras[m] := by
    unfold Part.cameraSettings
    rw [h.profile hf]
    rfl
  unfold Part.cameraTarget Part.fireTime
  rw [hsettings]
  cases hq : q.record seq with
  | none =>
    rw [hq] at hentry
    rw [Option.map_eq_none_iff.mp hentry.symm]
    rfl
  | some r =>
    rw [hq] at hentry
    obtain ⟨x, hx, hpos⟩ := Option.map_eq_some_iff.mp hentry.symm
    rw [hx]
    simp only [Option.bind_some, Part.paced_project f pair infeed h.cvt, hpos]
    split <;> rfl

theorem Part.repaceFire_untimed (h : p.HasPace f pair infeed q) (hf : p.cvt.profile = some f) {seq : Word}
    (ht : p.fireTime f pair infeed m seq = none) : q.repaceFire m seq = q := by
  rw [← h.target hf] at ht
  unfold Part.repaceFire
  cases htarget : q.cameraTarget m seq with
  | none => rfl
  | some y =>
    rw [htarget] at ht
    obtain hnone := Option.map_eq_none_iff.mp ht
    simp only [hnone]

theorem Part.repaceFire_timed (h : p.HasPace f pair infeed q) (hf : p.cvt.profile = some f) {seq : Word} {t : Time}
    (ht : p.fireTime f pair infeed m seq = some t) : q.repaceFire m seq =
      if 0 ≤ (p.now - t).toInt then (q.setFireTime m seq (some t)).fallDue m seq else q.setFireTime m seq (some t) := by
  rw [← h.target hf] at ht
  unfold Part.repaceFire
  cases htarget : q.cameraTarget m seq with
  | none => simp [htarget] at ht
  | some y =>
    rw [htarget] at ht
    obtain ⟨eta, heta, rfl⟩ := Option.map_eq_some_iff.mp ht
    have hnow : (q.setFireTime m seq (some (eta - BitVec.ofNat 48 y.2.lead))).now = p.now := h.now
    simp only [heta, Time.reached, hnow, decide_eq_true_eq]

/-! ## No time is reached -/

/-- R97: the fire with its time by the new pace. -/
def Part.retime (p : Part) (f : Profile) (pair : Bool × Bool) (infeed : Bool) (m : Fin 6) (x : Fire) : Fire :=
  { x with time := if (p.fireTime f pair infeed m x.seq).isSome then p.fireTime f pair infeed m x.seq else x.time }

theorem Part.modCamera_congr {g g' : Camera → Camera} (h : g q.ctu.cameras[m.val] = g' q.ctu.cameras[m.val]) :
    q.modCamera m g = q.modCamera m g' := by
  refine Part.eq_of_fields rfl rfl rfl rfl ?_ rfl rfl rfl rfl rfl rfl rfl rfl rfl
  rw [Part.modCamera_ctu, Part.modCamera_ctu, h]

theorem Part.modCamera_same {g : Camera → Camera} (h : g q.ctu.cameras[m.val] = q.ctu.cameras[m.val]) :
    q.modCamera m g = q := by
  refine Part.eq_of_fields rfl rfl rfl rfl ?_ rfl rfl rfl rfl rfl rfl rfl rfl rfl
  rw [Part.modCamera_ctu, h]
  exact Ctu.put_self _ _

theorem Part.modCamera_twice (g g' : Camera → Camera) :
    (q.modCamera m g).modCamera m g' = q.modCamera m fun k => g' (g k) :=
  Part.eq_of_fields rfl rfl rfl rfl (congrArg Ctu.mk (modAt_modAt _ _ _ _)) rfl rfl rfl rfl rfl rfl rfl rfl rfl

theorem Part.retime_untimed {x : Fire} (h : p.fireTime f pair infeed m x.seq = none) :
    p.retime f pair infeed m x = x := by
  unfold Part.retime
  rw [h]
  rfl

theorem Part.retime_retime (x : Fire) :
    p.retime f pair infeed m (p.retime f pair infeed m x) = p.retime f pair infeed m x := by
  unfold Part.retime
  dsimp only
  split <;> rfl

theorem Part.repaceFire_quiet (h : p.HasPace f pair infeed q) (hf : p.cvt.profile = some f) {seq : Word}
    (hquiet : ∀ t, p.fireTime f pair infeed m seq = some t → ¬ 0 ≤ (p.now - t).toInt) :
    q.repaceFire m seq = q.modCamera m fun k => { k with
      schedule := k.schedule.map fun x => if x.seq = seq then p.retime f pair infeed m x else x } := by
  cases ht : p.fireTime f pair infeed m seq with
  | none =>
    have hid (x : Fire) : (if x.seq = seq then p.retime f pair infeed m x else x) = x := by
      split
      next hx => exact Part.retime_untimed (by rw [hx]; exact ht)
      next => rfl
    rw [Part.repaceFire_untimed h hf ht, Part.modCamera_same]
    simp only [hid, List.map_id']
  | some t =>
    have hset (x : Fire) : (if x.seq = seq then { x with time := some t } else x) =
        if x.seq = seq then p.retime f pair infeed m x else x := by
      split
      next hx =>
        unfold Part.retime
        rw [hx, ht]
        rfl
      next => rfl
    rw [Part.repaceFire_timed h hf ht, if_neg (hquiet t ht)]
    unfold Part.setFireTime
    simp only [hset]

theorem Part.repaceFires_quiet (h : p.HasPace f pair infeed q) (hf : p.cvt.profile = some f) {l : List Word}
    (hquiet : ∀ seq ∈ l, ∀ t, p.fireTime f pair infeed m seq = some t → ¬ 0 ≤ (p.now - t).toInt) :
    l.foldl (fun q seq => q.repaceFire m seq) q = q.modCamera m fun k => { k with
      schedule := k.schedule.map fun x => if x.seq ∈ l then p.retime f pair infeed m x else x } := by
  induction l generalizing q with
  | nil => exact (Part.modCamera_same (by simp)).symm
  | cons a l ih =>
    have htwice (x : Fire) : (if (if x.seq = a then p.retime f pair infeed m x else x).seq ∈ l then
        p.retime f pair infeed m (if x.seq = a then p.retime f pair infeed m x else x)
        else if x.seq = a then p.retime f pair infeed m x else x) =
        if x.seq ∈ a :: l then p.retime f pair infeed m x else x := by
      have hseq : (p.retime f pair infeed m x).seq = x.seq := rfl
      by_cases hx : x.seq = a
      · simp [hx, hseq, Part.retime_retime]
      · simp [hx]
    rw [List.foldl_cons, ih (h.works (Part.repaceFire_works m q a)) fun seq hs => hquiet seq
      (List.mem_cons_of_mem _ hs),
      Part.repaceFire_quiet h hf (hquiet a List.mem_cons_self), Part.modCamera_twice]
    simp only [List.map_map, Function.comp_def, htwice]

/-- R36, R93: the camera with every pending fire by the new pace; in SERVICE it keeps them. -/
def Part.retimed (p : Part) (f : Profile) (pair : Bool × Bool) (infeed : Bool) (m : Fin 6) (k : Camera) : Camera :=
  if p.cameraState m = .active ∨ p.cameraState m = .degraded then
    { k with schedule := k.schedule.map (p.retime f pair infeed m) }
  else k

theorem CameraState.fires_iff (s : CameraState) : s.fires = true ↔ s = .active ∨ s = .degraded := by
  simp [CameraState.fires]

theorem Part.HasPace.state (h : p.HasPace f pair infeed q) (hk : q.ctu.cameras[m] = p.ctu.cameras[m]) :
    q.cameraState m = p.cameraState m := by
  refine Part.cameraState_congr m (by rw [h.cvt]; rfl) ?_ ?_ ?_ <;> rw [hk]

/-- No fire of camera `m` has its time reached by the new pace. -/
def Part.quietAt (p : Part) (f : Profile) (pair : Bool × Bool) (infeed : Bool) (m : Fin 6) : Prop :=
  p.cameraState m = .active ∨ p.cameraState m = .degraded → ∀ x ∈ p.ctu.cameras[m].schedule, ∀ t,
    p.fireTime f pair infeed m x.seq = some t → ¬ 0 ≤ (p.now - t).toInt

theorem Part.repaceCamera_quiet (h : p.HasPace f pair infeed q) (hf : p.cvt.profile = some f)
    (hk : q.ctu.cameras[m] = p.ctu.cameras[m]) (hquiet : p.quietAt f pair infeed m) :
    q.repaceCamera m = q.modCamera m (p.retimed f pair infeed m) := by
  unfold Part.repaceCamera
  split
  next hfires =>
    have hs := (CameraState.fires_iff _).mp hfires
    rw [h.state hk] at hs
    have hseqs : ∀ seq ∈ q.ctu.cameras[m].schedule.map (·.seq), ∀ t, p.fireTime f pair infeed m seq = some t →
        ¬ 0 ≤ (p.now - t).toInt := fun seq hseq => by
      obtain ⟨x, hx, rfl⟩ := List.mem_map.mp hseq
      exact hquiet hs x (by rw [← hk]; exact hx)
    rw [Part.repaceFires_quiet h hf hseqs]
    refine Part.modCamera_congr ?_
    have hall : (q.ctu.cameras[m.val].schedule.map fun x =>
        if x.seq ∈ q.ctu.cameras[m].schedule.map (·.seq) then p.retime f pair infeed m x else x) =
        q.ctu.cameras[m.val].schedule.map (p.retime f pair infeed m) :=
      List.map_congr_left fun x hx => if_pos (List.mem_map_of_mem hx)
    unfold Part.retimed
    rw [if_pos hs]
    simp only [hall]
  next hfires =>
    rw [Part.modCamera_same]
    exact if_neg fun hs => hfires ((CameraState.fires_iff _).mpr (by rw [h.state hk]; exact hs))

/-! ## Every camera -/

theorem Part.repaceCameras_quiet {l : List (Fin 6)} (hl : l.Nodup) (h : p.HasPace f pair infeed q)
    (hf : p.cvt.profile = some f) (hk : ∀ m ∈ l, q.ctu.cameras[m] = p.ctu.cameras[m])
    (hquiet : ∀ m, p.quietAt f pair infeed m) : l.foldl (fun q m => q.repaceCamera m) q =
      l.foldl (fun q m => q.modCamera m (p.retimed f pair infeed m)) q := by
  induction l generalizing q with
  | nil => rfl
  | cons a l ih =>
    obtain ⟨ha, hl⟩ := List.nodup_cons.mp hl
    have hworks := Part.repaceCamera_works a q
    rw [List.foldl_cons, List.foldl_cons,
      ih hl (h.works hworks) fun m hm => (hworks.others m fun e => ha (e ▸ hm)).trans
        (hk m (List.mem_cons_of_mem _ hm)),
      Part.repaceCamera_quiet h hf (hk a List.mem_cons_self) (hquiet a)]

theorem Part.modCameras_eq (q : Part) (g : Fin 6 → Camera → Camera) : sixes.foldl (fun q m => q.modCamera m (g m)) q =
    { q with ctu := ⟨Vector.ofFn fun m : Fin 6 => g m q.ctu.cameras[m]⟩ } := by
  have hone (q : Part) (m j : Fin 6) (g : Camera → Camera) : (q.modCamera m g).ctu.cameras[j.val] =
      if j = m then g q.ctu.cameras[j.val] else q.ctu.cameras[j.val] := modAt_get _ _ _ _
  have hcamera (j : Fin 6) : (sixes.foldl (fun q m => q.modCamera m (g m)) q).ctu.cameras[j.val] =
      g j q.ctu.cameras[j.val] := by
    rw [sixes_foldl]
    simp only [hone]
    fin_cases j <;> rfl
  have hrest (l : List (Fin 6)) (q : Part) : l.foldl (fun q m => q.modCamera m (g m)) q =
      { q with ctu := (l.foldl (fun q m => q.modCamera m (g m)) q).ctu } := by
    induction l generalizing q with
    | nil => rfl
    | cons a l ih => exact ih (q.modCamera a (g a))
  have hctu : (sixes.foldl (fun q m => q.modCamera m (g m)) q).ctu =
      ⟨Vector.ofFn fun m : Fin 6 => g m q.ctu.cameras[m]⟩ := by
    refine Ctu.ext_cameras (Vector.ext fun i hi => ?_)
    rw [Vector.getElem_ofFn]
    exact hcamera ⟨i, hi⟩
  rw [hrest, hctu]

/-- R36: what a new pace leaves of the cameras where no time is reached. -/
theorem Part.camerasNewPace_quiet (h : p.HasPace f pair infeed q) (hf : p.cvt.profile = some f)
    (hk : q.ctu = p.ctu) (hquiet : ∀ m, p.quietAt f pair infeed m) : q.camerasNewPace =
      { q with ctu := ⟨Vector.ofFn fun m : Fin 6 => p.retimed f pair infeed m p.ctu.cameras[m]⟩ } := by
  unfold Part.camerasNewPace
  rw [Part.repaceCameras_quiet sixes_nodup h hf (fun m _ => by rw [hk]) hquiet, Part.modCameras_eq, hk]

/-- Every camera works in its turn: others have worked before camera `m` and after it. -/
theorem Part.camera_among {g : Part → Fin 6 → Part} (hg : ∀ q c, Part.Works c q (g q c)) {H : Part → Prop}
    (hH : ∀ q c, H q → H (g q c)) (h : H q) (m : Fin 6) :
    ∃ r, H r ∧ r.ctu.cameras[m] = q.ctu.cameras[m] ∧ (sixes.foldl g q).ctu.cameras[m] = (g r m).ctu.cameras[m] := by
  have hkeeps (l : List (Fin 6)) (q : Part) (hm : m ∉ l) : (l.foldl g q).ctu.cameras[m] = q.ctu.cameras[m] := by
    induction l generalizing q with
    | nil => rfl
    | cons a l ih =>
      exact (ih _ (List.not_mem_of_not_mem_cons hm)).trans ((hg q a).others m (List.ne_of_not_mem_cons hm))
  have hfold (l : List (Fin 6)) (q : Part) (h : H q) : H (l.foldl g q) := by
    induction l generalizing q with
    | nil => exact h
    | cons a l ih => exact ih _ (hH q a h)
  obtain ⟨before, after, hsplit⟩ := List.append_of_mem (mem_sixes m)
  have hnodup : (m :: (before ++ after)).Nodup := List.nodup_middle.mp (hsplit ▸ sixes_nodup)
  obtain ⟨hbefore, hafter⟩ := not_or.mp (mt List.mem_append.mpr (List.nodup_cons.mp hnodup).1)
  refine ⟨before.foldl g q, hfold _ _ h, hkeeps _ _ hbefore, ?_⟩
  rw [hsplit, List.foldl_append, List.foldl_cons]
  exact hkeeps _ _ hafter

theorem Part.camerasNewPace_camera (h : p.HasPace f pair infeed q) (m : Fin 6) :
    ∃ r, p.HasPace f pair infeed r ∧ r.ctu.cameras[m] = q.ctu.cameras[m] ∧
      q.camerasNewPace.ctu.cameras[m] = (r.repaceCamera m).ctu.cameras[m] :=
  Part.camera_among (fun q c => Part.repaceCamera_works c q) (fun q c h => h.works (Part.repaceCamera_works c q)) h m

/-! ## The ejector waits for the cameras (R114) -/

/-- From `p` to `q` nothing changed that cameras do not write. -/
def Part.byCameras (p q : Part) : Prop := q = { p with trl := q.trl, ctu := q.ctu, rpu := q.rpu, mem := q.mem }

theorem Part.byCameras.trans {r : Part} (h : p.byCameras q) (k : q.byCameras r) : p.byCameras r := by
  unfold Part.byCameras at *
  rw [k, h]

theorem Part.camerasNewPace_rest (h : p.HasPace f pair infeed q) :
    p.HasPace f pair infeed q.camerasNewPace ∧ q.byCameras q.camerasNewPace := by
  have hfold (l : List (Fin 6)) (q : Part) (h : p.HasPace f pair infeed q) :
      p.HasPace f pair infeed (l.foldl (fun q c => q.repaceCamera c) q) ∧
      q.byCameras (l.foldl (fun q c => q.repaceCamera c) q) := by
    induction l generalizing q with
    | nil => exact ⟨h, rfl⟩
    | cons a l ih =>
      have hworks := Part.repaceCamera_works a q
      obtain ⟨hpace, hrest⟩ := ih _ (h.works hworks)
      exact ⟨hpace, Part.byCameras.trans hworks.rest hrest⟩
  exact hfold sixes q h

/-- R36, R97: a new pace whose time for the only fire of camera `m` is reached. -/
theorem Part.camerasNewPace_reached (h : p.HasPace f pair infeed q) (hf : p.cvt.profile = some f) (hq : q.ctu = p.ctu)
    {x : Fire} {t : Time} (hs : p.cameraState m = .active ∨ p.cameraState m = .degraded)
    (hk : p.ctu.cameras[m].schedule = [x]) (ht : p.fireTime f pair infeed m x.seq = some t) :
    let k := p.ctu.cameras[m]
    let after := q.camerasNewPace.ctu.cameras[m]
    0 ≤ (p.now - t).toInt →
    (k.pulse = none → after.output = ([], some ⟨p.now + BitVec.ofNat 48 f.cameras[m].width, !f.cameras[m].activeLow⟩,
      x.seq.setWidth 5, up k.counters.triggers)) ∧
    (k.pulse ≠ none → after = { k with schedule := [⟨x.seq, some t, true⟩] }) := by
  intro k after hreached
  obtain ⟨r, hr, hcamera, hafter⟩ := Part.camerasNewPace_camera h m
  have hrk : r.ctu.cameras[m] = k := by rw [hcamera, hq]
  have hstate : r.cameraState m = p.cameraState m := hr.state hrk
  have hsettings : r.cameraSettings m = some f.cameras[m] := by
    unfold Part.cameraSettings
    rw [hr.profile hf]
    rfl
  let S := r.setFireTime m x.seq (some t)
  have hS : S.ctu.cameras[m] = { k with schedule := [⟨x.seq, some t, x.due⟩] } := by
    rw [show S.ctu.cameras[m] = _ from Part.setFireTime_single (some t) (by rw [hrk]; exact hk), hrk]
  have hrepace : r.repaceCamera m = S.fallDue m x.seq := by
    unfold Part.repaceCamera
    rw [if_pos ((CameraState.fires_iff _).mpr (by rw [hstate]; exact hs)), hrk]
    change (p.ctu.cameras[m].schedule.map (·.seq)).foldl _ _ = _
    rw [hk]
    exact (Part.repaceFire_timed hr hf ht).trans (if_pos hreached)
  have hsingle := Part.fallDue_single (p := S) (c := m) (x := ⟨x.seq, some t, x.due⟩) hsettings (by rw [hS])
  rw [← hrepace, hS] at hsingle
  obtain ⟨hoff, hon⟩ := hsingle
  refine ⟨fun hpulse => ?_, fun hpulse => ?_⟩
  · rw [show after = _ from hafter, hoff hpulse, show S.now = p.now from hr.now]
  · rw [show after = _ from hafter, hon hpulse]
    exact Part.withCamera_camera _ _ _

/-! ## The schedule of the ejector (R114) -/

/-- R34: the start of the pulse of `seq` alone by the new pace. -/
def Part.startOf (p : Part) (f : Profile) (pair : Bool × Bool) (infeed : Bool) (seq : Word) : Time :=
  match p.record seq with
  | some r => (p.paced f pair infeed).etaOf (paceOver p.window p.now f.spacing) (r.entryPos + counts f.ejector) -
      BitVec.ofNat 48 f.ejectLead
  | none => 0

/-- R114: the pulse `u` by the new pace: it starts by its oldest member and ends by its newest. -/
def Part.timesOf (p : Part) (f : Profile) (pair : Bool × Bool) (infeed : Bool) (u : Pulse) : PulseTimes :=
  ⟨p.startOf f pair infeed (u.members.headD 0),
    p.startOf f pair infeed (u.members.getLastD 0) + BitVec.ofNat 48 f.ejectWidth⟩

/-- Every member of a pending pulse is in the list, its station ahead. -/
def Part.knows (p : Part) (f : Profile) (pair : Bool × Bool) (infeed : Bool) : Prop :=
  ∀ u ∈ p.rej.schedule, u.members ≠ [] ∧ ∀ seq ∈ u.members, ∃ r, p.record seq = some r ∧
    0 < (r.entryPos + counts f.ejector - (p.paced f pair infeed).cvt.highWater).toInt

theorem Part.ejectStart_paced (h : p.HasPace f pair infeed q) (hf : p.cvt.profile = some f) {seq : Word} {r : Record}
    (hr : p.record seq = some r)
    (hahead : 0 < (r.entryPos + counts f.ejector - (p.paced f pair infeed).cvt.highWater).toInt) :
    q.ejectStart seq = some (p.startOf f pair infeed seq) := by
  have hentry := Part.record_entry h.records seq
  rw [hr] at hentry
  obtain ⟨x, hx, hpos⟩ := Option.map_eq_some_iff.mp hentry
  unfold Part.ejectStart Part.startOf
  simp only [hx, h.profile hf, hr, Profile.stationOf, hpos, Part.paced_project f pair infeed h.cvt, if_pos hahead,
    Option.map_some]

theorem headD_getLastD_mem {l : List Word} (h : l ≠ []) :
    l.head? = some (l.headD 0) ∧ l.headD 0 ∈ l ∧ l.getLast? = some (l.getLastD 0) ∧ l.getLastD 0 ∈ l := by
  cases l with
  | nil => exact absurd rfl h
  | cons a l =>
    have hlast : (a :: l).getLast? = some ((a :: l).getLastD 0) := by simp [List.getLast?_cons]
    exact ⟨rfl, List.mem_cons_self, hlast, List.mem_of_getLast? hlast⟩

theorem Part.repacePulse_known (h : p.HasPace f pair infeed q) (hf : p.cvt.profile = some f) {u : Pulse}
    (hknown : p.knows f pair infeed) (hu : u ∈ p.rej.schedule) :
    q.repacePulse u = { u with times := some (p.timesOf f pair infeed u) } := by
  obtain ⟨hne, hmembers⟩ := hknown u hu
  obtain ⟨hhead, hheadMem, hlast, hlastMem⟩ := headD_getLastD_mem hne
  obtain ⟨a, ha, hahead⟩ := hmembers _ hheadMem
  obtain ⟨b, hb, hbahead⟩ := hmembers _ hlastMem
  unfold Part.repacePulse
  rw [hhead, hlast]
  simp only [Option.bind_some, Part.ejectStart_paced h hf ha hahead, Part.ejectStart_paced h hf hb hbahead,
    Option.map_some, Part.ejectWidth_of (h.profile hf)]
  cases u.times <;> rfl

/-- R114: the schedule with its times asked afresh. -/
def Part.asked (p : Part) (f : Profile) (pair : Bool × Bool) (infeed : Bool) : List Pulse :=
  p.rej.schedule.map fun u => { u with times := some (p.timesOf f pair infeed u) }

theorem Part.walk_known (h : p.HasPace f pair infeed q) (hf : p.cvt.profile = some f) (hknown : p.knows f pair infeed)
    (hq : q.rej = p.rej) : q.walk = (p.asked f pair infeed).foldl Walk.step
      { output := p.rej.output.map (·.ending), joined := [], merges := 0, pulses := [] } := by
  unfold Part.walk Part.asked
  rw [hq, List.map_congr_left fun u hu => Part.repacePulse_known h hf hknown hu]

/-! ## The walk (R114) -/

/-- A pulse of the schedule that starts after the end of the one before it, of the output for the first, stays apart. -/
theorem Walk.step_apart {w : Walk} {u : Pulse} {t : PulseTimes} (hu : u.times = some t)
    (hlast : ∀ v s, w.pulses.getLast? = some v → v.times = some s → 0 < (t.start - s.ending).toInt)
    (hout : ∀ e, w.pulses = [] → w.output = some e → 0 < (t.start - e).toInt) :
    w.step u = { w with pulses := w.pulses ++ [u] } := by
  unfold Walk.step
  rw [hu]
  cases hl : w.pulses.getLast? with
  | none =>
    cases ho : w.output with
    | none => rfl
    | some e => exact if_pos (decide_eq_true (hout e (List.getLast?_eq_none_iff.mp hl) ho))
  | some v =>
    cases hv : v.times with
    | none => simp only [hv]
    | some s =>
      simp only [hv]
      exact if_pos (decide_eq_true (hlast v s hl hv))

/-- The pulse with these times. -/
def Pulse.timed (ts : Pulse → PulseTimes) (u : Pulse) : Pulse := { u with times := some (ts u) }

/-- R114: a schedule whose pulses all stay apart. -/
theorem walk_apart (ts : Pulse → PulseTimes) (o : Option Time) (rest : List Pulse) : ∀ done : List Pulse,
    (∀ b u v a, done ++ rest = b ++ u :: v :: a → 0 < ((ts v).start - (ts u).ending).toInt) →
    (∀ u a e, done ++ rest = u :: a → o = some e → 0 < ((ts u).start - e).toInt) →
    (rest.map (Pulse.timed ts)).foldl Walk.step ⟨o, [], 0, done.map (Pulse.timed ts)⟩ =
      ⟨o, [], 0, (done ++ rest).map (Pulse.timed ts)⟩ := by
  induction rest with
  | nil => simp
  | cons u rest ih =>
    intro done hchain hout
    have hstep : Walk.step ⟨o, [], 0, done.map (Pulse.timed ts)⟩ (Pulse.timed ts u) =
        ⟨o, [], 0, (done ++ [u]).map (Pulse.timed ts)⟩ := by
      rw [Walk.step_apart (t := ts u) rfl]
      · simp
      · intro v s hv hs
        obtain ⟨x, hx, rfl⟩ := Option.map_eq_some_iff.mp (List.getLast?_map.symm.trans hv)
        obtain ⟨before, rfl⟩ := List.getLast?_eq_some_iff.mp hx
        obtain rfl : ts x = s := Option.some.inj hs
        exact hchain before x u rest (by simp)
      · intro e hempty ho
        obtain rfl := List.map_eq_nil_iff.mp hempty
        exact hout u rest e rfl ho
    rw [List.map_cons, List.foldl_cons, hstep, ih (done ++ [u]) (by simpa using hchain) (by simpa using hout)]
    simp

theorem Time.earlier_eq (a b : Time) : Time.earlier a b = earliest a b := by
  unfold Time.earlier earliest Time.before
  simp

/-- A pulse that starts at or before the end of the one before it joins that one. -/
theorem Walk.step_joins {w : Walk} {u v : Pulse} {t s : PulseTimes} (hu : u.times = some t)
    (hlast : w.pulses.getLast? = some v) (hv : v.times = some s) (hjoins : ¬ 0 < (t.start - s.ending).toInt) :
    w.step u = { w with
      merges := w.merges + 1
      pulses := w.pulses.dropLast ++
        [⟨v.members ++ u.members, some ⟨earliest s.start t.start, latest s.ending t.ending⟩⟩] } := by
  unfold Walk.step
  simp only [hu, hlast, hv]
  rw [if_neg (by simpa [Time.before] using hjoins), Time.later_eq, Time.earlier_eq]

/-- The first pulse joins the output where it starts at or before its end. -/
theorem Walk.step_output {w : Walk} {u : Pulse} {t : PulseTimes} {e : Time} (hu : u.times = some t)
    (hnone : w.pulses = []) (ho : w.output = some e) (hjoins : ¬ 0 < (t.start - e).toInt) :
    w.step u = { w with
      merges := w.merges + 1, joined := w.joined ++ u.members, output := some (latest e t.ending) } := by
  unfold Walk.step
  simp only [hu, hnone, List.getLast?_nil, ho]
  rw [if_neg (by simpa [Time.before] using hjoins), Time.later_eq]

/-! ## What a new pace leaves of the ejector -/

theorem Pulse.startReached_timed {u : Pulse} {t : PulseTimes} (now : Time) (hu : u.times = some t) :
    u.startReached now = decide (0 ≤ (now - t.start).toInt) := by
  unfold Pulse.startReached
  rw [hu]
  rfl

/-- Nothing joins the output and no start is reached. -/
theorem Part.ejectorNewPace_waits {w : Walk} (hw : q.walk = w) (hjoined : w.joined = [])
    (hstarts : ∀ u ∈ w.pulses, u.startReached q.now = false) :
    q.ejectorNewPace = (q.modRej fun e => e.walked w).rewrite .rej := by
  have hsame : q.rewalked = q.modRej fun e => e.walked w := by
    unfold Part.rewalked
    rw [hw, hjoined]
    rfl
  have hnone : (w.pulses.filter fun u => u.startReached q.rewalked.now) = [] := by
    rw [hsame]
    exact List.filter_eq_nil_iff.mpr fun u hu => Bool.eq_false_iff.mp (hstarts u hu)
  rw [Part.ejectorNewPace_eq, hw, hnone, hsame]
  rfl

section
variable (h : p.HasPace f pair infeed q) (hf : p.cvt.profile = some f) (hknown : p.knows f pair infeed)
  (hq : q.rej = p.rej)
include h hf hknown hq

/-- R114: every pulse stays apart, and waits. -/
theorem Part.ejectorNewPace_apart (hm : p.mergesFit)
    (hwaits : ∀ u ∈ p.rej.schedule, ¬ 0 ≤ (p.now - (p.timesOf f pair infeed u).start).toInt)
    (hchain : ∀ b u v a, p.rej.schedule = b ++ u :: v :: a →
      0 < ((p.timesOf f pair infeed v).start - (p.timesOf f pair infeed u).ending).toInt)
    (hout : ∀ u a o, p.rej.schedule = u :: a → p.rej.output = some o →
      0 < ((p.timesOf f pair infeed u).start - o.ending).toInt) :
    q.ejectorNewPace = (q.modRej fun _ => { p.rej with schedule := p.asked f pair infeed }).rewrite .rej := by
  have hw : q.walk = ⟨p.rej.output.map (·.ending), [], 0, p.asked f pair infeed⟩ :=
    (Part.walk_known h hf hknown hq).trans (walk_apart (p.timesOf f pair infeed) _ p.rej.schedule [] hchain
      fun u a e hl he => by
        obtain ⟨o, ho, rfl⟩ := Option.map_eq_some_iff.mp he
        exact hout u a o hl ho)
  have hwalked : q.rej.walked ⟨p.rej.output.map (·.ending), [], 0, p.asked f pair infeed⟩ =
      { p.rej with schedule := p.asked f pair infeed } := by
    rw [hq]
    exact Rej.walked_apart rfl rfl hm
  rw [Part.ejectorNewPace_waits hw rfl fun u hu => ?_]
  · simp only [Part.modRej, hwalked]
  · obtain ⟨v, hv, rfl⟩ := List.mem_map.mp hu
    rw [Pulse.startReached_timed q.now rfl, h.now]
    exact decide_eq_false (hwaits v hv)

/-- R114: the later of two pulses joins the earlier. -/
theorem Part.ejectorNewPace_merges {u v : Pulse} (hs : p.rej.schedule = [u, v]) (ho : p.rej.output = none)
    (hjoins : ¬ 0 < ((p.timesOf f pair infeed v).start - (p.timesOf f pair infeed u).ending).toInt)
    (hu : ¬ 0 ≤ (p.now - (p.timesOf f pair infeed u).start).toInt)
    (hv : ¬ 0 ≤ (p.now - (p.timesOf f pair infeed v).start).toInt) :
    q.ejectorNewPace.rej = { p.rej with
      schedule := [⟨u.members ++ v.members, some
        ⟨earliest (p.timesOf f pair infeed u).start (p.timesOf f pair infeed v).start,
          latest (p.timesOf f pair infeed u).ending (p.timesOf f pair infeed v).ending⟩⟩]
      counters := { p.rej.counters with merges := min 4294967295 (p.rej.counters.merges + 1) } } := by
  have hstep : Walk.step ⟨none, [], 0, []⟩ (u.timed (p.timesOf f pair infeed)) =
      ⟨none, [], 0, [u.timed (p.timesOf f pair infeed)]⟩ := Walk.step_apart rfl (by simp) (by simp)
  have hmerged := Walk.step_joins (w := ⟨none, [], 0, [u.timed (p.timesOf f pair infeed)]⟩)
    (u := v.timed (p.timesOf f pair infeed)) rfl rfl rfl hjoins
  have hw : q.walk = ⟨none, [], 1, [⟨u.members ++ v.members, some
      ⟨earliest (p.timesOf f pair infeed u).start (p.timesOf f pair infeed v).start,
        latest (p.timesOf f pair infeed u).ending (p.timesOf f pair infeed v).ending⟩⟩]⟩ := by
    rw [Part.walk_known h hf hknown hq, Part.asked, hs, ho]
    exact (congrArg (Walk.step · (v.timed (p.timesOf f pair infeed))) hstep).trans hmerged
  rw [Part.ejectorNewPace_waits hw rfl]
  · simp only [Part.rewrite_frame, Part.modRej_fields, hq, Rej.walked, ho, add32]
  · intro x hx
    obtain rfl := List.mem_singleton.mp hx
    rw [Pulse.startReached_timed q.now rfl, h.now]
    refine decide_eq_false ?_
    unfold earliest
    dsimp only
    split
    · exact hv
    · exact hu

/-- R114, R117: the only pulse joins the output, and its members are fired. -/
theorem Part.ejectorNewPace_joins {u : Pulse} {o : OutputPulse} (hs : p.rej.schedule = [u]) (ho : p.rej.output = some o)
    (hjoins : ¬ 0 < ((p.timesOf f pair infeed u).start - o.ending).toInt) (hc : p.confirming = true)
    (hl : p.rej.confirm.length + u.members.length ≤ 8) :
    q.ejectorNewPace.rej = { p.rej with
      schedule := [], output := some { o with ending := latest o.ending (p.timesOf f pair infeed u).ending }
      confirm := p.rej.confirm ++ u.members
      counters := { p.rej.counters with merges := min 4294967295 (p.rej.counters.merges + 1) } } ∧
    q.ejectorNewPace.trl = q.trl.fired u.members := by
  have hw : q.walk = ⟨some (latest o.ending (p.timesOf f pair infeed u).ending), u.members, 1, []⟩ := by
    rw [Part.walk_known h hf hknown hq, Part.asked, hs, ho]
    exact Walk.step_output (w := ⟨some o.ending, [], 0, []⟩) (u := u.timed (p.timesOf f pair infeed)) rfl rfl rfl hjoins
  have hconfirming := h.confirming hf hc
  let W := q.modRej fun e => e.walked ⟨some (latest o.ending (p.timesOf f pair infeed u).ending), u.members, 1, []⟩
  have hW : W.rej.confirm = p.rej.confirm := (congrArg Rej.confirm hq :)
  have hfired : q.rewalked = W.fireMembers u.members := by
    unfold Part.rewalked
    rw [hw]
  have hnewPace : q.ejectorNewPace = q.rewalked.rewrite .rej := by
    rw [Part.ejectorNewPace_eq, hw]
    rfl
  rw [hnewPace, hfired, Part.fireMembers_confirming u.members W hconfirming (by rw [hW]; exact hl)]
  refine ⟨?_, rfl⟩
  simp only [Part.rewrite_frame, W, Part.modRej_fields, hq, Rej.walked, ho, add32]

/-- R114, R116: the start of the only pulse is reached. -/
theorem Part.ejectorNewPace_starts {u : Pulse} (hm : p.mergesFit) (hs : p.rej.schedule = [u]) (ho : p.rej.output = none)
    (hreached : 0 ≤ (p.now - (p.timesOf f pair infeed u).start).toInt) (hc : p.confirming = true)
    (hl : p.rej.confirm.length + u.members.length ≤ 8) :
    q.ejectorNewPace.rej =
      { ({ p.rej with schedule := [] } : Rej).driven (p.timesOf f pair infeed u).ending f.ejectActiveLow with
        confirm := p.rej.confirm ++ u.members } ∧
    q.ejectorNewPace.trl = q.trl.fired u.members := by
  let u' := u.timed (p.timesOf f pair infeed)
  have hw : q.walk = ⟨none, [], 0, [u']⟩ := by
    rw [Part.walk_known h hf hknown hq, Part.asked, hs, ho]
    exact Walk.step_apart (w := ⟨none, [], 0, []⟩) (u := u') rfl (by simp) (by simp)
  have hconfirming := h.confirming hf hc
  let W := q.modRej fun e => e.walked ⟨none, [], 0, [u']⟩
  have hfired : q.rewalked = W := by
    unfold Part.rewalked
    rw [hw]
    rfl
  have hstarts : u'.startReached W.now = true := by
    rw [Pulse.startReached_timed W.now rfl, show W.now = p.now from h.now]
    exact decide_eq_true hreached
  have hnewPace : q.ejectorNewPace = (W.startPulse u' (p.timesOf f pair infeed u).ending).rewrite .rej := by
    have hdue : [u'].filter (fun x => x.startReached W.now) = [u'] :=
      List.filter_eq_self.mpr fun x hx => by rw [List.mem_singleton.mp hx]; exact hstarts
    rw [Part.ejectorNewPace_eq, hw, hfired]
    simp only [hdue]
    rfl
  have hrest : W.rej = { p.rej with schedule := [u'] } := by
    have hwalked := Rej.walked_apart (e := p.rej) (w := ⟨none, [], 0, [u']⟩) (by rw [ho]; rfl) rfl hm
    rw [← hwalked, ← hq]
    rfl
  let D : Part := { W with
    rej := ({ p.rej with schedule := [] } : Rej).driven (p.timesOf f pair infeed u).ending f.ejectActiveLow }
  have hdriving : W.driving u' (p.timesOf f pair infeed u).ending f.ejectActiveLow = D := by
    unfold Part.driving
    rw [hrest]
    simp [D]
  have hD : D.rej.confirm = p.rej.confirm := Rej.driven_confirm _ _ _
  rw [hnewPace, Part.startPulse_eq (p := W) u' _ (h.profile hf), hdriving, show u'.members = u.members from rfl,
    Part.fireMembers_confirming (p := D) u.members hconfirming (by rw [hD]; exact hl), hD]
  exact ⟨rfl, rfl⟩

end

/-! ## A mark that gives a pace -/

/-- The pace has been told, and nobody has acted on it. -/
theorem Part.paceTold_hasPace : p.HasPace f pair infeed (p.paceTold f pair infeed) ∧
    (p.paceTold f pair infeed).ctu = p.ctu ∧ (p.paceTold f pair infeed).rej = p.rej := by
  obtain ⟨hcvt, hfields⟩ := Part.paceTold_fields (p := p) f pair infeed
  refine ⟨⟨hcvt, ?_, ?_⟩, ?_, ?_⟩ <;> rw [hfields] <;> rfl

end

/-- R36, R114: every fire and every pulse has its time by the new pace. -/
def Part.repaced (p : Part) (f : Profile) (pair : Bool × Bool) (infeed : Bool) : Part := { p.paceTold f pair infeed with
  ctu := ⟨Vector.ofFn fun m : Fin 6 => p.retimed f pair infeed m p.ctu.cameras[m]⟩
  rej := { p.rej with schedule := p.asked f pair infeed } }

theorem Part.handPace_quiet {p : Part} {f : Profile} {pair : Bool × Bool} {infeed : Bool} (hf : p.cvt.profile = some f)
    (hknown : p.knows f pair infeed) (hm : p.mergesFit) (hquiet : ∀ m, p.quietAt f pair infeed m)
    (hwaits : ∀ u ∈ p.rej.schedule, ¬ 0 ≤ (p.now - (p.timesOf f pair infeed u).start).toInt)
    (hchain : ∀ b u v a, p.rej.schedule = b ++ u :: v :: a →
      0 < ((p.timesOf f pair infeed v).start - (p.timesOf f pair infeed u).ending).toInt)
    (hout : ∀ u a o, p.rej.schedule = u :: a → p.rej.output = some o →
      0 < ((p.timesOf f pair infeed u).start - o.ending).toInt) :
    (p.paceTold f pair infeed).handPace = (p.repaced f pair infeed).rewrite .rej := by
  obtain ⟨htold, hctu, hrej⟩ := Part.paceTold_hasPace (p := p) (f := f) (pair := pair) (infeed := infeed)
  obtain ⟨hcameras, hrest⟩ := Part.camerasNewPace_rest htold
  have hcrej : (p.paceTold f pair infeed).camerasNewPace.rej = p.rej := by rw [hrest]; exact hrej
  have hapart := Part.ejectorNewPace_apart hcameras hf hknown hcrej hm hwaits hchain hout
  rw [Part.camerasNewPace_quiet htold hf hctu hquiet] at hapart
  unfold Part.handPace
  rw [Part.camerasNewPace_quiet htold hf hctu hquiet, hapart]
  rfl

theorem Part.repaced_leaves {p : Part} {f : Profile} {pair : Bool × Bool} {infeed : Bool} :
    let q := (p.repaced f pair infeed).rewrite .rej
    q.ctu = { p.ctu with cameras := Vector.ofFn fun m : Fin 6 => p.retimed f pair infeed m p.ctu.cameras[m] } ∧
    q.rej = { p.rej with schedule := p.asked f pair infeed } ∧
    q = { p.paced f pair infeed with ctu := q.ctu, rej := q.rej, rpu := q.rpu, mem := q.mem } ∧
    p.tells q (if p.cvt.paceState = .timed then [] else [(.paceTimed, 0)]) ∧ q.mirrored .cvt ∧ q.mirrored .rej ∧
    Memory.storesOnly p.mem q.mem [.bulletin 1, .mirror .cvt, .mirror .rej] := by
  intro q
  have hspeaks := Part.paceTold_speaks (p := p) f pair infeed
  have htold : p.Speaks q _ _ := (hspeaks.same (r := p.repaced f pair infeed) rfl rfl rfl).rewrite .rej
  have hshown : (p.paceTold f pair infeed).mirrored .cvt := Part.rewrite_mirrored _ _
  have hfault : (p.paceTold f pair infeed).rpu.fault = p.rpu.fault := by
    unfold Part.paceTold
    split <;> simp [Part.paced, Part.counted]
  refine ⟨rfl, rfl, ?_, htold.tells hfault, Part.mirrored_rewritten _ _ _ hshown, Part.rewrite_mirrored _ _,
    htold.storesOnly (by simp)⟩
  have hfields := (Part.paceTold_fields (p := p) f pair infeed).2
  change (p.repaced f pair infeed).rewrite .rej = _
  unfold Part.repaced
  rw [hfields]
  rfl

theorem Camera.output_iff {k : Camera} {l : List Fire} {o : Option OutputPulse} {tag : BitVec 5} {n : Nat} :
    k.output = (l, o, tag, n) ↔ k.schedule = l ∧ k.pulse = o ∧ k.lastTag = tag ∧ k.counters.triggers = n := by
  simp [Camera.output]

/-- Settles O14. -/
theorem newPaceReachesFires : Obligations.NewPaceReachesFires := by
  unfold Obligations.NewPaceReachesFires
  intro p w f was pair infeed choices h hlen hm marks span pace hs hpace hlimit count d c fires time start timesOf joins
    reached quiet known merged
  have hf : p.cvt.profile = some f := h.2.2.2.1
  have hq := ((Part.advances_mark choices h).trans (Part.mark_judges f pair infeed hlen hs)).trans
    (Part.judgePace_paced f pair infeed ⟨hpace, hlimit⟩)
  obtain ⟨htold, hctu, hrej⟩ := Part.paceTold_hasPace (p := p) (f := f) (pair := pair) (infeed := infeed)
  obtain ⟨hcameras, hrest⟩ := Part.camerasNewPace_rest htold
  have hcrej : (p.paceTold f pair infeed).camerasNewPace.rej = p.rej := by rw [hrest]; exact hrej
  have hquiet (h : quiet) (m : Fin 6) : p.quietAt f pair infeed m := fun hs x hx t ht => h m x t hs hx ht
  have hlist (h : quiet) : (p.paceTold f pair infeed).camerasNewPace.trl = c.trl := by
    rw [Part.camerasNewPace_quiet htold hf hctu (hquiet h), (Part.paceTold_fields f pair infeed).2]
    rfl
  refine ⟨fun hquiet' _ hknown hwaits hchain hout => ?_, fun m x t hs hk ht hreached => ?_,
    fun u v hknown hschedule ho hjoins hu hv => ?_, fun u o hknown hschedule ho hjoins hc hl => ?_,
    fun u hknown hschedule ho hreached hc hl => ?_⟩
  · have hrepaced := Part.handPace_quiet hf hknown hm (hquiet hquiet') hwaits
      (fun b u v a hl => Classical.not_not.mp (hchain b u v a hl)) fun u a o hl ho => Classical.not_not.mp
        (hout u a o hl ho)
    exact Part.encoderCount_leads w (hq.trans hrepaced) Part.repaced_leaves
  · obtain ⟨hoff, hon⟩ := Part.camerasNewPace_reached htold hf hctu hs hk ht hreached
    have hsame : (p.paceTold f pair infeed).handPace.ctu = (p.paceTold f pair infeed).camerasNewPace.ctu := by
      simp [Part.handPace]
    refine Part.encoderCount_leads w hq ?_
    rw [hsame]
    generalize (p.paceTold f pair infeed).camerasNewPace.ctu = b at hoff hon
    refine ⟨fun hpulse => ?_, fun hpulse => ?_⟩
    · obtain ⟨hschedule, hpulse', htag, htriggers⟩ := Camera.output_iff.mp (hoff hpulse)
      exact ⟨hschedule, htag, hpulse', htriggers⟩
    · rw [← hon hpulse]
      exact (Ctu.put_self _ _).symm
  · exact Part.encoderCount_leads w hq (Part.ejectorNewPace_merges hcameras hf hknown hcrej hschedule ho hjoins hu hv)
  · obtain ⟨hleft, htrl⟩ := Part.ejectorNewPace_joins hcameras hf hknown hcrej hschedule ho hjoins hc hl
    exact Part.encoderCount_leads w hq ⟨hleft, fun h => htrl.trans (by rw [hlist h])⟩
  · obtain ⟨hleft, htrl⟩ := Part.ejectorNewPace_starts hcameras hf hknown hcrej hm hschedule ho hreached hc hl
    exact Part.encoderCount_leads w hq ⟨hleft, fun h => htrl.trans (by rw [hlist h])⟩

end Sys2Proof.Machine
end

section
/-! PROOFS. CAMERA_SERVICE and CAMERA_RESTORE (R93, R94, R106), and fires taken afresh (R35). -/

namespace Sys2Proof.Machine

/-! ## A flag and the state it gives (R92, R93) -/

section
variable {p : Part} {c : Fin 6} {g : Camera → Camera}

theorem Part.flagged_state (p : Part) (c : Fin 6) (g : Camera → Camera) : (p.modCamera c g).cameraState c =
    if p.cameraPresent c = false then .off
    else if (g p.ctu.cameras[c]).hostService || (g p.ctu.cameras[c]).zoneService then .service
    else if (g p.ctu.cameras[c]).degraded then .degraded else .active := by
  have hcamera : (p.modCamera c g).ctu.cameras[c] = g p.ctu.cameras[c] := modAt_self _ _ _
  unfold Part.cameraState
  rw [hcamera]
  rfl

theorem Part.cameraState_eq (p : Part) (c : Fin 6) : p.cameraState c =
    if p.cameraPresent c = false then .off
    else if p.ctu.cameras[c].hostService || p.ctu.cameras[c].zoneService then .service
    else if p.ctu.cameras[c].degraded then .degraded else .active := rfl

/-- A camera that is not OFF takes the state that its flags give. -/
theorem Part.flagged_fitted (h : p.cameraState c ≠ .off) : (p.modCamera c g).cameraState c =
    if (g p.ctu.cameras[c]).hostService || (g p.ctu.cameras[c]).zoneService then .service
    else if (g p.ctu.cameras[c]).degraded then .degraded else .active := by
  rw [Part.flagged_state, if_neg fun hout => h (if_pos hout)]

/-- R93: the state stands. -/
theorem Part.setCameraFlags_same (h : (p.modCamera c g).cameraState c = p.cameraState c) :
    p.setCameraFlags c g = (p.modCamera c g).rewrite .ctu := by
  unfold Part.setCameraFlags Part.cameraChanged
  dsimp only
  rw [if_pos h.symm]

/-- R93: every fire waits by its position. -/
def Part.untimed (p : Part) (c : Fin 6) : Part :=
  p.modCamera c fun k => { k with schedule := k.schedule.map fun x => { x with time := none, due := false } }

/-- R93: entering SERVICE. -/
theorem Part.setCameraFlags_in (hbefore : p.cameraState c ≠ .service)
    (hafter : (p.modCamera c g).cameraState c = .service) :
    p.setCameraFlags c g = ((((if p.cameraState c = .active then (p.modCamera c g).emptyAwaiting c
      else p.modCamera c g).untimed c).raise .serviceIn (BitVec.ofNat 8 c.val)).rewrite .ctu).rewrite .ctu := by
  unfold Part.setCameraFlags Part.cameraChanged
  dsimp only
  rw [if_neg (by rw [hafter]; exact hbefore), if_pos hafter]
  rfl

/-- R93: leaving SERVICE, before the fires are taken afresh. -/
def Part.outOfService (p : Part) (c : Fin 6) (g : Camera → Camera) : Part :=
  ((p.modCamera c g).raise .serviceOut (BitVec.ofNat 8 c.val)).rewrite .ctu

theorem Part.setCameraFlags_out (hbefore : p.cameraState c = .service)
    (hafter : (p.modCamera c g).cameraState c ≠ .service) :
    p.setCameraFlags c g = (((p.outOfService c g).ctu.cameras[c].schedule.map (·.seq)).foldl
      (fun p seq => p.takeFire c seq)
      (p.outOfService c g)).rewrite .ctu := by
  unfold Part.setCameraFlags Part.cameraChanged
  dsimp only
  rw [if_neg (by rw [hbefore]; exact hafter.symm), if_neg hafter, if_pos hbefore, if_neg (by rw [hbefore]; simp)]
  rfl

/-- R106: a restored camera is ACTIVE. -/
theorem Part.setCameraFlags_restored (hbefore : p.cameraState c = .degraded)
    (hafter : (p.modCamera c g).cameraState c = .active) : p.setCameraFlags c g =
      (((p.modCamera c g).raise .restored (BitVec.ofNat 8 c.val)).rewrite .ctu).rewrite .ctu := by
  unfold Part.setCameraFlags Part.cameraChanged
  dsimp only
  rw [hbefore, hafter]
  rfl

end

/-! ## A fire taken afresh (R35) -/

/-- R34, R96: the scheduled time that the fire of `seq` would have. -/
def Part.takenTime (p : Part) (c : Fin 6) (seq : Word) : Option Time :=
  (p.cameraTarget c seq).bind fun y => (p.project y.1).map (· - BitVec.ofNat 48 y.2.lead)

section
variable {p q : Part} {c : Fin 6} {seq : Word} {y : Position × CameraSettings}

theorem Part.takeFire_reached (hy : p.cameraTarget c seq = some y) (h : p.isReached y.1 = true) :
    p.takeFire c seq = p.fallDue c seq := by
  unfold Part.takeFire
  simp only [hy, h, if_true]

theorem Part.takeFire_untimed (hy : p.cameraTarget c seq = some y) (h : p.isReached y.1 = false)
    (ht : p.takenTime c seq = none) : p.takeFire c seq = p.setFireTime c seq none := by
  have hproject : p.project y.1 = none := by simpa [Part.takenTime, hy] using ht
  unfold Part.takeFire
  simp only [hy, h, hproject]
  rfl

theorem Part.takeFire_timed {t : Time} (hy : p.cameraTarget c seq = some y) (h : p.isReached y.1 = false)
    (ht : p.takenTime c seq = some t) : p.takeFire c seq =
      if 0 ≤ (p.now - t).toInt then (p.setFireTime c seq (some t)).fallDue c seq else p.setFireTime c seq (some t) := by
  unfold Part.takenTime at ht
  rw [hy] at ht
  obtain ⟨eta, heta, rfl⟩ := Option.map_eq_some_iff.mp ht
  have hnow : (p.setFireTime c seq (some (eta - BitVec.ofNat 48 y.2.lead))).now = p.now := rfl
  unfold Part.takeFire
  simp only [hy, h, heta, Time.reached, hnow, decide_eq_true_eq]
  rfl

/-- R35: neither the target nor the time is reached. -/
theorem Part.takeFire_waits (hy : p.cameraTarget c seq = some y) (h : p.isReached y.1 = false)
    (hwaits : ∀ t, p.takenTime c seq = some t → (p.now - t).toInt < 0) :
    p.takeFire c seq = p.setFireTime c seq (p.takenTime c seq) := by
  cases ht : p.takenTime c seq with
  | none => exact Part.takeFire_untimed hy h ht
  | some t => rw [Part.takeFire_timed hy h ht, if_neg (Int.not_le.mpr (hwaits t ht))]

/-- What a fire's target and time rest on. -/
structure Part.SameTargets (p q : Part) : Prop where
  mtu : q.mtu = p.mtu
  cvt : q.cvt = p.cvt
  records : q.trl.records.map (fun x => (x.seq, x.place)) = p.trl.records.map fun x => (x.seq, x.place)

theorem Part.cameraTarget_eq (p : Part) (c : Fin 6) (seq : Word) : p.cameraTarget c seq =
    ((p.record seq).map Record.entryPos).bind fun x => (p.cameraSettings c).map fun k => (x + counts k.station, k) := by
  unfold Part.cameraTarget
  cases p.record seq with
  | none => rfl
  | some r => cases p.cameraSettings c <;> rfl

theorem Part.SameTargets.target (h : p.SameTargets q) (c : Fin 6) (seq : Word) :
    q.cameraTarget c seq = p.cameraTarget c seq := by
  rw [Part.cameraTarget_eq, Part.cameraTarget_eq, Part.record_entry h.records,
    Part.cameraSettings_congr (p := p) c (by rw [h.cvt])]

theorem Part.SameTargets.isReached (h : p.SameTargets q) (x : Position) : q.isReached x = p.isReached x := by
  unfold Part.isReached
  rw [h.cvt]

theorem Part.SameTargets.project (h : p.SameTargets q) (x : Position) : q.project x = p.project x := by
  unfold Part.project
  rw [h.cvt]

theorem Part.SameTargets.takenTime (h : p.SameTargets q) (c : Fin 6) (seq : Word) :
    q.takenTime c seq = p.takenTime c seq := by
  unfold Part.takenTime
  rw [h.target]
  simp only [h.project]

theorem Part.SameTargets.now (h : p.SameTargets q) : q.now = p.now := congrArg Mtu.time h.mtu

/-- R35: fires taken one after another, none of them falling due. -/
theorem Part.takeFires_wait {l : List Word} (h : p.SameTargets q)
    (hl : ∀ seq ∈ l, ∃ y, p.cameraTarget c seq = some y ∧ p.isReached y.1 = false ∧
      ∀ t, p.takenTime c seq = some t → (p.now - t).toInt < 0) :
    l.foldl (fun q seq => q.takeFire c seq) q = q.modCamera c fun k => { k with
      schedule := k.schedule.map fun x => if x.seq ∈ l then { x with time := p.takenTime c x.seq } else x } := by
  induction l generalizing q with
  | nil => exact (Part.modCamera_same (by simp)).symm
  | cons a l ih =>
    obtain ⟨y, hy, hreached, hwaits⟩ := hl a List.mem_cons_self
    have hset : q.takeFire c a = q.setFireTime c a (p.takenTime c a) := by
      rw [← h.takenTime]
      exact Part.takeFire_waits ((h.target c a).trans hy) ((h.isReached _).trans hreached) fun t ht => by
        rw [h.now]
        exact hwaits t ((h.takenTime c a).symm.trans ht)
    have htwice (x : Fire) : (if (if x.seq = a then { x with time := p.takenTime c a } else x).seq ∈ l then
        { (if x.seq = a then { x with time := p.takenTime c a } else x) with
          time := p.takenTime c (if x.seq = a then { x with time := p.takenTime c a } else x).seq }
        else if x.seq = a then { x with time := p.takenTime c a } else x) =
        if x.seq ∈ a :: l then { x with time := p.takenTime c x.seq } else x := by
      by_cases hx : x.seq = a
      · subst hx
        simp
      · simp [hx]
    have hnext : p.SameTargets (q.setFireTime c a (p.takenTime c a)) := ⟨h.mtu, h.cvt, h.records⟩
    rw [List.foldl_cons, hset, ih hnext fun seq hs => hl seq (List.mem_cons_of_mem _ hs)]
    unfold Part.setFireTime
    rw [Part.modCamera_twice]
    simp only [List.map_map, Function.comp_def, htwice]

theorem Part.cameraTarget_settings (hy : p.cameraTarget c seq = some y) : p.cameraSettings c = some y.2 := by
  unfold Part.cameraTarget at hy
  split at hy
  next _ s _ hs =>
    obtain rfl := Option.some.inj hy
    exact hs
  next => simp at hy

/-- R35, R97: the only fire of a camera, its target or its time reached: it happens, or waits behind a pulse. -/
theorem Part.takeFire_single {x : Fire} (hk : p.ctu.cameras[c].schedule = [x]) (hy : p.cameraTarget c x.seq = some y) :
    let k := p.ctu.cameras[c]
    let after := (p.takeFire c x.seq).ctu.cameras[c]
    (p.isReached y.1 = true ∨ ∃ t, p.takenTime c x.seq = some t ∧ 0 ≤ (p.now - t).toInt) →
    (k.pulse = none → after.output = ([], some ⟨p.now + BitVec.ofNat 48 y.2.width, !y.2.activeLow⟩, x.seq.setWidth 5,
      up k.counters.triggers)) ∧
    (k.pulse ≠ none → after = { k with
      schedule := [⟨x.seq, if p.isReached y.1 = true then x.time else p.takenTime c x.seq, true⟩] }) := by
  intro k after hdue
  have hsettings := Part.cameraTarget_settings hy
  cases hreached : p.isReached y.1 with
  | true =>
    obtain ⟨hoff, hon⟩ := Part.fallDue_single hsettings hk
    rw [← Part.takeFire_reached hy hreached] at hoff hon
    refine ⟨hoff, fun hpulse => ?_⟩
    rw [show after = _ from congrArg (fun q : Part => q.ctu.cameras[c]) (hon hpulse)]
    exact Part.withCamera_camera _ _ _
  | false =>
    rw [hreached] at hdue
    obtain ⟨t, ht, hlate⟩ := hdue.resolve_left (by simp)
    have hset := Part.setFireTime_single (p := p) (some t) hk
    obtain ⟨hoff, hon⟩ := Part.fallDue_single (p := p.setFireTime c x.seq (some t)) (x := { x with time := some t })
      hsettings (by rw [hset])
    have htake : p.takeFire c x.seq = (p.setFireTime c x.seq (some t)).fallDue c x.seq :=
      (Part.takeFire_timed hy hreached ht).trans (if_pos hlate)
    rw [hset] at hoff hon
    rw [← htake] at hoff hon
    refine ⟨hoff, fun hpulse => ?_⟩
    rw [show after = _ from congrArg (fun q : Part => q.ctu.cameras[c]) (hon hpulse), ht]
    exact Part.withCamera_camera _ _ _

end

/-! ## CAMERA_SERVICE (R94) -/

theorem Part.cameraServiceOrder_range (p : Part) (ref : OrderRef) (camera out : Byte)
    (h : 6 ≤ camera.toNat ∨ 2 ≤ out.toNat) : p.cameraServiceOrder ref camera out = p.complete ref .param 0 := by
  unfold Part.cameraServiceOrder
  cases hc : six camera with
  | none => rfl
  | some c =>
    refine if_pos ?_
    have hout : 2 ≤ out.toNat := h.resolve_left fun h6 => by simp [six_none camera h6] at hc
    constructor <;> (rintro rfl; simp at hout)

section
variable {p : Part} {ref : OrderRef} {camera out : Byte} {c : Fin 6} (hc : camera.toNat = c.val) (hout : out.toNat < 2)
include hc hout

theorem Part.cameraServiceOrder_eq : p.cameraServiceOrder ref camera out =
    if p.cameraState c = .off then p.complete ref .state 0
    else (if p.ctu.cameras[c].hostService = (out.toNat == 1) then p
      else p.setCameraFlags c fun k => { k with hostService := out.toNat == 1 }).complete ref .ok 0 := by
  have hrange : ¬ (out ≠ 0 ∧ out ≠ 1) := fun ⟨h0, h1⟩ => by
    have h0' : out.toNat ≠ 0 := fun h => h0 (BitVec.eq_of_toNat_eq h)
    have h1' : out.toNat ≠ 1 := fun h => h1 (BitVec.eq_of_toNat_eq h)
    omega
  have hon : decide (out = 1) = (out.toNat == 1) := by
    rw [Bool.eq_iff_iff, decide_eq_true_eq, beq_iff_eq]
    exact ⟨fun h => by rw [h]; rfl, fun h => BitVec.eq_of_toNat_eq h⟩
  unfold Part.cameraServiceOrder
  rw [six_of camera c hc]
  simp only [if_neg hrange, hon]

end

/-- Beside the desk, only cameras and what they write of the records changed. -/
theorem Part.Settled.only_cameras {p X q : Part} {n : Fin 48} (hs : X.Settled q n)
    (hX : X = { p with trl := X.trl, ctu := X.ctu, odk := X.odk, rpu := X.rpu, mem := X.mem }) :
    q = { p with trl := q.trl, ctu := q.ctu, odk := q.odk, rpu := q.rpu, mem := q.mem } := by
  refine hs.eq.trans ?_
  rw [hs.ctu, hs.trl, hX]

theorem Part.setCameraFlags_only (p : Part) (n : Fin 48) (c : Fin 6) (g : Camera → Camera) :
    let X := (p.markTaken n).setCameraFlags c g
    X = { p with trl := X.trl, ctu := X.ctu, odk := X.odk, rpu := X.rpu, mem := X.mem } := by
  intro X
  apply Part.eq_of_fields <;> simp [X]

/-- An order that changes a flag of a camera, answered at its take. -/
theorem Part.flag_answered {p : Part} {n : Fin 48} {o : Order} {c : Fin 6} {g : Camera → Camera} (h : p.canTake n o)
    (hperform : (p.markTaken n).perform (p.nextRef n) o =
      ((p.markTaken n).setCameraFlags c g).complete (p.nextRef n) .ok 0) :
    let q := p.takeAs n o
    p.answers q n .ok ∧ ((p.markTaken n).setCameraFlags c g).Settled q n ∧
      q = { p with trl := q.trl, ctu := q.ctu, odk := q.odk, rpu := q.rpu, mem := q.mem } := by
  obtain ⟨hanswers, hs⟩ := Part.answered_at_once h _ .ok 0 hperform (by simp)
  exact ⟨hanswers, hs, hs.only_cameras (p.setCameraFlags_only n c g)⟩

/-- The same, where no record is judged. -/
theorem Part.flag_stands {p : Part} {n : Fin 48} {o : Order} {c : Fin 6} {g : Camera → Camera} (h : p.canTake n o)
    (hperform : (p.markTaken n).perform (p.nextRef n) o =
      ((p.markTaken n).setCameraFlags c g).complete (p.nextRef n) .ok 0) {after : Camera} {l : Tidings} {k : List Area}
    (hctu : ((p.markTaken n).setCameraFlags c g).ctu = p.ctu.put c after)
    (htrl : ((p.markTaken n).setCameraFlags c g).trl = p.trl)
    (hspeaks : p.Speaks ((p.markTaken n).setCameraFlags c g) l k)
    (hk : k ++ [Area.cell n, .mirror .odk] ⊆ [Area.cell n, .bulletin 3, .mirror .ctu, .mirror .odk])
    (hmirror : ((p.markTaken n).setCameraFlags c g).mirrored .ctu) :
    let q := p.takeAs n o
    q.ctu = p.ctu.put c after ∧ q = { p with ctu := q.ctu, odk := q.odk, rpu := q.rpu, mem := q.mem } ∧
    p.answers q n .ok ∧ p.tells q l ∧ q.mirrored .ctu ∧
    Memory.storesOnly p.mem q.mem [.cell n, .bulletin 3, .mirror .ctu, .mirror .odk] := by
  intro q
  obtain ⟨hanswers, hs, hq⟩ := Part.flag_answered h hperform
  have htold := hspeaks.settled hs
  refine ⟨hs.ctu.trans hctu, ?_, hanswers, htold.tells (hs.fault.trans (by simp)), hs.mirrored .ctu (by decide) hmirror,
    htold.storesOnly hk⟩
  rw [hs.trl, htrl] at hq
  exact hq

section
variable {p : Part} {n : Fin 48} {camera out : Byte} {c : Fin 6} (h : p.canTake n (.cameraService camera out))
  (hc : camera.toNat = c.val) (hout : out.toNat < 2) (hoff : p.cameraState c ≠ .off)
include h hc hout hoff

omit h in
theorem Part.cameraService_changes (hne : p.ctu.cameras[c].hostService ≠ (out.toNat == 1)) :
    (p.markTaken n).perform (p.nextRef n) (.cameraService camera out) =
      ((p.markTaken n).setCameraFlags c fun k => { k with hostService := out.toNat == 1 }).complete
        (p.nextRef n) .ok 0 := by
  refine (Part.cameraServiceOrder_eq (p := p.markTaken n) (ref := p.nextRef n) hc hout).trans ?_
  exact (if_neg hoff).trans (congrArg (fun q : Part => q.complete (p.nextRef n) .ok 0) (if_neg hne))

theorem Part.cameraService_already (hsame : p.ctu.cameras[c].hostService = (out.toNat == 1)) :
    p.onlyAnswers (p.takeAs n (.cameraService camera out)) n .ok := by
  refine Part.refused_of h .ok 0 ((Part.cameraServiceOrder_eq (p := p.markTaken n) (ref := p.nextRef n) hc hout).trans
    ?_)
  exact (if_neg hoff).trans (congrArg (fun q : Part => q.complete (p.nextRef n) .ok 0) (if_pos hsame))

end

/-! ## Into SERVICE (R93) -/

theorem Part.Speaks.emptyAwaiting {p q : Part} {l : Tidings} {k : List Area} (h : p.Speaks q l k) (c : Fin 6) :
    p.Speaks (q.emptyAwaiting c) l (k ++ [Area.mirror .ctu]) := by
  obtain ⟨-, -, hbulletins, hrest, hstores⟩ := q.emptyAwaiting_effects c
  have hone : q.Speaks (q.emptyAwaiting c) [] [.mirror .ctu] :=
    ⟨by simp, hrest, hbulletins, fun m j hj hm => hstores m j (hj (by simp)) hm⟩
  simpa using h.trans hone

/-- R93: the camera whose awaiting list is given up, where it was `active`. -/
def Camera.givenUp (k : Camera) (active : Prop) [Decidable active] : Camera :=
  let lost := if active then k.awaiting else []
  { k with
    awaiting := if active then [] else k.awaiting
    counters := { k.counters with
      noVerdict := if lost = [] then k.counters.noVerdict
        else min 4294967295 (k.counters.noVerdict + lost.length) } }

/-- R93: what giving up the awaiting list leaves. -/
theorem Part.givesUp {p B : Part} {k : List Area} (c : Fin 6) (h : p.Speaks B [] k) (active : Prop) [Decidable active] :
    let C := if active then B.emptyAwaiting c else B
    C.ctu = B.ctu.put c (B.ctu.cameras[c].givenUp active) ∧
    C.trl = B.trl.each (fun x =>
      if x.seq ∈ (if active then B.ctu.cameras[c].awaiting else []) then x.judged x.seq c .noVerdict else x) ∧
    p.Speaks C [] (k ++ [Area.mirror .ctu]) := by
  by_cases hactive : active
  · obtain ⟨htrl, hctu, -⟩ := B.emptyAwaiting_effects c
    simp only [Camera.givenUp, if_pos hactive]
    exact ⟨hctu, htrl, h.emptyAwaiting c⟩
  · simp only [Camera.givenUp, if_neg hactive, List.not_mem_nil, if_false, if_true]
    exact ⟨(Ctu.put_self _ _).symm, by simp [Trl.each], h.mono (by simp)⟩

/-- R93: the camera that has entered SERVICE by the host's flag. -/
def Camera.inService (k : Camera) (active : Prop) [Decidable active] : Camera :=
  { k.givenUp active with
    hostService := true, schedule := k.schedule.map fun x => { x with time := none, due := false } }

/-- R93: what entering SERVICE by the host's flag leaves. -/
theorem Part.setCameraFlags_enters {p A : Part} {k : List Area} (c : Fin 6) (h : p.Speaks A [] k)
    (hs : A.cameraState c = .degraded ∨ A.cameraState c = .active) :
    let X := A.setCameraFlags c fun k => { k with hostService := true }
    let lost := if A.cameraState c = .active then A.ctu.cameras[c].awaiting else []
    X.ctu = A.ctu.put c (A.ctu.cameras[c].inService (A.cameraState c = .active)) ∧
    X.trl = A.trl.each (fun x => if x.seq ∈ lost then x.judged x.seq c .noVerdict else x) ∧
    p.Speaks X [(News.serviceIn, BitVec.ofNat 8 c.val)]
      (k ++ [Area.mirror .ctu, .bulletin 3, .mirror .ctu, .mirror .ctu]) ∧
    X.mirrored .ctu := by
  have hoff : A.cameraState c ≠ .off := by rcases hs with hs | hs <;> rw [hs] <;> simp
  have hX := A.setCameraFlags_in (c := c) (g := fun k => { k with hostService := true })
    (by rcases hs with hs | hs <;> rw [hs] <;> simp) ((Part.flagged_fitted hoff).trans (if_pos rfl))
  have hcamera : (A.modCamera c fun k => { k with hostService := true }).ctu.cameras[c] =
      { A.ctu.cameras[c] with hostService := true } := modAt_self _ _ _
  obtain ⟨hctu, htrl, hspeaks⟩ := Part.givesUp c
    (h.same (r := A.modCamera c fun k => { k with hostService := true }) rfl rfl rfl) (A.cameraState c = .active)
  rw [hX]
  generalize (if A.cameraState c = .active then (A.modCamera c fun k => { k with hostService := true }).emptyAwaiting c
    else A.modCamera c fun k => { k with hostService := true }) = C at hctu htrl hspeaks ⊢
  have htold := (((hspeaks.same (r := C.untimed c) rfl rfl rfl).raise .serviceIn (BitVec.ofNat 8 c.val)).rewrite
    .ctu).rewrite .ctu
  rw [hcamera] at hctu htrl
  refine ⟨?_, htrl, htold.mono (by simp [News.bulletin]), Part.rewrite_mirrored _ _⟩
  rw [Part.rewrite_ctu, Part.rewrite_ctu, show ((C.untimed c).raise .serviceIn _).ctu = (C.untimed c).ctu from rfl,
    Part.untimed, Part.modCamera_ctu, hctu, Ctu.put_get, Part.modCamera_ctu, Ctu.put_put, Ctu.put_put]
  rfl
/-- R92: what the flags of a camera that is not OFF give. -/
theorem Part.service_iff {p : Part} {c : Fin 6} (hoff : p.cameraState c ≠ .off) : p.cameraState c = .service ↔
    p.ctu.cameras[c].hostService = true ∨ p.ctu.cameras[c].zoneService = true := by
  rw [Part.cameraState_eq] at hoff ⊢
  split
  next hout => exact absurd (if_pos hout) hoff
  next =>
    rw [← Bool.or_eq_true]
    cases (p.ctu.cameras[c].hostService || p.ctu.cameras[c].zoneService)
    · rw [if_neg (by simp)]
      split <;> simp
    · simp

/-- R93, R94: CAMERA_SERVICE takes the camera into SERVICE. -/
theorem Part.cameraService_enters {p : Part} {n : Fin 48} {camera out : Byte} {c : Fin 6}
    (h : p.canTake n (.cameraService camera out)) (hc : camera.toNat = c.val) (hout : out.toNat = 1)
    (hs : p.cameraState c = .degraded ∨ p.cameraState c = .active) :
    let q := p.takeAs n (.cameraService camera out)
    let lost := if p.cameraState c = .active then p.ctu.cameras[c].awaiting else []
    q.ctu = p.ctu.put c (p.ctu.cameras[c].inService (p.cameraState c = .active)) ∧
    q.trl = p.trl.each (fun x => if x.seq ∈ lost then x.judged x.seq c .noVerdict else x) ∧
    q = { p with trl := q.trl, ctu := q.ctu, odk := q.odk, rpu := q.rpu, mem := q.mem } ∧
    p.answers q n .ok ∧ p.tells q [(News.serviceIn, BitVec.ofNat 8 c.val)] ∧ q.mirrored .ctu ∧
    Memory.storesOnly p.mem q.mem [.cell n, .bulletin 3, .mirror .ctu, .mirror .odk] := by
  intro q lost
  have hoff : p.cameraState c ≠ .off := by rcases hs with hs | hs <;> rw [hs] <;> simp
  have hflag : p.ctu.cameras[c].hostService ≠ true := fun hon => by
    rw [(Part.service_iff hoff).mpr (.inl hon)] at hs
    simp at hs
  obtain ⟨hctu, htrl, hspeaks, hmirror⟩ := Part.setCameraFlags_enters c ((Part.Speaks.refl p).markTaken n) hs
  have hperform := Part.cameraService_changes (n := n) (out := out) hc (by omega) hoff (by simpa [hout] using hflag)
  rw [show (out.toNat == 1) = true by rw [hout]; rfl] at hperform
  obtain ⟨hanswers, hsettled, hq⟩ := Part.flag_answered h hperform
  have htold := hspeaks.settled hsettled
  exact ⟨hsettled.ctu.trans hctu, hsettled.trl.trans htrl, hq, hanswers, htold.tells (hsettled.fault.trans (by simp)),
    hsettled.mirrored .ctu (by decide) hmirror, htold.storesOnly (by simp)⟩

/-- R93: the zone holds the camera in SERVICE, whatever the host's flag. -/
theorem Part.cameraService_held {p : Part} {n : Fin 48} {camera out : Byte} {c : Fin 6}
    (h : p.canTake n (.cameraService camera out)) (hc : camera.toNat = c.val) (hout : out.toNat < 2)
    (hs : p.cameraState c = .service) (hzone : p.ctu.cameras[c].zoneService = true)
    (hne : p.ctu.cameras[c].hostService ≠ (out.toNat == 1)) :
    let q := p.takeAs n (.cameraService camera out)
    (q.ctu = p.ctu.put c { p.ctu.cameras[c] with hostService := out.toNat == 1 } ∧
    q = { p with ctu := q.ctu, odk := q.odk, rpu := q.rpu, mem := q.mem } ∧
    p.answers q n .ok ∧ p.tells q [] ∧ q.mirrored .ctu ∧
    Memory.storesOnly p.mem q.mem [.cell n, .bulletin 3, .mirror .ctu, .mirror .odk]) ∧ q.cameraState c = .service := by
  intro q
  have hoff : p.cameraState c ≠ .off := by rw [hs]; simp
  have hafter : ((p.markTaken n).modCamera c fun k => { k with hostService := out.toNat == 1 }).cameraState c =
      .service :=
    (Part.flagged_fitted (p := p.markTaken n) hoff).trans (if_pos (by simpa using .inr hzone))
  have hX := Part.setCameraFlags_same (hafter.trans hs.symm)
  have hspeaks := (((Part.Speaks.refl p).markTaken n).same
    (r := (p.markTaken n).modCamera c fun k => { k with hostService := out.toNat == 1 }) rfl rfl rfl).rewrite .ctu
  rw [← hX] at hspeaks
  have hstands := Part.flag_stands h (Part.cameraService_changes hc hout hoff hne) (by rw [hX]; rfl)
    (by rw [hX]; rfl) hspeaks (by simp) (by rw [hX]; exact Part.rewrite_mirrored _ _)
  refine ⟨hstands, ?_⟩
  obtain ⟨hctu, hq, -⟩ := hstands
  rw [← hafter]
  exact Part.cameraState_congr c (congrArg (·.cvt.profile) hq) (congrArg (·.cameras[c].hostService) hctu)
    (congrArg (·.cameras[c].zoneService) hctu) (congrArg (·.cameras[c].degraded) hctu)

/-! ## Out of SERVICE (R35, R93) -/

theorem Part.takeFire_works (c : Fin 6) (p : Part) (seq : Word) : p.Works c (p.takeFire c seq) := by
  unfold Part.takeFire
  split
  · exact .refl c p
  · split
    · exact Part.fallDue_works c p seq
    · split
      · exact (Part.Works.refl c p).modCamera _
      next k _ _ _ eta _ =>
        have htimed : p.Works c (p.setFireTime c seq (some (eta - BitVec.ofNat 48 k.lead))) :=
          (Part.Works.refl c p).modCamera _
        dsimp only
        split
        · exact htimed.trans (Part.fallDue_works c _ seq)
        · exact htimed

/-- The host's flag of a camera that it alone holds in SERVICE. -/
theorem Part.service_host {p : Part} {c : Fin 6} (hs : p.cameraState c = .service)
    (hzone : p.ctu.cameras[c].zoneService = false) : p.ctu.cameras[c].hostService = true :=
  ((Part.service_iff (by rw [hs]; simp)).mp hs).resolve_right (by rw [hzone]; simp)

/-- R93: the host's flag is cleared, and every fire is taken afresh. -/
theorem Part.setCameraFlags_leaves {p : Part} {c : Fin 6} (hs : p.cameraState c = .service)
    (hzone : p.ctu.cameras[c].zoneService = false) : p.setCameraFlags c (fun k => { k with hostService := false }) =
      ((p.ctu.cameras[c].schedule.map (·.seq)).foldl (fun p seq => p.takeFire c seq)
        (p.outOfService c fun k => { k with hostService := false })).rewrite .ctu := by
  have hcamera : (p.outOfService c fun k => { k with hostService := false }).ctu.cameras[c] =
    { p.ctu.cameras[c] with hostService := false } := modAt_self _ _ _
  rw [Part.setCameraFlags_out hs, hcamera]
  rw [Part.flagged_fitted (by rw [hs]; simp), if_neg (by simpa using hzone)]
  split <;> simp

/-- R35, R93: none of the fires falls due. -/
def Part.firesWait (p : Part) (c : Fin 6) : Prop :=
  ∀ x ∈ p.ctu.cameras[c].schedule, ∃ y, p.cameraTarget c x.seq = some y ∧ p.isReached y.1 = false ∧
    ∀ t, p.takenTime c x.seq = some t → (p.now - t).toInt < 0

/-- R35: the camera out of SERVICE, its fires taken afresh. -/
def Camera.retaken (k : Camera) (time : Word → Option Time) : Camera :=
  { k with hostService := false, schedule := k.schedule.map fun x => { x with time := time x.seq } }

theorem Part.setCameraFlags_quiet {p A : Part} {c : Fin 6} {k : List Area} (h : p.Speaks A [] k)
    (hs : A.cameraState c = .service) (hzone : A.ctu.cameras[c].zoneService = false) (hquiet : A.firesWait c) :
    let X := A.setCameraFlags c fun k => { k with hostService := false }
    X.ctu = A.ctu.put c (A.ctu.cameras[c].retaken (A.takenTime c)) ∧ X.trl = A.trl ∧
    p.Speaks X [(News.serviceOut, BitVec.ofNat 8 c.val)] (k ++ [Area.bulletin 3, .mirror .ctu, .mirror .ctu]) ∧
    X.mirrored .ctu := by
  let B := A.outOfService c fun k => { k with hostService := false }
  let listed (x : Fire) : Fire :=
    if x.seq ∈ A.ctu.cameras[c].schedule.map (·.seq) then { x with time := A.takenTime c x.seq } else x
  have htake : (A.ctu.cameras[c].schedule.map (·.seq)).foldl (fun p seq => p.takeFire c seq) B =
      B.modCamera c fun k => { k with schedule := k.schedule.map listed } :=
    Part.takeFires_wait ⟨rfl, rfl, rfl⟩ fun seq hseq => by
      obtain ⟨x, hx, rfl⟩ := List.mem_map.mp hseq
      exact hquiet x hx
  have hlisted : A.ctu.cameras[c].schedule.map listed =
      A.ctu.cameras[c].schedule.map fun x => { x with time := A.takenTime c x.seq } :=
    List.map_congr_left fun x hx => if_pos (List.mem_map_of_mem hx)
  have hX := Part.setCameraFlags_leaves hs hzone
  rw [show List.foldl _ _ _ = _ from htake] at hX
  have hspeaks : p.Speaks B _ _ := ((h.same (r := A.modCamera c fun k => { k with hostService := false }) rfl rfl
    rfl).raise .serviceOut (BitVec.ofNat 8 c.val)).rewrite .ctu
  have hB : B.ctu = A.ctu.put c { A.ctu.cameras[c] with hostService := false } ∧ B.trl = A.trl := ⟨rfl, rfl⟩
  generalize B = B at hX hspeaks hB
  obtain ⟨hB, hBtrl⟩ := hB
  intro X
  rw [show X = _ from hX]
  refine ⟨?_, (Part.rewrite_trl _ _).trans hBtrl, ?_, Part.rewrite_mirrored _ _⟩
  · rw [Part.rewrite_ctu, Part.modCamera_ctu, hB, Ctu.put_get, Ctu.put_put]
    simp only [hlisted]
    rfl
  · exact ((hspeaks.same (r := B.modCamera c fun k => { k with schedule := k.schedule.map listed }) rfl rfl rfl).rewrite
      .ctu).mono (by simp [News.bulletin])

/-- R35, R97: the host's flag cleared, and the camera's only fire falls due. -/
theorem Part.setCameraFlags_falls {A : Part} {c : Fin 6} {x : Fire} {y : Position × CameraSettings}
    (hs : A.cameraState c = .service) (hzone : A.ctu.cameras[c].zoneService = false)
    (hk : A.ctu.cameras[c].schedule = [x]) (hy : A.cameraTarget c x.seq = some y)
    (hdue : A.isReached y.1 = true ∨ ∃ t, A.takenTime c x.seq = some t ∧ 0 ≤ (A.now - t).toInt) :
    let after := (A.setCameraFlags c fun k => { k with hostService := false }).ctu.cameras[c]
    let k := A.ctu.cameras[c]
    after.hostService = false ∧
    (k.pulse = none → after.output = ([], some ⟨A.now + BitVec.ofNat 48 y.2.width, !y.2.activeLow⟩,
      x.seq.setWidth 5, up k.counters.triggers)) ∧
    (k.pulse ≠ none → after.pulse = k.pulse ∧ (after.schedule.map fun f => (f.seq, f.due)) = [(x.seq, true)]) := by
  let B := A.outOfService c fun k => { k with hostService := false }
  have hB : B.ctu.cameras[c] = { A.ctu.cameras[c] with hostService := false } := modAt_self _ _ _
  have hsame : A.SameTargets B := ⟨rfl, rfl, rfl⟩
  have hX : A.setCameraFlags c (fun k => { k with hostService := false }) = (B.takeFire c x.seq).rewrite .ctu := by
    rw [Part.setCameraFlags_leaves hs hzone, hk]
    rfl
  have hhost := (Part.takeFire_works c B x.seq).host
  have hsingle := Part.takeFire_single (p := B) (c := c) (x := x) (by rw [hB]; exact hk)
    ((hsame.target c x.seq).trans hy)
  dsimp only at hsingle
  rw [hsame.isReached, hsame.takenTime, hsame.now, hB] at hsingle
  obtain ⟨hoff, hon⟩ := hsingle hdue
  intro after
  rw [show after = ((B.takeFire c x.seq).rewrite .ctu).ctu.cameras[c] from
      congrArg (fun q : Part => q.ctu.cameras[c]) hX,
    Part.rewrite_ctu]
  generalize B.takeFire c x.seq = C at *
  refine ⟨hhost.trans (by rw [hB]), hoff, fun hpulse => ?_⟩
  rw [hon hpulse]
  exact ⟨rfl, rfl⟩

section
variable {p : Part} {n : Fin 48} {camera out : Byte} {c : Fin 6} (h : p.canTake n (.cameraService camera out))
  (hc : camera.toNat = c.val) (hout : out.toNat = 0) (hs : p.cameraState c = .service)
  (hzone : p.ctu.cameras[c].zoneService = false)
include h hc hout hs hzone

omit h in
theorem Part.cameraService_leaves : (p.markTaken n).perform (p.nextRef n) (.cameraService camera out) =
    ((p.markTaken n).setCameraFlags c fun k => { k with hostService := false }).complete (p.nextRef n) .ok 0 := by
  have hperform := Part.cameraService_changes (n := n) (out := out) hc (by omega) (by rw [hs]; simp)
    (by rw [Part.service_host hs hzone, hout]; simp)
  rwa [show (out.toNat == 0 + 1) = false by rw [hout]; rfl] at hperform

/-- R35: the host's flag cleared, no fire falling due. -/
theorem Part.cameraService_quiet (hquiet : p.firesWait c) :
    let q := p.takeAs n (.cameraService camera out)
    q.ctu = p.ctu.put c (p.ctu.cameras[c].retaken (p.takenTime c)) ∧
    q = { p with ctu := q.ctu, odk := q.odk, rpu := q.rpu, mem := q.mem } ∧
    p.answers q n .ok ∧ p.tells q [(News.serviceOut, BitVec.ofNat 8 c.val)] ∧ q.mirrored .ctu ∧
    Memory.storesOnly p.mem q.mem [.cell n, .bulletin 3, .mirror .ctu, .mirror .odk] := by
  have hsame : p.SameTargets (p.markTaken n) := ⟨rfl, rfl, rfl⟩
  have hwaits : (p.markTaken n).firesWait c := fun x hx => by
    rw [hsame.target, hsame.takenTime, hsame.now]
    simp only [hsame.isReached]
    exact hquiet x hx
  obtain ⟨hctu, htrl, hspeaks, hmirror⟩ := Part.setCameraFlags_quiet ((Part.Speaks.refl p).markTaken n) hs hzone hwaits
  rw [show (p.markTaken n).takenTime c = p.takenTime c from funext fun seq => hsame.takenTime c seq] at hctu
  exact Part.flag_stands h (Part.cameraService_leaves hc hout hs hzone) hctu htrl hspeaks (by simp) hmirror

/-- R35, R97: the host's flag cleared, and the camera's only fire falls due. -/
theorem Part.cameraService_falls {x : Fire} {y : Position × CameraSettings} (hk : p.ctu.cameras[c].schedule = [x])
    (hy : p.cameraTarget c x.seq = some y)
    (hdue : p.isReached y.1 = true ∨ ∃ t, p.takenTime c x.seq = some t ∧ 0 ≤ (p.now - t).toInt) :
    let q := p.takeAs n (.cameraService camera out)
    let k := p.ctu.cameras[c]
    q.ctu.cameras[c].hostService = false ∧ p.answers q n .ok ∧
    (k.pulse = none → q.ctu.cameras[c].output = ([], some ⟨p.now + BitVec.ofNat 48 y.2.width, !y.2.activeLow⟩,
      x.seq.setWidth 5, up k.counters.triggers)) ∧
    (k.pulse ≠ none → q.ctu.cameras[c].pulse = k.pulse ∧
      (q.ctu.cameras[c].schedule.map fun f => (f.seq, f.due)) = [(x.seq, true)]) := by
  have hsame : p.SameTargets (p.markTaken n) := ⟨rfl, rfl, rfl⟩
  obtain ⟨hhost, hoff, hon⟩ := Part.setCameraFlags_falls (A := p.markTaken n) hs hzone hk
    ((hsame.target c x.seq).trans hy) (by rwa [hsame.isReached, hsame.takenTime, hsame.now])
  obtain ⟨hanswers, hsettled, -⟩ := Part.flag_answered h (Part.cameraService_leaves hc hout hs hzone)
  dsimp only
  rw [hsettled.ctu]
  exact ⟨hhost, hanswers, hoff, hon⟩

end

/-! ## CAMERA_RESTORE (R106) -/

/-- R106: the camera no longer degraded. -/
def Camera.restored (k : Camera) : Camera := { k with degraded := false, degradeCause := none, missedRun := 0 }

theorem Part.cameraRestoreOrder_range (p : Part) (ref : OrderRef) {camera : Byte} (h : 6 ≤ camera.toNat) :
    p.cameraRestoreOrder ref camera = p.complete ref .param 0 := by
  unfold Part.cameraRestoreOrder
  rw [six_none camera h]

theorem Part.cameraRestoreOrder_eq (p : Part) (ref : OrderRef) {camera : Byte} {c : Fin 6} (hc : camera.toNat = c.val) :
    p.cameraRestoreOrder ref camera =
      if p.cameraState c = .off ∨ p.ctu.cameras[c].portSilent = true then p.complete ref .state 0
      else (p.setCameraFlags c Camera.restored).complete ref .ok 0 := by
  unfold Part.cameraRestoreOrder
  rw [six_of camera c hc]
  rfl

/-- R93, R106: only a DEGRADED camera changes its state, and is told of. -/
theorem Part.setCameraFlags_restores {p A : Part} {c : Fin 6} {k : List Area} (h : p.Speaks A [] k)
    (hoff : A.cameraState c ≠ .off) :
    let X := A.setCameraFlags c Camera.restored
    X.ctu = A.ctu.put c A.ctu.cameras[c].restored ∧ X.trl = A.trl ∧
    p.Speaks X (if A.cameraState c = .degraded then [(News.restored, BitVec.ofNat 8 c.val)] else [])
      (k ++ [Area.bulletin 3, .mirror .ctu, .mirror .ctu]) ∧ X.mirrored .ctu := by
  have hspeaks : p.Speaks (A.modCamera c Camera.restored) [] k := h.same rfl rfl rfl
  have hflags : (A.modCamera c Camera.restored).cameraState c =
      if A.cameraState c = .service then .service else .active := by
    rw [Part.flagged_fitted hoff]
    simp only [Part.service_iff hoff, ← Bool.or_eq_true]
    rfl
  by_cases hd : A.cameraState c = .degraded
  · rw [if_pos hd, Part.setCameraFlags_restored hd]
    · exact ⟨rfl, rfl, ((hspeaks.raise _ _).rewrite .ctu).rewrite .ctu |>.mono (by simp [News.bulletin]),
        Part.rewrite_mirrored _ _⟩
    · rw [hflags, hd]
      rfl
  · rw [if_neg hd, Part.setCameraFlags_same]
    · exact ⟨rfl, rfl, (hspeaks.rewrite .ctu).mono (by simp), Part.rewrite_mirrored _ _⟩
    · rw [hflags]
      cases hs : A.cameraState c <;> simp_all

/-- R106: CAMERA_RESTORE of a fitted camera whose port is not silent. -/
theorem Part.cameraRestore_restores {p : Part} {n : Fin 48} {camera : Byte} {c : Fin 6}
    (h : p.canTake n (.cameraRestore camera)) (hc : camera.toNat = c.val) (hoff : p.cameraState c ≠ .off)
    (hport : p.ctu.cameras[c].portSilent = false) :
    let q := p.takeAs n (.cameraRestore camera)
    q.ctu = p.ctu.put c p.ctu.cameras[c].restored ∧
    q = { p with ctu := q.ctu, odk := q.odk, rpu := q.rpu, mem := q.mem } ∧ p.answers q n .ok ∧
    p.tells q (if p.cameraState c = .degraded then [(News.restored, BitVec.ofNat 8 c.val)] else []) ∧
    q.mirrored .ctu ∧ Memory.storesOnly p.mem q.mem [.cell n, .bulletin 3, .mirror .ctu, .mirror .odk] := by
  obtain ⟨hctu, htrl, hspeaks, hmirror⟩ := Part.setCameraFlags_restores ((Part.Speaks.refl p).markTaken n) hoff
  refine Part.flag_stands h ?_ hctu htrl hspeaks (by simp) hmirror
  refine (Part.cameraRestoreOrder_eq (p.markTaken n) (p.nextRef n) hc).trans (if_neg ?_)
  exact fun hr => hr.elim hoff fun hs => absurd (hport.symm.trans hs) (by simp)

/-- Settles O30. -/
theorem cameraOrdersAreTaken : Obligations.CameraOrdersAreTaken := by
  unfold Obligations.CameraOrdersAreTaken
  intro p w n camera out
  refine ⟨fun h => ⟨fun hrange => ⟨_, rfl, Part.refused_of h .param 0 (Part.cameraServiceOrder_range _ _ _ _ hrange)⟩,
    ?_⟩, fun h => ⟨fun hrange => ⟨_, rfl, Part.refused_of h .param 0 (Part.cameraRestoreOrder_range _ _ hrange)⟩, ?_⟩⟩
  · intro c hc hout k member stands
    refine ⟨fun hoff => ⟨_, rfl, ?_⟩, fun hoff hsame => ⟨_, rfl, Part.cameraService_already h hc hout hoff hsame⟩,
      fun hs hon => ⟨_, rfl, Part.cameraService_enters h hc hon hs⟩,
      fun hs hzone hne => ⟨_, rfl, Part.cameraService_held h hc hout hs hzone hne⟩, ?_⟩
    · exact Part.refused_of h .state 0
        ((Part.cameraServiceOrder_eq (p := p.markTaken n) (ref := p.nextRef n) hc hout).trans (if_pos hoff))
    intro hs hzone hclear time htargets
    refine ⟨fun _ hquiet => ⟨_, rfl, ?_⟩, fun x y hk hy hdue => ⟨_, rfl, ?_⟩⟩
    · refine Part.cameraService_quiet h hc hclear hs hzone fun x hx => ?_
      obtain ⟨y, hy⟩ := htargets x hx
      exact ⟨y, hy, hquiet x hx y hy⟩
    · obtain ⟨hhost, hanswers, hoff, hon⟩ := Part.cameraService_falls h hc hclear hs hzone hk hy hdue
      refine ⟨hhost, hanswers, fun hpulse => ?_, hon⟩
      obtain ⟨hschedule, hpulse', htag, htriggers⟩ := Camera.output_iff.mp (hoff hpulse)
      exact ⟨hschedule, htag, hpulse', htriggers⟩
  · intro c hc k
    refine ⟨fun hrefused => ⟨_, rfl, ?_⟩, fun hoff hport => ⟨_, rfl, Part.cameraRestore_restores h hc hoff hport⟩⟩
    exact Part.refused_of h .state 0
      ((Part.cameraRestoreOrder_eq (p.markTaken n) (p.nextRef n) hc).trans (if_pos hrefused))

end Sys2Proof.Machine
end

section
/-! PROOFS. The rotation: the slot and robot of a container at its admission (R75, R76). -/

namespace Sys2Proof.Machine

/-! ## The rotation moves on -/

/-- R76: from `p` to `q` the rotation came to stand as `b`, a pending rotation being adopted if `b` has none left. -/
def Part.turnsTo (p q : Part) (b : Rbp) : Prop :=
  (p.rbp.pendingRotation = b.pendingRotation ∧ q = { p with rbp := b }) ∨
    ∃ x, p.rbp.pendingRotation = some x ∧ b.pendingRotation = none ∧ q = { p.adoptRotation x with rbp := b }

section
variable {p q : Part} {b : Rbp} {x : PendingRotation}

theorem Part.adoptRotation_rbp (h : p.rbp.pendingRotation = some x) : (p.adoptRotation x).rbp = p.rbp.wrapped := by
  unfold Part.adoptRotation Rbp.wrapped
  rw [h]
  simp

theorem Rbp.wrapped_pending (b : Rbp) : b.wrapped.pendingRotation = none := by
  unfold Rbp.wrapped
  split
  · rfl
  next h => exact h

theorem Rbp.wrapped_idle (h : b.pendingRotation = none) : b.wrapped = { b with cursor := 0 } := by
  unfold Rbp.wrapped
  rw [h]

/-- Nothing pending is left once the cursor has moved on from where nothing was. -/
theorem Rbp.movedPast_idle (h : b.pendingRotation = none) (slot : Nat) : (b.movedPast slot).pendingRotation = none := by
  unfold Rbp.movedPast
  split
  · exact h
  · exact b.wrapped_pending

/-- With nothing pending, where the cursor stood is forgotten. -/
theorem Rbp.movedPast_cursor (h : b.pendingRotation = none) (slot n : Nat) :
    ({ b with cursor := n } : Rbp).movedPast slot = b.movedPast slot := by
  unfold Rbp.movedPast
  rw [Rbp.wrapped_idle h, Rbp.wrapped_idle (b := { b with cursor := n }) h]

theorem Part.wrap_idle (h : p.rbp.pendingRotation = none) : p.wrap = p.modRbp fun b => { b with cursor := 0 } := by
  unfold Part.wrap
  rw [h]

/-- With nothing pending, moving on changes the rotation alone. -/
theorem Part.advanceCursor_idle (h : p.rbp.pendingRotation = none) (slot : Nat) :
    p.advanceCursor slot = { p with rbp := p.rbp.movedPast slot } := by
  unfold Part.advanceCursor Rbp.movedPast
  rw [Part.wrap_idle h, Rbp.wrapped_idle h]
  split <;> rfl

theorem Part.advanceCursor_turns (p : Part) (slot : Nat) : p.turnsTo (p.advanceCursor slot) (p.rbp.movedPast slot) := by
  unfold Part.advanceCursor Part.wrap Rbp.movedPast
  split
  · exact .inl ⟨rfl, rfl⟩
  · cases h : p.rbp.pendingRotation with
    | none => exact .inl ⟨by rw [Rbp.wrapped_idle h, h], by rw [Rbp.wrapped_idle h]; rfl⟩
    | some x => exact .inr ⟨x, h, p.rbp.wrapped_pending, by rw [← Part.adoptRotation_rbp h]⟩

/-- R76: a rotation that has been adopted moves on. -/
theorem Part.adopted_turns (h : p.rbp.pendingRotation = some x) (slot : Nat) :
    p.turnsTo ((p.adoptRotation x).advanceCursor slot) (p.rbp.wrapped.movedPast slot) := by
  have hrbp := Part.adoptRotation_rbp h
  have hnone : (p.adoptRotation x).rbp.pendingRotation = none := by rw [hrbp, Rbp.wrapped_pending]
  refine .inr ⟨x, h, Rbp.movedPast_idle p.rbp.wrapped_pending slot, ?_⟩
  rw [Part.advanceCursor_idle hnone, hrbp]

end

/-! ## The skip-halted search (R75) -/

section
variable {p : Part} {fuel start low turn slot : Nat} {robot : Option (Fin 6)}

theorem Part.slotTakes_iff (h : slot < p.rbp.rotation.slots.length) :
    p.slotTakes (p.rbp.rotation.slots[slot]?.getD none) = true ↔ p.rbp.serves slot := by
  unfold Part.slotTakes Rbp.serves
  rw [List.getElem?_eq_getElem h, Option.getD_some]
  cases p.rbp.rotation.slots[slot] <;> simp

theorem Rbp.serves_lt {b : Rbp} (h : b.serves slot) : slot < b.rotation.slots.length := by
  rcases h with h | ⟨r, h, -⟩ <;> exact (List.getElem?_eq_some_iff.mp h).1

/-- The slot examined serves. -/
theorem Part.searchSlot_serves (h : p.rbp.serves slot) (hrobot : p.rbp.rotation.slots[slot]? = some robot) :
    Part.searchSlot (fuel + 1) p start slot turn = (slot, robot, p.advanceCursor slot) := by
  unfold Part.searchSlot
  rw [if_pos ((Part.slotTakes_iff (Rbp.serves_lt h)).mpr h), hrobot]
  rfl

/-- The slot examined does not serve, and is not the last of the rotation nor of the turn. -/
theorem Part.searchSlot_next (h : ¬ p.rbp.serves low) (hlow : low + 1 < p.rbp.rotation.slots.length)
    (hturn : 1 < turn) :
    Part.searchSlot (fuel + 1) p start low turn = Part.searchSlot fuel p start (low + 1) (turn - 1) := by
  rw [Part.searchSlot]
  rw [if_neg fun ht => h ((Part.slotTakes_iff (by omega)).mp ht), if_neg (by omega), if_pos hlow]

/-- R75: no slot of the turn has served. -/
theorem Part.searchSlot_ends (h : ¬ p.rbp.serves low) (hlow : low < p.rbp.rotation.slots.length) (hturn : turn ≤ 1) :
    Part.searchSlot (fuel + 1) p start low turn = (start, none, p.advanceCursor start) := by
  rw [Part.searchSlot]
  rw [if_neg fun ht => h ((Part.slotTakes_iff hlow).mp ht), if_pos hturn]

theorem Part.searchSlot_finds (hlow : low ≤ slot) (h : p.rbp.serves slot)
    (hbefore : ∀ j, low ≤ j → j < slot → ¬ p.rbp.serves j) (hrobot : p.rbp.rotation.slots[slot]? = some robot)
    (hturn : slot < low + turn) (hfuel : slot < low + fuel) :
    Part.searchSlot fuel p start low turn = (slot, robot, p.advanceCursor slot) := by
  induction fuel generalizing low turn with
  | zero => omega
  | succ fuel ih =>
    obtain rfl | hlt := Nat.eq_or_lt_of_le hlow
    · exact Part.searchSlot_serves h hrobot
    · have hlength := Rbp.serves_lt h
      rw [Part.searchSlot_next (hbefore low (Nat.le_refl _) hlt) (by omega) (by omega)]
      exact ih hlt (fun j hj => hbefore j (by omega)) (by omega) (by omega)

theorem Part.searchSlot_fails (hnone : ∀ j, low ≤ j → j < low + turn → ¬ p.rbp.serves j)
    (hturn : 0 < turn) (hlength : low + turn ≤ p.rbp.rotation.slots.length) :
    Part.searchSlot fuel p start low turn = (start, none, p.advanceCursor start) := by
  induction fuel generalizing low turn with
  | zero => rfl
  | succ fuel ih =>
    have hlow := hnone low (Nat.le_refl _) (by omega)
    by_cases hlast : turn ≤ 1
    · exact Part.searchSlot_ends hlow (by omega) hlast
    · rw [Part.searchSlot_next hlow (by omega) (by omega)]
      exact ih (fun j hj hjt => hnone j (by omega) (by omega)) (by omega) (by omega)

/-- R76: the search goes from the last slot of the rotation, which does not serve, to slot 0; the turn is not over. -/
theorem Part.searchSlot_wrap (h : ¬ p.rbp.serves low) (hlow : low + 1 = p.rbp.rotation.slots.length) (hturn : 1 < turn) :
    (∀ x, p.rbp.pendingRotation = some x → Part.searchSlot (fuel + 1) p start low turn =
      Part.searchSlot fuel (p.adoptRotation x) 0 0 (p.adoptRotation x).rbp.rotation.slots.length) ∧
    (p.rbp.pendingRotation = none → Part.searchSlot (fuel + 1) p start low turn =
      Part.searchSlot fuel (p.modRbp fun b => { b with cursor := 0 }) start 0 (turn - 1)) := by
  rw [Part.searchSlot]
  rw [if_neg fun ht => h ((Part.slotTakes_iff (by omega)).mp ht), if_neg (by omega), if_neg (by omega)]
  exact ⟨fun x hx => by simp only [hx], fun hnone => by simp only [hnone]⟩

/-- R76: the same after `k` slots more that have not served. -/
theorem Part.searchSlot_wraps {k : Nat} (hnone : ∀ j, low ≤ j → j < p.rbp.rotation.slots.length → ¬ p.rbp.serves j)
    (hlength : low + (k + 1) = p.rbp.rotation.slots.length) (hturn : k + 1 < turn) :
    (∀ x, p.rbp.pendingRotation = some x → Part.searchSlot (fuel + (k + 1)) p start low turn =
      Part.searchSlot fuel (p.adoptRotation x) 0 0 (p.adoptRotation x).rbp.rotation.slots.length) ∧
    (p.rbp.pendingRotation = none → Part.searchSlot (fuel + (k + 1)) p start low turn =
      Part.searchSlot fuel (p.modRbp fun b => { b with cursor := 0 }) start 0 (turn - (k + 1))) := by
  induction k generalizing low turn with
  | zero => exact Part.searchSlot_wrap (hnone low (Nat.le_refl _) (by omega)) hlength hturn
  | succ k ih =>
    have hrest := ih (low := low + 1) (turn := turn - 1) (fun j hj => hnone j (by omega)) (by omega) (by omega)
    rw [show turn - 1 - (k + 1) = turn - (k + 1 + 1) by omega] at hrest
    rwa [← Nat.add_assoc, Part.searchSlot_next (hnone low (Nat.le_refl _) (by omega)) (by omega) (by omega)]

end

/-! ## The slot and robot assigned (R75, R76) -/

/-- The rotation has a slot for its cursor, and a pending one has slots as well; no more than twelve in either. -/
structure Rbp.WellSized (b : Rbp) : Prop where
  cursor : b.cursor < b.rotation.slots.length
  live : b.rotation.slots.length ≤ 12
  pending : ∀ x, b.pendingRotation = some x → 1 ≤ x.rotation.slots.length ∧ x.rotation.slots.length ≤ 12

section
variable {p : Part} {slot : Nat} {robot : Option (Fin 6)} {b : Rbp}

/-- R75: a search past the last slot, nothing pending: it goes on at slot 0, up to the slot where it began. -/
theorem Part.search_around (hsize : p.rbp.WellSized) (h0 : 0 < p.rbp.cursor)
    (hnone : ∀ j, p.rbp.cursor ≤ j → j < p.rbp.rotation.slots.length → ¬ p.rbp.serves j)
    (hpending : p.rbp.pendingRotation = none) : ∃ fuel, p.rbp.cursor ≤ fuel ∧
      Part.searchSlot 32 p p.rbp.cursor p.rbp.cursor p.rbp.rotation.slots.length =
        Part.searchSlot fuel (p.modRbp fun b => { b with cursor := 0 }) p.rbp.cursor 0 p.rbp.cursor := by
  obtain ⟨hcursor, hlive, -⟩ := hsize
  obtain ⟨k, hk⟩ := Nat.exists_eq_add_of_lt hcursor
  have hwrap := (Part.searchSlot_wraps (fuel := 32 - (k + 1)) (start := p.rbp.cursor) (k := k)
    (turn := p.rbp.rotation.slots.length) hnone (by omega) (by omega)).2 hpending
  rw [show 32 - (k + 1) + (k + 1) = 32 by omega,
    show p.rbp.rotation.slots.length - (k + 1) = p.rbp.cursor by omega] at hwrap
  exact ⟨32 - (k + 1), by omega, hwrap⟩

/-- R76: a search past the last slot, where a rotation is pending: a fresh turn of it. -/
theorem Part.search_afresh {x : PendingRotation} (hsize : p.rbp.WellSized) (h0 : 0 < p.rbp.cursor)
    (hnone : ∀ j, p.rbp.cursor ≤ j → j < p.rbp.rotation.slots.length → ¬ p.rbp.serves j)
    (hpending : p.rbp.pendingRotation = some x) : ∃ fuel, p.rbp.wrapped.rotation.slots.length ≤ fuel ∧
      Part.searchSlot 32 p p.rbp.cursor p.rbp.cursor p.rbp.rotation.slots.length =
        Part.searchSlot fuel (p.adoptRotation x) 0 0 p.rbp.wrapped.rotation.slots.length := by
  obtain ⟨hcursor, hlive, hfits⟩ := hsize
  obtain ⟨k, hk⟩ := Nat.exists_eq_add_of_lt hcursor
  have hlength : p.rbp.wrapped.rotation.slots.length ≤ 12 := by
    unfold Rbp.wrapped
    rw [hpending]
    exact (hfits x hpending).2
  have hwrap := (Part.searchSlot_wraps (fuel := 32 - (k + 1)) (start := p.rbp.cursor) (k := k)
    (turn := p.rbp.rotation.slots.length) hnone (by omega) (by omega)).1 x hpending
  rw [show 32 - (k + 1) + (k + 1) = 32 by omega] at hwrap
  refine ⟨32 - (k + 1), by omega, ?_⟩
  rw [← Part.adoptRotation_rbp hpending]
  exact hwrap

theorem Part.search_turns (hsize : p.rbp.WellSized) (hskip : p.rbp.rotation.skip = true)
    (h : p.rbp.assigns slot robot b) : ∃ q, p.turnsTo q b ∧
      Part.searchSlot 32 p p.rbp.cursor p.rbp.cursor p.rbp.rotation.slots.length = (slot, robot, q) := by
  have hsizes := hsize
  obtain ⟨hcursor, hlive, hfits⟩ := hsize
  rcases h.2 hskip with ⟨hlow, hserves, hbefore, hrobot, rfl⟩ | ⟨h0, hnone, rfl, rfl, rfl⟩ | ⟨h0, hnone, hwraps⟩
  · have hslot := Rbp.serves_lt hserves
    exact ⟨_, p.advanceCursor_turns slot,
      Part.searchSlot_finds hlow hserves hbefore hrobot (by omega) (by omega)⟩
  · refine ⟨_, p.advanceCursor_turns 0, ?_⟩
    rw [h0]
    exact Part.searchSlot_fails (fun j _ hj => hnone j (by omega)) (by omega) (by omega)
  · have hslots : (p.modRbp fun b => { b with cursor := 0 }).rbp.serves = p.rbp.serves := rfl
    have hmoves (n : Nat) (hpending : p.rbp.pendingRotation = none) :
        p.turnsTo ((p.modRbp fun b => { b with cursor := 0 }).advanceCursor n) (p.rbp.movedPast n) := by
      rw [Part.advanceCursor_idle (p := p.modRbp fun b => { b with cursor := 0 }) hpending]
      refine .inl ⟨hpending.trans (Rbp.movedPast_idle hpending n).symm, ?_⟩
      rw [← Rbp.movedPast_cursor hpending n 0]
      rfl
    rcases hwraps with ⟨hpending, hlt, -, hserves, hbefore, hrobot, rfl⟩ | ⟨hpending, hall, rfl, rfl, rfl⟩ |
      ⟨hpending, hlow, hserves, hbefore, hrobot, rfl⟩ | ⟨hpending, hall, rfl, rfl, rfl⟩
    · obtain ⟨fuel, hfuel, hsearch⟩ := Part.search_around hsizes h0 hnone hpending
      refine ⟨_, hmoves slot hpending, hsearch.trans ?_⟩
      exact Part.searchSlot_finds (Nat.zero_le _) hserves hbefore hrobot (by omega) (by omega)
    · obtain ⟨fuel, hfuel, hsearch⟩ := Part.search_around hsizes h0 hnone hpending
      refine ⟨_, hmoves _ hpending, hsearch.trans ?_⟩
      exact Part.searchSlot_fails (fun j _ hj => hall j (by omega)) h0
        (show 0 + p.rbp.cursor ≤ p.rbp.rotation.slots.length by omega)
    · obtain ⟨x, hx⟩ := Option.ne_none_iff_exists'.mp hpending
      obtain ⟨fuel, hfuel, hsearch⟩ := Part.search_afresh hsizes h0 hnone hx
      have hslot := Rbp.serves_lt hserves
      refine ⟨_, Part.adopted_turns hx slot, hsearch.trans ?_⟩
      rw [← Part.adoptRotation_rbp hx] at *
      exact Part.searchSlot_finds hlow hserves hbefore hrobot (by omega) (by omega)
    · obtain ⟨x, hx⟩ := Option.ne_none_iff_exists'.mp hpending
      obtain ⟨fuel, hfuel, hsearch⟩ := Part.search_afresh hsizes h0 hnone hx
      have hsome : 0 < p.rbp.wrapped.rotation.slots.length := by
        unfold Rbp.wrapped
        rw [hx]
        exact (hfits x hx).1
      refine ⟨_, Part.adopted_turns hx 0, hsearch.trans ?_⟩
      rw [← Part.adoptRotation_rbp hx] at *
      exact Part.searchSlot_fails (fun j _ hj => hall j (by omega)) hsome (by omega)

/-- R75, R76: the container gets the slot and robot that the rotation assigns. -/
theorem Part.assign_turns (hsize : p.rbp.WellSized) (h : p.rbp.assigns slot robot b) :
    ∃ q, p.turnsTo q b ∧ p.assign = (slot, robot, q.rewrite .rbp) := by
  unfold Part.assign
  dsimp only
  cases hskip : p.rbp.rotation.skip with
  | true =>
    obtain ⟨q, hturns, hsearch⟩ := Part.search_turns hsize hskip h
    refine ⟨q, hturns, ?_⟩
    rw [if_pos rfl, hsearch]
  | false =>
    obtain ⟨rfl, hrobot, rfl⟩ := h.1 hskip
    refine ⟨_, p.advanceCursor_turns p.rbp.cursor, ?_⟩
    rw [if_neg (by simp), hrobot]
    rfl

end

end Sys2Proof.Machine
end

section
/-! PROOFS. The sample (R24, R58): a container goes past untracked, or is admitted with its fires (R44, R96). -/

namespace Sys2Proof.Machine

/-! ## A fire for the new container (R96) -/

section
variable {p q : Part} {m : Fin 6} {seq : Word}

theorem Part.SameTargets.works {r : Part} (h : p.SameTargets q) (k : q.Works m r) : p.SameTargets r where
  mtu := by rw [k.rest]; exact h.mtu
  cvt := by rw [k.rest]; exact h.cvt
  records := k.records.trans h.records

theorem Part.SameTargets.state (h : p.SameTargets q) (hk : q.ctu.cameras[m] = p.ctu.cameras[m]) :
    q.cameraState m = p.cameraState m := by
  refine Part.cameraState_congr m (by rw [h.cvt]) ?_ ?_ ?_ <;> rw [hk]

/-- R96: the fire of `seq` joins the schedule, its time not asked yet. -/
def Part.withFire (p : Part) (m : Fin 6) (seq : Word) : Part :=
  p.modCamera m fun k => { k with schedule := k.schedule ++ [⟨seq, none, false⟩] }

theorem Part.withFire_camera (p : Part) (m : Fin 6) (seq : Word) : (p.withFire m seq).ctu.cameras[m] =
    { p.ctu.cameras[m] with schedule := p.ctu.cameras[m].schedule ++ [⟨seq, none, false⟩] } := modAt_self _ _ _

theorem Part.withFire_state (p : Part) (m : Fin 6) (seq : Word) :
    (p.withFire m seq).cameraState m = p.cameraState m := by
  refine Part.cameraState_congr m rfl ?_ ?_ ?_ <;> rw [Part.withFire_camera]

theorem Part.addFire_absent (h : p.cameraPresent m = false) : p.addFire seq m = p := by
  unfold Part.addFire
  rw [if_neg (by simp [h])]

theorem Part.addFire_present (h : p.cameraPresent m = true) : p.addFire seq m =
    if p.cameraState m = .active ∨ p.cameraState m = .degraded then (p.withFire m seq).takeFire m seq
    else p.withFire m seq := by
  unfold Part.addFire
  rw [if_pos h]
  change (if ((p.withFire m seq).cameraState m).fires = true then _ else _) = _
  simp only [CameraState.fires_iff, Part.withFire_state]
  rfl

theorem Part.addFire_works (m : Fin 6) (p : Part) (seq : Word) : p.Works m (p.addFire seq m) := by
  have hadded : p.Works m (p.withFire m seq) := (Part.Works.refl m p).modCamera _
  cases h : p.cameraPresent m with
  | false => rw [Part.addFire_absent h]; exact .refl m p
  | true =>
    rw [Part.addFire_present h]
    split
    · exact hadded.trans (Part.takeFire_works m _ seq)
    · exact hadded

/-! ## No fire falls due -/

/-- R96: the time of the new fire: a camera in SERVICE asks for none. -/
def Part.addedTime (p : Part) (seq : Word) (m : Fin 6) : Option Time :=
  if p.cameraState m = .active ∨ p.cameraState m = .degraded then p.takenTime m seq else none

/-- R96: the camera, if present, with the new fire. -/
def Part.joinedBy (p : Part) (seq : Word) (m : Fin 6) (k : Camera) : Camera :=
  if p.cameraPresent m = true then { k with schedule := k.schedule ++ [⟨seq, p.addedTime seq m, false⟩] } else k

/-- The new fire's target is ahead, its time is not reached, and the camera holds no fire of that sequence. -/
def Part.fireWaits (p : Part) (seq : Word) (m : Fin 6) : Prop :=
  p.cameraPresent m = true →
    (∃ y, p.cameraTarget m seq = some y ∧ p.isReached y.1 = false) ∧
    (∀ t, p.addedTime seq m = some t → (p.now - t).toInt < 0) ∧ ∀ x ∈ p.ctu.cameras[m].schedule, x.seq ≠ seq

theorem Part.SameTargets.present (h : p.SameTargets q) (m : Fin 6) : q.cameraPresent m = p.cameraPresent m := by
  unfold Part.cameraPresent
  rw [Part.cameraSettings_congr (p := p) m (by rw [h.cvt])]

theorem Part.addFire_quiet (h : p.SameTargets q) (hk : q.ctu.cameras[m] = p.ctu.cameras[m])
    (hwaits : p.fireWaits seq m) : q.addFire seq m = q.modCamera m (p.joinedBy seq m) := by
  cases hpresent : p.cameraPresent m with
  | false =>
    rw [Part.addFire_absent ((h.present m).trans hpresent), Part.modCamera_same]
    exact if_neg (by simp [hpresent])
  | true =>
    obtain ⟨⟨y, hy, hahead⟩, htime, hnone⟩ := hwaits hpresent
    have hjoined (k : Camera) : p.joinedBy seq m k =
        { k with schedule := k.schedule ++ [⟨seq, p.addedTime seq m, false⟩] } := if_pos hpresent
    rw [Part.addFire_present ((h.present m).trans hpresent), h.state hk]
    unfold Part.addedTime at htime hjoined
    split
    next hfires =>
      rw [if_pos hfires] at htime
      simp only [if_pos hfires] at hjoined
      have hadded : p.SameTargets (q.withFire m seq) := ⟨h.mtu, h.cvt, h.records⟩
      have htaken := Part.takeFire_waits ((hadded.target m seq).trans hy)
        ((hadded.isReached _).trans hahead) fun t ht => by
        rw [hadded.now]
        exact htime t ((hadded.takenTime m seq).symm.trans ht)
      rw [htaken, hadded.takenTime]
      refine (Part.modCamera_twice _ _).trans (Part.modCamera_congr ?_)
      have hunmatched := map_unmatched (seq := seq) (l := q.ctu.cameras[m.val].schedule)
        (fun x => { x with time := p.takenTime m seq }) (by
          rw [show q.ctu.cameras[m.val] = p.ctu.cameras[m.val] from hk]
          exact hnone)
      simp only [hjoined, List.map_append, hunmatched, List.map_cons, List.map_nil, if_true]
    next hservice =>
      simp only [if_neg hservice] at hjoined
      exact Part.modCamera_congr (hjoined _).symm

theorem Part.addFires_quiet (h : p.SameTargets q) (hq : q.ctu = p.ctu) (hwaits : ∀ m, p.fireWaits seq m) :
    q.addFires seq = { q with ctu := ⟨Vector.ofFn fun m : Fin 6 => p.joinedBy seq m p.ctu.cameras[m]⟩ } := by
  have hfold (l : List (Fin 6)) (q : Part) (hl : l.Nodup) (h : p.SameTargets q)
      (hk : ∀ m ∈ l, q.ctu.cameras[m] = p.ctu.cameras[m]) : l.foldl (fun q m => q.addFire seq m) q =
        l.foldl (fun q m => q.modCamera m (p.joinedBy seq m)) q := by
    induction l generalizing q with
    | nil => rfl
    | cons a l ih =>
      obtain ⟨ha, hl⟩ := List.nodup_cons.mp hl
      have hworks := Part.addFire_works a q seq
      rw [List.foldl_cons, List.foldl_cons, ih _ hl (h.works hworks) fun m hm =>
        (hworks.others m fun e => ha (e ▸ hm)).trans (hk m (List.mem_cons_of_mem _ hm)),
        Part.addFire_quiet h (hk a List.mem_cons_self) (hwaits a)]
  unfold Part.addFires
  rw [hfold sixes q sixes_nodup h fun m _ => by rw [hq], Part.modCameras_eq, hq]

/-! ## One falls due -/

/-- R35, R96, R97: the time of the new fire, the camera's only one, is reached. -/
theorem Part.addFires_reached (h : p.SameTargets q) (hq : q.ctu = p.ctu) (hpresent : p.cameraPresent m = true)
    {y : Position × CameraSettings} (hy : p.cameraTarget m seq = some y) (hahead : p.isReached y.1 = false) {t : Time}
    (ht : p.addedTime seq m = some t) (hlate : 0 ≤ (p.now - t).toInt) (hk : p.ctu.cameras[m].schedule = []) :
    let k := p.ctu.cameras[m]
    let after := (q.addFires seq).ctu.cameras[m]
    (k.pulse = none → after.output = ([], some ⟨p.now + BitVec.ofNat 48 y.2.width, !y.2.activeLow⟩, seq.setWidth 5,
      up k.counters.triggers)) ∧
    (k.pulse ≠ none → after = { k with schedule := [⟨seq, some t, true⟩] }) := by
  intro k after
  obtain ⟨r, hr, hcamera, hafter⟩ := Part.camera_among (fun q c => Part.addFire_works c q seq)
    (fun q c h => h.works (Part.addFire_works c q seq)) h m
  have hrk : r.ctu.cameras[m] = p.ctu.cameras[m] := hcamera.trans (by rw [hq])
  have hfires : p.cameraState m = .active ∨ p.cameraState m = .degraded := by
    by_contra hservice
    rw [Part.addedTime, if_neg hservice] at ht
    simp at ht
  rw [Part.addedTime, if_pos hfires] at ht
  have hadded : p.SameTargets (r.withFire m seq) := ⟨hr.mtu, hr.cvt, hr.records⟩
  have hsingle := Part.takeFire_single (p := r.withFire m seq) (c := m) (x := ⟨seq, none, false⟩) (y := y)
    (by rw [Part.withFire_camera, hrk, hk]; rfl) ((hadded.target m seq).trans hy)
  dsimp only at hsingle
  rw [hadded.isReached, hadded.takenTime, hadded.now, hahead, ht, Part.withFire_camera, hrk] at hsingle
  obtain ⟨hoff, hon⟩ := hsingle (.inr ⟨t, rfl, hlate⟩)
  rw [show after = _ from hafter, Part.addFire_present ((hr.present m).trans hpresent), hr.state hrk, if_pos hfires]
  exact ⟨hoff, fun hpulse => (hon hpulse).trans (by simp [k])⟩

end

end Sys2Proof.Machine
end

section
/-! PROOFS. The sample phase comes: a gap, or a container that goes past untracked (R24, R45, R58). -/

namespace Sys2Proof.Machine

/-! ## A container goes past (R24, R45, R58) -/

section
variable {p c : Part}

theorem Part.sample_gap (h : c.cvt.infeed = false ∨ c.cvt.tracker = .unprofiled) : c.sample = c.rewrite .cvt := by
  unfold Part.sample
  rcases h with h | h <;> simp only [h, Bool.false_eq_true, if_false]
  split <;> rfl

theorem Part.sample_untracked (h : c.cvt.infeed = true) (ht : c.cvt.tracker = .ready ∨ c.cvt.tracker = .draining) :
    c.sample = (c.countUntracked.raise .untracked 0).rewrite .cvt := by
  unfold Part.sample
  rcases ht with ht | ht <;> simp only [h, ht, if_true]

theorem Part.sample_tracking (h : c.cvt.infeed = true) (ht : c.cvt.tracker = .tracking) :
    c.sample = c.admitContainer.rewrite .cvt := by
  unfold Part.sample
  simp only [h, ht, if_true]

theorem Part.admitContainer_full {f : Profile} (hf : c.cvt.profile = some f) (h : c.trl.admitted = 4294967295) :
    c.admitContainer = c.turnAway := by
  unfold Part.admitContainer
  simp only [hf, h, if_true]

/-- A record that shows the part shows it after a bulletin change. -/
theorem Part.mirrored_raise (m : MirrorId) (n : News) (member : Byte) (h : p.mirrored m) :
    (p.raise n member).mirrored m := by
  have hfields : mirrorFields (p.raise n member) m = mirrorFields p m := by cases m <;> rfl
  have hbytes : mirrorBytes (p.raise n member) m = mirrorBytes p m := by
    unfold mirrorBytes
    rw [hfields]
    rfl
  unfold Part.mirrored at *
  rw [hbytes, ← h]
  refine Memory.read_of_storesOnly (l := [.bulletin n.bulletin])
    (Part.raise_stores _ _ _ (by simp) (Memory.storesOnly_refl _ _)) fun x hx => .inr ?_
  obtain rfl := List.mem_singleton.mp hx
  have hb := n.bulletin.isLt
  simp only [Area.base, Area.size, bulletinBase]
  cases m <;> simp only [MirrorId.base] <;> omega

/-- R45, R58: from `c`, the part once the count is made, a container has gone past and is told of as `news`. -/
def Part.passesBy (p c q : Part) (news : News) : Prop :=
  q = { c with trl := { c.trl with untracked := up c.trl.untracked }, rpu := q.rpu, mem := q.mem } ∧
  p.tells q [(news, 0)] ∧ q.mirrored .trl ∧ q.mirrored .cvt ∧
  Memory.storesOnly p.mem q.mem [.bulletin 1, .mirror .trl, .mirror .cvt]

theorem Part.passesBy_of {X : Part} {news : News} {k : List Area}
    (hX : X = { c with trl := { c.trl with untracked := up c.trl.untracked }, rpu := X.rpu, mem := X.mem })
    (hspeaks : p.Speaks X [(news, 0)] k) (hfault : X.rpu.fault = p.rpu.fault) (hmirror : X.mirrored .trl)
    (hk : k ++ [Area.mirror .cvt] ⊆ [Area.bulletin 1, .mirror .trl, .mirror .cvt]) :
    p.passesBy c (X.rewrite .cvt) news := by
  have htold := hspeaks.rewrite .cvt
  exact ⟨congrArg (fun Y : Part => { Y with rpu := (X.rewrite .cvt).rpu, mem := (X.rewrite .cvt).mem }) hX,
    htold.tells hfault, Part.mirrored_rewritten _ _ _ hmirror, Part.rewrite_mirrored _ _, htold.storesOnly hk⟩

theorem Part.countUntracked_passes (h : p.Speaks c [] []) (hfault : c.rpu.fault = p.rpu.fault) :
    p.passesBy c ((c.countUntracked.raise .untracked 0).rewrite .cvt) .untracked := by
  have hcounted : p.Speaks c.countUntracked [] _ := (h.modTrl _).rewrite .trl
  refine Part.passesBy_of ?_ (hcounted.raise .untracked 0) (by simpa [Part.countUntracked] using hfault)
    (Part.mirrored_raise _ _ _ (Part.rewrite_mirrored _ _)) (by simp [News.bulletin])
  apply Part.eq_of_fields <;> simp [Part.countUntracked, up_eq]

theorem Part.turnAway_passes (h : p.Speaks c [] []) (hfault : c.rpu.fault = p.rpu.fault) :
    p.passesBy c (c.turnAway.rewrite .cvt) .countersFull := by
  have htold : p.Speaks c.turnAway [(.countersFull, 0)] _ := ((h.modTrl _).raise .countersFull 0).rewrite .trl
  refine Part.passesBy_of ?_ htold (by simpa [Part.turnAway] using hfault) (Part.rewrite_mirrored _ _)
    (by simp [News.bulletin])
  apply Part.eq_of_fields <;> simp [Part.turnAway, up_eq]

end

end Sys2Proof.Machine
end

section
/-! PROOFS. An admission (R44): the new record, its stations ahead, and what the list and the cameras are left as. -/

namespace Sys2Proof.Machine

/-! ## The new record (R28, R44) -/

/-- A distance of less than half the position range lies ahead. -/
theorem reached_ahead {n : Nat} (x : Position) (h0 : 0 < n) (h : n < 2 ^ 31) :
    Position.reached (x + counts n) x = false := by
  have hback : x - (x + counts n) = -counts n := by
    unfold counts
    bv_omega
  have hn : (counts n).toNat = n := by
    unfold counts
    rw [BitVec.toNat_ofNat]
    omega
  unfold Position.reached
  rw [hback, decide_eq_false_iff_not, BitVec.toInt_eq_toNat_cond, BitVec.toNat_neg, hn]
  split <;> omega

section
variable (f : Profile) (seq : Word) (x : Position) (t : Time) (slot : Nat) (robot : Option (Fin 6))

theorem Record.admitted_stations : (Record.admitted f seq x t slot robot).stations =
    (if robot = none then [] else [Station.robot]) ++
      ((sixes.filter fun m => decide (f.cameras[m].present = true)).map Station.camera ++
        [Station.decision, .ejector, .confirmEnd]) := by
  unfold Record.admitted Profile.stations
  dsimp only
  have hcameras : (((sixes.filter fun c => f.cameras[c].present).map Station.camera).filter
      fun s => s != .robot || robot.isSome) = (sixes.filter fun c => f.cameras[c].present).map Station.camera :=
    List.filter_eq_self.mpr fun s hs => by
      obtain ⟨c, -, rfl⟩ := List.mem_map.mp hs
      rfl
  rw [List.cons_append, List.filter_cons, List.filter_append, hcameras]
  simp only [Bool.decide_eq_true]
  cases robot <;> rfl

theorem Record.admitted_views : (Record.admitted f seq x t slot robot).views =
    Vector.ofFn fun m : Fin 6 => if f.cameras[m].present = true then some ⟨.notYet, none⟩ else none := by
  refine Vector.ext fun i hi => ?_
  rw [Vector.getElem_ofFn]
  exact Vector.getElem_map ..

/-- R28: no station of the new record is reached at its entry. -/
theorem Record.admitted_ahead (h : f.stationsAhead) :
    ∀ s ∈ (Record.admitted f seq x t slot robot).stations,
      Position.reached (f.stationOf (Record.admitted f seq x t slot robot) s) x = false := by
  obtain ⟨hrobots, hcameras, hdecision, hejector, hconfirm⟩ := h
  intro s hs
  rw [Record.admitted_stations] at hs
  have hdue (n : Nat) (hn : 0 < n ∧ n < 2 ^ 31) := reached_ahead x hn.1 hn.2
  cases s with
  | robot =>
    cases robot with
    | none => simp at hs
    | some r => exact hdue _ (hrobots r)
  | camera m => exact hdue _ (hcameras m)
  | decision => exact hdue _ hdecision
  | ejector => exact hdue _ hejector
  | confirmEnd =>
    have hsum : x + counts f.ejector + counts f.confirmSpan = x + counts (f.ejector + f.confirmSpan) := by
      unfold counts
      rw [BitVec.add_assoc, BitVec.ofNat_add]
    exact (congrArg (Position.reached · x) hsum).trans (hdue _ hconfirm)

end

/-! ## The record joins the list (R44) -/

/-- From `c` to `D` the container of sequence `nextSeq` was admitted as `r`: its record stands last in the list. -/
structure Part.Admits (c D : Part) (r : Record) : Prop where
  mtu : D.mtu = c.mtu
  cvt : D.cvt = c.cvt
  ctu : D.ctu = c.ctu
  trl : D.trl = { c.trl with
    records := c.trl.records ++ [r], nextSeq := nextSequence c.trl.nextSeq, admitted := inc32 c.trl.admitted }

section
variable {c D q : Part} {f : Profile} {slot : Nat} {robot : Option (Fin 6)}

/-- R44: the record of the container at the infeed. -/
def Part.arrival (c : Part) (f : Profile) (slot : Nat) (robot : Option (Fin 6)) : Record :=
  .admitted f c.trl.nextSeq c.cvt.highWater c.now slot robot

theorem Part.Admits.noneDue (h : c.Admits D (c.arrival f slot robot)) (hc : c.NoneDue f) (hf : f.stationsAhead) :
    D.NoneDue f where
  stations := fun x hx s hs => by
    rw [h.trl] at hx
    unfold Part.isReached
    rw [h.cvt]
    rcases List.mem_append.mp hx with hx | hx
    · exact hc.stations x hx s hs
    · obtain rfl := List.mem_singleton.mp hx
      exact Record.admitted_ahead f _ _ _ _ _ hf s hs
  watches := fun x hx => by
    rw [h.cvt] at hx
    unfold Part.isReached
    rw [h.cvt]
    exact hc.watches x hx

theorem Part.Admits.record (h : c.Admits D (c.arrival f slot robot))
    (hnew : ∀ x ∈ c.trl.records, x.seq ≠ c.trl.nextSeq) :
    D.record c.trl.nextSeq = some (c.arrival f slot robot) := by
  have hself : (c.arrival f slot robot).seq = c.trl.nextSeq := rfl
  unfold Part.record
  rw [h.trl, List.find?_append, List.find?_eq_none.mpr fun x hx => by simpa using hnew x hx]
  simp [hself]

theorem Part.Admits.ahead (h : c.Admits D (c.arrival f slot robot)) (m : Fin 6) (hf : f.stationsAhead) :
    D.isReached (c.cvt.highWater + counts f.cameras[m].station) = false := by
  unfold Part.isReached
  rw [h.cvt]
  exact reached_ahead _ (hf.2.1 m).1 (hf.2.1 m).2

section
variable (h : c.Admits D (c.arrival f slot robot)) (hnew : ∀ x ∈ c.trl.records, x.seq ≠ c.trl.nextSeq)
  (hprofile : c.cvt.profile = some f) (m : Fin 6)
include h hprofile

omit h in
theorem Part.settings_of (hD : D.cvt = c.cvt) : D.cameraSettings m = some f.cameras[m] := by
  unfold Part.cameraSettings
  rw [hD, hprofile]
  rfl

theorem Part.Admits.present : D.cameraPresent m = f.cameras[m].present := by
  unfold Part.cameraPresent
  rw [Part.settings_of hprofile m h.cvt]

include hnew

theorem Part.Admits.target : D.cameraTarget m c.trl.nextSeq =
    some (c.cvt.highWater + counts f.cameras[m].station, f.cameras[m]) := by
  rw [Part.cameraTarget_eq, h.record hnew, Part.settings_of hprofile m h.cvt]
  rfl

/-- R96: the time of the new fire, from the part before the record joined. -/
theorem Part.Admits.time : D.addedTime c.trl.nextSeq m =
    if c.cameraState m = .active ∨ c.cameraState m = .degraded then
      (c.project (c.cvt.highWater + counts f.cameras[m].station)).map (· - BitVec.ofNat 48 f.cameras[m].lead)
    else none := by
  have hstate : D.cameraState m = c.cameraState m := by
    refine Part.cameraState_congr m (by rw [h.cvt]) ?_ ?_ ?_ <;> rw [h.ctu]
  unfold Part.addedTime Part.takenTime
  rw [hstate, h.target hnew hprofile]
  unfold Part.project
  rw [h.cvt]
  rfl

end

end

/-! ## The service pitch of a container that no robot gets (R28, R79) -/

section
variable {p q : Part} {seq : Word}

theorem Part.servicePitch_none {r : Record} {f : Profile} (hr : p.record seq = some r) (hf : p.cvt.profile = some f)
    (hd : r.decision = .undecided) (hrobot : r.robot = none) :
    p.servicePitch seq = (p.setFill seq .unfilled).rewrite .rbp := by
  unfold Part.servicePitch
  simp only [hr, hf, hd, hrobot, ne_eq, not_true_eq_false, if_false]

theorem Part.servicePitch_stays (h : ∀ r, p.record seq = some r → r.robot = none) :
    p.Stays (p.servicePitch seq) ∧ (p.servicePitch seq).ctu = p.ctu := by
  unfold Part.servicePitch
  split
  next r f hr hf =>
    split
    · exact ⟨.refl p, rfl⟩
    · simp only [h r hr]
      refine ⟨(Part.Stays.modRecord (.refl p) seq _ fun x => ?_).rewrite .rbp, rfl⟩
      dsimp only
      split
      · split <;> rfl
      · rfl
  next => exact ⟨.refl p, rfl⟩

theorem Part.addFires_works (p : Part) (seq : Word) : p.Stays (p.addFires seq) ∧ p.SameTargets (p.addFires seq) := by
  have hfold (l : List (Fin 6)) (q : Part) (h : p.Stays q ∧ p.SameTargets q) :
      p.Stays (l.foldl (fun q m => q.addFire seq m) q) ∧ p.SameTargets (l.foldl (fun q m => q.addFire seq m) q) := by
    induction l generalizing q with
    | nil => exact h
    | cons a l ih =>
      have hworks := Part.addFire_works a q seq
      exact ih _ ⟨h.1.trans hworks.stays, h.2.works hworks⟩
  exact hfold sixes p ⟨.refl p, rfl, rfl, rfl⟩

/-! ## The admission (R44) -/

/-- R42: the sequence is used. -/
def Part.numbered (c : Part) : Part := c.modTrl fun t => { t with nextSeq := nextSequence t.nextSeq }

theorem Part.admitContainer_eq {c A : Part} {f : Profile} {slot : Nat} {robot : Option (Fin 6)}
    (hf : c.cvt.profile = some f) (hroom : c.trl.admitted < 4294967295)
    (hassign : c.numbered.assign = (slot, robot, A)) :
    c.admitContainer =
      if robot = none then ((A.append (c.arrival f slot robot)).addFires c.trl.nextSeq).servicePitch c.trl.nextSeq
      else (A.append (c.arrival f slot robot)).addFires c.trl.nextSeq := by
  have hassigned : (c.modTrl fun t => { t with nextSeq := nextSequence t.nextSeq }).assign = (slot, robot, A) := hassign
  unfold Part.admitContainer
  simp only [hf, hassigned]
  rw [if_neg (by omega)]
  simp only [Option.isNone_iff_eq_none]
  rfl

end

end Sys2Proof.Machine
end

section
/-! PROOFS. SamplesAreTaken: what the advance that brings the sample phase leaves (R24, R44, R75, R76, R96). -/

namespace Sys2Proof.Machine

/-! ## A pending rotation adopted on the way (R76) -/

section
variable {p c Q : Part} {b : Rbp} {x : PendingRotation} {e : InFlight}

theorem Part.turnsTo.quiet (h : c.turnsTo Q b) (hb : c.rbp.pendingRotation = b.pendingRotation) :
    Q = { c with rbp := b } := by
  rcases h with ⟨-, hQ⟩ | ⟨y, hy, hnone, -⟩
  · exact hQ
  · exact absurd (hy.symm.trans (hb.trans hnone)) (by simp)

theorem Part.turnsTo.adopts (h : c.turnsTo Q b) (hx : c.rbp.pendingRotation = some x) (hb : b.pendingRotation = none) :
    Q = { c.adoptRotation x with rbp := b } := by
  rcases h with ⟨hsame, -⟩ | ⟨y, hy, -, hQ⟩
  · exact absurd (hx.symm.trans (hsame.trans hb)) (by simp)
  · rwa [Option.some.inj (hx.symm.trans hy)]

/-- Beside the desk and the Report Unit, only the rotation changed. -/
theorem Part.turnsTo.rest (h : c.turnsTo Q b) : Q = { c with rbp := b, odk := Q.odk, rpu := Q.rpu, mem := Q.mem } ∧
    Q.rpu.fault = c.rpu.fault := by
  rcases h with ⟨-, rfl⟩ | ⟨x, -, -, rfl⟩
  · exact ⟨rfl, rfl⟩
  · exact ⟨by apply Part.eq_of_fields <;> simp, by simp⟩

/-- R76: the held ROTATION_SET completes. -/
theorem Part.adoptRotation_concludes (hx : x.ref = e.ref) (he : c.odk.holds e) :
    (c.adoptRotation x).odk = { c.odk with inflight := c.odk.without e.ref } ∧
    Memory.read (c.adoptRotation x).mem (cellBase e.ref.cell) 12 = e.result ⟨.ok, 0⟩ c.now := by
  obtain ⟨hodk, hshown, -⟩ := Part.concluded
    (c.modRbp fun b => { b with rotation := x.rotation, pendingRotation := none, cursor := 0 }) e .ok 0 he
  unfold Part.adoptRotation
  rw [hx]
  dsimp only
  generalize (c.modRbp fun b => { b with rotation := x.rotation, pendingRotation := none, cursor := 0 }).complete e.ref
    .ok 0 = C at hodk hshown ⊢
  refine ⟨by simpa using hodk, ?_⟩
  rw [Part.rewrite_cell, Part.raise_cell]
  exact hshown

theorem Part.Speaks.adoptRotation {l : Tidings} {k : List Area} (h : p.Speaks c l k) (hx : x.ref = e.ref)
    (he : c.odk.holds e) : p.Speaks (c.adoptRotation x) (l ++ [e.told, (News.rotationAdopted, 0)])
      (k ++ [Area.cell e.ref.cell, .bulletin 0, .mirror .odk, .bulletin 2, .mirror .rbp]) := by
  have htold := ((((h.modRbp fun b => { b with rotation := x.rotation, pendingRotation := none, cursor := 0 }).concluded
    he .ok 0).raise .rotationAdopted 0).rewrite .rbp)
  unfold Part.adoptRotation
  rw [hx]
  simpa [News.bulletin] using htold

end

/-! ## The part once the container is in (R44) -/

/-- R44: the container has joined the list, the cameras being `k`. -/
def Part.entered (Q : Part) (r : Record) (k : Ctu) : Part := { (Q.rewrite .rbp).append r with ctu := k }

/-- R44, R60: the part after the sample; the list still shows a container of robot NONE as PENDING. -/
def Part.received (Q : Part) (r : Record) (k : Ctu) : Part :=
  (if r.robot = none then (Q.entered r k).rewrite .rbp else Q.entered r k).rewrite .cvt

/-- R79: a container that no robot gets is UNFILLED. -/
def Record.served (r : Record) : Record := { r with fill := if r.robot = none then .unfilled else .pending }

section
variable {p Q : Part} {r : Record} {k : Ctu}

theorem Part.received_eq : Q.received r k = { Q with
    trl := { Q.trl with records := Q.trl.records ++ [r], admitted := inc32 Q.trl.admitted }, ctu := k
    rpu := (Q.received r k).rpu, mem := (Q.received r k).mem } := by
  unfold Part.received Part.entered Part.append
  split <;> (apply Part.eq_of_fields <;> simp)

theorem Part.received_mirrored :
    (Q.received r k).mirrored .trl ∧ (Q.received r k).mirrored .rbp ∧ (Q.received r k).mirrored .cvt := by
  have htrl : ((Q.rewrite .rbp).append r).mirrored .trl := Part.rewrite_mirrored _ _
  have hrbp : ((Q.rewrite .rbp).append r).mirrored .rbp :=
    Part.mirrored_rewritten ((Q.rewrite .rbp).modTrl fun t =>
      { t with records := t.records ++ [r], admitted := inc32 t.admitted }) .rbp .trl (Part.rewrite_mirrored Q .rbp)
  have hentered : (Q.entered r k).mirrored .trl ∧ (Q.entered r k).mirrored .rbp := ⟨htrl, hrbp⟩
  obtain ⟨htrl, hrbp⟩ := hentered
  unfold Part.received
  refine ⟨Part.mirrored_rewritten _ _ _ ?_, Part.mirrored_rewritten _ _ _ ?_, Part.rewrite_mirrored _ _⟩
  · split
    · exact Part.mirrored_rewritten _ _ _ htrl
    · exact htrl
  · split
    · exact Part.rewrite_mirrored _ _
    · exact hrbp

theorem Part.Speaks.received {l : Tidings} {a : List Area} (h : p.Speaks Q l a) (r : Record) (k : Ctu) :
    p.Speaks (Q.received r k) l (a ++ [Area.mirror .rbp, .mirror .trl, .mirror .rbp, .mirror .cvt]) := by
  have hjoined : p.Speaks (Q.entered r k) l _ :=
    (((h.rewrite .rbp).modTrl _).rewrite .trl).same rfl rfl rfl
  unfold Part.received
  split
  · exact ((hjoined.rewrite .rbp).rewrite .cvt).mono (by simp)
  · exact (hjoined.rewrite .cvt).mono (by simp)

theorem Part.received_fault : (Q.received r k).rpu.fault = Q.rpu.fault := by
  unfold Part.received Part.entered Part.append
  split <;> simp

theorem Part.received_cell (n : Fin 48) :
    Memory.read (Q.received r k).mem (cellBase n) 12 = Memory.read Q.mem (cellBase n) 12 := by
  have hjoined : Memory.read (Q.entered r k).mem (cellBase n) 12 = Memory.read Q.mem (cellBase n) 12 := by
    refine (Part.rewrite_cell ((Q.rewrite .rbp).modTrl fun t =>
      { t with records := t.records ++ [r], admitted := inc32 t.admitted }) .trl n).trans ?_
    exact Part.rewrite_cell Q .rbp n
  unfold Part.received
  rw [Part.rewrite_cell]
  split
  · exact (Part.rewrite_cell _ _ _).trans hjoined
  · exact hjoined

end

/-! ## The admission where no fire falls due (R44, R79, R96) -/

/-- The part with another list. -/
def Part.withTrl (p : Part) (t : Trl) : Part := { p with trl := t }

theorem Part.rewriteRbp_withTrl (p : Part) (t : Trl) : (p.withTrl t).rewrite .rbp = (p.rewrite .rbp).withTrl t := rfl

theorem Part.rewriteCvt_withTrl (p : Part) (t : Trl) : (p.withTrl t).rewrite .cvt = (p.rewrite .cvt).withTrl t := rfl

section
variable {c Q : Part} {f : Profile} {slot : Nat} {robot : Option (Fin 6)}

/-- R44: the list with the container in it as `r`. -/
def Trl.admitting (t : Trl) (r : Record) : Trl :=
  { t with records := t.records ++ [r], nextSeq := nextSequence t.nextSeq, admitted := inc32 t.admitted }

/-- R79: the record of a container that no robot gets, its service pitch over. -/
theorem Part.setFill_admitting {E : Part} (hE : E.trl = c.trl.admitting (c.arrival f slot none))
    (hnew : ∀ x ∈ c.trl.records, x.seq ≠ c.trl.nextSeq) :
    E.setFill c.trl.nextSeq .unfilled = E.withTrl (c.trl.admitting (c.arrival f slot none).served) := by
  have hothers (g : Record → Record) : c.trl.records.map (fun x => if x.seq = c.trl.nextSeq then g x else x) =
      c.trl.records := (List.map_congr_left fun x hx => if_neg (hnew x hx)).trans (List.map_id _)
  unfold Part.setFill Part.evidence
  refine Part.eq_of_fields rfl rfl ?_ rfl rfl rfl rfl rfl rfl rfl rfl rfl rfl rfl
  simp only [Part.modRecord, Part.modTrl, Part.withTrl, hE, Trl.admitting, List.map_append, hothers,
    List.map_cons, List.map_nil]
  rw [if_pos (show (c.arrival f slot none).seq = c.trl.nextSeq from rfl)]
  rfl

theorem Part.arrival_admits {A : Part} (h : c.numbered.assign = (slot, robot, A)) :
    c.Admits (A.append (c.arrival f slot robot)) (c.arrival f slot robot) := by
  have hA : c.numbered.assign.2.2 = A := by rw [h]
  have htrl : A.trl = c.numbered.trl := by
    rw [← hA]
    simp
  refine ⟨?_, ?_, ?_, ?_⟩
  · simp [Part.append, ← hA, Part.numbered]
  · simp [Part.append, ← hA, Part.numbered]
  · simp [Part.append, ← hA, Part.numbered]
  · simp [Part.append, htrl, Part.numbered]

theorem Part.admission_quiet (hf : c.cvt.profile = some f) (hroom : c.trl.admitted < 4294967295)
    (hnew : ∀ x ∈ c.trl.records, x.seq ≠ c.trl.nextSeq) (h : c.numbered.assign = (slot, robot, Q.rewrite .rbp))
    (hwaits : ∀ m, ((Q.rewrite .rbp).append (c.arrival f slot robot)).fireWaits c.trl.nextSeq m) :
    c.admitContainer.rewrite .cvt = (Q.received (c.arrival f slot robot) ⟨Vector.ofFn fun m : Fin 6 =>
      ((Q.rewrite .rbp).append (c.arrival f slot robot)).joinedBy c.trl.nextSeq m c.ctu.cameras[m]⟩).withTrl
        (c.trl.admitting (c.arrival f slot robot).served) := by
  have hadmits := Part.arrival_admits (f := f) h
  have hfires := Part.addFires_quiet ⟨rfl, rfl, rfl⟩ rfl hwaits
  rw [hadmits.ctu] at hfires
  rw [Part.admitContainer_eq hf hroom h, hfires]
  generalize (Vector.ofFn fun m : Fin 6 =>
      ((Q.rewrite .rbp).append (c.arrival f slot robot)).joinedBy c.trl.nextSeq m c.ctu.cameras[m]) = k
  let E : Part := Q.entered (c.arrival f slot robot) ⟨k⟩
  change (if robot = none then E.servicePitch c.trl.nextSeq else E).rewrite .cvt = _
  have hE : E.trl = c.trl.admitting (c.arrival f slot robot) := hadmits.trl
  have hrecord : E.record c.trl.nextSeq = some (c.arrival f slot robot) := hadmits.record hnew
  have hprofile : E.cvt.profile = some f := (congrArg Cvt.profile hadmits.cvt).trans hf
  have hreceived : Q.received (c.arrival f slot robot) ⟨k⟩ =
      (if robot = none then E.rewrite .rbp else E).rewrite .cvt := rfl
  rw [hreceived]
  clear_value E
  cases robot with
  | none =>
    rw [if_pos rfl, if_pos rfl, Part.servicePitch_none hrecord hprofile rfl rfl, Part.setFill_admitting hE hnew,
      Part.rewriteRbp_withTrl, Part.rewriteCvt_withTrl]
  | some i =>
    have hserved : (c.arrival f slot (some i)).served = c.arrival f slot (some i) := rfl
    rw [if_neg (by simp), if_neg (by simp), hserved, ← hE]
    rfl

end

end Sys2Proof.Machine
end

section
/-! PROOFS. SamplesAreTaken, put together (R24, R44, R45, R58, R75, R76, R96). -/

namespace Sys2Proof.Machine

/-! ## Nothing more is due (R28) -/

section
variable {c : Part} {f : Profile}

/-- Once the record has joined the list and the cameras have its fires, high-water, the watches and the places of the
records stand, and no camera changes. -/
theorem Part.admission_stays {slot : Nat} {robot : Option (Fin 6)} {A : Part} (hf : c.cvt.profile = some f)
    (hroom : c.trl.admitted < 4294967295) (hnew : ∀ x ∈ c.trl.records, x.seq ≠ c.trl.nextSeq)
    (hassign : c.numbered.assign = (slot, robot, A)) :
    let D := A.append (c.arrival f slot robot)
    D.Stays (c.admitContainer.rewrite .cvt) ∧
      (c.admitContainer.rewrite .cvt).ctu = (D.addFires c.trl.nextSeq).ctu := by
  intro D
  obtain ⟨hstays, hplaces⟩ := D.addFires_works c.trl.nextSeq
  suffices h : D.Stays c.admitContainer ∧ c.admitContainer.ctu = (D.addFires c.trl.nextSeq).ctu from
    ⟨h.1.rewrite .cvt, h.2⟩
  rw [Part.admitContainer_eq hf hroom hassign]
  split
  next hrobot =>
    obtain ⟨hpitch, hctu⟩ := Part.servicePitch_stays (p := D.addFires c.trl.nextSeq)
      (seq := c.trl.nextSeq) fun x hx => by
      have hplace := Part.record_place hplaces.records c.trl.nextSeq
      rw [hx, (Part.arrival_admits hassign).record hnew] at hplace
      exact (congrArg (fun y => y.2.1) (Option.some.inj hplace)).trans hrobot
    exact ⟨hstays.trans hpitch, hctu⟩
  next => exact ⟨hstays, rfl⟩

theorem Part.admission_noneDue (hf : c.cvt.profile = some f) (hroom : c.trl.admitted < 4294967295)
    (hnew : ∀ x ∈ c.trl.records, x.seq ≠ c.trl.nextSeq) (hahead : f.stationsAhead) (hc : c.NoneDue f) :
    (c.admitContainer.rewrite .cvt).NoneDue f := by
  obtain ⟨⟨slot, robot, A⟩, hassign⟩ : ∃ a, c.numbered.assign = a := ⟨_, rfl⟩
  exact (Part.admission_stays hf hroom hnew hassign).1.quiet ((Part.arrival_admits hassign).noneDue hc hahead)

/-- R44, R79: the record that stands in the list after the sample. -/
theorem Part.arrival_served (slot : Nat) (robot : Option (Fin 6)) : (c.arrival f slot robot).served =
    { seq := c.trl.nextSeq, entryPos := c.cvt.highWater, entryTime := c.now, slot := slot, robot := robot
      fill := if robot = none then .unfilled else .pending
      views := Vector.ofFn fun m : Fin 6 => if f.cameras[m].present = true then some ⟨.notYet, none⟩ else none
      marked := false, stepped := false, decision := .undecided
      causes := ⟨false, false, false, false, false, false⟩, eject := .none
      stations := (if robot = none then [] else [.robot]) ++
        ((sixes.filter fun m => decide (f.cameras[m].present = true)).map Station.camera ++
          [.decision, .ejector, .confirmEnd]) } := by
  rw [← Record.admitted_views f c.trl.nextSeq c.cvt.highWater c.now slot robot,
    ← Record.admitted_stations f c.trl.nextSeq c.cvt.highWater c.now slot robot]
  rfl

theorem Trl.admitting_eq {t : Trl} (r : Record) (hroom : t.admitted < 4294967295) : t.admitting r = { t with
    records := t.records ++ [r], nextSeq := if t.nextSeq = 4294967295 then 1 else t.nextSeq + 1
    admitted := t.admitted + 1 } := by
  have hcount : inc32 t.admitted = t.admitted + 1 := if_pos hroom
  unfold Trl.admitting
  rw [hcount]
  rfl

end

/-! ## The admission leaves (R44, R75, R76, R96) -/

section
variable {p c Q q : Part} {r : Record} {t : Trl} {k : Ctu} {b : Rbp}

/-- Only the list, the rotation, the cameras, the desk and the Report Unit changed. -/
theorem Part.received_rest (hnumbered : c.numbered.turnsTo Q b) :
    let q := (Q.received r k).withTrl t
    q = { c with trl := t, rbp := q.rbp, ctu := q.ctu, odk := q.odk, rpu := q.rpu, mem := q.mem } := by
  have hR := Part.received_eq (Q := Q) (r := r) (k := k)
  obtain ⟨o, u, m, rfl⟩ : ∃ o u m, Q = { c.numbered with rbp := b, odk := o, rpu := u, mem := m } :=
    ⟨_, _, _, hnumbered.rest.1⟩
  rw [hR]
  rfl

/-- The part after the admission, the rotation standing as `b`, whatever the list says of the container. -/
theorem Part.received_leaves (hp : p.Speaks c [] []) (hfault : c.rpu.fault = p.rpu.fault) (hodk : c.odk = p.odk)
    (hnumbered : c.numbered.turnsTo Q b) :
    let q := (Q.received r k).withTrl t
    q.rbp = b ∧ q.ctu = k ∧
    q = { c with trl := t, rbp := q.rbp, ctu := q.ctu, odk := q.odk, rpu := q.rpu, mem := q.mem } ∧
    (q.withTrl (c.trl.admitting r)).mirrored .trl ∧ q.mirrored .rbp ∧ q.mirrored .cvt ∧
    (c.rbp.pendingRotation = b.pendingRotation → q.odk = p.odk ∧ p.tells q [] ∧
      Memory.storesOnly p.mem q.mem [.mirror .trl, .mirror .rbp, .mirror .cvt]) ∧
    (∀ (x : PendingRotation) (e : InFlight), c.rbp.pendingRotation = some x → b.pendingRotation = none →
      x.ref = e.ref → p.odk.holds e →
      p.concludes q e .ok ∧ p.tells q [e.told, (.rotationAdopted, 0)] ∧
      Memory.storesOnly p.mem q.mem
        [.cell e.ref.cell, .bulletin 0, .bulletin 2, .mirror .odk, .mirror .trl, .mirror .rbp, .mirror .cvt]) := by
  obtain ⟨hQ, hQfault⟩ := hnumbered.rest
  have hnow : p.Speaks c.numbered [] [] := hp.modTrl _
  have hR := Part.received_eq (Q := Q) (r := r) (k := k)
  have hrbp : Q.rbp = b := by rw [hQ]
  have ht : (Q.received r k).trl = c.trl.admitting r := by
    rw [hR, (congrArg Part.trl hQ :)]
    rfl
  have hrest := Part.received_rest (r := r) (k := k) (t := t) hnumbered
  have hfault : (Q.received r k).rpu.fault = p.rpu.fault := Part.received_fault.trans (hQfault.trans hfault)
  have hmirrors := Part.received_mirrored (Q := Q) (r := r) (k := k)
  have hspeaks {l : Tidings} {a : List Area} (h : p.Speaks Q l a) := h.received r k
  have hcell := Part.received_cell (Q := Q) (r := r) (k := k)
  generalize Q.received r k = R at *
  obtain ⟨htrlShown, hrbpShown, hcvtShown⟩ := hmirrors
  intro q
  have htold {l : Tidings} {a j : List Area} (h : p.Speaks Q l a)
      (hj : a ++ [Area.mirror .rbp, .mirror .trl, .mirror .rbp, .mirror .cvt] ⊆ j) :
      p.tells q l ∧ Memory.storesOnly p.mem q.mem j :=
    ⟨(hspeaks h).tells hfault, (hspeaks h).storesOnly hj⟩
  have hqodk : q.odk = Q.odk := (congrArg Part.odk hR :)
  refine ⟨?_, ?_, ?_, ?_, hrbpShown, hcvtShown, fun hsame => ?_, fun x e hx hb he hholds => ?_⟩
  · exact (congrArg Part.rbp hR).trans hrbp
  · exact congrArg Part.ctu hR
  · exact hrest
  · rw [← ht]
    exact htrlShown
  · have hsaid : p.Speaks Q [] [] := by
      rw [hnumbered.quiet hsame]
      exact hnow.same rfl rfl rfl
    exact ⟨hqodk.trans (by rw [hnumbered.quiet hsame]; exact hodk), htold hsaid (by simp)⟩
  · have hadopts := hnumbered.adopts hx hb
    have hnholds : c.numbered.odk.holds e := by rw [show c.numbered.odk = p.odk from hodk]; exact hholds
    obtain ⟨hconcluded, hshown⟩ := Part.adoptRotation_concludes he hnholds
    have hsaid := (hnow.adoptRotation he hnholds).same (r := Q) (by rw [hadopts]) (by rw [hadopts]) (by rw [hadopts])
    have hqmem : q.mem = R.mem := rfl
    refine ⟨⟨hqodk.trans ?_, ?_⟩, htold hsaid (by simp)⟩
    · rw [hadopts]
      exact hconcluded.trans (by rw [show c.numbered.odk = p.odk from hodk])
    · unfold Part.shows
      rw [hqmem, hcell, hadopts]
      exact hshown.trans (by rw [hnow.now, show q.now = p.now from (hspeaks hsaid).now])

end

/-! ## The sample on an advance (R24) -/

section
variable {c : Part} {f : Profile} {slot : Nat} {robot : Option (Fin 6)} {A : Part}

/-- R96: a new fire waits where the projection, if there is one, gives a time that is not reached. -/
theorem Part.Admits.waits {D : Part} (h : c.Admits D (c.arrival f slot robot)) (hf : c.cvt.profile = some f)
    (hnew : ∀ x ∈ c.trl.records, x.seq ≠ c.trl.nextSeq) (hahead : f.stationsAhead) (m : Fin 6)
    (hfree : ∀ x ∈ c.ctu.cameras[m].schedule, x.seq ≠ c.trl.nextSeq)
    (hlater : f.cameras[m].present = true → ∀ t, D.addedTime c.trl.nextSeq m = some t → (c.now - t).toInt < 0) :
    D.fireWaits c.trl.nextSeq m := fun hpresent =>
  ⟨⟨_, h.target hnew hf m, h.ahead m hahead⟩, fun t ht => by
    rw [show D.now = c.now from congrArg Mtu.time h.mtu]
    exact hlater ((h.present hf m).symm.trans hpresent) t ht, by rw [h.ctu]; exact hfree⟩

/-- R96: the camera once its fire has joined. -/
theorem Part.Admits.joined {D : Part} (h : c.Admits D (c.arrival f slot robot)) (hf : c.cvt.profile = some f)
    (m : Fin 6)
    (k : Camera) : D.joinedBy c.trl.nextSeq m k = if f.cameras[m].present = true then
      { k with schedule := k.schedule ++ [⟨c.trl.nextSeq, D.addedTime c.trl.nextSeq m, false⟩] } else k := by
  unfold Part.joinedBy
  rw [h.present hf m]

end

/-- Settles O17. -/
theorem samplesAreTaken : Obligations.SamplesAreTaken := by
  unfold Obligations.SamplesAreTaken
  intro p w f was pair infeed choices h c count passesBy
  have hf : c.cvt.profile = some f := h.2.2.2.1
  have hnone : c.NoneDue f := Part.advances_noneDue h (.inl rfl)
  have hp : p.Speaks c [] [] := .refl_of rfl rfl rfl
  have hq {q : Part} (hsample : c.sample = q) (hstays : c.Stays q) : p.encoderPair pair infeed choices = q :=
    (Part.advances_sample choices h (hsample ▸ hstays.quiet hnone)).trans hsample
  refine ⟨fun hgap => ?_, fun hin ht => ?_, fun hin ht hfull => ?_,
    fun hin ht hroom hahead hnew hfree hcursor hlive hpending => ?_⟩
  · refine Part.encoderCount_leads w (hq (Part.sample_gap (c := c) hgap) ((Part.Stays.refl c).rewrite .cvt))
      ⟨rfl, (hp.rewrite .cvt).tells rfl, Part.rewrite_mirrored _ _, (hp.rewrite .cvt).storesOnly (by simp)⟩
  · have hstays : c.Stays ((c.countUntracked.raise .untracked 0).rewrite .cvt) :=
      ⟨rfl, fun _ hx => hx, fun x hx => ⟨x, hx, rfl⟩⟩
    exact Part.encoderCount_leads w (hq (Part.sample_untracked (c := c) hin ht) hstays)
      (Part.countUntracked_passes hp rfl)
  · have hstays : c.Stays (c.turnAway.rewrite .cvt) := ⟨rfl, fun _ hx => hx, fun x hx => ⟨x, hx, rfl⟩⟩
    exact Part.encoderCount_leads w
      (hq ((Part.sample_tracking (c := c) hin ht).trans
        (congrArg (Part.rewrite · .cvt) (Part.admitContainer_full (c := c) hf hfull))) hstays)
      (Part.turnAway_passes hp rfl)
  · intro seq entry present fires time
    have hsample := (Part.advances_sample choices h (by
      rw [Part.sample_tracking (c := c) hin ht]
      exact Part.admission_noneDue hf hroom hnew hahead hnone)).trans (Part.sample_tracking (c := c) hin ht)
    refine ⟨fun slot robot b hassigns hlater => ?_, fun m t hpresent ht hlate hk => ?_⟩
    · intro r
      obtain ⟨Q, hturns, hassign⟩ := Part.assign_turns (p := c.numbered) ⟨hcursor, hlive, hpending⟩ hassigns
      have hadmits := Part.arrival_admits (f := f) hassign
      have htime (m : Fin 6) : _ = time m := hadmits.time hnew hf m
      have hwaits (m : Fin 6) := hadmits.waits hf hnew hahead m (hfree m) fun hpresent t ht =>
        hlater m t hpresent ((htime m).symm.trans ht)
      have hserved : (c.arrival f slot robot).served = r := Part.arrival_served slot robot
      have hq := hsample.trans (Part.admission_quiet hf hroom hnew hassign hwaits)
      simp only [hadmits.joined hf, htime] at hq
      rw [hserved] at hq
      obtain ⟨hrbp, hctu, hrest, hlist, hmirrors⟩ := Part.received_leaves (r := c.arrival f slot robot)
        (t := c.trl.admitting r) (k := _) hp rfl rfl hturns
      refine Part.encoderCount_leads w hq ⟨Trl.admitting_eq r hroom, hrbp, hctu, hrest, ?_, hmirrors⟩
      have hpending : ({ r with fill := .pending } : Record) = c.arrival f slot robot :=
        congrArg (fun x : Record => { x with fill := .pending }) hserved.symm
      rw [hpending]
      exact hlist
    · obtain ⟨⟨slot, robot, A⟩, hassign⟩ : ∃ a, c.numbered.assign = a := ⟨_, rfl⟩
      have hadmits := Part.arrival_admits (f := f) hassign
      have hnow : (A.append (c.arrival f slot robot)).now = p.now := congrArg Mtu.time hadmits.mtu
      obtain ⟨hoff, hon⟩ := Part.addFires_reached (p := A.append (c.arrival f slot robot)) (m := m) ⟨rfl, rfl, rfl⟩ rfl
        ((hadmits.present hf m).trans hpresent) (hadmits.target hnew hf m) (hadmits.ahead m hahead)
        ((hadmits.time hnew hf m).trans ht) (by rw [hnow]; exact hlate) (by rw [hadmits.ctu]; exact hk)
      have hctu := (Part.admission_stays hf hroom hnew hassign).2
      rw [hadmits.ctu, hnow] at hoff
      rw [hadmits.ctu] at hon
      refine Part.encoderCount_leads w hsample ?_
      dsimp only
      rw [hctu]
      refine ⟨fun hpulse => ?_, fun hpulse => ?_⟩
      · obtain ⟨hschedule, hpulse', htag, htriggers⟩ := Camera.output_iff.mp (hoff hpulse)
        exact ⟨hschedule, htag, hpulse', htriggers⟩
      · generalize ((A.append (c.arrival f slot robot)).addFires c.trl.nextSeq).ctu = d at hon
        exact (Ctu.put_self d m).symm.trans (congrArg (d.put m) (hon hpulse))

end Sys2Proof.Machine
end

section
/-! PROOFS. MARK_REJECT and COUNTERS_CLEAR (R50, R59). -/

namespace Sys2Proof.Machine

/-! ## MARK_REJECT (R50) -/

/-- R50: the record of `seq` marked; the mirror record shows it where the head of the list was not marked before. -/
def Part.rejectMarked (p : Part) (seq : Word) (shows : Bool) : Part :=
  let set := p.modRecord seq fun x => { x with marked := true }
  if shows then set.rewrite .trl else set

theorem Part.markRejectOrder_marks {p : Part} {seq : Word} {r : Record} (ref : OrderRef) (h : p.record seq = some r)
    (hd : r.decision = .undecided) :
    p.markRejectOrder ref seq = (p.rejectMarked seq (!r.marked && p.isHead seq)).complete ref .ok 0 := by
  unfold Part.markRejectOrder
  rw [h]
  exact if_pos hd

/-- R50: a record that is decided, or absent. -/
theorem Part.markRejectOrder_stale {p : Part} {seq : Word} (ref : OrderRef)
    (h : ∀ r, p.record seq = some r → r.decision ≠ .undecided) :
    p.markRejectOrder ref seq = p.complete ref .stale 0 := by
  unfold Part.markRejectOrder
  cases hr : p.record seq with
  | none => rfl
  | some r => exact if_neg (h r hr)

theorem Part.rejectMarked_trl (p : Part) (seq : Word) (shows : Bool) : (p.rejectMarked seq shows).trl =
    { p.trl with records := p.trl.records.map fun x => if x.seq = seq then { x with marked := true } else x } := by
  cases shows <;> rfl

theorem Part.Speaks.rejectMarked {p q : Part} {l : Tidings} {k : List Area} (h : p.Speaks q l k) (seq : Word)
    (shows : Bool) : p.Speaks (q.rejectMarked seq shows) l (k ++ [.mirror .trl]) := by
  have hset : p.Speaks (q.modRecord seq fun x => { x with marked := true }) l k := h.same rfl rfl rfl
  cases shows with
  | true => exact hset.rewrite .trl
  | false =>
    have hquiet (x : Part) : x.Speaks x [] [.mirror .trl] := ⟨rfl, rfl, rfl, fun _ _ _ hs => hs⟩
    simpa [Part.rejectMarked] using hset.trans (hquiet _)

/-- R50: MARK_REJECT of an UNDECIDED record. -/
theorem Part.markReject_marks {p : Part} {n : Fin 48} {seq : Word} {r : Record} (h : p.canTake n (.markReject seq))
    (hr : p.record seq = some r) (hd : r.decision = .undecided) :
    let q := p.takeAs n (.markReject seq)
    q.trl = { p.trl with
      records := p.trl.records.map fun x => if x.seq = seq then { x with marked := true } else x } ∧
    q = { p with trl := q.trl, odk := q.odk, rpu := q.rpu, mem := q.mem } ∧ p.answers q n .ok ∧ p.tells q [] ∧
    Memory.storesOnly p.mem q.mem [.cell n, .mirror .trl, .mirror .odk] := by
  intro q
  obtain ⟨shows, hperform⟩ : ∃ shows, (p.markTaken n).perform (p.nextRef n) (.markReject seq) =
      ((p.markTaken n).rejectMarked seq shows).complete (p.nextRef n) .ok 0 :=
    ⟨_, Part.markRejectOrder_marks (p := p.markTaken n) (p.nextRef n) hr hd⟩
  obtain ⟨hanswers, hs⟩ := Part.answered_at_once h _ .ok 0 hperform (by cases shows <;> rfl)
  have htold := (((Part.Speaks.refl p).markTaken n).rejectMarked seq shows).settled hs
  have htrl : q.trl = _ := hs.trl.trans ((p.markTaken n).rejectMarked_trl seq shows)
  refine ⟨htrl, hs.eq.trans ?_, hanswers, htold.tells (hs.fault.trans ?_), htold.storesOnly (by simp)⟩
  · rw [htrl]
    cases shows <;> rfl
  · cases shows <;> rfl

/-! ## COUNTERS_CLEAR (R59) -/

/-- R59: the part once it has told that its counters are cleared. -/
def Part.countersTold (p : Part) : Part :=
  (((((p.clearCounts.raise .countersCleared 0).rewrite .trl).rewrite .cvt).rewrite .rbp).rewrite .ctu).rewrite .rej

theorem Part.countersTold_only (p : Part) :
    p.countersTold = { p.clearCounts with rpu := p.countersTold.rpu, mem := p.countersTold.mem } := rfl

theorem Part.countersTold_fault (p : Part) : p.countersTold.rpu.fault = p.rpu.fault := rfl

theorem Part.Speaks.countersTold {p q : Part} {k : List Area} (h : p.Speaks q [] k) :
    p.Speaks q.countersTold [(.countersCleared, 0)]
      (k ++ [.bulletin 1, .mirror .trl, .mirror .cvt, .mirror .rbp, .mirror .ctu, .mirror .rej]) := by
  have hcleared : p.Speaks q.clearCounts [] k := h.same rfl rfl rfl
  simpa [News.bulletin, Part.countersTold] using
    (((((hcleared.raise .countersCleared 0).rewrite .trl).rewrite .cvt).rewrite .rbp).rewrite .ctu).rewrite .rej

theorem Part.countersClearOrder_clears {p : Part} (ref : OrderRef) (h : p.cvt.tracker = .ready) :
    p.countersClearOrder ref = p.countersTold.complete ref .ok 0 := by
  unfold Part.countersClearOrder
  exact if_pos h

theorem Part.countersClearOrder_refused {p : Part} (ref : OrderRef) (h : p.cvt.tracker ≠ .ready) :
    p.countersClearOrder ref = p.complete ref .state 0 := by
  unfold Part.countersClearOrder
  exact if_neg h

/-- R59: COUNTERS_CLEAR in READY. -/
theorem Part.countersClear_clears {p : Part} {n : Fin 48} (h : p.canTake n .countersClear)
    (ht : p.cvt.tracker = .ready) :
    let q := p.takeAs n .countersClear
    let c := p.clearCounts
    (q.trl = c.trl ∧ q.cvt = c.cvt ∧ q.rbp = c.rbp ∧ q.ctu = c.ctu ∧ q.rej = c.rej) ∧
    q = { p with trl := q.trl, cvt := q.cvt, rbp := q.rbp, ctu := q.ctu, rej := q.rej, odk := q.odk, rpu := q.rpu
                 mem := q.mem } ∧
    p.answers q n .ok ∧ p.tells q [(.countersCleared, 0)] ∧
    Memory.storesOnly p.mem q.mem
      [.cell n, .bulletin 1, .mirror .trl, .mirror .cvt, .mirror .rbp, .mirror .ctu, .mirror .rej, .mirror .odk] := by
  intro q c
  obtain ⟨hanswers, hs⟩ := Part.answered_at_once h _ .ok 0
    (Part.countersClearOrder_clears (p := p.markTaken n) (p.nextRef n) ht) rfl
  have htold := ((Part.Speaks.refl p).markTaken n).countersTold.settled hs
  have heq : q = { c with odk := q.odk, rpu := q.rpu, mem := q.mem } := by
    refine hs.eq.trans ?_
    rw [(p.markTaken n).countersTold_only]
    rfl
  have htrl : q.trl = c.trl := hs.trl
  have hcvt : q.cvt = c.cvt := hs.cvt
  have hrbp : q.rbp = c.rbp := hs.rbp
  have hctu : q.ctu = c.ctu := hs.ctu
  have hrej : q.rej = c.rej := hs.rej
  refine ⟨⟨htrl, hcvt, hrbp, hctu, hrej⟩, ?_, hanswers, htold.tells (hs.fault.trans ?_), htold.storesOnly (by simp)⟩
  · rw [htrl, hcvt, hrbp, hctu, hrej]
    exact heq
  · exact (p.markTaken n).countersTold_fault

/-- Settles O20. -/
theorem markRejectAndCountersClear : Obligations.MarkRejectAndCountersClear := by
  unfold Obligations.MarkRejectAndCountersClear
  constructor
  · intro p w n seq h
    refine ⟨fun r hr hd => ⟨_, rfl, Part.markReject_marks h hr hd⟩, fun hstale => ⟨_, rfl, ?_⟩⟩
    exact Part.refused_of h .stale 0 (Part.markRejectOrder_stale (p := p.markTaken n) (p.nextRef n) hstale)
  · intro p w n h
    refine ⟨fun ht => ⟨_, rfl, ?_⟩, fun ht => ⟨_, rfl, ?_⟩⟩
    · obtain ⟨⟨htrl, hcvt, hrbp, hctu, hrej⟩, hrest⟩ := Part.countersClear_clears h ht
      exact ⟨htrl, hcvt, hrbp, hctu, hrej, hrest⟩
    · exact Part.refused_of h .state 0 (Part.countersClearOrder_refused (p := p.markTaken n) (p.nextRef n) ht)

end Sys2Proof.Machine
end

section
/-! PROOFS. The decision point (R47, R84, R103): what the closing of a record's evidence leaves where it stands,
whatever it sets off at the cameras, the robot and the zones. -/

namespace Sys2Proof.Machine

/-- R104: the camera stands degraded for missed verdicts, its awaiting list given up. -/
def Camera.missedOut (k : Camera) : Prop :=
  k.degraded = true ∧ k.degradeCause = some .missedVerdicts ∧ k.missedRun = 0 ∧ k.awaiting = []

/-- From `p` to `q` high-water, the watches and the records' places stand, and so does a camera degraded for missed
verdicts. -/
structure Part.Trails (p q : Part) : Prop extends Part.Stays p q where
  out : ∀ m : Fin 6, p.ctu.cameras[m].missedOut → q.ctu.cameras[m].missedOut

/-- R92: a degraded camera does not await verdicts. -/
theorem Part.cameraState_missedOut {p : Part} {c : Fin 6} (h : p.ctu.cameras[c].missedOut) :
    p.cameraState c ≠ .active := by
  obtain ⟨hdegraded, -⟩ := h
  unfold Part.cameraState
  rw [hdegraded]
  (repeat' split) <;> simp_all

section
variable {p q r : Part}

theorem Part.Trails.trans (h : p.Trails q) (k : q.Trails r) : p.Trails r :=
  ⟨h.toStays.trans k.toStays, fun m hm => k.out m (h.out m hm)⟩

theorem Part.Stays.trails (h : p.Stays q) (hctu : q.ctu = p.ctu) : p.Trails q := ⟨h, fun m hm => by rw [hctu]; exact hm⟩

/-- Other blocks change. -/
theorem Part.Trails.of_eq (hc : q.cvt = p.cvt) (ht : q.trl = p.trl) (hctu : q.ctu = p.ctu) : p.Trails q :=
  (Part.Stays.of_eq hc ht).trails hctu

theorem Part.Trails.refl (p : Part) : p.Trails p := .of_eq rfl rfl rfl

theorem Part.Trails.rewrite (h : p.Trails q) (m : MirrorId) : p.Trails (q.rewrite m) := h.trans (.of_eq rfl rfl rfl)
theorem Part.Trails.raise (h : p.Trails q) (n : News) (member : Byte) : p.Trails (q.raise n member) :=
  h.trans (.of_eq rfl rfl rfl)
theorem Part.Trails.modZone (h : p.Trails q) (z : Fin 8) (g : Zone → Zone) : p.Trails (q.modZone z g) :=
  h.trans (.of_eq rfl rfl rfl)
theorem Part.Trails.modRobot (h : p.Trails q) (i : Fin 6) (g : Robot → Robot) : p.Trails (q.modRobot i g) :=
  h.trans (.of_eq rfl rfl rfl)
theorem Part.Trails.completeIf (h : p.Trails q) (ref : Option OrderRef) (r : Result) (d : Byte) :
    p.Trails (q.completeIf ref r d) := h.trans (.of_eq (by simp) (by simp) (by simp))
theorem Part.Trails.handOutcome (h : p.Trails q) (kind : Byte) (body : List Byte) :
    p.Trails (q.handOutcome kind body) := h.trans (.of_eq (by simp) (by simp) (by simp))

theorem Part.Trails.modRecord (h : p.Trails q) (seq : Word) (g : Record → Record) (hg : ∀ x, (g x).place = x.place) :
    p.Trails (q.modRecord seq g) := h.trans (((Part.Stays.refl q).modRecord seq g hg).trails rfl)

theorem Part.Trails.evidence (h : p.Trails q) (seq : Word) (g : Record → Record) (hg : ∀ x, (g x).place = x.place) :
    p.Trails (q.evidence seq g) :=
  h.modRecord seq _ fun x => by
    split
    · exact hg x
    · rfl

theorem Part.Trails.setVerdict (h : p.Trails q) (seq : Word) (c : Fin 6) (v : Verdict) :
    p.Trails (q.setVerdict seq c v) := h.evidence seq _ fun _ => rfl

theorem Part.Trails.setTrigger (h : p.Trails q) (seq : Word) (c : Fin 6) (t : Time) :
    p.Trails (q.setTrigger seq c t) := h.evidence seq _ fun _ => rfl

theorem Part.Trails.setFill (h : p.Trails q) (seq : Word) (v : FillResult) : p.Trails (q.setFill seq v) :=
  h.evidence seq _ fun x => by split <;> rfl

theorem Part.Trails.fold {α : Type} (h : p.Trails q) (l : List α) (g : Part → α → Part)
    (hg : ∀ q a, Part.Trails q (g q a)) : p.Trails (l.foldl g q) := by
  induction l generalizing q with
  | nil => exact h
  | cons a l ih => exact ih (h.trans (hg q a))

/-- One camera has worked; a camera degraded for missed verdicts is still that. -/
theorem Part.Works.trails {c : Fin 6} (h : p.Works c q)
    (hc : p.ctu.cameras[c].missedOut → q.ctu.cameras[c].missedOut) : p.Trails q where
  toStays := h.stays
  out := fun m hm => by
    by_cases hmc : m = c
    · subst hmc
      exact hc hm
    · rw [h.others m hmc]
      exact hm

theorem Part.Trails.modCamera (h : p.Trails q) (c : Fin 6) (g : Camera → Camera)
    (hg : ∀ k, k.missedOut → (g k).missedOut := by exact fun _ => id) : p.Trails (q.modCamera c g) := by
  refine h.trans ⟨.of_eq rfl rfl, fun m hm => ?_⟩
  by_cases hmc : m = c
  · subst hmc
    rw [show (q.modCamera m g).ctu.cameras[m] = g q.ctu.cameras[m] from modAt_self _ _ _]
    exact hg _ hm
  · rw [show (q.modCamera c g).ctu.cameras[m] = q.ctu.cameras[m] from modAt_other _ _ hmc]
    exact hm

theorem Part.Trails.noVerdict (h : p.Trails q) (seq : Word) (c : Fin 6) : p.Trails (q.noVerdict seq c) :=
  ((h.setVerdict seq c .noVerdict).modCamera c fun k => { k with counters := { k.counters with
    noVerdict := inc32 k.counters.noVerdict } }).rewrite .ctu

end

/-! ## The cameras -/

theorem Part.emptyAwaiting_trails (p : Part) (c : Fin 6) : p.Trails (p.emptyAwaiting c) := by
  unfold Part.emptyAwaiting
  refine Part.Trails.fold ((Part.Trails.refl p).modCamera c _ fun k hk => ?_) _ _ fun q seq =>
    (Part.Trails.refl q).noVerdict seq c
  obtain ⟨hdegraded, hcause, hrun, -⟩ := hk
  exact ⟨hdegraded, hcause, hrun, rfl⟩

/-- A fire that happens at a camera that is not ACTIVE moves neither its awaiting list nor its missed run (R97). -/
theorem Part.happen_trails (p : Part) (c : Fin 6) : p.Trails (p.happen c) := by
  refine (Part.happen_works c p).trails fun hm => ?_
  have hidle := Part.cameraState_missedOut hm
  unfold Part.happen
  split
  next x rest k _ _ =>
    simp only [hidle, if_false]
    exact (((Part.Trails.refl p).modCamera c fun m => { m with
      schedule := rest, pulse := some ⟨p.now + BitVec.ofNat 48 k.width, !k.activeLow⟩, lastTag := tagOf x.seq
      counters := { m.counters with triggers := inc32 m.counters.triggers } }).setTrigger x.seq c p.now).out c hm
  next => exact hm

theorem Part.fallDue_trails (p : Part) (c : Fin 6) (seq : Word) : p.Trails (p.fallDue c seq) := by
  have hmarked := (Part.Trails.refl p).modCamera c fun k => { k with schedule := markThrough seq k.schedule }
  unfold Part.fallDue
  split
  · dsimp only
    split
    · exact hmarked.trans (Part.happen_trails _ c)
    · exact hmarked
  · exact .refl p

theorem Part.takeFire_trails (p : Part) (c : Fin 6) (seq : Word) : p.Trails (p.takeFire c seq) := by
  have htimed (t : Option Time) : p.Trails (p.setFireTime c seq t) := (Part.Trails.refl p).modCamera c _
  unfold Part.takeFire
  split
  · exact .refl p
  · split
    · exact p.fallDue_trails c seq
    · split
      · exact htimed none
      · dsimp only
        split
        · exact (htimed _).trans (Part.fallDue_trails _ c seq)
        · exact htimed _

theorem Part.cameraChanged_trails (p : Part) (c : Fin 6) (before : CameraState) :
    p.Trails (p.cameraChanged c before) := by
  have hemptied : p.Trails (if before = .active then p.emptyAwaiting c else p) := by
    split
    · exact p.emptyAwaiting_trails c
    · exact .refl p
  unfold Part.cameraChanged
  dsimp only
  split
  · exact .refl p
  · split
    · exact ((hemptied.modCamera c _).raise _ _).rewrite .ctu
    · split
      · exact ((hemptied.raise _ _).rewrite .ctu).fold _ _ fun q seq => q.takeFire_trails c seq
      · split
        · exact (hemptied.raise _ _).rewrite .ctu
        · exact hemptied

theorem Part.zoneService_trails (p : Part) (c : Fin 6) (on : Bool) : p.Trails (p.zoneService c on) := by
  unfold Part.zoneService Part.setCameraFlags
  dsimp only
  split
  · exact .refl p
  · exact (((Part.Trails.refl p).modCamera c _).trans (Part.cameraChanged_trails _ c _)).rewrite .ctu

theorem Part.zoneServiceAll_trails (p : Part) (z : Fin 8) (on : Bool) : p.Trails (p.zoneServiceAll z on) := by
  refine (Part.Trails.refl p).fold _ _ fun q c => ?_
  unfold Part.zoneServiceMember
  split
  · exact q.zoneService_trails c on
  · exact .refl q

/-! ## The zones (R74) -/

theorem Part.evalDoorRel_trails (p : Part) (z : Fin 8) : p.Trails (p.evalDoorRel z) :=
  .of_eq (by simp) (by simp) (by simp)

theorem Part.endRequest_trails (p : Part) (z : Fin 8) (r : Result) (d : Byte) : p.Trails (p.endRequest z r d) :=
  .of_eq (by simp) (by simp) (by simp)

theorem Part.grantApply_trails (p : Part) (z : Fin 8) (l : AccessLevel) (o : ZoneOrigin) (n : Nat) (b : Half) :
    p.Trails (p.grantApply z l o n b) := by
  have hopens (q : Part) : q.Trails (q.openZonePorts z) := .of_eq (by simp) (by simp) (by simp)
  have hgranted := (Part.Trails.refl p).modZone z fun k => { k with
    state := .opened, level := l, origin := o, badge := b, expiry := some (p.now + minutes n) }
  have hsockets : p.Trails (if p.sac.zones[z].state = .sealed then (p.modZone z fun k => { k with
      state := .opened, level := l, origin := o, badge := b, expiry := some (p.now + minutes n) }).openZonePorts z
    else p.modZone z fun k => { k with
      state := .opened, level := l, origin := o, badge := b, expiry := some (p.now + minutes n) }) := by
    split
    · exact hgranted.trans (hopens _)
    · exact hgranted
  unfold Part.grantApply
  dsimp only
  split
  · exact hsockets.trans (Part.zoneServiceAll_trails _ z true)
  · exact hsockets

theorem Part.grantClose_trails (p : Part) (z : Fin 8) (r : Result) : p.Trails (p.grantClose z r) :=
  (((p.endRequest_trails z r 0).handOutcome 2 _).raise .granted (zoneMember z)).rewrite .sac

theorem Part.sealZone_trails (p : Part) (z : Fin 8) (e : AccessEvent) (c : Completion) (b : Byte) :
    p.Trails (p.sealZone z e c b) := by
  have hcloses (q : Part) : q.Trails (q.closeZonePorts z) := .of_eq (by simp) (by simp) (by simp)
  unfold Part.sealZone
  exact (((((Part.Trails.refl p).modZone z _).trans (Part.zoneServiceAll_trails _ z false)).trans
    (hcloses _)).handOutcome 2 _).raise _ _ |>.rewrite .sac

theorem Part.failRequest_trails (p : Part) (z : Fin 8) (r : Fin 6) : p.Trails (p.failRequest z r) := by
  have hseals (d : Byte) (c : Completion) (b : Byte) :
      p.Trails ((p.endRequest z .failedTimeout d).sealZone z .failed c b) :=
    (Part.endRequest_trails _ z _ _).trans (Part.sealZone_trails _ z _ _ _)
  have hopens (d : Byte) (g : Zone → Zone) (body : List Byte) :
      p.Trails ((((((p.endRequest z .failedTimeout d).modZone z g).evalDoorRel z).handOutcome 2 body).raise
        .failed (zoneMember z)).rewrite .sac) :=
    (((((p.endRequest_trails z _ _).modZone z g).trans (Part.evalDoorRel_trails _ z)).handOutcome 2 _).raise
      .failed (zoneMember z)).rewrite .sac
  unfold Part.failRequest
  dsimp only
  split
  · split
    · exact hseals _ _ _
    · exact hopens _ _ _
  · split
    · exact hseals _ _ _
    · exact hopens _ _ _

theorem Part.judgeHalting_trails (p : Part) (z : Fin 8) : p.Trails (p.judgeHalting z) := by
  unfold Part.judgeHalting
  split
  · split
    · exact ((Part.grantApply_trails _ z _ _ _ _).trans (Part.evalDoorRel_trails _ z)).trans
        (Part.grantClose_trails _ z _)
    · split
      · exact p.failRequest_trails z _
      · exact .refl p
  · exact .refl p

theorem Part.hearRobot_trails (p : Part) (r : Fin 6) (z : Fin 8) : p.Trails (p.hearRobot r z) := by
  unfold Part.hearRobot
  split
  · split
    · exact p.judgeHalting_trails z
    · exact p.evalDoorRel_trails z
  · exact .refl p

theorem Part.settleResume_trails (p : Part) (z : Fin 8) (r : Fin 6) : p.Trails (p.settleResume z r) :=
  .of_eq (by simp) (by simp) (by simp)

theorem Part.reportRobot_trails (p : Part) (r : Fin 6) : p.Trails (p.reportRobot r) :=
  (Part.Trails.refl p).fold _ _ fun q z => (q.hearRobot_trails r z).trans (Part.settleResume_trails _ z r)

/-! ## The robot (R68, R84, R85) -/

theorem Part.robotChanged_trails (p : Part) (r : Fin 6) (before : RobotState) : p.Trails (p.robotChanged r before) := by
  have hadopts (q : Part) : q.Trails (q.adoptWindow r) := .of_eq (by simp) (by simp) (by simp)
  have hreports (q : Part) : q.Trails ((q.rewrite .rbp).reportRobot r) :=
    ((Part.Trails.refl q).rewrite .rbp).trans (Part.reportRobot_trails _ r)
  unfold Part.robotChanged
  dsimp only
  split
  · exact (Part.Trails.refl p).rewrite .rbp
  · split
    · exact (((Part.Trails.refl p).modRobot r _).trans (hadopts _)).trans (hreports _)
    · exact hreports p

theorem Part.finishHalt_trails (p : Part) (r : Fin 6) : p.Trails (p.finishHalt r) := by
  unfold Part.finishHalt
  exact ((((Part.Trails.refl p).modRobot r _).completeIf _ _ _).raise _ _).trans (Part.robotChanged_trails _ r _)

theorem Part.requestHalt_trails (p : Part) (r : Fin 6) (o : HaltOrigin) : p.Trails (p.requestHalt r o) := by
  have hbegins (q : Part) : q.Trails (q.beginHalt r o none) := by
    have hhalting := ((Part.Trails.refl q).modRobot r fun k => { k with
      state := .halting, haltOrigin := some o, order := none, deadline := some (q.haltDeadline r) }).trans
        (Part.robotChanged_trails _ r q.rbp.robots[r].state)
    unfold Part.beginHalt
    dsimp only
    split
    · exact hhalting.trans (Part.finishHalt_trails _ r)
    · exact hhalting
  unfold Part.requestHalt
  split
  · exact ((Part.Trails.refl p).completeIf _ _ _).trans (hbegins _)
  · exact .refl p

theorem Part.badFill_trails (p : Part) (r : Fin 6) : p.Trails (p.badFill r) := by
  unfold Part.badFill
  dsimp only
  split
  · exact ((((Part.Trails.refl p).modRobot r _).raise _ _).rewrite .rbp).trans (Part.requestHalt_trails _ r _)
  · exact ((Part.Trails.refl p).modRobot r _).rewrite .rbp

theorem Part.closeReport_trails (p : Part) (r : Fin 6) (seq : Word) : p.Trails (p.closeReport r seq) := by
  have hcancelled : p.Trails (p.modCvt fun c => { c with
      watches := c.watches.filter fun w => !(w.robot == r && w.seq == seq) }) :=
    Part.Stays.trails ⟨rfl, fun _ hx => (List.mem_filter.mp hx).1, fun x hx => ⟨x, hx, rfl⟩⟩ rfl
  exact ((hcancelled.setFill seq .noReport).modRobot r _).trans (Part.badFill_trails _ r)

/-! ## The decision (R47 to R49) -/

/-- R103: what a camera holds open for a container it closes itself. -/
theorem Part.closeCamera_works (p : Part) (c : Fin 6) (seq : Word) : p.Works c (p.closeCamera c seq) := by
  have hlapses (q : Part) : q.Works c (q.noVerdict seq c) := ((Part.Awaits.refl c q).noVerdict seq).toWorks
  unfold Part.closeCamera
  split
  · exact (((Part.Works.refl c p).modCamera _).trans (hlapses _)).trans (Part.gainMissed_awaits c _).toWorks
  · split
    · exact ((Part.Works.refl c p).modCamera _).trans (hlapses _)
    · split
      · split
        · exact hlapses p
        · exact .refl c p
      · exact .refl c p

/-- A camera degraded for missed verdicts awaits none, and so misses none. -/
theorem Part.closeCamera_trails (p : Part) (c : Fin 6) (seq : Word) : p.Trails (p.closeCamera c seq) := by
  refine (p.closeCamera_works c seq).trails fun hm => ?_
  have hlapses (q : Part) : q.Trails (q.noVerdict seq c) := (Part.Trails.refl q).noVerdict seq c
  obtain ⟨-, -, -, hawaiting⟩ := id hm
  unfold Part.closeCamera
  rw [if_neg (by rw [hawaiting]; exact List.not_mem_nil)]
  split
  · exact (((Part.Trails.refl p).modCamera c _).trans (hlapses _)).out c hm
  · split
    · split
      · exact (hlapses p).out c hm
      · exact hm
    · exact hm

theorem Part.closePresent_works (p : Part) (seq : Word) (c : Fin 6) : p.Works c (p.closePresent seq c) := by
  unfold Part.closePresent
  split
  · exact p.closeCamera_works c seq
  · exact .refl c p

theorem Part.closePresent_trails (p : Part) (seq : Word) (c : Fin 6) : p.Trails (p.closePresent seq c) := by
  unfold Part.closePresent
  split
  · exact p.closeCamera_trails c seq
  · exact .refl p

theorem Part.closeCameras_trails (p : Part) (seq : Word) : p.Trails (p.closeCameras seq) :=
  (Part.Trails.refl p).fold _ _ fun q c => q.closePresent_trails seq c

theorem Part.closeVerdicts_trails (p : Part) (seq : Word) : p.Trails (p.closeVerdicts seq) :=
  (Part.Trails.refl p).evidence seq _ fun _ => rfl

theorem Part.closeFill_trails (p : Part) (seq : Word) : p.Trails (p.closeFill seq) := by
  unfold Part.closeFill
  split
  · split
    · split
      · exact p.closeReport_trails _ seq
      · exact (Part.Trails.refl p).setFill seq .noReport
    · exact .refl p
  · exact .refl p

theorem Part.scheduleTimed_stays (p : Part) (seq : Word) (t : Time) : p.Stays (p.scheduleTimed seq t) := by
  have hjoins (g : Rej → Rej) (u : Pulse) (ending : Time) : p.Stays (if Time.reached t p.now then
      (p.modRej g).startPulse u ending else p.modRej g) := by
    split
    · exact ((Part.Stays.refl p).modRej g).trans (Part.startPulse_stays _ u ending)
    · exact (Part.Stays.refl p).modRej g
  unfold Part.scheduleTimed
  dsimp only
  split
  · split
    · split
      · exact hjoins _ _ _
      · exact (Part.Stays.refl p).modRej _
    · exact hjoins _ _ _
  · split
    · exact hjoins _ _ _
    · exact (p.drive_stays _).trans (Part.fireMember_stays _ seq)
  · exact hjoins _ _ _

theorem Part.takeReject_trails (p : Part) (seq : Word) : p.Trails (p.takeReject seq) := by
  refine Part.Stays.trails ?_ (by simp)
  have hscheduled := (Part.Stays.refl p).setEject seq .scheduled
  unfold Part.takeReject
  dsimp only
  split
  · exact (hscheduled.trans (Part.scheduleTimed_stays _ seq _)).rewrite .rej
  · exact (hscheduled.modRej _).rewrite .rej

/-- R47: the record's evidence closed at the cameras and at its robot. -/
def Part.evidenceClosed (p : Part) (seq : Word) : Part := ((p.closeCameras seq).closeVerdicts seq).closeFill seq

/-- R48, R49: the record of `seq` decided on these causes. -/
def Part.decided (p : Part) (seq : Word) (causes : Causes) : Part :=
  (p.modRecord seq fun x => { x with decision := causes.decision, causes := causes }).rewrite .trl

theorem Part.evidenceClosed_trails (p : Part) (seq : Word) : p.Trails (p.evidenceClosed seq) :=
  ((p.closeCameras_trails seq).trans (Part.closeVerdicts_trails _ seq)).trans (Part.closeFill_trails _ seq)

theorem Part.decided_trails (p : Part) (seq : Word) (causes : Causes) : p.Trails (p.decided seq causes) :=
  ((Part.Trails.refl p).modRecord seq (fun x => { x with decision := causes.decision, causes := causes })
    fun _ => rfl).rewrite .trl

/-- R47 to R49: the decision of an UNDECIDED record, on its evidence once closed. -/
theorem Part.settle_undecided {p : Part} {f : Profile} {seq : Word} {r x : Record} (hf : p.cvt.profile = some f)
    (hr : p.record seq = some r) (hd : r.decision = .undecided) (hx : (p.evidenceClosed seq).record seq = some x) :
    p.settle seq = if (x.compose f).any = true then
        ((p.evidenceClosed seq).decided seq (x.compose f)).takeReject seq
      else (p.evidenceClosed seq).decided seq (x.compose f) := by
  unfold Part.evidenceClosed at hx
  unfold Part.settle
  simp only [hr, hf]
  rw [if_neg (not_not_intro hd)]
  simp only [hx]
  rfl

/-- R49: a decided record is left alone. -/
theorem Part.settle_decided {p : Part} {seq : Word} {r : Record} (hr : p.record seq = some r)
    (hd : r.decision ≠ .undecided) : p.settle seq = p := by
  unfold Part.settle
  rw [hr]
  split
  next y f hy hf =>
    cases hy
    exact if_pos hd
  next => rfl

/-- What a decision comes to once the evidence is closed: where the record is gone nothing, else it is decided, and a
REJECT handed over. -/
theorem Part.settle_ends {p : Part} {f : Profile} {seq : Word} {r : Record} (hf : p.cvt.profile = some f)
    (hr : p.record seq = some r) (hd : r.decision = .undecided) :
    p.settle seq = p.evidenceClosed seq ∨ ∃ causes, p.settle seq = (p.evidenceClosed seq).decided seq causes ∨
      p.settle seq = ((p.evidenceClosed seq).decided seq causes).takeReject seq := by
  cases hx : (p.evidenceClosed seq).record seq with
  | none =>
    refine .inl ?_
    unfold Part.evidenceClosed at hx ⊢
    unfold Part.settle
    simp only [hr, hf, hd, hx, ne_eq, not_true_eq_false, if_false]
  | some x =>
    refine .inr ⟨x.compose f, ?_⟩
    rw [Part.settle_undecided hf hr hd hx]
    split
    · exact .inr rfl
    · exact .inl rfl

/-- What the decision does beyond the evidence leaves the cameras and every record's place. -/
theorem Part.settle_trails {p : Part} {f : Profile} {seq : Word} {r : Record} (hf : p.cvt.profile = some f)
    (hr : p.record seq = some r) (hd : r.decision = .undecided) : (p.evidenceClosed seq).Trails (p.settle seq) := by
  obtain h | ⟨causes, h | h⟩ := Part.settle_ends hf hr hd <;> rw [h]
  · exact .refl _
  · exact Part.decided_trails _ seq causes
  · exact (Part.decided_trails _ seq causes).trans (Part.takeReject_trails _ seq)

theorem Part.settle_stays {p : Part} {f : Profile} {seq : Word} {r : Record} (hf : p.cvt.profile = some f)
    (hr : p.record seq = some r) : p.Stays (p.settle seq) := by
  by_cases hd : r.decision = .undecided
  · exact ((p.evidenceClosed_trails seq).trans (Part.settle_trails hf hr hd)).toStays
  · rw [Part.settle_decided hr hd]
    exact .refl p

end Sys2Proof.Machine
end

section
/-! PROOFS. The verdicts of a record closed (R47, R103) where no camera is brought to its threshold. -/

namespace Sys2Proof.Machine

/-! ## The record -/

/-- R47: the record of `seq`, while UNDECIDED, with every verdict still open gone to NO_VERDICT. -/
def Record.lapsed (x : Record) (seq : Word) : Record :=
  if x.seq = seq ∧ x.decision = .undecided then { x with views := x.closed.views } else x

theorem CameraView.close_eq (v : CameraView) : v.close = { v with
    verdict := if v.verdict = .notYet ∨ v.verdict = .triggered then .noVerdict else v.verdict } := by
  obtain ⟨verdict, trigger⟩ := v
  cases verdict <;> rfl

theorem Part.closeVerdicts_trl (p : Part) (seq : Word) : (p.closeVerdicts seq).trl = p.trl.each (·.lapsed seq) := by
  unfold Part.closeVerdicts Part.evidence
  simp only [Part.modRecord_fields, Trl.each]
  congr 1
  refine List.map_congr_left fun x _ => ?_
  have hviews : x.views.map (Option.map CameraView.close) = x.closed.views :=
    congrArg (fun g => x.views.map (Option.map g)) (funext CameraView.close_eq)
  unfold Record.lapsed
  rw [hviews]
  split <;> split <;> simp_all

/-- A verdict that has gone to NO_VERDICT is not open any more. -/
theorem Record.lapsed_judged (x : Record) (seq : Word) (m : Fin 6) :
    (x.judged seq m .noVerdict).lapsed seq = x.lapsed seq := by
  unfold Record.lapsed
  simp only [Record.judged_seq, Record.judged_decision]
  split
  next h =>
    unfold Record.judged
    rw [if_pos h]
    unfold Record.closed
    congr 1
    refine Vector.ext fun i hi => ?_
    simp only [Vector.getElem_map, Vector.getElem_set]
    split
    next hm =>
      subst hm
      cases x.views[m.val] with
      | none => rfl
      | some v => obtain ⟨verdict, trigger⟩ := v; cases verdict <;> rfl
    next => rfl
  next h =>
    unfold Record.judged
    rw [if_neg h]

theorem Part.setFill_trl (p : Part) (seq : Word) (v : FillResult) :
    (p.setFill seq v).trl = p.trl.each (·.filled seq v) := by
  unfold Part.setFill Part.evidence
  simp only [Part.modRecord_fields, Trl.each]
  congr 1
  refine List.map_congr_left fun x _ => ?_
  unfold Record.filled
  (repeat' split) <;> simp_all

/-- The list's record of `other`, once each record has changed and kept its sequence. -/
theorem Part.record_each {p q : Part} {g : Record → Record} (h : q.trl = p.trl.each g) (hg : ∀ x, (g x).seq = x.seq)
    (other : Word) : q.record other = (p.record other).map g := by
  unfold Part.record
  rw [h]
  exact find_map_seq _ _ _ hg

/-! ## A camera closes (R103) -/

section
variable {p : Part} {m : Fin 6} {r x : Record}

theorem Part.cameraPresent_of {f : Profile} (h : p.cvt.profile = some f) (m : Fin 6) :
    p.cameraPresent m = f.cameras[m].present := by
  unfold Part.cameraPresent Part.cameraSettings
  rw [h]
  rfl

theorem Part.missedThreshold_of {f : Profile} (h : p.cvt.profile = some f) (m : Fin 6) :
    p.missedThreshold m = f.cameras[m].threshold := by
  unfold Part.missedThreshold Part.cameraSettings
  rw [h]
  rfl

/-- What a camera's closing does to it and to the list, and that it tells nothing. -/
structure Part.Closes (p q : Part) (m : Fin 6) (r : Record) : Prop where
  ctu : q.ctu = p.ctu.put m (p.ctu.cameras[m].closing r m)
  trl : q.trl = p.trl ∨ q.trl = p.trl.each (·.judged r.seq m .noVerdict)
  speaks : p.Speaks q [] [.mirror .ctu]

theorem Camera.fire_isSome (k : Camera) (seq : Word) : (k.fire seq).isSome = true ↔ seq ∈ k.schedule.map (·.seq) := by
  unfold Camera.fire
  simp

/-- R103: the camera has given up its wait for the container of `seq`; its missed run has yet to gain. -/
def Part.unawaited (p : Part) (m : Fin 6) (seq : Word) : Part :=
  (p.modCamera m fun k => { k with awaiting := k.awaiting.filter fun s => s != seq }).noVerdict seq m

theorem Part.closeCamera_awaiting {seq : Word} (h : seq ∈ p.ctu.cameras[m].awaiting) :
    p.closeCamera m seq = (p.unawaited m seq).gainMissed m := by
  unfold Part.closeCamera
  exact if_pos h

theorem Part.unawaited_ctu (p : Part) (m : Fin 6) (seq : Word) : (p.unawaited m seq).ctu =
    p.ctu.put m { p.ctu.cameras[m] with
      awaiting := p.ctu.cameras[m].awaiting.filter fun s => s != seq
      counters := { p.ctu.cameras[m].counters with noVerdict := up p.ctu.cameras[m].counters.noVerdict } } := by
  unfold Part.unawaited
  simp only [Part.noVerdict_ctu, Part.modCamera_ctu, Ctu.put_get, Ctu.put_put, Fin.getElem_fin]

theorem Part.unawaited_profile (p : Part) (m : Fin 6) (seq : Word) :
    (p.unawaited m seq).cvt.profile = p.cvt.profile := by
  unfold Part.unawaited
  simp

theorem Part.unawaited_speaks (p : Part) (m : Fin 6) (seq : Word) :
    p.Speaks (p.unawaited m seq) [] [.mirror .ctu] := by
  have hnarrowed : p.Speaks (p.modCamera m fun k => { k with
      awaiting := k.awaiting.filter fun s => s != seq }) [] [] := (Part.Speaks.refl p).same rfl rfl rfl
  exact hnarrowed.noVerdict seq m

/-- R103: the camera still awaits the container's verdict. -/
theorem Part.closeCamera_misses (h : r.seq ∈ p.ctu.cameras[m].awaiting)
    (hbelow : p.missedThreshold m = 0 ∨ min 255 (p.ctu.cameras[m].missedRun + 1) ≠ p.missedThreshold m) :
    p.Closes (p.closeCamera m r.seq) m r := by
  have hgained : (p.unawaited m r.seq).gainMissed m =
      ((p.unawaited m r.seq).modCamera m fun k => { k with missedRun := inc8 k.missedRun }).rewrite .ctu := by
    refine Part.gainMissed_below ?_
    rw [p.unawaited_ctu, Part.missedThreshold_congr m (p.unawaited_profile m r.seq), inc8_eq]
    simpa using hbelow
  rw [Part.closeCamera_awaiting h, hgained]
  refine ⟨?_, .inr ?_, ?_⟩
  · simp only [Part.rewrite_frame, Part.modCamera_ctu, p.unawaited_ctu, Ctu.put_get, Ctu.put_put, inc8_eq]
    unfold Camera.closing
    rw [if_pos h]
  · exact Part.noVerdict_trl _ r.seq m
  · have hcounted : p.Speaks ((p.unawaited m r.seq).modCamera m fun k => { k with missedRun := inc8 k.missedRun }) []
        [.mirror .ctu] := (p.unawaited_speaks m r.seq).same rfl rfl rfl
    exact (hcounted.rewrite .ctu).mono (by simp)

/-- R103: the camera's fire for the container is still pending. -/
theorem Part.closeCamera_pending (ha : r.seq ∉ p.ctu.cameras[m].awaiting)
    (h : r.seq ∈ p.ctu.cameras[m].schedule.map (·.seq)) : p.Closes (p.closeCamera m r.seq) m r := by
  have hq : p.closeCamera m r.seq = (p.modCamera m fun k =>
      { k with schedule := k.schedule.filter fun g => g.seq != r.seq }).noVerdict r.seq m := by
    unfold Part.closeCamera
    rw [if_neg ha, if_pos ((Camera.fire_isSome _ _).mpr h)]
  rw [hq]
  refine ⟨?_, .inr ?_, ?_⟩
  · unfold Camera.closing
    rw [if_neg ha, if_pos h]
    simp only [Part.noVerdict_ctu, Part.modCamera_ctu, Ctu.put_get, Ctu.put_put, Fin.getElem_fin]
  · simp [Part.noVerdict_trl]
  · have hnarrowed : p.Speaks (p.modCamera m fun k => { k with schedule := k.schedule.filter fun g => g.seq != r.seq })
        [] [] := (Part.Speaks.refl p).same rfl rfl rfl
    exact hnarrowed.noVerdict r.seq m

/-- R103: the camera holds nothing open, its verdict being NOT_YET or not. -/
theorem Part.closeCamera_idle (ha : r.seq ∉ p.ctu.cameras[m].awaiting)
    (hs : r.seq ∉ p.ctu.cameras[m].schedule.map (·.seq)) (hx : p.record r.seq = some x)
    (hview : x.views[m] = r.views[m]) : p.Closes (p.closeCamera m r.seq) m r := by
  have hq : p.closeCamera m r.seq = if r.views[m].map (·.verdict) = some .notYet then p.noVerdict r.seq m else p := by
    unfold Part.closeCamera
    rw [if_neg ha, if_neg (mt (Camera.fire_isSome _ _).mp hs), hx, Option.bind_some, hview]
    cases r.views[m] with
    | none => rfl
    | some v => simp
  have hk : p.ctu.cameras[m].closing r m = if r.views[m].map (·.verdict) = some .notYet then
      { p.ctu.cameras[m] with counters := { p.ctu.cameras[m].counters with
        noVerdict := up p.ctu.cameras[m].counters.noVerdict } } else p.ctu.cameras[m] := by
    unfold Camera.closing
    rw [if_neg ha, if_neg hs]
  by_cases hv : r.views[m].map (·.verdict) = some .notYet
  · rw [if_pos hv] at hq hk
    rw [hq]
    exact ⟨by rw [hk]; exact p.noVerdict_ctu r.seq m, .inr (p.noVerdict_trl r.seq m),
      (Part.Speaks.refl p).noVerdict r.seq m⟩
  · rw [if_neg hv] at hq hk
    rw [hq]
    exact ⟨by rw [hk]; exact (Ctu.put_self p.ctu m).symm, .inl rfl, (Part.Speaks.refl p).mono (by simp)⟩

/-- R103: the camera closes; its missed run does not come to the threshold. -/
theorem Part.closeCamera_closes (hx : p.record r.seq = some x) (hview : x.views[m] = r.views[m])
    (hbelow : r.seq ∈ p.ctu.cameras[m].awaiting →
      p.missedThreshold m = 0 ∨ min 255 (p.ctu.cameras[m].missedRun + 1) ≠ p.missedThreshold m) :
    p.Closes (p.closeCamera m r.seq) m r := by
  by_cases ha : r.seq ∈ p.ctu.cameras[m].awaiting
  · exact Part.closeCamera_misses ha (hbelow ha)
  · by_cases hs : r.seq ∈ p.ctu.cameras[m].schedule.map (·.seq)
    · exact Part.closeCamera_pending ha hs
    · exact Part.closeCamera_idle ha hs hx hview

end

/-! ## Every camera closes -/

/-- R47: the cameras present once they have closed for the container of `r`. -/
def Ctu.closing (b : Ctu) (f : Profile) (r : Record) : Ctu := { b with cameras := Vector.ofFn fun m : Fin 6 =>
  if (f.cameras[m].present = true) then (b.cameras[m].closing r m) else b.cameras[m] }

/-- R103: from `c` to `q` the cameras of `done` have closed for the container of `r`. -/
structure Part.ClosedAt (c : Part) (f : Profile) (r : Record) (done : List (Fin 6)) (q : Part) : Prop where
  rest : q = { c with trl := q.trl, ctu := q.ctu, rpu := q.rpu, mem := q.mem }
  cameras : ∀ m : Fin 6, q.ctu.cameras[m] =
    if m ∈ done ∧ f.cameras[m].present = true then c.ctu.cameras[m].closing r m else c.ctu.cameras[m]
  lapses : q.trl.each (·.lapsed r.seq) = c.trl.each (·.lapsed r.seq)
  record : ∃ x, q.record r.seq = some x ∧ ∀ m ∉ done, x.views[m] = r.views[m]
  speaks : c.Speaks q [] [.mirror .ctu]

section
variable {c q : Part} {f : Profile} {r : Record} {done : List (Fin 6)}

/-- R103: the next camera's turn. -/
theorem Part.ClosedAt.next (h : c.ClosedAt f r done q) (hf : c.cvt.profile = some f) (m : Fin 6) (hm : m ∉ done)
    (hbelow : f.cameras[m].present = true → r.seq ∈ c.ctu.cameras[m].awaiting →
      f.cameras[m].threshold = 0 ∨ min 255 (c.ctu.cameras[m].missedRun + 1) ≠ f.cameras[m].threshold) :
    c.ClosedAt f r (m :: done) (q.closePresent r.seq m) := by
  have hqf : q.cvt.profile = some f := by rw [h.rest]; exact hf
  have hk : q.ctu.cameras[m] = c.ctu.cameras[m] := by rw [h.cameras, if_neg fun hc => hm hc.1]
  have hworks := q.closePresent_works r.seq m
  have hrest : q.closePresent r.seq m = { c with
      trl := (q.closePresent r.seq m).trl, ctu := (q.closePresent r.seq m).ctu
      rpu := (q.closePresent r.seq m).rpu, mem := (q.closePresent r.seq m).mem } := by
    refine hworks.rest.trans ?_
    rw [h.rest]
  obtain ⟨x, hx, hviews⟩ := h.record
  have hpresence := Part.cameraPresent_of hqf m
  cases hpresent : f.cameras[m].present with
  | false =>
    have hq : q.closePresent r.seq m = q := by
      unfold Part.closePresent
      rw [hpresence, hpresent]
      rfl
    rw [hq] at hrest ⊢
    refine ⟨hrest, fun d => ?_, h.lapses, ⟨x, hx, fun d hd => hviews d (List.not_mem_of_not_mem_cons hd)⟩, h.speaks⟩
    rw [h.cameras d]
    by_cases hd : d = m
    · subst hd
      rw [if_neg fun hc => hm hc.1, if_neg fun hc => Bool.false_ne_true (hpresent.symm.trans hc.2)]
    · simp [hd]
  | true =>
    have hq : q.closePresent r.seq m = q.closeCamera m r.seq := by
      unfold Part.closePresent
      rw [hpresence, hpresent]
      rfl
    have hcloses : q.Closes (q.closePresent r.seq m) m r := by
      rw [hq]
      refine Part.closeCamera_closes hx (hviews m hm) ?_
      rw [hk, Part.missedThreshold_of hqf]
      exact hbelow hpresent
    refine ⟨hrest, fun d => ?_, ?_, ?_, (h.speaks.trans hcloses.speaks).mono (by simp)⟩
    · by_cases hd : d = m
      · subst hd
        rw [hcloses.ctu, if_pos ⟨List.mem_cons_self, hpresent⟩, ← hk]
        exact Ctu.put_get _ _ _
      · rw [hworks.others d hd, h.cameras d]
        simp [hd]
    · rw [← h.lapses]
      obtain htrl | htrl := hcloses.trl
      · rw [htrl]
      · rw [htrl, Trl.each_each]
        exact Trl.each_congr _ fun y => y.lapsed_judged r.seq m
    · obtain htrl | htrl := hcloses.trl
      · refine ⟨x, ?_, fun d hd => hviews d (List.not_mem_of_not_mem_cons hd)⟩
        rw [← hx]
        unfold Part.record
        rw [htrl]
      · refine ⟨x.judged r.seq m .noVerdict, ?_, fun d hd => ?_⟩
        · rw [Part.record_each htrl fun y => y.judged_seq _ _ _, hx]
          rfl
        · rw [← hviews d (List.not_mem_of_not_mem_cons hd)]
          unfold Record.judged
          split
          · simp [Fin.val_ne_of_ne (Ne.symm (List.ne_of_not_mem_cons hd))]
          · rfl

/-- R103: every camera has closed, none having come to its threshold. -/
theorem Part.closeCameras_closed (hf : c.cvt.profile = some f) {x : Record} (hx : c.record r.seq = some x)
    (hviews : x.views = r.views)
    (hbelow : ∀ m : Fin 6, f.cameras[m].present = true → r.seq ∈ c.ctu.cameras[m].awaiting →
      f.cameras[m].threshold = 0 ∨ min 255 (c.ctu.cameras[m].missedRun + 1) ≠ f.cameras[m].threshold) :
    let q := c.closeCameras r.seq
    q = { c with trl := q.trl, ctu := q.ctu, rpu := q.rpu, mem := q.mem } ∧
    q.ctu = c.ctu.closing f r ∧
    q.trl.each (·.lapsed r.seq) = c.trl.each (·.lapsed r.seq) ∧ c.Speaks q [] [.mirror .ctu] := by
  intro q
  have hstart : c.ClosedAt f r [] c :=
    ⟨rfl, fun m => by simp, rfl, ⟨x, hx, fun m _ => by rw [hviews]⟩, (Part.Speaks.refl c).mono (by simp)⟩
  have hturn {done : List (Fin 6)} {q : Part} (h : c.ClosedAt f r done q) (m : Fin 6) (hm : m ∉ done) :=
    h.next hf m hm (hbelow m)
  have hall : c.ClosedAt f r [5, 4, 3, 2, 1, 0] q := by
    have h := hturn (hturn (hturn (hturn (hturn (hturn hstart 0 (by decide)) 1 (by decide)) 2 (by decide)) 3
      (by decide)) 4 (by decide)) 5 (by decide)
    simpa only [q, Part.closeCameras, sixes_foldl] using h
  refine ⟨hall.rest, Ctu.ext_cameras (Vector.ext fun i hi => ?_), hall.lapses, hall.speaks⟩
  have hmem : (⟨i, hi⟩ : Fin 6) ∈ ([5, 4, 3, 2, 1, 0] : List (Fin 6)) := by
    generalize (⟨i, hi⟩ : Fin 6) = m
    revert m
    decide
  have hcamera := hall.cameras ⟨i, hi⟩
  simp only [hmem, true_and] at hcamera
  unfold Ctu.closing
  rw [Vector.getElem_ofFn]
  exact hcamera

end

end Sys2Proof.Machine
end

section
/-! PROOFS. The fill result closed at the record's robot (R47, R84) where no robot is brought to its threshold, and the
causes of a record (R48). -/

namespace Sys2Proof.Machine

/-! ## The fill result closes (R84) -/

/-- R84: the robot once a container's report has ended without a strobe, its failure run below its threshold. -/
def Robot.unreported (k : Robot) (seq : Word) : Robot := { k with
  reportList := k.reportList.filter (· != seq), failureRun := min 255 (k.failureRun + 1)
  counters := { k.counters with noReport := up k.counters.noReport } }

/-- R84: the robots once the record's report, if one is due, has ended without a strobe. -/
def Rbp.unreported (b : Rbp) (r : Record) : Rbp := { b with robots := Vector.ofFn fun i : Fin 6 =>
  if (r.fill = .pending ∧ r.robot = some i) then b.robots[i].unreported r.seq else b.robots[i] }

/-- R84: the tracker once the watches of the record's report, if one is due, have been cancelled. -/
def Cvt.unwatched (b : Cvt) (r : Record) : Cvt := { b with
  watches := b.watches.filter fun x => ¬ (r.fill = .pending ∧ r.robot = some x.robot ∧ x.seq = r.seq) }

theorem Rbp.unreported_none (b : Rbp) {r : Record} (h : ∀ i, ¬ (r.fill = .pending ∧ r.robot = some i)) :
    b.unreported r = b := by
  have hrobots : (Vector.ofFn fun i : Fin 6 =>
      if r.fill = .pending ∧ r.robot = some i then b.robots[i].unreported r.seq else b.robots[i]) = b.robots :=
    Vector.ext fun i hi => by
      rw [Vector.getElem_ofFn, if_neg (h _)]
      rfl
  unfold Rbp.unreported
  rw [hrobots]

theorem Rbp.unreported_some (b : Rbp) {r : Record} {i : Fin 6} (hfill : r.fill = .pending) (hrobot : r.robot = some i) :
    b.unreported r = { b with robots := modAt b.robots i (·.unreported r.seq) } := by
  unfold Rbp.unreported
  congr 1
  refine Vector.ext fun j hj => ?_
  have hget := modAt_get b.robots i ⟨j, hj⟩ (·.unreported r.seq)
  rw [Vector.getElem_ofFn, hget, hfill, hrobot]
  simp only [Fin.getElem_fin, true_and, Option.some.injEq, eq_comm]

theorem Cvt.unwatched_none (b : Cvt) {r : Record} (h : ∀ i, ¬ (r.fill = .pending ∧ r.robot = some i)) :
    b.unwatched r = b := by
  have hwatches : (b.watches.filter fun x => ¬ (r.fill = .pending ∧ r.robot = some x.robot ∧ x.seq = r.seq)) =
      b.watches :=
    List.filter_eq_self.mpr fun x _ => decide_eq_true fun ⟨hfill, hrobot, _⟩ => h _ ⟨hfill, hrobot⟩
  unfold Cvt.unwatched
  rw [hwatches]

theorem Cvt.unwatched_some (b : Cvt) {r : Record} {i : Fin 6} (hfill : r.fill = .pending) (hrobot : r.robot = some i) :
    b.unwatched r = { b with watches := b.watches.filter fun w => !(w.robot == i && w.seq == r.seq) } := by
  unfold Cvt.unwatched
  congr 1
  refine List.filter_congr fun x _ => ?_
  rw [hfill, hrobot]
  by_cases hi : i = x.robot
  · simp [hi, beq_eq_decide]
  · simp [hi, Ne.symm hi]

/-- R84: what the closing of the record's fill result does, and that it tells nothing. -/
structure Part.FillClosed (p q : Part) (r : Record) : Prop where
  trl : q.trl = if r.fill = .pending then p.trl.each (·.filled r.seq .noReport) else p.trl
  rbp : q.rbp = p.rbp.unreported r
  cvt : q.cvt = p.cvt.unwatched r
  rest : q = { p with trl := q.trl, rbp := q.rbp, cvt := q.cvt, rpu := q.rpu, mem := q.mem }
  speaks : p.Speaks q [] [.mirror .rbp]

section
variable {p : Part} {r x : Record}

theorem Part.failureThreshold_of {f : Profile} (h : p.cvt.profile = some f) (i : Fin 6) :
    p.failureThreshold i = f.robots[i].threshold := by
  unfold Part.failureThreshold Part.robotSettings
  rw [h]
  rfl

/-- R85: a bad result that leaves the failure run below the threshold. -/
theorem Part.badFill_below {i : Fin 6}
    (hbelow : p.failureThreshold i = 0 ∨ min 255 (p.rbp.robots[i].failureRun + 1) ≠ p.failureThreshold i) :
    p.badFill i = (p.modRobot i fun k => { k with failureRun := inc8 p.rbp.robots[i].failureRun }).rewrite .rbp := by
  unfold Part.badFill
  refine if_neg fun ⟨hthreshold, hrun⟩ => ?_
  rw [inc8_eq] at hrun
  exact hbelow.elim hthreshold (· hrun)

/-- R84: the report of the container of `seq` has ended without a strobe; the failure run has yet to gain. -/
def Part.reportEnded (p : Part) (i : Fin 6) (seq : Word) : Part :=
  ((p.modCvt fun c => { c with
    watches := c.watches.filter fun w => !(w.robot == i && w.seq == seq) }).setFill seq .noReport).modRobot i
      fun k => { k with
        reportList := k.reportList.filter fun s => s != seq
        counters := { k.counters with noReport := inc32 k.counters.noReport } }

theorem Part.closeReport_eq (p : Part) (i : Fin 6) (seq : Word) :
    p.closeReport i seq = (p.reportEnded i seq).badFill i := rfl

theorem Part.reportEnded_robot (p : Part) (i : Fin 6) (seq : Word) : (p.reportEnded i seq).rbp.robots[i] =
    { p.rbp.robots[i] with
      reportList := p.rbp.robots[i].reportList.filter fun s => s != seq
      counters := { p.rbp.robots[i].counters with noReport := inc32 p.rbp.robots[i].counters.noReport } } := by
  unfold Part.reportEnded
  simp

theorem Part.reportEnded_threshold (p : Part) (i : Fin 6) (seq : Word) :
    (p.reportEnded i seq).failureThreshold i = p.failureThreshold i := by
  unfold Part.failureThreshold Part.robotSettings Part.reportEnded
  simp

/-- R84: the record's robot still owes its report. -/
theorem Part.closeReport_closed {i : Fin 6} (hfill : r.fill = .pending) (hrobot : r.robot = some i)
    (hbelow : p.failureThreshold i = 0 ∨ min 255 (p.rbp.robots[i].failureRun + 1) ≠ p.failureThreshold i) :
    p.FillClosed (p.closeReport i r.seq) r := by
  obtain ⟨X, hX⟩ : ∃ X, X = p.reportEnded i r.seq := ⟨_, rfl⟩
  have hrun : X.rbp.robots[i].failureRun = p.rbp.robots[i].failureRun := by rw [hX, p.reportEnded_robot]
  have hq : p.closeReport i r.seq =
      (X.modRobot i fun k => { k with failureRun := inc8 p.rbp.robots[i].failureRun }).rewrite .rbp := by
    rw [Part.closeReport_eq, ← hX, ← hrun]
    exact Part.badFill_below (by rw [hrun, hX, p.reportEnded_threshold]; exact hbelow)
  rw [hq]
  refine ⟨?_, ?_, ?_, ?_, ?_⟩
  · rw [if_pos hfill, hX]
    exact Part.setFill_trl _ _ _
  · rw [Rbp.unreported_some _ hfill hrobot, hX]
    simp [Part.reportEnded, modAt_eq_set, Robot.unreported, inc8_eq, up_eq]
  · rw [Cvt.unwatched_some _ hfill hrobot, hX]
    rfl
  · rw [hX]
    rfl
  · have hended : p.Speaks X [] [] := by
      rw [hX]
      exact (Part.Speaks.refl p).same rfl rfl rfl
    have hran : p.Speaks (X.modRobot i fun k => { k with failureRun := inc8 p.rbp.robots[i].failureRun }) [] [] :=
      hended.same rfl rfl rfl
    exact hran.rewrite .rbp

/-- R47: the fill result closes, no robot's failure run coming to its threshold. -/
theorem Part.closeFill_closed (hx : p.record r.seq = some x) (hfill : x.fill = r.fill) (hrobot : x.robot = r.robot)
    (hbelow : ∀ i, r.fill = .pending ∧ r.robot = some i →
      p.failureThreshold i = 0 ∨ min 255 (p.rbp.robots[i].failureRun + 1) ≠ p.failureThreshold i) :
    p.FillClosed (p.closeFill r.seq) r := by
  unfold Part.closeFill
  simp only [hx, hfill, hrobot]
  by_cases hpending : r.fill = .pending
  · rw [if_pos hpending]
    cases hr : r.robot with
    | some i => exact Part.closeReport_closed hpending hr (hbelow i ⟨hpending, hr⟩)
    | none =>
      have hnone (i : Fin 6) : ¬ (r.fill = .pending ∧ r.robot = some i) := by simp [hr]
      refine ⟨?_, ?_, ?_, rfl, ((Part.Speaks.refl p).same (by simp) (by simp) (by simp)).mono (by simp)⟩
      · rw [if_pos hpending]
        exact p.setFill_trl _ _
      · rw [p.rbp.unreported_none hnone]
        simp
      · rw [p.cvt.unwatched_none hnone]
        simp
  · have hnone (i : Fin 6) : ¬ (r.fill = .pending ∧ r.robot = some i) := fun h => hpending h.1
    rw [if_neg hpending]
    exact ⟨(if_neg hpending).symm, (p.rbp.unreported_none hnone).symm, (p.cvt.unwatched_none hnone).symm, rfl,
      (Part.Speaks.refl p).mono (by simp)⟩

end

/-! ## The causes (R48) -/

theorem Record.hasVerdict_iff (x : Record) (m : Fin 6) (v : Verdict) :
    x.hasVerdict m v = true ↔ x.views[m].map (·.verdict) = some v := by
  unfold Record.hasVerdict
  cases x.views[m] <;> simp

theorem any_sixes (g : Fin 6 → Bool) : sixes.any g = true ↔ ∃ m, g m = true :=
  List.any_eq_true.trans ⟨fun ⟨m, _, hm⟩ => ⟨m, hm⟩, fun ⟨m, hm⟩ => ⟨m, mem_sixes m, hm⟩⟩

theorem Record.compose_eq (x : Record) (f : Profile) : x.compose f = x.causesUnder f := by
  have hshown (g : Fin 6 → Bool) (v : Verdict) : (sixes.any fun m => g m && x.hasVerdict m v) =
      decide (∃ m, g m = true ∧ x.views[m].map (·.verdict) = some v) := by
    rw [Bool.eq_iff_iff, any_sixes, decide_eq_true_iff]
    simp only [Bool.and_eq_true, Record.hasVerdict_iff]
  unfold Record.compose Record.causesUnder
  rw [Causes.mk.injEq]
  refine ⟨rfl, ?_, ?_, hshown _ _, hshown _ _, rfl⟩
  · exact (Bool.decide_or _ _).symm
  · simpa using hshown (fun _ => true) .fail

theorem Causes.any_iff (k : Causes) : k.any = true ↔ ¬ k = ⟨false, false, false, false, false, false⟩ := by
  obtain ⟨short, missing, fail, none, out, marked⟩ := k
  unfold Causes.any
  simp only [Causes.mk.injEq, Bool.or_eq_true]
  cases short <;> simp [or_assoc, imp_iff_not_or]

theorem Causes.decision_eq (k : Causes) :
    k.decision = if k = ⟨false, false, false, false, false, false⟩ then .pass else .reject := by
  unfold Causes.decision
  by_cases h : k = ⟨false, false, false, false, false, false⟩
  · rw [if_pos h, if_neg fun hc => k.any_iff.mp hc h]
  · rw [if_neg h, if_pos (k.any_iff.mpr h)]

end Sys2Proof.Machine
end

section
/-! PROOFS. The decision composed on the evidence (R47 to R49, R60), where no run is brought to its threshold. -/

namespace Sys2Proof.Machine

/-! ## The evidence closed (R47) -/

/-- R47: what the closing of a record's evidence does, and that it tells nothing. -/
structure Part.EvidenceClosed (c q : Part) (f : Profile) (r : Record) : Prop where
  trl : q.trl = c.trl.each fun x => if x.seq = r.seq then r.closed else x
  ctu : q.ctu = c.ctu.closing f r
  rbp : q.rbp = c.rbp.unreported r
  cvt : q.cvt = c.cvt.unwatched r
  rest : q = { c with trl := q.trl, ctu := q.ctu, rbp := q.rbp, cvt := q.cvt, rpu := q.rpu, mem := q.mem }
  fault : q.rpu.fault = c.rpu.fault
  speaks : c.Speaks q [] [.mirror .ctu, .mirror .rbp]

theorem Trl.each_congr_mem (t : Trl) {g k : Record → Record} (h : ∀ x ∈ t.records, g x = k x) :
    t.each g = t.each k := by
  unfold Trl.each
  rw [List.map_congr_left h]

theorem Record.lapsed_seq (x : Record) (seq : Word) : (x.lapsed seq).seq = x.seq := by
  unfold Record.lapsed
  split <;> rfl

theorem Record.lapsed_other {x : Record} {seq : Word} (h : x.seq ≠ seq) : x.lapsed seq = x := by
  unfold Record.lapsed
  exact if_neg fun hc => h hc.1

theorem Record.filled_other {x : Record} {seq : Word} {v : FillResult} (h : x.seq ≠ seq) : x.filled seq v = x := by
  unfold Record.filled
  exact if_neg fun hc => h hc.1

section
variable {c : Part} {f : Profile} {r : Record}

theorem Record.lapsed_undecided (h : r.decision = .undecided) :
    r.lapsed r.seq = { r with views := r.closed.views } := by
  unfold Record.lapsed
  exact if_pos ⟨rfl, h⟩

/-- A record's evidence is closed once its open verdicts have lapsed and its fill result has. -/
theorem Record.lapsed_filled (h : r.decision = .undecided) :
    (if r.fill = .pending then (r.lapsed r.seq).filled r.seq .noReport else r.lapsed r.seq) = r.closed := by
  rw [Record.lapsed_undecided h]
  unfold Record.filled Record.closed
  by_cases hfill : r.fill = .pending
  · simp [hfill, h]
  · simp [hfill]

/-- R47: the evidence of the record of `r` closes, no run coming to its threshold. -/
theorem Part.evidenceClosed_closed (hf : c.cvt.profile = some f) (hr : c.record r.seq = some r)
    (hunique : ∀ x ∈ c.trl.records, x.seq = r.seq → x = r) (hd : r.decision = .undecided)
    (hmissed : ∀ m : Fin 6, f.cameras[m].present = true → r.seq ∈ c.ctu.cameras[m].awaiting →
      f.cameras[m].threshold = 0 ∨ min 255 (c.ctu.cameras[m].missedRun + 1) ≠ f.cameras[m].threshold)
    (hrun : ∀ i : Fin 6, r.fill = .pending ∧ r.robot = some i →
      f.robots[i].threshold = 0 ∨ min 255 (c.rbp.robots[i].failureRun + 1) ≠ f.robots[i].threshold) :
    c.EvidenceClosed (c.evidenceClosed r.seq) f r := by
  obtain ⟨hcrest, hcctu, hctrl, hcspeaks⟩ := Part.closeCameras_closed hf hr rfl hmissed
  obtain ⟨V, hV⟩ : ∃ V, V = (c.closeCameras r.seq).closeVerdicts r.seq := ⟨_, rfl⟩
  have hVtrl : V.trl = c.trl.each (·.lapsed r.seq) := by rw [hV, Part.closeVerdicts_trl, hctrl]
  have hVctu : V.ctu = c.ctu.closing f r := by rw [hV]; exact hcctu
  have hVrest : V = { c with trl := V.trl, ctu := V.ctu, rpu := V.rpu, mem := V.mem } := by
    rw [hV]
    exact congrArg (·.closeVerdicts r.seq) hcrest
  have hVspeaks : c.Speaks V [] [.mirror .ctu] := by
    rw [hV]
    exact hcspeaks.same rfl rfl rfl
  have hVrecord : V.record r.seq = some (r.lapsed r.seq) := by
    rw [Part.record_each hVtrl (Record.lapsed_seq · r.seq), hr]
    rfl
  have hVrbp : V.rbp = c.rbp := by rw [hVrest]
  have hVcvt : V.cvt = c.cvt := by rw [hVrest]
  have hclosed : V.FillClosed (V.closeFill r.seq) r := by
    refine Part.closeFill_closed hVrecord ?_ ?_ fun i hi => ?_
    · rw [Record.lapsed_undecided hd]
    · rw [Record.lapsed_undecided hd]
    · rw [Part.failureThreshold_of (by rw [hVcvt]; exact hf), hVrbp]
      exact hrun i hi
  have hq : c.evidenceClosed r.seq = V.closeFill r.seq := by rw [hV]; rfl
  rw [hq]
  have hfault : (V.closeFill r.seq).rpu.fault = c.rpu.fault := by
    rw [hV]
    simp
  refine ⟨?_, ?_, ?_, ?_, ?_, hfault, hVspeaks.trans hclosed.speaks⟩
  · rw [hclosed.trl, hVtrl]
    have heach : (if r.fill = .pending then (c.trl.each (·.lapsed r.seq)).each (·.filled r.seq .noReport)
        else c.trl.each (·.lapsed r.seq)) = c.trl.each fun x =>
          if r.fill = .pending then (x.lapsed r.seq).filled r.seq .noReport else x.lapsed r.seq := by
      split
      · rw [Trl.each_each]
      · rfl
    rw [heach]
    refine Trl.each_congr_mem _ fun x hx => ?_
    by_cases hseq : x.seq = r.seq
    · rw [if_pos hseq, hunique x hx hseq]
      exact Record.lapsed_filled hd
    · rw [if_neg hseq, Record.lapsed_other hseq, Record.filled_other hseq, ite_self]
  · rw [hclosed.rest]
    exact hVctu
  · rw [hclosed.rbp, hVrbp]
  · rw [hclosed.cvt, hVcvt]
  · have hctu : (V.closeFill r.seq).ctu = V.ctu := by rw [hclosed.rest]
    rw [hctu]
    exact hclosed.rest.trans (congrArg (fun W : Part => { W with
      trl := (V.closeFill r.seq).trl, rbp := (V.closeFill r.seq).rbp, cvt := (V.closeFill r.seq).cvt
      rpu := (V.closeFill r.seq).rpu, mem := (V.closeFill r.seq).mem }) hVrest)

end

/-! ## The decision (R48, R49, R60) -/

/-- R48, R49: the record with its evidence closed, decided on its causes. -/
def Record.composed (r : Record) (f : Profile) (eject : EjectState) : Record := { r.closed with
  decision := (r.closed.causesUnder f).decision, causes := r.closed.causesUnder f, eject := eject }

/-- R48, R49: the list with the record of `r` decided. -/
def Trl.composed (t : Trl) (f : Profile) (r : Record) (eject : EjectState) : Trl :=
  t.each fun x => if x.seq = r.seq then r.composed f eject else x

/-- R113: while the tracker is not TIMED no arrival is projected. -/
theorem Part.ejectStart_untimed {p : Part} (seq : Word) (h : p.cvt.paceState ≠ .timed) : p.ejectStart seq = none := by
  have hproject (x : Position) : p.project x = none := by
    unfold Part.project
    split
    · exact absurd ‹_› h
    · rfl
  unfold Part.ejectStart
  split
  · rw [hproject]
    rfl
  · rfl

/-- R113: a pulse by position joins the schedule. -/
def Rej.joined (e : Rej) (seq : Word) : Rej := { e with schedule := e.schedule ++ [⟨[seq], none⟩] }

/-- R113: a REJECT container is taken by position. -/
def Part.takenByPosition (p : Part) (seq : Word) : Part :=
  ((p.setEject seq .scheduled).modRej (·.joined seq)).rewrite .rej

theorem Part.takeReject_untimed {p : Part} (seq : Word) (h : p.cvt.paceState ≠ .timed) :
    p.takeReject seq = p.takenByPosition seq := by
  unfold Part.takeReject
  dsimp only
  rw [Part.ejectStart_untimed seq (p := p.setEject seq .scheduled) h]
  rfl

/-- R48, R49: the record is decided, its evidence closed without a run coming to its threshold, and shown so (R60). -/
structure Part.Decides (c q : Part) (f : Profile) (r : Record) : Prop where
  trl : q.trl = c.trl.composed f r r.eject
  ctu : q.ctu = c.ctu.closing f r
  rbp : q.rbp = c.rbp.unreported r
  cvt : q.cvt = c.cvt.unwatched r
  rest : q = { c with trl := q.trl, ctu := q.ctu, rbp := q.rbp, cvt := q.cvt, rpu := q.rpu, mem := q.mem }
  fault : q.rpu.fault = c.rpu.fault
  speaks : c.Speaks q [] [.mirror .ctu, .mirror .rbp, .mirror .trl]
  shown : q.mirrored .trl

/-- R47 to R49, R60: what the decision does where no run comes to its threshold, a REJECT being scheduled by
position. -/
structure Part.Composes (c q : Part) (f : Profile) (r : Record) : Prop where
  trl : q.trl = c.trl.composed f r (if (r.closed.causesUnder f).any = true then .scheduled else r.eject)
  ctu : q.ctu = c.ctu.closing f r
  rbp : q.rbp = c.rbp.unreported r
  cvt : q.cvt = c.cvt.unwatched r
  rej : q.rej = if (r.closed.causesUnder f).any = true then c.rej.joined r.seq else c.rej
  rest : q = { c with trl := q.trl, ctu := q.ctu, rbp := q.rbp, cvt := q.cvt, rej := q.rej, rpu := q.rpu, mem := q.mem }
  fault : q.rpu.fault = c.rpu.fault
  speaks : c.Speaks q [] [.mirror .ctu, .mirror .rbp, .mirror .trl, .mirror .rej]
  decided : ({ q with trl := c.trl.composed f r r.eject } : Part).mirrored .trl
  taken : (r.closed.causesUnder f).any = true → q.mirrored .rej

section
variable {c D E : Part} {f : Profile} {r : Record}

/-- The record of one sequence written, and written again. -/
theorem Trl.each_at (t : Trl) {seq : Word} {a : Record} (ha : a.seq = seq) (g : Record → Record) :
    ((t.each fun x => if x.seq = seq then a else x).each fun x => if x.seq = seq then g x else x) =
      t.each fun x => if x.seq = seq then g a else x := by
  rw [Trl.each_each]
  refine Trl.each_congr _ fun x => ?_
  by_cases hseq : x.seq = seq
  · rw [if_pos hseq, if_pos hseq, if_pos ha]
  · rw [if_neg hseq, if_neg hseq, if_neg hseq]

theorem Part.EvidenceClosed.record (h : c.EvidenceClosed E f r) (hr : c.record r.seq = some r) :
    E.record r.seq = some r.closed := by
  rw [Part.record_each h.trl fun x => ?_, hr]
  · exact congrArg some (if_pos rfl)
  · split
    next hseq => exact hseq.symm
    next => rfl

/-- R48, R49: the record is decided on its evidence. -/
theorem Part.EvidenceClosed.decides (h : c.EvidenceClosed E f r) :
    c.Decides (E.decided r.seq (r.closed.causesUnder f)) f r where
  trl := by
    have hdecided : (E.decided r.seq (r.closed.causesUnder f)).trl = E.trl.each fun x => if x.seq = r.seq then
        { x with decision := (r.closed.causesUnder f).decision, causes := r.closed.causesUnder f } else x := rfl
    rw [hdecided, h.trl]
    exact Trl.each_at c.trl (a := r.closed) rfl _
  ctu := h.ctu
  rbp := h.rbp
  cvt := h.cvt
  rest := congrArg (·.decided r.seq (r.closed.causesUnder f)) h.rest
  fault := h.fault
  speaks := by
    have hwritten : c.Speaks (E.modRecord r.seq fun x => { x with
        decision := (r.closed.causesUnder f).decision, causes := r.closed.causesUnder f }) []
        [.mirror .ctu, .mirror .rbp] := h.speaks.same rfl rfl rfl
    exact hwritten.rewrite .trl
  shown := Part.rewrite_mirrored _ _

theorem Part.Decides.rej (h : c.Decides D f r) : D.rej = c.rej := by rw [h.rest]

/-- R49: a PASS. -/
theorem Part.Decides.passes (h : c.Decides D f r) (hany : ¬ (r.closed.causesUnder f).any = true) :
    c.Composes D f r where
  trl := by rw [if_neg hany]; exact h.trl
  ctu := h.ctu
  rbp := h.rbp
  cvt := h.cvt
  rej := by rw [if_neg hany]; exact h.rej
  rest := by rw [h.rej]; exact h.rest
  fault := h.fault
  speaks := h.speaks.mono (by simp)
  decided := by rw [← h.trl]; exact h.shown
  taken := fun hc => absurd hc hany

/-- R49, R113: a REJECT taken by position; the mirror record has shown it with its eject state as it was (R60). -/
theorem Part.Decides.rejects (h : c.Decides D f r) (hany : (r.closed.causesUnder f).any = true) :
    c.Composes (D.takenByPosition r.seq) f r where
  trl := by
    have htaken : (D.takenByPosition r.seq).trl =
        D.trl.each fun x => if x.seq = r.seq then { x with eject := .scheduled } else x := rfl
    rw [if_pos hany, htaken, h.trl]
    exact Trl.each_at c.trl (a := r.composed f r.eject) rfl _
  ctu := h.ctu
  rbp := h.rbp
  cvt := h.cvt
  rej := by rw [if_pos hany]; exact congrArg (·.joined r.seq) h.rej
  rest := congrArg (fun X : Part => { X with
    trl := (D.takenByPosition r.seq).trl, rej := (D.takenByPosition r.seq).rej
    rpu := (D.takenByPosition r.seq).rpu, mem := (D.takenByPosition r.seq).mem }) h.rest
  fault := h.fault
  speaks := by
    have hscheduled : c.Speaks ((D.setEject r.seq .scheduled).modRej (·.joined r.seq)) []
        [.mirror .ctu, .mirror .rbp, .mirror .trl] := h.speaks.same rfl rfl rfl
    exact hscheduled.rewrite .rej
  decided := by
    have hjoined : (D.modRej (·.joined r.seq)).mirrored .trl := h.shown
    rw [← h.trl]
    exact Part.mirrored_rewritten _ _ .rej hjoined
  taken := fun _ => Part.rewrite_mirrored _ _

/-- R47 to R49: the decision of the record, its evidence closed without a run coming to its threshold. -/
theorem Part.settle_composes (hf : c.cvt.profile = some f) (hr : c.record r.seq = some r)
    (hunique : ∀ x ∈ c.trl.records, x.seq = r.seq → x = r) (hd : r.decision = .undecided)
    (hpace : (r.closed.causesUnder f).any = true → c.cvt.paceState ≠ .timed)
    (hmissed : ∀ m : Fin 6, f.cameras[m].present = true → r.seq ∈ c.ctu.cameras[m].awaiting →
      f.cameras[m].threshold = 0 ∨ min 255 (c.ctu.cameras[m].missedRun + 1) ≠ f.cameras[m].threshold)
    (hrun : ∀ i : Fin 6, r.fill = .pending ∧ r.robot = some i →
      f.robots[i].threshold = 0 ∨ min 255 (c.rbp.robots[i].failureRun + 1) ≠ f.robots[i].threshold) :
    c.Composes (c.settle r.seq) f r := by
  have hclosed : c.EvidenceClosed (c.evidenceClosed r.seq) f r :=
    Part.evidenceClosed_closed hf hr hunique hd hmissed hrun
  have hdecides := hclosed.decides
  rw [Part.settle_undecided hf hr hd (hclosed.record hr), Record.compose_eq]
  by_cases hany : (r.closed.causesUnder f).any = true
  · rw [if_pos hany, Part.takeReject_untimed _ (by rw [hdecides.cvt]; exact hpace hany)]
    exact hdecides.rejects hany
  · rw [if_neg hany]
    exact hdecides.passes hany

end

end Sys2Proof.Machine
end

section
/-! PROOFS. A missed run that the decision brings to its threshold degrades the camera (R47, R103, R104). -/

namespace Sys2Proof.Machine

section
variable {p : Part} {m : Fin 6} {r : Record}

theorem Part.degraded_of_active (h : p.cameraState m = .active) : p.ctu.cameras[m].degraded = false := by
  unfold Part.cameraState at h
  cases hd : p.ctu.cameras[m].degraded with
  | false => rfl
  | true => rw [hd] at h; (repeat' split at h) <;> simp_all

/-- R93: a camera degraded for missed verdicts gives up its awaiting list. -/
theorem Part.emptyAwaiting_missedOut (hd : p.ctu.cameras[m].degraded = true)
    (hcause : p.ctu.cameras[m].degradeCause = some .missedVerdicts) (hrun : p.ctu.cameras[m].missedRun = 0) :
    (p.emptyAwaiting m).ctu.cameras[m].missedOut := by
  obtain ⟨-, hctu, -, -, -⟩ := p.emptyAwaiting_effects m
  have hcamera := (congrArg (fun b : Ctu => b.cameras[m.val]) hctu).trans (Ctu.put_get _ m _)
  unfold Camera.missedOut
  rw [Fin.getElem_fin, hcamera]
  exact ⟨hd, hcause, hrun, rfl⟩

/-- R93, R104: an ACTIVE camera degrades for missed verdicts. -/
theorem Part.degrade_missed (h : p.cameraState m = .active) :
    (p.degrade m .missedVerdicts).ctu.cameras[m].missedOut := by
  obtain ⟨Z, hZ⟩ : ∃ Z, Z = ((p.modCamera m fun k => { k with
    degraded := true, degradeCause := some .missedVerdicts, missedRun := 0 }).raise DegradeCause.missedVerdicts.news
      (BitVec.ofNat 8 m.val)).rewrite .ctu := ⟨_, rfl⟩
  have hdegrades : p.degrade m .missedVerdicts = Z.emptyAwaiting m := by
    unfold Part.degrade
    rw [if_neg (by rw [Part.degraded_of_active h]; exact Bool.false_ne_true), hZ]
    exact if_pos h
  rw [hdegrades]
  exact Part.emptyAwaiting_missedOut (by simp [hZ]) (by simp [hZ]) (by simp [hZ])

/-- R104: the missed run of an ACTIVE camera comes to its threshold. -/
theorem Part.gainMissed_reached (h : p.cameraState m = .active) (h0 : p.missedThreshold m ≠ 0)
    (hrun : min 255 (p.ctu.cameras[m].missedRun + 1) = p.missedThreshold m) :
    (p.gainMissed m).ctu.cameras[m].missedOut := by
  obtain ⟨Y, hY⟩ : ∃ Y, Y = (p.modCamera m fun k => { k with missedRun := inc8 p.ctu.cameras[m].missedRun }).rewrite
    .ctu := ⟨_, rfl⟩
  have hthreshold : Y.missedThreshold m = p.missedThreshold m := Part.missedThreshold_congr m (by rw [hY]; rfl)
  have hactive : Y.cameraState m = .active := by
    rw [← h]
    exact Part.cameraState_congr m (by simp [hY]) (by simp [hY]) (by simp [hY]) (by simp [hY])
  unfold Part.gainMissed
  dsimp only
  rw [← hY, hthreshold, if_pos ⟨h0, by rw [inc8_eq]; exact hrun⟩]
  exact Part.degrade_missed hactive

/-- R103, R104: the camera that awaits the container closes, and its missed run comes to its threshold. -/
theorem Part.closeCamera_reached (h : p.cameraState m = .active) (ha : r.seq ∈ p.ctu.cameras[m].awaiting)
    (h0 : p.missedThreshold m ≠ 0) (hrun : min 255 (p.ctu.cameras[m].missedRun + 1) = p.missedThreshold m) :
    (p.closeCamera m r.seq).ctu.cameras[m].missedOut := by
  have hcamera := (congrArg (fun b : Ctu => b.cameras[m.val]) (p.unawaited_ctu m r.seq)).trans (Ctu.put_get _ m _)
  have hprofile := p.unawaited_profile m r.seq
  have hthreshold := Part.missedThreshold_congr m hprofile
  rw [Part.closeCamera_awaiting ha]
  refine Part.gainMissed_reached ?_ (by rw [hthreshold]; exact h0)
    (by rw [hthreshold, Fin.getElem_fin, hcamera]; exact hrun)
  rw [← h]
  exact Part.cameraState_congr m hprofile (by rw [Fin.getElem_fin, hcamera])
    (by rw [Fin.getElem_fin, hcamera]) (by rw [Fin.getElem_fin, hcamera])

end

section
variable {c : Part} {f : Profile} {r : Record} {m : Fin 6}

/-- R47, R104: once every camera has closed, the one whose missed run has come to its threshold is degraded. -/
theorem Part.closeCameras_reached (hf : c.cvt.profile = some f) (hpresent : f.cameras[m].present = true)
    (h : c.cameraState m = .active) (ha : r.seq ∈ c.ctu.cameras[m].awaiting) (h0 : f.cameras[m].threshold ≠ 0)
    (hrun : min 255 (c.ctu.cameras[m].missedRun + 1) = f.cameras[m].threshold) :
    (c.closeCameras r.seq).ctu.cameras[m].missedOut := by
  obtain ⟨q, hcvt, hcamera, hclosed⟩ := Part.camera_among (q := c) (H := fun q => q.cvt = c.cvt)
    (fun q d => q.closePresent_works r.seq d)
    (fun q d hq => by
      have hrest := (q.closePresent_works r.seq d).rest
      rw [hrest]
      exact hq) rfl m
  have hqf : q.cvt.profile = some f := by rw [hcvt]; exact hf
  have hthreshold := Part.missedThreshold_of hqf m
  have hclose : q.closePresent r.seq m = q.closeCamera m r.seq := by
    unfold Part.closePresent
    rw [Part.cameraPresent_of hqf, hpresent]
    rfl
  unfold Part.closeCameras
  rw [hclosed, hclose]
  refine Part.closeCamera_reached ?_ (by rw [hcamera]; exact ha) (by rw [hthreshold]; exact h0)
    (by rw [hthreshold, hcamera]; exact hrun)
  rw [← h]
  exact Part.cameraState_congr m (by rw [hcvt]) (by rw [hcamera]) (by rw [hcamera]) (by rw [hcamera])

/-- R47, R104: the decision degrades the camera whose missed run comes to its threshold. -/
theorem Part.settle_missedOut {x : Record} (hf : c.cvt.profile = some f) (hx : c.record r.seq = some x)
    (hd : x.decision = .undecided) (hpresent : f.cameras[m].present = true) (h : c.cameraState m = .active)
    (ha : r.seq ∈ c.ctu.cameras[m].awaiting) (h0 : f.cameras[m].threshold ≠ 0)
    (hrun : min 255 (c.ctu.cameras[m].missedRun + 1) = f.cameras[m].threshold) :
    (c.settle r.seq).ctu.cameras[m].missedOut := by
  have hclosed : (c.closeCameras r.seq).Trails (c.settle r.seq) :=
    ((Part.closeVerdicts_trails _ r.seq).trans (Part.closeFill_trails _ r.seq)).trans (Part.settle_trails hf hx hd)
  exact hclosed.out m (Part.closeCameras_reached hf hpresent h ha h0 hrun)

end

end Sys2Proof.Machine
end

section
/-! PROOFS. A failure run that the decision brings to its threshold halts the robot (R47, R84, R85), whatever the
handing over of the container goes on to do. -/

namespace Sys2Proof.Machine

/-! ## What the cameras leave of the record (R103) -/

/-- What of a record its robot's report turns on: its fill result and its robot. -/
def Record.filling (x : Record) : FillResult × Option (Fin 6) := (x.fill, x.robot)

/-- From `p` to `q` robots, tracker and the records' fill results stand. -/
structure Part.KeepsFills (p q : Part) : Prop where
  rbp : q.rbp = p.rbp
  cvt : q.cvt = p.cvt
  records : q.trl.records.map (fun x => (x.seq, x.filling)) = p.trl.records.map fun x => (x.seq, x.filling)

section
variable {p q r : Part}

theorem Part.KeepsFills.refl (p : Part) : p.KeepsFills p := ⟨rfl, rfl, rfl⟩

theorem Part.KeepsFills.trans (h : p.KeepsFills q) (k : q.KeepsFills r) : p.KeepsFills r :=
  ⟨k.rbp.trans h.rbp, k.cvt.trans h.cvt, k.records.trans h.records⟩

theorem Part.KeepsFills.each {g : Record → Record} (h : q.trl = p.trl.each g) (hrbp : q.rbp = p.rbp)
    (hcvt : q.cvt = p.cvt) (hg : ∀ x, (g x).seq = x.seq ∧ (g x).filling = x.filling) : p.KeepsFills q where
  rbp := hrbp
  cvt := hcvt
  records := by
    rw [h]
    unfold Trl.each
    rw [List.map_map]
    exact List.map_congr_left fun x _ => Prod.ext (hg x).1 (hg x).2

theorem Part.KeepsFills.fold {α : Type} (l : List α) {g : Part → α → Part} (hg : ∀ q a, Part.KeepsFills q (g q a))
    (p : Part) : p.KeepsFills (l.foldl g p) := by
  induction l generalizing p with
  | nil => exact .refl p
  | cons a l ih => exact (hg p a).trans (ih _)

theorem Part.KeepsFills.modCamera (h : p.KeepsFills q) (m : Fin 6) (g : Camera → Camera) :
    p.KeepsFills (q.modCamera m g) := h.trans ⟨rfl, rfl, rfl⟩
theorem Part.KeepsFills.rewrite (h : p.KeepsFills q) (m : MirrorId) : p.KeepsFills (q.rewrite m) :=
  h.trans ⟨rfl, rfl, rfl⟩
theorem Part.KeepsFills.raise (h : p.KeepsFills q) (n : News) (member : Byte) : p.KeepsFills (q.raise n member) :=
  h.trans ⟨rfl, rfl, rfl⟩

theorem Record.judged_filling (x : Record) (seq : Word) (m : Fin 6) (v : Verdict) :
    (x.judged seq m v).filling = x.filling := by
  unfold Record.judged
  split <;> rfl

theorem Part.KeepsFills.noVerdict (h : p.KeepsFills q) (seq : Word) (m : Fin 6) : p.KeepsFills (q.noVerdict seq m) :=
  h.trans (.each (q.noVerdict_trl seq m) (by simp) (by simp) fun x => ⟨x.judged_seq _ _ _, x.judged_filling _ _ _⟩)

theorem Part.KeepsFills.emptyAwaiting (h : p.KeepsFills q) (m : Fin 6) : p.KeepsFills (q.emptyAwaiting m) :=
  (h.modCamera m _).trans (.fold _ (fun q seq => (Part.KeepsFills.refl q).noVerdict seq m) _)

theorem Part.KeepsFills.gainMissed (h : p.KeepsFills q) (m : Fin 6) : p.KeepsFills (q.gainMissed m) := by
  have hdegrades (q : Part) (cause : DegradeCause) : q.KeepsFills (q.degrade m cause) := by
    have hdegraded := (((Part.KeepsFills.refl q).modCamera m fun k => { k with
      degraded := true, degradeCause := some cause, missedRun := 0 }).raise cause.news
        (BitVec.ofNat 8 m.val)).rewrite .ctu
    unfold Part.degrade
    dsimp only
    split
    · exact .refl q
    · split
      · exact hdegraded.emptyAwaiting m
      · exact hdegraded
  have hgained := (h.modCamera m fun k => { k with missedRun := inc8 q.ctu.cameras[m].missedRun }).rewrite .ctu
  unfold Part.gainMissed
  dsimp only
  split
  · exact hgained.trans (hdegrades _ _)
  · exact hgained

theorem Part.closePresent_keepsFills (p : Part) (seq : Word) (m : Fin 6) : p.KeepsFills (p.closePresent seq m) := by
  unfold Part.closePresent Part.closeCamera
  split
  · split
    · exact (((Part.KeepsFills.refl p).modCamera m _).noVerdict seq m).gainMissed m
    · split
      · exact ((Part.KeepsFills.refl p).modCamera m _).noVerdict seq m
      · split
        · split
          · exact (Part.KeepsFills.refl p).noVerdict seq m
          · exact .refl p
        · exact .refl p
  · exact .refl p

theorem Record.lapsed_filling (x : Record) (seq : Word) : (x.lapsed seq).filling = x.filling := by
  unfold Record.lapsed
  split <;> rfl

/-- R47, R103: the verdicts of a container close. -/
theorem Part.closeVerdicts_keepsFills (p : Part) (seq : Word) :
    p.KeepsFills ((p.closeCameras seq).closeVerdicts seq) :=
  (Part.KeepsFills.fold _ (fun q m => q.closePresent_keepsFills seq m) p).trans
    (.each (Part.closeVerdicts_trl _ seq) rfl rfl fun x => ⟨x.lapsed_seq seq, x.lapsed_filling seq⟩)

theorem Part.KeepsFills.record (h : p.KeepsFills q) (seq : Word) :
    (q.record seq).map Record.filling = (p.record seq).map Record.filling := by
  have hfind (l : List Record) : (l.find? fun x => x.seq == seq).map Record.filling =
      ((l.map fun x => (x.seq, x.filling)).find? fun y => y.1 == seq).map Prod.snd := by
    rw [List.find?_map, Option.map_map]
    rfl
  unfold Part.record
  rw [hfind, hfind, h.records]

end

/-! ## What the handing over leaves of the robots (R113) -/

/-- What a halt shows of a robot: its state, the halt's origin and the failure run. -/
def Robot.halted (k : Robot) : RobotState × Option HaltOrigin × Nat := (k.state, k.haltOrigin, k.failureRun)

/-- From `p` to `q` the robots' states, halt origins and failure runs stand. -/
def Part.KeepsHalts (p q : Part) : Prop := ∀ i : Fin 6, q.rbp.robots[i].halted = p.rbp.robots[i].halted

section
variable {p q r : Part}

theorem Part.KeepsHalts.of_eq (h : q.rbp = p.rbp) : p.KeepsHalts q := fun i => by rw [h]

theorem Part.KeepsHalts.refl (p : Part) : p.KeepsHalts p := .of_eq rfl

theorem Part.KeepsHalts.trans (h : p.KeepsHalts q) (k : q.KeepsHalts r) : p.KeepsHalts r :=
  fun i => (k i).trans (h i)

/-- Another block changes. -/
theorem Part.KeepsHalts.same (h : p.KeepsHalts q) (k : r.rbp = q.rbp) : p.KeepsHalts r := h.trans (.of_eq k)

theorem Part.KeepsHalts.fold {α : Type} (l : List α) {g : Part → α → Part} (hg : ∀ q a, Part.KeepsHalts q (g q a))
    (p : Part) : p.KeepsHalts (l.foldl g p) := by
  induction l generalizing p with
  | nil => exact .refl p
  | cons a l ih => exact (hg p a).trans (ih _)

theorem Part.KeepsHalts.modRobot (h : p.KeepsHalts q) (i : Fin 6) (g : Robot → Robot)
    (hg : ∀ k, (g k).halted = k.halted := by exact fun _ => rfl) : p.KeepsHalts (q.modRobot i g) := by
  refine h.trans fun j => ?_
  by_cases hj : j = i
  · subst hj
    rw [show (q.modRobot j g).rbp.robots[j] = g q.rbp.robots[j] from modAt_self _ _ _]
    exact hg _
  · rw [show (q.modRobot i g).rbp.robots[j] = q.rbp.robots[j] from modAt_other _ _ hj]

/-- R79: a pending window adopted. -/
theorem Part.adoptWindow_keepsHalts (p : Part) (i : Fin 6) : p.KeepsHalts (p.adoptWindow i) := by
  unfold Part.adoptWindow
  split
  · exact .refl p
  next w _ =>
    have hlive := ((Part.KeepsHalts.refl p).modRobot i fun k => { k with pendingWindow := none }).modRobot i
      fun k => { k with live := w.window.clamp (p.modRobot i fun k => { k with pendingWindow := none }).clampPitch }
    refine hlive.same ?_
    unfold Part.makeLive
    dsimp only
    (repeat' split) <;> simp

theorem Part.adoptRotation_keepsHalts (p : Part) (x : PendingRotation) : p.KeepsHalts (p.adoptRotation x) := by
  have hadopted : p.KeepsHalts (p.modRbp fun b => { b with
      rotation := x.rotation, pendingRotation := none, cursor := 0 }) := fun _ => rfl
  exact hadopted.same (by unfold Part.adoptRotation; simp)

theorem Part.robotsReady_keepsHalts (p : Part) : p.KeepsHalts p.robotsReady := by
  unfold Part.robotsReady
  refine Part.KeepsHalts.trans ?_ (.fold _ (fun q i => q.adoptWindow_keepsHalts i) _)
  split
  next x _ => exact p.adoptRotation_keepsHalts x
  next => exact .refl p

theorem Part.remove_keepsHalts (p : Part) (seq : Word) : p.KeepsHalts (p.remove seq) := by
  have hempties (q : Part) : q.KeepsHalts q.listEmptied := by
    unfold Part.listEmptied
    dsimp only
    split
    · exact (Part.KeepsHalts.of_eq (by simp)).trans (Part.robotsReady_keepsHalts _)
    · exact .refl q
  unfold Part.remove
  dsimp only
  split
  · exact .refl p
  · split
    · exact (Part.KeepsHalts.of_eq (by simp)).trans (hempties _)
    · exact .of_eq (by simp)

/-- R117: a member of a pulse is fired. -/
theorem Part.fireMember_keepsHalts (p : Part) (seq : Word) : p.KeepsHalts (p.fireMember seq) := by
  have hpushes (q : Part) : q.KeepsHalts q.pushOut := by
    unfold Part.pushOut Part.unconfirm
    dsimp only
    split
    · split
      · exact (Part.KeepsHalts.of_eq (by simp)).trans (Part.remove_keepsHalts _ _)
      · exact .refl q
    · exact .refl q
  have hfired : p.KeepsHalts (p.setEject seq .fired) := fun _ => rfl
  unfold Part.fireMember
  dsimp only
  split
  · exact (hfired.trans (hpushes _)).same rfl
  · exact hfired.trans (Part.remove_keepsHalts _ seq)

theorem Part.startPulse_keepsHalts (p : Part) (u : Pulse) (ending : Time) : p.KeepsHalts (p.startPulse u ending) := by
  have hdriven : p.KeepsHalts ((p.modRej fun e => { e with
      schedule := e.schedule.filter fun x => x != u }).drive ending) := .of_eq (by simp)
  exact (hdriven.trans (.fold _ (fun q seq => q.fireMember_keepsHalts seq) _)).same rfl

theorem Part.scheduleTimed_keepsHalts (p : Part) (seq : Word) (t : Time) : p.KeepsHalts (p.scheduleTimed seq t) := by
  have hjoins (g : Rej → Rej) (u : Pulse) (ending : Time) : p.KeepsHalts (if Time.reached t p.now then
      (p.modRej g).startPulse u ending else p.modRej g) := by
    split
    · exact (Part.KeepsHalts.of_eq rfl).trans (Part.startPulse_keepsHalts _ u ending)
    · exact .of_eq rfl
  unfold Part.scheduleTimed
  dsimp only
  split
  · split
    · split
      · exact hjoins _ _ _
      · exact .of_eq rfl
    · exact hjoins _ _ _
  · split
    · exact hjoins _ _ _
    · exact (Part.KeepsHalts.of_eq (by simp)).trans (Part.fireMember_keepsHalts _ seq)
  · exact hjoins _ _ _

theorem Part.takeReject_keepsHalts (p : Part) (seq : Word) : p.KeepsHalts (p.takeReject seq) := by
  have hscheduled : p.KeepsHalts (p.setEject seq .scheduled) := fun _ => rfl
  unfold Part.takeReject
  dsimp only
  split
  · exact (hscheduled.trans (Part.scheduleTimed_keepsHalts _ seq _)).same rfl
  · exact hscheduled.same rfl

end

/-! ## The robot halts (R85) -/

section
variable {c : Part} {f : Profile} {r : Record} {i : Fin 6}

/-- R85: a bad result that brings the failure run to its threshold halts the robot. -/
theorem Part.badFill_reached (h0 : c.failureThreshold i ≠ 0)
    (hrun : min 255 (c.rbp.robots[i].failureRun + 1) = c.failureThreshold i) (hreq : c.rbp.robots[i].runReq = true)
    (hack : c.rbp.robots[i].pins.haltAck = false) (hwindow : c.rbp.robots[i].pendingWindow = none) :
    (c.badFill i).rbp.robots[i].halted = (.halting, some .fillFailures, 0) := by
  obtain ⟨U, hU⟩ : ∃ U, U = ((c.modRobot i fun k => { k with failureRun := 0 }).raise .fillFailures
    (robotMember i)).rewrite .rbp := ⟨_, rfl⟩
  have hrobot : U.rbp.robots[i] = { c.rbp.robots[i] with failureRun := 0 } := by
    rw [hU]
    simp
  have hhalts : c.badFill i = U.requestHalt i .fillFailures := by
    unfold Part.badFill
    dsimp only
    rw [if_pos ⟨h0, by rw [inc8_eq]; exact hrun⟩, hU]
  rw [hhalts, Part.requestHalt_robot U i .fillFailures (by rw [hrobot]; exact hreq) (by rw [hrobot]; exact hack)
    fun _ => by rw [hrobot]; exact hwindow, hrobot]
  rfl

/-- R84, R85: the record's robot still owes its report, and its failure run comes to its threshold. -/
theorem Part.closeReport_reached (seq : Word) (h0 : c.failureThreshold i ≠ 0)
    (hrun : min 255 (c.rbp.robots[i].failureRun + 1) = c.failureThreshold i) (hreq : c.rbp.robots[i].runReq = true)
    (hack : c.rbp.robots[i].pins.haltAck = false) (hwindow : c.rbp.robots[i].pendingWindow = none) :
    (c.closeReport i seq).rbp.robots[i].halted = (.halting, some .fillFailures, 0) := by
  have hrobot := c.reportEnded_robot i seq
  have hthreshold := c.reportEnded_threshold i seq
  rw [Part.closeReport_eq]
  refine Part.badFill_reached ?_ ?_ ?_ ?_ ?_
  · rw [hthreshold]; exact h0
  · rw [hthreshold, hrobot]; exact hrun
  · rw [hrobot]; exact hreq
  · rw [hrobot]; exact hack
  · rw [hrobot]; exact hwindow

/-- R47, R85: the decision halts the robot whose failure run comes to its threshold. -/
theorem Part.settle_halts (hf : c.cvt.profile = some f) (hr : c.record r.seq = some r) (hd : r.decision = .undecided)
    (hfill : r.fill = .pending) (hrobot : r.robot = some i) (h0 : f.robots[i].threshold ≠ 0)
    (hrun : min 255 (c.rbp.robots[i].failureRun + 1) = f.robots[i].threshold) (hreq : c.rbp.robots[i].runReq = true)
    (hack : c.rbp.robots[i].pins.haltAck = false) (hwindow : c.rbp.robots[i].pendingWindow = none) :
    (c.settle r.seq).rbp.robots[i].halted = (.halting, some .fillFailures, 0) := by
  obtain ⟨V, hV⟩ : ∃ V, V = (c.closeCameras r.seq).closeVerdicts r.seq := ⟨_, rfl⟩
  have hkeeps : c.KeepsFills V := by
    rw [hV]
    exact c.closeVerdicts_keepsFills r.seq
  have hthreshold : V.failureThreshold i = f.robots[i].threshold :=
    Part.failureThreshold_of (by rw [hkeeps.cvt]; exact hf) i
  have hreports : V.closeFill r.seq = V.closeReport i r.seq := by
    have hfilling := hkeeps.record r.seq
    rw [hr] at hfilling
    obtain ⟨x, hx, hxr⟩ := Option.map_eq_some_iff.mp hfilling
    obtain ⟨hxfill, hxrobot⟩ : x.fill = r.fill ∧ x.robot = r.robot := Prod.mk.inj hxr
    unfold Part.closeFill
    simp only [hx, hxfill, hxrobot, hfill, hrobot, if_true]
  have hclosed : (c.evidenceClosed r.seq).rbp.robots[i].halted = (.halting, some .fillFailures, 0) := by
    unfold Part.evidenceClosed
    rw [← hV, hreports]
    refine Part.closeReport_reached r.seq ?_ ?_ ?_ ?_ ?_
    · rw [hthreshold]; exact h0
    · rw [hthreshold, hkeeps.rbp]; exact hrun
    · rw [hkeeps.rbp]; exact hreq
    · rw [hkeeps.rbp]; exact hack
    · rw [hkeeps.rbp]; exact hwindow
  have hends : (c.evidenceClosed r.seq).KeepsHalts (c.settle r.seq) := by
    obtain h | ⟨causes, h | h⟩ := Part.settle_ends hf hr hd <;> rw [h]
    · exact .refl _
    · exact .of_eq rfl
    · exact (Part.KeepsHalts.of_eq rfl).trans
        (Part.takeReject_keepsHalts ((c.evidenceClosed r.seq).decided r.seq causes) r.seq)
  exact (hends i).trans hclosed

end

end Sys2Proof.Machine
end

section
/-! PROOFS. The decision point (R47 to R49, R60, R84, R103). -/

namespace Sys2Proof.Machine

section
variable {p : Part} {f : Profile} {was pair : Bool × Bool} {infeed : Bool} {r : Record} {s : Station}

/-- R28: no other record of the list has the sequence of the one that has arrived. -/
theorem Part.arrives_unique (h : p.arrives f was pair infeed r s) :
    ∀ x ∈ ((p.counted f pair infeed).past r.seq s).trl.records, x.seq = r.seq → x = r.past s := by
  obtain ⟨-, -, hunique, -, -⟩ := h
  intro x hx hseq
  obtain ⟨y, hy, rfl⟩ := List.mem_map.mp hx
  have hyseq : y.seq = r.seq := by
    split at hseq
    · assumption
    · exact hseq
  rw [if_pos hyseq, hunique y hy hyseq]
  rfl

/-- R47: the advance on which a record's decision alone is due. -/
theorem Part.arrives_settles (choices : List Nat) (h : p.arrives f was pair infeed r .decision) :
    p.encoderPair pair infeed choices =
      ((p.counted f pair infeed).past r.seq .decision).settle r.seq := by
  obtain ⟨⟨-, -, -, hprofile, -⟩, -⟩ := id h
  exact Part.arrives_raises choices h (Part.settle_stays hprofile (Part.arrives_record h))

end

/-- Settles O18, by what the decision does to the record, to a camera and to a robot brought to its threshold. -/
theorem decisionIsComposed : Obligations.DecisionIsComposed := by
  unfold Obligations.DecisionIsComposed
  intro p w f was pair infeed choices r h c count closed causes passes decided missed run awaited unreported
  obtain ⟨⟨-, -, -, hprofile, -⟩, -⟩ := id h
  have hq : p.encoderPair pair infeed choices = c.settle r.seq := Part.arrives_settles choices h
  have hrecord : c.record r.seq = some (r.past .decision) := Part.arrives_record h
  have hpasses : causes.any = true ↔ ¬ passes := causes.any_iff
  have hcomposed (eject : EjectState) : c.trl.composed f (r.past .decision) eject = decided eject := by
    have hdecision : causes.decision = if passes then .pass else .reject := causes.decision_eq
    simp only [decided, ← hdecision]
    rfl
  have hchoice {α : Type} (a b : α) : (if causes.any = true then a else b) = if passes then b else a := by
    by_cases hp : passes
    · rw [if_neg fun hany => hpasses.mp hany hp, if_pos hp]
    · rw [if_pos (hpasses.mpr hp), if_neg hp]
  refine ⟨fun hd => ?_, fun hd hpace hmissed hrun => ?_, fun m hd hawaited hactive h0 hreached => ?_,
    fun i hd hunreported h0 hreached hreq hack hwindow => ?_⟩
  · exact Part.encoderCount_leads w hq (Part.settle_decided hrecord hd)
  · have hsettled : c.Composes (c.settle r.seq) f (r.past .decision) :=
      Part.settle_composes (c := c) (r := r.past .decision) hprofile hrecord (Part.arrives_unique h) hd
        (fun hany => hpace.resolve_left (hpasses.mp hany))
        (fun m hpresent hm => hmissed m ⟨hpresent, hm⟩) hrun
    have hbegun : p.Speaks c [] [] := .refl_of rfl rfl rfl
    refine Part.encoderCount_leads w hq ⟨?_, hsettled.ctu, hsettled.rbp, ?_, ?_, hsettled.rest, ?_, ?_, ?_, ?_⟩
    · rw [hsettled.trl, hcomposed]
      exact congrArg decided (hchoice _ _)
    · exact hsettled.cvt
    · exact hsettled.rej.trans (hchoice _ _)
    · exact (hbegun.trans hsettled.speaks).tells hsettled.fault
    · rw [← hcomposed]
      exact hsettled.decided
    · exact fun hnot => hsettled.taken (hpasses.mpr hnot)
    · exact (hbegun.trans hsettled.speaks).storesOnly fun _ => id
  · obtain ⟨hpresent, hm⟩ := hawaited
    exact Part.encoderCount_leads w hq (Part.settle_missedOut hprofile hrecord hd hpresent hactive hm h0 hreached)
  · obtain ⟨hfill, hrobot⟩ := hunreported
    have hhalted := Part.settle_halts (c := c) (r := r.past .decision) hprofile hrecord hd hfill hrobot h0 hreached
      hreq hack hwindow
    obtain ⟨hstate, hhalt⟩ := Prod.mk.inj hhalted
    obtain ⟨horigin, hfailures⟩ := Prod.mk.inj hhalt
    exact Part.encoderCount_leads w hq ⟨hstate, horigin, hfailures⟩

end Sys2Proof.Machine
end

section
/-! PROOFS. The laws that guard people (R64, R127, R144, R154), zone by zone: what they look at, and what leaves them
alone. -/

-- One proof after another: side by side, their threads take the stack space that a compile of the whole text is given.
set_option Elab.async false

namespace Sys2Proof.Machine

/-! ## The laws of one zone -/

/-- The port is OPEN, or HELD to become OPEN. -/
def Port.ajar (k : Port) : Prop := k.admission = .opened ∨ k.admission = .held

/-- The laws that guard people, of one zone. -/
structure Part.Guarded (p : Part) (z : Fin 8) : Prop where
  sockets : ∀ i : Fin 16, p.spm.ports[i.val].role = .service z → p.spm.ports[i.val].ajar →
    p.sac.zones[z.val].state ≠ .sealed
  door : p.sac.zones[z.val].doorRel = true → p.doorRelCondition z = true
  rest : p.sac.zones[z.val].holding = true → ∀ r : Fin 6, p.zoneHasRobot z r = true →
    p.rbp.robots[r.val].runReq = false
  profile : p.cvt.profile = none → p.sac.zones[z.val].state = .sealed

/-- R74: a robot is held where a zone that has it as a member holds its members. -/
theorem Part.held_iff (p : Part) (r : Fin 6) :
    p.held r = true ↔ ∃ z : Fin 8, p.zoneHasRobot z r = true ∧ p.sac.zones[z.val].holding = true := by
  have hall : ∀ z : Fin 8, z ∈ eights := by decide
  simp [Part.held, List.any_eq_true, hall]

/-- The four laws of the whole part are the laws of every zone. -/
theorem Part.guarded_iff (p : Part) : (∀ z, p.Guarded z) ↔
    p.socketsFollowZones ∧ p.doorsFollowRobots ∧ p.heldRobotsRest ∧ p.zonesNeedProfile := by
  constructor
  · intro h
    refine ⟨fun i z => (h z).sockets i, fun z => (h z).door, fun r hr => ?_, fun hp z => (h z).profile hp⟩
    obtain ⟨z, hm, hz⟩ := (p.held_iff r).mp hr
    exact (h z).rest hz r hm
  · rintro ⟨hs, hd, hr, hp⟩ z
    exact ⟨fun i => hs i z, hd z, fun hz r hm => hr r ((p.held_iff r).mpr ⟨z, hm, hz⟩), fun h => hp h z⟩

/-! ## What the laws look at -/

/-- What the laws look at of a zone. -/
def Zone.guardView (k : Zone) : ZoneState × AccessLevel × ZoneOrigin × Bool := (k.state, k.level, k.origin, k.doorRel)
/-- What the laws look at of a robot. -/
def Robot.guardView (k : Robot) : RobotState × Bool := (k.state, k.safe)
/-- What the laws look at of a port. -/
def Port.guardView (k : Port) : Role × Admission := (k.role, k.admission)

theorem Zone.guardView_iff {k m : Zone} : k.guardView = m.guardView ↔
    k.state = m.state ∧ k.level = m.level ∧ k.origin = m.origin ∧ k.doorRel = m.doorRel := by simp [Zone.guardView]
theorem Robot.guardView_iff {k m : Robot} : k.guardView = m.guardView ↔
    k.state = m.state ∧ k.safe = m.safe := by simp [Robot.guardView]
theorem Port.guardView_iff {k m : Port} : k.guardView = m.guardView ↔
    k.role = m.role ∧ k.admission = m.admission := by simp [Port.guardView]

theorem Robot.safe_congr {k m : Robot} (hs : k.state = m.state) (ha : k.pins.haltAck = m.pins.haltAck) :
    k.safe = m.safe := by
  unfold Robot.safe; rw [hs, ha]

theorem Zone.holding_congr {k m : Zone} (h : k.guardView = m.guardView) : k.holding = m.holding := by
  obtain ⟨hs, hl, ho, -⟩ := Zone.guardView_iff.mp h
  unfold Zone.holding; rw [hs, hl, ho]

/-- R154: DOOR_REL's condition, spelled out. -/
theorem Part.doorRelCondition_iff (p : Part) (z : Fin 8) : p.doorRelCondition z = true ↔
    p.hasDoor z = true ∧ (p.sac.zones[z.val].state = .opened ∨ p.sac.zones[z.val].state = .overstay) ∧
      p.sac.zones[z.val].level = .maintain ∧
      ∀ r : Fin 6, p.zoneHasRobot z r = true → p.rbp.robots[r.val].safe = true := by
  have hs : p.membersSafe z = true ↔ ∀ r : Fin 6, p.zoneHasRobot z r = true → p.rbp.robots[r.val].safe = true := by
    unfold Part.membersSafe
    rw [List.all_eq_true]
    refine ⟨fun h r hm => ?_, fun h r _ => ?_⟩
    · simpa [hm] using h r (mem_sixes r)
    · cases hm : p.zoneHasRobot z r
      · rfl
      · simpa using h r hm
  unfold Part.doorRelCondition
  simp only [Bool.and_eq_true, Bool.or_eq_true, beq_iff_eq, hs, Fin.getElem_fin, and_assoc]

theorem Part.hasDoor_of {p q : Part} (h : q.cvt.profile = p.cvt.profile) (z : Fin 8) : q.hasDoor z = p.hasDoor z := by
  unfold Part.hasDoor; rw [Part.zoneMap_congr h]

/-- The laws of a zone see no more than its view, the robots' views, and which of its sockets stand open. -/
theorem Part.Guarded.of_views {p q : Part} {z : Fin 8} (h : p.Guarded z) (hprofile : q.cvt.profile = p.cvt.profile)
    (hzone : q.sac.zones[z.val].guardView = p.sac.zones[z.val].guardView)
    (hrobots : ∀ r : Fin 6, q.rbp.robots[r.val].guardView = p.rbp.robots[r.val].guardView)
    (hports : ∀ i : Fin 16, q.spm.ports[i.val].role = .service z → q.spm.ports[i.val].ajar →
      (p.spm.ports[i.val].role = .service z ∧ p.spm.ports[i.val].ajar) ∨ p.sac.zones[z.val].state ≠ .sealed) :
    q.Guarded z := by
  obtain ⟨hst, hl, ho, hd⟩ := Zone.guardView_iff.mp hzone
  refine ⟨fun i hrole hajar => ?_, fun hrel => ?_, fun hhold r hm => ?_, fun hnone => ?_⟩
  · rw [hst]
    rcases hports i hrole hajar with ⟨hr, ha⟩ | hn
    · exact h.sockets i hr ha
    · exact hn
  · obtain ⟨h1, h2, h3, h4⟩ := (p.doorRelCondition_iff z).mp (h.door (hd ▸ hrel))
    refine (q.doorRelCondition_iff z).mpr ⟨(Part.hasDoor_of hprofile z).trans h1, hst ▸ h2, hl ▸ h3, fun r hm => ?_⟩
    rw [(Robot.guardView_iff.mp (hrobots r)).2]
    exact h4 r ((Part.zoneHasRobot_congr hprofile z r).symm.trans hm)
  · rw [Robot.runReq_congr (Robot.guardView_iff.mp (hrobots r)).1]
    exact h.rest ((Zone.holding_congr hzone).symm.trans hhold) r ((Part.zoneHasRobot_congr hprofile z r).symm.trans hm)
  · exact hst.trans (h.profile (hprofile.symm.trans hnone))

/-! ## Changes that keep the laws -/

/-- Every zone guarded before is guarded after. -/
def Part.Guards (p q : Part) : Prop := ∀ z, p.Guarded z → q.Guarded z

theorem Part.Guards.refl (p : Part) : p.Guards p := fun _ h => h
theorem Part.Guards.trans {p q r : Part} (h : p.Guards q) (k : q.Guards r) : p.Guards r := fun z hz => k z (h z hz)

/-- A further step taken in one case only. -/
theorem Part.Guards.next_if {p q t : Part} {c : Prop} [Decidable c] (h : p.Guards q) (k : q.Guards t) :
    p.Guards (if c then t else q) := by
  split
  · exact h.trans k
  · exact h

/-- A further step left out in one case only. -/
theorem Part.Guards.next_unless {p q t : Part} {c : Prop} [Decidable c] (h : p.Guards q) (k : q.Guards t) :
    p.Guards (if c then q else t) := by
  split
  · exact h
  · exact h.trans k

/-- A walk whose every step keeps the laws. -/
theorem Part.Guards.fold {α : Type} (f : Part → α → Part) (h : ∀ p a, Part.Guards p (f p a)) (l : List α) (p : Part) :
    p.Guards (l.foldl f p) := by
  induction l generalizing p with
  | nil => exact .refl p
  | cons a l ih => exact (h p a).trans (ih _)

/-- From `p` to `q` nothing changed that the laws look at. -/
structure Part.Alike (p q : Part) : Prop where
  profile : q.cvt.profile = p.cvt.profile
  zones : ∀ z : Fin 8, q.sac.zones[z.val].guardView = p.sac.zones[z.val].guardView
  robots : ∀ r : Fin 6, q.rbp.robots[r.val].guardView = p.rbp.robots[r.val].guardView
  ports : ∀ i : Fin 16, q.spm.ports[i.val].guardView = p.spm.ports[i.val].guardView

theorem Part.Alike.refl (p : Part) : p.Alike p := ⟨rfl, fun _ => rfl, fun _ => rfl, fun _ => rfl⟩
theorem Part.Alike.trans {p q r : Part} (h : p.Alike q) (k : q.Alike r) : p.Alike r :=
  ⟨k.profile.trans h.profile, fun z => (k.zones z).trans (h.zones z), fun r => (k.robots r).trans (h.robots r),
    fun i => (k.ports i).trans (h.ports i)⟩

theorem Part.Alike.fold {α : Type} (f : Part → α → Part) (h : ∀ p a, Part.Alike p (f p a)) (l : List α) (p : Part) :
    p.Alike (l.foldl f p) := by
  induction l generalizing p with
  | nil => exact .refl p
  | cons a l ih => exact (h p a).trans (ih _)

/-- An operation that leaves the sockets and the zones alone, and of the robots their state and lines. -/
theorem Part.Alike.of_robots {p q : Part} (hprofile : q.cvt.profile = p.cvt.profile := by simp)
    (hsac : q.sac = p.sac := by simp) (hspm : q.spm = p.spm := by simp)
    (hstate : ∀ r : Fin 6, q.rbp.robots[r.val].state = p.rbp.robots[r.val].state := by simp)
    (hpins : ∀ r : Fin 6, q.rbp.robots[r.val].pins = p.rbp.robots[r.val].pins := by simp) : p.Alike q :=
  ⟨hprofile, fun _ => by rw [hsac],
    fun r => Robot.guardView_iff.mpr ⟨hstate r, Robot.safe_congr (hstate r) (by rw [hpins r])⟩,
    fun _ => by rw [hspm]⟩

/-- An operation that leaves the sockets, the zones and the robots alone. -/
theorem Part.Alike.of_blocks {p q : Part} (hprofile : q.cvt.profile = p.cvt.profile := by simp)
    (hsac : q.sac = p.sac := by simp) (hspm : q.spm = p.spm := by simp) (hrbp : q.rbp = p.rbp := by simp) :
    p.Alike q :=
  .of_robots hprofile hsac hspm (fun _ => by rw [hrbp]) (fun _ => by rw [hrbp])

theorem Part.Alike.guards {p q : Part} (h : p.Alike q) : p.Guards q := fun z hz =>
  hz.of_views h.profile (h.zones z) h.robots fun i hrole hajar => by
    obtain ⟨hr, ha⟩ := Port.guardView_iff.mp (h.ports i)
    exact .inl ⟨hr ▸ hrole, by unfold Port.ajar at hajar ⊢; rwa [← ha]⟩

/-- An operation that leaves the sockets and the zones alone, and of the robots their state and lines, keeps the
laws. -/
theorem Part.Guards.of_robots {p q : Part} (hprofile : q.cvt.profile = p.cvt.profile := by simp)
    (hsac : q.sac = p.sac := by simp) (hspm : q.spm = p.spm := by simp)
    (hstate : ∀ r : Fin 6, q.rbp.robots[r.val].state = p.rbp.robots[r.val].state := by simp)
    (hpins : ∀ r : Fin 6, q.rbp.robots[r.val].pins = p.rbp.robots[r.val].pins := by simp) : p.Guards q :=
  (Part.Alike.of_robots hprofile hsac hspm hstate hpins).guards

/-- A change of ports alone. -/
theorem Part.Guarded.of_ports {p q : Part} {z : Fin 8} (h : p.Guarded z) (hcvt : q.cvt = p.cvt) (hsac : q.sac = p.sac)
    (hrbp : q.rbp = p.rbp) (hports : ∀ i : Fin 16, q.spm.ports[i.val].role = .service z → q.spm.ports[i.val].ajar →
      (p.spm.ports[i.val].role = .service z ∧ p.spm.ports[i.val].ajar) ∨ p.sac.zones[z.val].state ≠ .sealed) :
    q.Guarded z :=
  h.of_views (by rw [hcvt]) (by rw [hsac]) (fun r => by rw [hrbp]) hports

/-- A zone changed as the laws do not see. -/
theorem Part.modZone_alike (p : Part) (z : Fin 8) (f : Zone → Zone)
    (h : ∀ k, (f k).guardView = k.guardView := by exact fun _ => rfl) :
    p.Alike (p.modZone z f) := by
  refine ⟨by simp, fun y => ?_, fun _ => by simp, fun _ => by simp⟩
  simp only [Part.modZone_fields]
  rw [modAt_get]
  split
  · exact h _
  · rfl

theorem Part.rewrite_alike (p : Part) (m : MirrorId) : p.Alike (p.rewrite m) :=
  .of_blocks
theorem Part.raise_alike (p : Part) (n : News) (m : Byte) : p.Alike (p.raise n m) :=
  .of_blocks
theorem Part.complete_alike (p : Part) (ref : OrderRef) (r : Result) (d : Byte) : p.Alike (p.complete ref r d) :=
  .of_blocks
theorem Part.completeIf_alike (p : Part) (ref : Option OrderRef) (r : Result) (d : Byte) :
    p.Alike (p.completeIf ref r d) := .of_blocks
theorem Part.handOutcome_alike (p : Part) (kind : Byte) (body : List Byte) : p.Alike (p.handOutcome kind body) :=
  .of_blocks

theorem Part.Alike.rewrite {p q : Part} (h : p.Alike q) (m : MirrorId) : p.Alike (q.rewrite m) :=
  h.trans (q.rewrite_alike m)
theorem Part.Alike.raise {p q : Part} (h : p.Alike q) (n : News) (m : Byte) : p.Alike (q.raise n m) :=
  h.trans (q.raise_alike n m)
theorem Part.Alike.complete {p q : Part} (h : p.Alike q) (ref : OrderRef) (r : Result) (d : Byte) :
    p.Alike (q.complete ref r d) := h.trans (q.complete_alike ref r d)

end Sys2Proof.Machine
end

section
/-! PROOFS. The laws that guard people, through what ports and zones do (R127 to R136, R146 to R158): sockets, DOOR_REL,
grants, requests that end, sealings, and a report on a robot (R74). -/

-- One proof after another: side by side, their threads take the stack space that a compile of the whole text is given.
set_option Elab.async false

namespace Sys2Proof.Machine

/-! ## Sockets (R127) -/

/-- One port's admission changes: the laws stand where the port may stand open. -/
theorem Part.setAdmission_guarded {p : Part} {z : Fin 8} (h : p.Guarded z) (i : Fin 16) (a : Admission)
    (ha : a = .opened ∨ a = .held → p.spm.ports[i.val].ajar ∨ p.spm.ports[i.val].role ≠ .service z ∨
      p.sac.zones[z.val].state ≠ .sealed) : (p.setAdmission i a).Guarded z := by
  refine h.of_ports (by simp) (by simp) (by simp) fun j hrole hajar => ?_
  have hr : p.spm.ports[j.val].role = .service z := by simpa using hrole
  by_cases hj : i = j
  · subst hj
    have hadmission : (p.setAdmission i a).spm.ports[i.val].admission = a := by
      rw [Part.setAdmission_spm, Spm.put_get]
      unfold Port.admitted
      split
      · assumption
      · simp
    unfold Port.ajar at hajar
    rw [hadmission] at hajar
    rcases ha hajar with h1 | h1 | h1
    · exact .inl ⟨hr, h1⟩
    · exact absurd hr h1
    · exact .inr h1
  · have hne : i.val ≠ j.val := fun e => hj (Fin.ext e)
    have hsame : (p.setAdmission i a).spm.ports[j.val] = p.spm.ports[j.val] := by
      rw [Part.setAdmission_spm]; simp [Spm.put, hne]
    exact .inl ⟨hr, hsame ▸ hajar⟩

/-- A port that is closed, or quarantined, is no harm. -/
theorem Part.setAdmission_guards (p : Part) (i : Fin 16) (a : Admission) (ha : ¬ (a = .opened ∨ a = .held)) :
    p.Guards (p.setAdmission i a) := fun _ h => Part.setAdmission_guarded h i a fun e => absurd e ha

theorem Part.endQuarantine_guarded {p : Part} {z : Fin 8} (h : p.Guarded z) (i : Fin 16) (a : Admission)
    (ha : a = .opened ∨ a = .held → p.spm.ports[i.val].ajar ∨ p.spm.ports[i.val].role ≠ .service z ∨
      p.sac.zones[z.val].state ≠ .sealed) : (p.endQuarantine i a).Guarded z := by
  have halike : (p.setAdmission i a).Alike (p.endQuarantine i a) := by
    unfold Part.endQuarantine
    exact .of_blocks
  exact halike.guards z (Part.setAdmission_guarded h i a ha)

/-- R132: an open request of zone `y` asks nothing of another zone, nor of one that is not SEALED. -/
theorem Part.openZonePort_guarded {p : Part} {z : Fin 8} (h : p.Guarded z) (y : Fin 8) (i : Fin 16)
    (hz : z ≠ y ∨ p.sac.zones[z.val].state ≠ .sealed) : (p.openZonePort y i).Guarded z := by
  unfold Part.openZonePort
  split
  next hrole =>
    have hmay : p.spm.ports[i.val].role ≠ .service z ∨ p.sac.zones[z.val].state ≠ .sealed := by
      rcases hz with hz | hz
      · exact .inl fun e => hz (by simpa using e.symm.trans hrole)
      · exact .inr hz
    split
    · exact Part.setAdmission_guarded h i _ fun _ => .inr hmay
    · exact Part.endQuarantine_guarded h i _ fun _ => .inr hmay
    · exact h
    · exact h
  next => exact h

theorem Part.openZonePorts_guarded {p : Part} {z : Fin 8} (h : p.Guarded z) (y : Fin 8)
    (hz : z ≠ y ∨ p.sac.zones[z.val].state ≠ .sealed) : (p.openZonePorts y).Guarded z := by
  have hwalk : ∀ (l : List (Fin 16)) (q : Part), q.sac = p.sac → q.Guarded z →
      (l.foldl (fun p i => p.openZonePort y i) q).Guarded z := by
    intro l
    induction l with
    | nil => intro q _ hq; exact hq
    | cons i l ih =>
      intro q hs hq
      exact ih _ (by simpa using hs) (Part.openZonePort_guarded hq y i (by rwa [hs]))
  exact hwalk sixteens p rfl h

theorem Part.closeZonePort_guards (p : Part) (y : Fin 8) (i : Fin 16) : p.Guards (p.closeZonePort y i) := by
  unfold Part.closeZonePort
  split
  · split
    · exact p.setAdmission_guards i _ (by decide)
    · exact p.setAdmission_guards i _ (by decide)
    all_goals exact .refl p
  · exact .refl p

theorem Part.closeZonePorts_guards (p : Part) (y : Fin 8) : p.Guards (p.closeZonePorts y) :=
  .fold _ (fun p i => p.closeZonePort_guards y i) _ _

/-- R133: a close request leaves no socket of the zone open. -/
theorem Part.closeZonePorts_shuts (p : Part) (z : Fin 8) (i : Fin 16)
    (h : (p.closeZonePorts z).spm.ports[i.val].role = .service z) : ¬ (p.closeZonePorts z).spm.ports[i.val].ajar := by
  rw [(p.closeZonePorts_eq z).2] at h ⊢
  unfold Spm.shut at h ⊢
  unfold Port.ajar
  dsimp only at h ⊢
  rw [Vector.getElem_map] at h ⊢
  split at h <;> split
  · simp
  · contradiction
  · contradiction
  next hn => exact fun e => hn ⟨h, e.symm⟩

/-! ## One zone -/

theorem Part.zoneServiceAll_alike (p : Part) (z : Fin 8) (on : Bool) : p.Alike (p.zoneServiceAll z on) :=
  .of_blocks

/-- A change of zone `y` is no matter to another zone. -/
theorem Part.modZone_other {p : Part} {z : Fin 8} (h : p.Guarded z) (y : Fin 8) (f : Zone → Zone) (hz : z ≠ y) :
    (p.modZone y f).Guarded z :=
  h.of_views rfl (by rw [Part.modZone_apart _ _ _ _ hz]) (fun _ => rfl) fun i hrole hajar => .inl ⟨hrole, hajar⟩

/-- R154: DOOR_REL once evaluated is as its condition says. -/
theorem Part.evalDoorRel_door (p : Part) (z : Fin 8) (h : (p.evalDoorRel z).sac.zones[z.val].doorRel = true) :
    (p.evalDoorRel z).doorRelCondition z = true := by
  rw [Part.doorRelCondition_congr (p := p) (by simp) (by simp) z (by simp) (by simp)]
  rw [Part.evalDoorRel_sac] at h
  simpa using h

/-- R154: an evaluation of DOOR_REL makes its law good. -/
theorem Part.evalDoorRel_guarded {p : Part} {z : Fin 8}
    (hsockets : ∀ i : Fin 16, p.spm.ports[i.val].role = .service z → p.spm.ports[i.val].ajar →
      p.sac.zones[z.val].state ≠ .sealed)
    (hrest : p.sac.zones[z.val].holding = true → ∀ r : Fin 6, p.zoneHasRobot z r = true →
      p.rbp.robots[r.val].runReq = false)
    (hprofile : p.cvt.profile = none → p.sac.zones[z.val].state = .sealed) : (p.evalDoorRel z).Guarded z := by
  have hm (r : Fin 6) : (p.evalDoorRel z).zoneHasRobot z r = p.zoneHasRobot z r :=
    Part.zoneHasRobot_congr (by simp) z r
  have hh : (p.evalDoorRel z).sac.zones[z.val].holding = p.sac.zones[z.val].holding := by simp [Zone.holding]
  refine ⟨fun i hr ha => ?_, p.evalDoorRel_door z, fun hhold r hr => ?_, fun hn => ?_⟩
  · simpa using hsockets i (by simpa using hr) (by simpa using ha)
  · simpa using hrest (hh ▸ hhold) r (hm r ▸ hr)
  · simpa using hprofile (by simpa using hn)

theorem Part.evalDoorRel_guards (p : Part) (y : Fin 8) : p.Guards (p.evalDoorRel y) := fun z h => by
  by_cases hz : z = y
  · subst hz; exact Part.evalDoorRel_guarded h.sockets h.rest h.profile
  · exact h.of_views (by simp) (by rw [Part.evalDoorRel_apart _ _ _ hz]) (fun _ => by simp)
      fun i hrole hajar => .inl ⟨by simpa using hrole, by simpa using hajar⟩

theorem Part.endRequest_alike (p : Part) (z : Fin 8) (r : Result) (d : Byte) : p.Alike (p.endRequest z r d) := by
  unfold Part.endRequest
  exact (p.completeIf_alike _ r d).trans (Part.modZone_alike _ z _)

theorem Part.grantClose_alike (p : Part) (z : Fin 8) (r : Result) : p.Alike (p.grantClose z r) := by
  unfold Part.grantClose
  exact (p.endRequest_alike z r 0).trans (.of_blocks)

/-- A zone leaves one open state for another, HALTING apart: it holds no robot that it did not hold. -/
theorem Part.reopen_guards (p : Part) (y : Fin 8) (f : Zone → Zone)
    (hopen : p.sac.zones[y.val].state ≠ .sealed)
    (hf : (f p.sac.zones[y.val]).state ≠ .sealed ∧ (f p.sac.zones[y.val]).state ≠ .halting ∧
      (f p.sac.zones[y.val]).level = p.sac.zones[y.val].level ∧
      (f p.sac.zones[y.val]).origin = p.sac.zones[y.val].origin) : p.Guards ((p.modZone y f).evalDoorRel y) := by
  obtain ⟨hs, hh, hl, ho⟩ := hf
  intro z h
  by_cases hz : z = y
  · subst hz
    have hzone : (p.modZone z f).sac.zones[z.val] = f p.sac.zones[z.val] := by simp
    refine Part.evalDoorRel_guarded (fun i _ _ => hzone ▸ hs) (fun hhold r hm => ?_) fun hn => ?_
    · refine h.rest ?_ r hm
      rw [hzone] at hhold
      unfold Zone.holding at hhold ⊢
      rw [hl, ho] at hhold
      simp only [Bool.and_eq_true, Bool.or_eq_true, beq_iff_eq, bne_iff_ne, ne_eq] at hhold ⊢
      refine ⟨hopen, ?_⟩
      rcases hhold.2 with (h1 | h1) | h1
      · exact absurd h1 hh
      · exact .inl (.inr h1)
      · exact .inr h1
    · exact absurd (h.profile hn) hopen
  · exact Part.evalDoorRel_guards _ y z (Part.modZone_other h y f hz)

/-! ## A sealing (R147) -/

theorem Part.sealZone_guards (p : Part) (y : Fin 8) (e : AccessEvent) (c : Completion) (b : Byte) :
    p.Guards (p.sealZone y e c b) := by
  let A : Part := (p.modZone y fun k => { k with
    state := .sealed, level := .none, origin := .none, badge := 0, expiry := none, doorRel := false }).zoneServiceAll y
      false
  have htail : (A.closeZonePorts y).Alike (p.sealZone y e c b) := by
    unfold Part.sealZone
    exact .of_blocks (by simp [A]) (by simp [A]) (by simp [A]) (by simp [A])
  intro z h
  refine htail.guards z ?_
  by_cases hz : z = y
  · subst hz
    have hzone : (A.closeZonePorts z).sac.zones[z.val] = { p.sac.zones[z.val] with
        state := .sealed, level := .none, origin := .none, badge := 0, expiry := none, doorRel := false } := by
      simp [A]
    refine ⟨fun i hr ha => absurd ha (A.closeZonePorts_shuts z i hr), fun hrel => ?_, fun hhold => ?_, fun _ => ?_⟩
    · rw [hzone] at hrel; cases hrel
    · rw [hzone] at hhold; simp [Zone.holding] at hhold
    · rw [hzone]
  · exact A.closeZonePorts_guards y z ((Part.zoneServiceAll_alike _ y false).guards z (Part.modZone_other h y _ hz))

/-! ## A HALTING zone judged (R151, R152) -/

/-- R146, R148: the first half of a grant, seen by another zone. -/
theorem Part.grantApply_other {p : Part} {z : Fin 8} (h : p.Guarded z) (y : Fin 8) (l : AccessLevel) (o : ZoneOrigin)
    (n : Nat) (b : Half) (hz : z ≠ y) : (p.grantApply y l o n b).Guarded z := by
  unfold Part.grantApply
  dsimp only
  have hzone := Part.modZone_other h y (fun k => { k with
    state := .opened, level := l, origin := o, badge := b, expiry := some (p.now + minutes n) }) hz
  (repeat' split)
  · exact (Part.zoneServiceAll_alike _ y true).guards z (Part.openZonePorts_guarded hzone y (.inl hz))
  · exact (Part.zoneServiceAll_alike _ y true).guards z hzone
  · exact Part.openZonePorts_guarded hzone y (.inl hz)
  · exact hzone

theorem Part.failRequest_guards (p : Part) (y : Fin 8) (r : Fin 6) (hs : p.sac.zones[y.val].state = .halting) :
    p.Guards (p.failRequest y r) := by
  obtain ⟨detail, hdetail⟩ : ∃ d : Byte, (match p.rbp.robots[r].faultCause with | some f => f.code | none => 0) = d :=
    ⟨_, rfl⟩
  rw [failRequest_as p y r detail hdetail]
  have hend : p.Guards (p.endRequest y .failedTimeout detail) := (p.endRequest_alike y _ detail).guards
  dsimp only
  split
  · exact hend.trans (Part.sealZone_guards _ y _ _ _)
  · refine hend.trans ((Part.reopen_guards _ y (fun k => { k with state := .opened }) ?_ ?_).trans ?_)
    · simp [hs]
    · exact ⟨by simp, by simp, rfl, rfl⟩
    · exact (Part.Alike.of_blocks).guards

theorem Part.judgeHalting_guards (p : Part) (y : Fin 8) : p.Guards (p.judgeHalting y) := by
  unfold Part.judgeHalting
  split
  next q hs hq =>
    have hs : p.sac.zones[y.val].state = .halting := hs
    split
    · intro z h
      refine (Part.grantClose_alike _ y _).guards z ?_
      by_cases hz : z = y
      · subst hz
        have hzone := p.grantApply_zone z .maintain q.origin q.minutes q.badge
        have hm (r : Fin 6) : (p.grantApply z .maintain q.origin q.minutes q.badge).zoneHasRobot z r =
          p.zoneHasRobot z r := Part.zoneHasRobot_congr (by simp) z r
        refine Part.evalDoorRel_guarded (fun i _ _ => by simp [hzone]) (fun _ r hr => ?_) fun hn => ?_
        · simpa using h.rest (by simp [Zone.holding, hs]) r (hm r ▸ hr)
        · have := h.profile (by simpa using hn)
          rw [hs] at this; cases this
      · exact Part.evalDoorRel_guards _ y z (Part.grantApply_other h y _ _ _ _ hz)
    · split
      · exact p.failRequest_guards y _ hs
      · exact .refl p
  next => exact .refl p

/-! ## A report on a robot (R74) -/

theorem Part.hearRobot_guards (p : Part) (r : Fin 6) (y : Fin 8) : p.Guards (p.hearRobot r y) := by
  unfold Part.hearRobot
  split
  · split
    · exact p.judgeHalting_guards y
    · exact p.evalDoorRel_guards y
  · exact .refl p

theorem Part.markResume_alike (p : Part) (z : Fin 8) (r : Fin 6) (m : ResumeMark) (c : Option Completion) :
    p.Alike (p.markResume z r m c) := by
  unfold Part.markResume
  exact .rewrite (p.modZone_alike z _) .sac

theorem Part.finishResume_alike (p : Part) (z : Fin 8) (ref : OrderRef) : p.Alike (p.finishResume z ref) := by
  unfold Part.finishResume
  dsimp only
  split
  · exact .complete (.rewrite (p.modZone_alike z _) .sac) _ _ _
  · exact .refl p

theorem Part.settleResume_alike (p : Part) (z : Fin 8) (r : Fin 6) : p.Alike (p.settleResume z r) := by
  have hfinish (q : Part) : q.Alike (match q.sac.zones[z].resumeOrder with
      | some ref => q.finishResume z ref
      | none => q) := by
    split
    · exact q.finishResume_alike z _
    · exact .refl q
  unfold Part.settleResume
  dsimp only
  split
  · refine Part.Alike.trans ?_ (hfinish _)
    split
    · exact p.markResume_alike z r _ _
    · exact p.markResume_alike z r _ _
    · exact p.markResume_alike z r _ _
    all_goals exact .refl p
  · exact .refl p

theorem Part.reportRobot_guards (p : Part) (r : Fin 6) : p.Guards (p.reportRobot r) :=
  .fold _ (fun p z => (p.hearRobot_guards r z).trans (Part.settleResume_alike _ z r).guards) _ _

/-- A report on a member makes the law of the door good, whatever the robot has done: the zone, not HALTING, evaluates
DOOR_REL. -/
theorem Part.reportRobot_door (p : Part) (r : Fin 6) (z : Fin 8) (hm : p.zoneHasRobot z r = true)
    (hs : p.sac.zones[z.val].state ≠ .halting) (hrel : (p.reportRobot r).sac.zones[z.val].doorRel = true) :
    (p.reportRobot r).doorRelCondition z = true := by
  have hsettle (q : Part) (y : Fin 8) (h : q.sac.zones[z.val].doorRel = true → q.doorRelCondition z = true)
      (hd : (q.settleResume y r).sac.zones[z.val].doorRel = true) : (q.settleResume y r).doorRelCondition z = true := by
    have hview := Zone.guardView_iff.mp ((q.settleResume_alike y r).zones z)
    rw [Part.doorRelCondition_congr (p := q) (by simp) (by simp) z hview.1 hview.2.1]
    exact h (hview.2.2.2.symm.trans hd)
  have hwalk : ∀ (l : List (Fin 8)) (q : Part), q.zoneHasRobot z r = true → q.sac.zones[z.val].state ≠ .halting →
      z ∈ l ∨ (q.sac.zones[z.val].doorRel = true → q.doorRelCondition z = true) →
      (l.foldl (fun p z => (p.hearRobot r z).settleResume z r) q).sac.zones[z.val].doorRel = true →
      (l.foldl (fun p z => (p.hearRobot r z).settleResume z r) q).doorRelCondition z = true := by
    intro l
    induction l with
    | nil => intro q _ _ h; exact h.resolve_left (by simp)
    | cons y l ih =>
      intro q hq hst h
      have hcalm : q.Calm ((q.hearRobot r y).settleResume y r) :=
        (q.hearRobot_calm r y).trans (Part.settleResume_calm _ y r)
      refine ih _ ((Part.zoneHasRobot_congr (by simp) z r).trans hq) (by rw [((hcalm.firm z).1 hst).1]; exact hst) ?_
      by_cases hy : z = y
      · subst hy
        refine .inr (hsettle _ z ?_)
        rw [show q.hearRobot r z = q.evalDoorRel z by unfold Part.hearRobot; rw [if_pos hq, if_neg (by exact hst)]]
        exact q.evalDoorRel_door z
      · refine h.imp (fun hl => (List.mem_cons.mp hl).resolve_left hy) fun hlaw => hsettle _ y fun hd => ?_
        have hzone := q.hearRobot_apart r y z hy
        rw [Part.doorRelCondition_congr (p := q) (by simp) (by simp) z (by rw [hzone]) (by rw [hzone])]
        exact hlaw (by rw [← hzone]; exact hd)
  unfold Part.reportRobot at hrel ⊢
  exact hwalk eights p hm hs (.inl ((by decide : ∀ z : Fin 8, z ∈ eights) z)) hrel

/-- From `p` to `q` nothing changed that the laws look at but robot `r`. -/
structure Part.Moved (p q : Part) (r : Fin 6) : Prop where
  profile : q.cvt.profile = p.cvt.profile
  zones : ∀ z : Fin 8, q.sac.zones[z.val].guardView = p.sac.zones[z.val].guardView
  others : ∀ k : Fin 6, k ≠ r → q.rbp.robots[k.val].guardView = p.rbp.robots[k.val].guardView
  ports : ∀ i : Fin 16, q.spm.ports[i.val].guardView = p.spm.ports[i.val].guardView

theorem Part.Moved.alike {p q t : Part} {r : Fin 6} (h : p.Moved q r) (k : q.Alike t) : p.Moved t r :=
  ⟨k.profile.trans h.profile, fun z => (k.zones z).trans (h.zones z), fun i hi => (k.robots i).trans (h.others i hi),
    fun i => (k.ports i).trans (h.ports i)⟩

theorem Part.modRobot_moved (p : Part) (r : Fin 6) (f : Robot → Robot) : p.Moved (p.modRobot r f) r := by
  refine ⟨rfl, fun _ => rfl, fun k hk => ?_, fun _ => rfl⟩
  have hne : r.val ≠ k.val := fun e => hk (Fin.ext e.symm)
  simp [modAt, hne]

/-- R64, R74: a robot that gained no run request while it was held, reported: the laws stand. -/
theorem Part.Moved.reported {p q : Part} {r : Fin 6} (h : p.Moved q r)
    (hrun : q.rbp.robots[r.val].runReq = true → p.rbp.robots[r.val].runReq = true ∨ p.held r = false) :
    p.Guards (q.reportRobot r) := by
  intro z hz
  obtain ⟨hst, hl, ho, hd⟩ := Zone.guardView_iff.mp (h.zones z)
  have hm (k : Fin 6) : q.zoneHasRobot z k = p.zoneHasRobot z k := Part.zoneHasRobot_congr h.profile z k
  have hsockets : ∀ i : Fin 16, q.spm.ports[i.val].role = .service z → q.spm.ports[i.val].ajar →
      q.sac.zones[z.val].state ≠ .sealed := fun i hrole hajar => by
    obtain ⟨hr, ha⟩ := Port.guardView_iff.mp (h.ports i)
    unfold Port.ajar at hajar
    rw [hst]
    exact hz.sockets i (hr.symm.trans hrole) (by unfold Port.ajar; rwa [← ha])
  have hrest : q.sac.zones[z.val].holding = true → ∀ k : Fin 6, q.zoneHasRobot z k = true →
      q.rbp.robots[k.val].runReq = false := fun hhold k hk => by
    have hbefore := hz.rest ((Zone.holding_congr (h.zones z)).symm.trans hhold) k ((hm k).symm.trans hk)
    by_cases hkr : k = r
    · subst hkr
      refine Bool.eq_false_iff.mpr fun hq => ?_
      rcases hrun hq with h1 | h1
      · exact absurd (h1.symm.trans hbefore) (by decide)
      · have := (p.held_iff k).mpr ⟨z, (hm k).symm.trans hk, (Zone.holding_congr (h.zones z)).symm.trans hhold⟩
        exact absurd (this.symm.trans h1) (by decide)
    · rw [Robot.runReq_congr (Robot.guardView_iff.mp (h.others k hkr)).1]; exact hbefore
  have hprofile : q.cvt.profile = none → q.sac.zones[z.val].state = .sealed := fun hn =>
    hst.trans (hz.profile (h.profile.symm.trans hn))
  by_cases hlaw : q.sac.zones[z.val].doorRel = true → q.doorRelCondition z = true
  · exact q.reportRobot_guards r z ⟨hsockets, hlaw, hrest, hprofile⟩
  -- the door was released over safe robots, and `r` is one of them no longer: its zone is OPEN or OVERSTAY and hears
  -- of it
  obtain ⟨hrel, hcond⟩ := Classical.not_imp.mp hlaw
  obtain ⟨hdoor, hopen, hlevel, hsafe⟩ := (p.doorRelCondition_iff z).mp (hz.door (hd.symm.trans hrel))
  have hmember : q.zoneHasRobot z r = true := by
    by_contra hnot
    refine hcond ((q.doorRelCondition_iff z).mpr
      ⟨(Part.hasDoor_of h.profile z).trans hdoor, by rwa [hst], hl.trans hlevel, fun k hk => ?_⟩)
    rw [(Robot.guardView_iff.mp (h.others k fun e => hnot (by rw [← e]; exact hk))).2]
    exact hsafe k ((hm k).symm.trans hk)
  have hhalting : q.sac.zones[z.val].state ≠ .halting := by rw [hst]; rcases hopen with e | e <;> rw [e] <;> decide
  have hsealed : q.sac.zones[z.val].state ≠ .sealed := by rw [hst]; rcases hopen with e | e <;> rw [e] <;> decide
  obtain ⟨sst, sl, so⟩ := q.reportRobot_steady r z hhalting
  refine ⟨fun i _ _ => by rw [sst]; exact hsealed, q.reportRobot_door r z hmember hhalting, fun hhold k hk => ?_,
    fun hn => ?_⟩
  · simp only [Part.reportRobot_frame]
    refine hrest ?_ k ((Part.zoneHasRobot_congr (by simp) z k).symm.trans hk)
    unfold Zone.holding at hhold ⊢
    rw [← sst, ← sl, ← so]; exact hhold
  · exact absurd (hprofile (by simpa using hn)) hsealed

end Sys2Proof.Machine
end

section
/-! PROOFS. The laws that guard people, through what robots do (R64 to R74, R79 to R85): a robot starts only where no zone
holds it, and every change of its state is reported. -/

-- One proof after another: side by side, their threads take the stack space that a compile of the whole text is given.
set_option Elab.async false

namespace Sys2Proof.Machine

/-! ## States (R64 to R74) -/

theorem Part.adoptWindow_alike (p : Part) (r : Fin 6) : p.Alike (p.adoptWindow r) :=
  .of_robots

/-- A robot changed beside its state and its lines. -/
theorem Part.modRobot_alike (p : Part) (r : Fin 6) (f : Robot → Robot)
    (h : ∀ k, (f k).guardView = k.guardView := by exact fun _ => rfl) : p.Alike (p.modRobot r f) := by
  refine ⟨rfl, fun _ => rfl, fun k => ?_, fun _ => rfl⟩
  simp only [Part.modRobot_fields]
  rw [modAt_get]
  split
  · exact h _
  · rfl

/-- R74: a robot changed its state, without a run request that it had not and might not have. -/
theorem Part.Moved.changed {p q : Part} {r : Fin 6} (h : p.Moved q r)
    (hack : q.rbp.robots[r.val].pins.haltAck = p.rbp.robots[r.val].pins.haltAck)
    (hrun : q.rbp.robots[r.val].runReq = true → p.rbp.robots[r.val].runReq = true ∨ p.held r = false) :
    p.Guards (q.robotChanged r p.rbp.robots[r].state) := by
  unfold Part.robotChanged
  split
  next hsame =>
    have halike : p.Alike q := ⟨h.profile, h.zones, fun k => by
      by_cases hk : k = r
      · subst hk; exact Robot.guardView_iff.mpr ⟨hsame, Robot.safe_congr hsame hack⟩
      · exact h.others k hk, h.ports⟩
    exact (halike.rewrite .rbp).guards
  next =>
    have hreport (t : Part) (ht : q.Alike t) : p.Guards ((t.rewrite .rbp).reportRobot r) := by
      refine (h.alike (ht.rewrite .rbp)).reported fun hr => hrun ?_
      rw [← Robot.runReq_congr (Robot.guardView_iff.mp ((ht.rewrite .rbp).robots r)).1]; exact hr
    dsimp only
    split
    · exact hreport _ ((q.modRobot_alike r _).trans (Part.adoptWindow_alike _ r))
    · exact hreport q (.refl q)

theorem Part.finishRun_guards (p : Part) (r : Fin 6) (h : p.rbp.robots[r.val].runReq = true) :
    p.Guards (p.finishRun r) := by
  unfold Part.finishRun
  exact (((p.modRobot_moved r _).alike (Part.completeIf_alike _ _ .ok 0)).alike (Part.raise_alike _ _ _)).changed
    (by simp) fun _ => .inl h

theorem Part.finishHalt_guards (p : Part) (r : Fin 6) : p.Guards (p.finishHalt r) := by
  unfold Part.finishHalt
  exact (((p.modRobot_moved r _).alike (Part.completeIf_alike _ _ .ok 0)).alike (Part.raise_alike _ _ _)).changed
    (by simp) fun hr => by simp [Robot.runReq] at hr

/-- R65: a run is begun only of a robot that no zone holds. -/
theorem Part.beginRun_guards (p : Part) (r : Fin 6) (ref : Option OrderRef) (h : p.held r = false) :
    p.Guards (p.beginRun r ref) := by
  have hstart := (p.modRobot_moved r fun k => { k with
    state := .starting, haltOrigin := none, order := ref, deadline := some (p.runDeadline r) }).changed (by simp)
      fun _ => .inr h
  unfold Part.beginRun
  dsimp only
  split
  next hack => exact hstart.trans (Part.finishRun_guards _ r (by simp [Robot.runReq]))
  next => exact hstart

theorem Part.beginHalt_guards (p : Part) (r : Fin 6) (o : HaltOrigin) (ref : Option OrderRef) :
    p.Guards (p.beginHalt r o ref) := by
  have hhalt := (p.modRobot_moved r fun k => { k with
    state := .halting, haltOrigin := some o, order := ref, deadline := some (p.haltDeadline r) }).changed (by simp)
      fun hr => by simp [Robot.runReq] at hr
  unfold Part.beginHalt
  dsimp only
  split
  · exact hhalt.trans (Part.finishHalt_guards _ r)
  · exact hhalt

theorem Part.requestHalt_guards (p : Part) (r : Fin 6) (o : HaltOrigin) : p.Guards (p.requestHalt r o) := by
  unfold Part.requestHalt
  dsimp only
  split
  · exact (p.completeIf_alike _ _ _).guards.trans (Part.beginHalt_guards _ r o none)
  · exact .refl p

theorem Part.enterFaulted_guards (p : Part) (r : Fin 6) (cause : RobotFault) : p.Guards (p.enterFaulted r cause) := by
  unfold Part.enterFaulted
  have hmoved := p.modRobot_moved r fun k =>
    { k with state := .faulted, faultCause := some cause, deadline := none, order := none }
  refine Part.Moved.changed ⟨?_, fun z => ?_, fun k hk => ?_, fun i => ?_⟩ (by simp) fun hr => by
    simp [Robot.runReq] at hr
  · simp
  · simp
  · simpa using hmoved.others k hk
  · simp

/-! ## Fill reports (R82 to R86) -/

theorem Part.badFill_guards (p : Part) (r : Fin 6) : p.Guards (p.badFill r) := by
  unfold Part.badFill
  dsimp only
  split
  · exact (Part.Alike.rewrite (.raise (p.modRobot_alike r _) _ _) .rbp).guards.trans (Part.requestHalt_guards _ r _)
  · exact (Part.Alike.rewrite (p.modRobot_alike r _) .rbp).guards

theorem Part.setFill_alike (p : Part) (seq : Word) (v : FillResult) : p.Alike (p.setFill seq v) :=
  .of_blocks

theorem Part.noReport_guards (p : Part) (r : Fin 6) (seq : Word) : p.Guards (p.noReport r seq) := by
  unfold Part.noReport
  exact ((p.setFill_alike seq .noReport).trans (Part.modRobot_alike _ r _)).guards.trans (Part.badFill_guards _ r)

theorem Part.takeReport_guards (p : Part) (r : Fin 6) (seq : Word) (short : Bool) :
    p.Guards (p.takeReport r seq short) := by
  unfold Part.takeReport
  dsimp only
  have htaken (v : FillResult) (f : Robot → Robot) (h : ∀ k, (f k).guardView = k.guardView) :
      p.Guards ((p.setFill seq v).modRobot r f) := ((p.setFill_alike seq v).trans (Part.modRobot_alike _ r f h)).guards
  split
  · refine (htaken _ _ ?_).trans (Part.badFill_guards _ r)
    exact fun _ => rfl
  · refine (htaken _ _ ?_).trans (Part.Alike.rewrite (Part.modRobot_alike _ r _) .rbp).guards
    exact fun _ => rfl

theorem Part.fillStrobe_guards (p : Part) (r : Fin 6) (short : Bool) : p.Guards (p.fillStrobe r short) := by
  unfold Part.fillStrobe Part.countRobot
  split
  · exact p.takeReport_guards r _ short
  · exact (Part.Alike.rewrite (p.modRobot_alike r _) .rbp).guards
  · exact (Part.Alike.rewrite (p.modRobot_alike r _) .rbp).guards

/-! ## Input lines (R66, R69, R70, R71, R83) -/

theorem Part.runAckChanged_guards (p : Part) (r : Fin 6) (level : Bool) : p.Guards (p.runAckChanged r level) := by
  unfold Part.runAckChanged
  split
  next h => exact p.finishRun_guards r (by simp [Robot.runReq, show p.rbp.robots[r.val].state = .starting from h])
  next => exact p.enterFaulted_guards r _
  next => exact .refl p

theorem Part.faultActive_guards (p : Part) (r : Fin 6) : p.Guards (p.faultActive r) := by
  unfold Part.faultActive
  split
  · exact .refl p
  · exact p.enterFaulted_guards r _

/-- A change of a robot's lines other than HALT_ACK acts on a robot as the laws saw it. -/
theorem Part.robotInputs_guards (p : Part) (r : Fin 6) (new : RobotPins)
    (h : new.haltAck = p.rbp.robots[r].pins.haltAck) : p.Guards (p.robotInputs r new) := by
  have hpins : p.Alike (p.modRobot r fun k => { k with pins := new }) := by
    refine ⟨rfl, fun _ => rfl, fun k => ?_, fun _ => rfl⟩
    by_cases hk : k = r
    · subst hk; exact Robot.guardView_iff.mpr ⟨by simp, Robot.safe_congr (by simp) (by simpa using h)⟩
    · exact (p.modRobot_moved r _).others k hk
  unfold Part.robotInputs
  dsimp only
  by_cases hsame : new = p.rbp.robots[r].pins
  · rw [if_pos hsame]; exact .refl p
  · rw [if_neg hsame, if_pos h]
    refine Part.Guards.trans ?_ (Part.rewrite_alike _ .rbp).guards
    have hack := hpins.guards.next_unless (c := new.runAck = p.rbp.robots[r].pins.runAck)
      (Part.runAckChanged_guards _ r new.runAck)
    exact (hack.next_if (Part.faultActive_guards _ r)).next_if (Part.fillStrobe_guards _ r _)

/-- R69, R70, R74: a change of HALT_ACK ends a halt, or loses a HALTED robot, or is reported of a FAULTED one; in the
other states the laws do not see it. -/
theorem Part.haltAckChanged_guards (p : Part) (r : Fin 6) (level : Bool) :
    p.Guards ((p.modRobot r fun k => { k with pins := { k.pins with haltAck := level } }).haltAckChanged r level) := by
  obtain ⟨A, hA⟩ : ∃ A, A = p.modRobot r fun k => { k with pins := { k.pins with haltAck := level } } := ⟨_, rfl⟩
  have hmoved : p.Moved A r := hA ▸ p.modRobot_moved r _
  have hrobot : A.rbp.robots[r.val] = { p.rbp.robots[r.val] with
    pins := { p.rbp.robots[r.val].pins with haltAck := level } } := by rw [hA]; simp
  rw [← hA]
  by_cases hfaulted : p.rbp.robots[r.val].state = .faulted
  · have hreport : A.haltAckChanged r level = A.reportRobot r := by
      unfold Part.haltAckChanged
      simp only [Fin.getElem_fin, hrobot, hfaulted]
    rw [hreport]
    exact hmoved.reported fun hr => .inl (by rw [hrobot] at hr; exact hr)
  · have halike : p.Alike A := ⟨hmoved.profile, hmoved.zones, fun k => by
      by_cases hk : k = r
      · subst hk
        have hnot : (p.rbp.robots[k.val].state == .faulted) = false := by simpa using hfaulted
        rw [hrobot]
        simp [Robot.guardView, Robot.safe, hnot]
      · exact hmoved.others k hk, hmoved.ports⟩
    refine halike.guards.trans ?_
    unfold Part.haltAckChanged
    split
    · exact A.finishHalt_guards r
    · exact A.enterFaulted_guards r _
    · exact A.reportRobot_guards r
    · exact .refl A

theorem Part.robotLine_guards (p : Part) (r : Fin 6) (line : RobotLine) (level : Bool) :
    p.Guards (p.robotLine r line level) := by
  by_cases hline : line = .haltAck ∧ p.rbp.robots[r].pins.haltAck ≠ level
  · obtain ⟨rfl, hne⟩ := hline
    rw [Part.robotLine_haltAck p r level (by cases level <;> simp_all)]
    exact (p.haltAckChanged_guards r level).trans (Part.rewrite_alike _ .rbp).guards
  · unfold Part.robotLine
    refine p.robotInputs_guards r _ ?_
    cases line <;> simp_all [RobotPins.with]

theorem Part.fillLines_guards (p : Part) (r : Fin 6) (ok short : Bool) : p.Guards (p.fillLines r ok short) :=
  p.robotInputs_guards r _ rfl

theorem Part.runTimedOut_guards (p : Part) (r : Fin 6) : p.Guards (p.runTimedOut r) := by
  unfold Part.runTimedOut
  split
  · exact p.enterFaulted_guards r _
  · exact .refl p

theorem Part.haltTimedOut_guards (p : Part) (r : Fin 6) : p.Guards (p.haltTimedOut r) := by
  unfold Part.haltTimedOut
  split
  · exact p.enterFaulted_guards r _
  · exact .refl p

/-! ## Watches and the service pitch (R22, R79, R80, R84) -/

theorem Part.modCvt_alike (p : Part) (f : Cvt → Cvt) (h : (f p.cvt).profile = p.cvt.profile := by rfl) :
    p.Alike (p.modCvt f) := .of_blocks h rfl rfl rfl

theorem Part.graceEnds_guards (p : Part) (r : Fin 6) (seq : Word) : p.Guards (p.graceEnds r seq) := by
  unfold Part.graceEnds
  split
  · exact p.noReport_guards r seq
  · exact (p.modRobot_alike r _).guards

theorem Part.raiseWatch_guards (p : Part) (w : Watch) : p.Guards (p.raiseWatch w) := by
  unfold Part.raiseWatch
  split
  · exact (p.modRobot_alike _ _).guards
  · exact (p.modRobot_alike _ _).guards
  · exact p.graceEnds_guards _ _

theorem Part.registerWatch_guards (p : Part) (w : Watch) : p.Guards (p.registerWatch w) := by
  unfold Part.registerWatch
  split
  · exact p.raiseWatch_guards w
  · exact (p.modCvt_alike _).guards

theorem Part.servicePitch_guards (p : Part) (seq : Word) : p.Guards (p.servicePitch seq) := by
  unfold Part.servicePitch Part.countRobot
  split
  next rec f _ _ =>
    split
    · exact .refl p
    · split
      · exact (Part.Alike.rewrite (p.setFill_alike seq _) .rbp).guards
      next r _ =>
        refine (p.adoptWindow_alike r).guards.trans ?_
        dsimp only
        split
        · exact (Part.Alike.rewrite ((Part.setFill_alike _ seq _).trans (Part.modRobot_alike _ r _)) .rbp).guards
        · exact ((Part.registerWatch_guards _ _).trans (Part.registerWatch_guards _ _)).trans
            (Part.registerWatch_guards _ _)
  next => exact .refl p

theorem Part.closeReport_guards (p : Part) (r : Fin 6) (seq : Word) : p.Guards (p.closeReport r seq) := by
  unfold Part.closeReport
  exact (p.modCvt_alike _).guards.trans (Part.noReport_guards _ r seq)

/-! ## Orders (R65, R67, R73, R77, R81) -/

/-- R65: a run that no check refuses is of a robot that no zone holds. -/
theorem Part.runRefusal_none {p : Part} {r : Fin 6} (h : p.runRefusal r = none) : p.held r = false := by
  unfold Part.runRefusal at h
  dsimp only at h
  split at h
  · cases h
  · split at h
    · cases h
    next hheld => simpa using hheld

theorem Part.robotRunOrder_guards (p : Part) (ref : OrderRef) (robot : Byte) : p.Guards (p.robotRunOrder ref robot) := by
  unfold Part.robotRunOrder
  split
  · exact (p.complete_alike ref _ _).guards
  · split
    · exact (p.complete_alike ref _ _).guards
    next h => exact p.beginRun_guards _ _ (Part.runRefusal_none h)

theorem Part.robotHaltOrder_guards (p : Part) (ref : OrderRef) (robot : Byte) :
    p.Guards (p.robotHaltOrder ref robot) := by
  unfold Part.robotHaltOrder
  split
  · exact (p.complete_alike ref _ _).guards
  · split
    · exact p.beginHalt_guards _ _ _
    · exact p.beginHalt_guards _ _ _
    · exact (Part.Alike.rewrite (p.modRobot_alike _ _) .rbp).guards
    all_goals exact (p.complete_alike ref _ _).guards

theorem Part.robotClearOrder_guards (p : Part) (ref : OrderRef) (robot : Byte) :
    p.Guards (p.robotClearOrder ref robot) := by
  unfold Part.robotClearOrder
  split
  · exact (p.complete_alike ref _ _).guards
  next r _ =>
    split
    next h =>
      have hmoved := ((p.modRobot_moved r fun k => { k with
        state := .stopped, faultCause := none, haltOrigin := none }).alike (Part.complete_alike _ ref .ok 0)).alike
          (Part.raise_alike _ .cleared (robotMember r))
      rw [← h.1]
      exact hmoved.changed (by simp) fun hr => by simp [Robot.runReq] at hr
    next => exact (p.complete_alike ref _ _).guards

end Sys2Proof.Machine
end

section
/-! PROOFS. The laws that guard people, through what the Service Access Controller does of its own (R146 to R160): a zone
opens at MAINTAIN only as it halts its robots, and its door only over safe ones. -/

-- One proof after another: side by side, their threads take the stack space that a compile of the whole text is given.
set_option Elab.async false

namespace Sys2Proof.Machine

/-! ## Holding (R146, R148, R150) -/

theorem Part.haltMembers_guards (p : Part) (z : Fin 8) : p.Guards (p.haltMembers z) := by
  unfold Part.haltMembers
  exact (Part.Alike.rewrite (p.modZone_alike z _) .sac).guards.trans
    (.fold _ (fun p r => p.requestHalt_guards r _) _ _)

/-- R146, R148: a grant up to its record. At MAINTAIN the zone's robots are halted first; below, the zone holds none. -/
theorem Part.grantHold_guards (p : Part) (y : Fin 8) (l : AccessLevel) (o : ZoneOrigin) (n : Nat) (b : Half)
    (hprofile : p.cvt.profile ≠ none) (hl : l = .maintain ∨ o ≠ .intrusion) : p.Guards (p.grantHold y l o n b) := by
  obtain ⟨A, hA⟩ : ∃ A, A = p.grantApply y l o n b := ⟨_, rfl⟩
  obtain ⟨B, hB⟩ : ∃ B, B = if l = .maintain then A.haltMembers y else A := ⟨_, rfl⟩
  have hhold : p.grantHold y l o n b = B.evalDoorRel y := by rw [hB, hA]; rfl
  have hguards : A.Guards B := by
    rw [hB]; exact (Part.Guards.refl A).next_if (A.haltMembers_guards y)
  have hzone : A.sac.zones[y.val] = _ := hA ▸ p.grantApply_zone y l o n b
  have hcalm : A.Calm B := by
    rw [hB]; split
    · exact A.haltMembers_calm y
    · exact .refl A
  obtain ⟨hst, hlevel, horigin⟩ := (hcalm.firm y).1 (by rw [hzone]; simp)
  rw [hzone] at hst hlevel horigin
  have hB_profile : B.cvt.profile = p.cvt.profile := by rw [hB]; split <;> simp [hA]
  intro z h
  rw [hhold]
  by_cases hz : z = y
  · subst hz
    refine Part.evalDoorRel_guarded (fun i _ _ => by rw [hst]; simp) (fun hheld r hr => ?_) fun hn => ?_
    · by_cases hmaintain : l = .maintain
      · rw [hB, if_pos hmaintain] at hr ⊢
        exact A.haltMembers_runReq z r ((Part.zoneHasRobot_congr (by simp) z r).symm.trans hr)
      · unfold Zone.holding at hheld
        rw [hst, hlevel, horigin] at hheld
        simp [hmaintain, hl.resolve_left hmaintain] at hheld
    · exact absurd (hB_profile.symm.trans hn) hprofile
  · refine Part.evalDoorRel_guards _ y z (hguards z ?_)
    rw [hA]; exact Part.grantApply_other h y l o n b hz

theorem Part.grant_guards (p : Part) (y : Fin 8) (l : AccessLevel) (o : ZoneOrigin) (n : Nat) (b : Half) (r : Result)
    (hprofile : p.cvt.profile ≠ none) (hl : l = .maintain ∨ o ≠ .intrusion) : p.Guards (p.grant y l o n b r) := by
  unfold Part.grant
  exact (p.grantHold_guards y l o n b hprofile hl).trans (Part.grantClose_alike _ y r).guards

/-- The zone is none that may release its door (R154), and its door is locked. -/
structure Part.Barred (p : Part) (z : Fin 8) : Prop where
  locked : p.sac.zones[z.val].doorRel = false
  waits : p.sac.zones[z.val].state ≠ .halting
  low : p.sac.zones[z.val].state = .sealed ∨ p.sac.zones[z.val].level ≠ .maintain

theorem Part.Barred.of_view {p q : Part} {z : Fin 8} (h : p.Barred z)
    (hview : q.sac.zones[z.val].guardView = p.sac.zones[z.val].guardView) : q.Barred z := by
  obtain ⟨hs, hl, -, hd⟩ := Zone.guardView_iff.mp hview
  exact ⟨hd.trans h.locked, by rw [hs]; exact h.waits, by rw [hs, hl]; exact h.low⟩

theorem Part.Barred.of_sac {p q : Part} {z : Fin 8} (h : p.Barred z) (hs : q.sac = p.sac) : q.Barred z :=
  h.of_view (by rw [hs])

/-- A barred zone that evaluates its door keeps it locked. -/
theorem Part.hearRobot_barred {p : Part} {z : Fin 8} (h : p.Barred z) (r : Fin 6) (y : Fin 8) :
    (p.hearRobot r y).Barred z := by
  obtain ⟨hst, hlevel, -⟩ := p.hearRobot_steady r y z h.waits
  refine ⟨?_, by rw [hst]; exact h.waits, by rw [hst, hlevel]; exact h.low⟩
  by_cases hz : z = y
  · subst hz
    unfold Part.hearRobot
    split
    · rw [if_neg (show ¬ p.sac.zones[z].state = .halting from h.waits)]
      refine Bool.eq_false_iff.mpr fun hrel => ?_
      obtain ⟨-, hopen, hmaintain, -⟩ := (Part.doorRelCondition_iff _ z).mp (p.evalDoorRel_door z hrel)
      simp only [Part.evalDoorRel_frame] at hopen hmaintain
      rcases h.low with hs | hl
      · rw [hs] at hopen; simp at hopen
      · exact hl hmaintain
    · exact h.locked
  · rw [Part.hearRobot_apart _ _ _ _ hz]; exact h.locked

theorem Part.reportRobot_barred {p : Part} {z : Fin 8} (h : p.Barred z) (r : Fin 6) : (p.reportRobot r).Barred z := by
  have hwalk : ∀ (l : List (Fin 8)) (q : Part), q.Barred z →
      (l.foldl (fun p y => (p.hearRobot r y).settleResume y r) q).Barred z := by
    intro l
    induction l with
    | nil => intro q hq; exact hq
    | cons y l ih =>
      intro q hq
      exact ih _ ((Part.hearRobot_barred hq r y).of_view ((Part.settleResume_alike _ y r).zones z))
  exact hwalk eights p h

theorem Part.robotChanged_barred {p : Part} {z : Fin 8} (h : p.Barred z) (r : Fin 6) (b : RobotState) :
    (p.robotChanged r b).Barred z := by
  unfold Part.robotChanged
  dsimp only
  split
  · exact h.of_sac (by simp)
  · split <;> exact Part.reportRobot_barred (h.of_sac (by simp)) r

theorem Part.finishHalt_barred {p : Part} {z : Fin 8} (h : p.Barred z) (r : Fin 6) : (p.finishHalt r).Barred z := by
  unfold Part.finishHalt
  exact Part.robotChanged_barred (h.of_sac (by simp)) r _

theorem Part.requestHalt_barred {p : Part} {z : Fin 8} (h : p.Barred z) (r : Fin 6) (o : HaltOrigin) :
    (p.requestHalt r o).Barred z := by
  unfold Part.requestHalt Part.beginHalt
  dsimp only
  split
  · have hhalting (f : Robot → Robot) (b : RobotState) :
        (((p.completeIf p.rbp.robots[r].order .superseded).modRobot r f).robotChanged r b).Barred z :=
      Part.robotChanged_barred (h.of_sac (by simp)) r b
    split
    · exact Part.finishHalt_barred (hhalting _ _) r
    · exact hhalting _ _
  · exact h

theorem Part.haltMembers_barred {p : Part} {z : Fin 8} (h : p.Barred z) (y : Fin 8) : (p.haltMembers y).Barred z := by
  have hwalk : ∀ (l : List (Fin 6)) (q : Part), q.Barred z →
      (l.foldl (fun p r => p.requestHalt r (.zone y)) q).Barred z := by
    intro l
    induction l with
    | nil => intro q hq; exact hq
    | cons r l ih => intro q hq; exact ih _ (Part.requestHalt_barred hq r _)
  unfold Part.haltMembers
  exact hwalk _ _ (h.of_view ((Part.Alike.rewrite (p.modZone_alike y _) .sac).zones z))

/-- R150: a zone enters HALTING from SEALED, or from OPEN below MAINTAIN: its door is not released. -/
theorem Part.enterHalting_guards (p : Part) (y : Fin 8) (q : ZoneRequest) (ref : Option OrderRef)
    (hprofile : p.cvt.profile ≠ none)
    (hfrom : p.sac.zones[y.val].state = .sealed ∨
      (p.sac.zones[y.val].state = .opened ∧ p.sac.zones[y.val].level ≠ .maintain)) :
    p.Guards (p.enterHalting y q ref) := by
  obtain ⟨U, hU⟩ : ∃ U, U = if p.sac.zones[y].state = .sealed then p.openZonePorts y else p := ⟨_, rfl⟩
  have hsac : U.sac = p.sac := by rw [hU]; split <;> simp
  have hcvt : U.cvt = p.cvt := by rw [hU]; split <;> simp
  let K : Part := (U.haltMembers y).modZone y fun k => { k with state := .halting, request := some q, accessOrder := ref }
  have henter : p.enterHalting y q ref = ((K.raise .halting (zoneMember y)).rewrite .sac).judgeHalting y := by
    unfold Part.enterHalting; rw [← hU]
  rw [henter]
  refine Part.Guards.trans (fun z h => ?_)
    ((Part.Alike.rewrite (K.raise_alike .halting (zoneMember y)) .sac).guards.trans (Part.judgeHalting_guards _ y))
  by_cases hz : z = y
  · subst hz
    have hbarred : p.Barred z := by
      refine ⟨Bool.eq_false_iff.mpr fun hrel => ?_, ?_, hfrom.imp id And.right⟩
      · obtain ⟨-, hopen, hmaintain, -⟩ := (p.doorRelCondition_iff z).mp (h.door hrel)
        rcases hfrom with hs | hs
        · rw [hs] at hopen; simp at hopen
        · exact hs.2 hmaintain
      · rcases hfrom with hs | hs
        · rw [hs]; decide
        · rw [hs.1]; decide
    have hlocked := (Part.haltMembers_barred (hbarred.of_sac hsac) z).locked
    have hzone : K.sac.zones[z.val] = { (U.haltMembers z).sac.zones[z.val] with
        state := .halting, request := some q, accessOrder := ref } := by simp [K]
    refine ⟨fun i _ _ => by rw [hzone]; simp, fun hrel => ?_, fun _ r hr => ?_, fun hn => ?_⟩
    · rw [hzone] at hrel
      exact absurd (hrel.symm.trans hlocked) (by decide)
    · exact U.haltMembers_runReq z r ((Part.zoneHasRobot_congr (by simp [K]) z r).symm.trans hr)
    · exact absurd (by simpa [K, hcvt] using hn) hprofile
  · refine Part.modZone_other (U.haltMembers_guards y z ?_) y _ hz
    rw [hU]
    split
    · exact Part.openZonePorts_guarded h y (.inl hz)
    · exact h

/-! ## Orders and buttons (R149, R153, R155 to R157) -/

theorem Part.refuseAccess_alike (p : Part) (ref : OrderRef) (z : Fin 8) (b : Half) (r : Result) :
    p.Alike (p.refuseAccess ref z b r) := .of_blocks

theorem Part.accessRequestOrder_guards (p : Part) (ref : OrderRef) (zone level : Byte) (length badge : Half) :
    p.Guards (p.accessRequestOrder ref zone level length badge) := by
  unfold Part.accessRequestOrder
  split
  next => exact (Part.Alike.of_blocks).guards
  next z _ =>
    split
    next => exact (p.refuseAccess_alike ref z _ _).guards
    next hsome =>
      have hprofile : p.cvt.profile ≠ none := by simpa using hsome
      split
      next => exact (p.refuseAccess_alike ref z _ _).guards
      next l _ =>
        dsimp only
        split
        next hfrom =>
          split
          next hl =>
            subst hl
            refine p.enterHalting_guards z _ _ hprofile (hfrom.imp id fun h => ⟨h.1, fun hm => ?_⟩)
            have hcode := h.2
            simp only [Fin.getElem_fin] at hcode
            rw [hm] at hcode
            exact absurd hcode (by decide)
          next => exact (p.modZone_alike z _).guards.trans (Part.grant_guards _ z _ _ _ _ _ hprofile (.inr (by decide)))
        next => exact (p.refuseAccess_alike ref z _ _).guards

theorem Part.endAccess_guards (p : Part) (y : Fin 8) (h : p.sac.zones[y.val].state ≠ .sealed) :
    p.Guards (p.endAccess y) := by
  unfold Part.endAccess
  split
  · exact (p.reopen_guards y (fun k => { k with state := .waitClose, expiry := none }) h
      ⟨by simp, by simp, rfl, rfl⟩).trans (Part.Alike.rewrite (Part.raise_alike _ _ _) .sac).guards
  · exact p.sealZone_guards y _ _ _

theorem Part.accessEndOrder_guards (p : Part) (ref : OrderRef) (zone : Byte) : p.Guards (p.accessEndOrder ref zone) := by
  have hcomplete (q : Part) (r : Result) : q.Guards (q.complete ref r) := (q.complete_alike ref r 0).guards
  unfold Part.accessEndOrder
  split
  · exact hcomplete p _
  next z _ =>
    split
    · exact hcomplete p _
    · split
      next h =>
        exact (p.endAccess_guards z (by rw [show p.sac.zones[z.val].state = .opened from h]; decide)).trans (hcomplete _ _)
      next h =>
        exact (p.endAccess_guards z (by rw [show p.sac.zones[z.val].state = .overstay from h]; decide)).trans
          (hcomplete _ _)
      · exact ((p.endRequest_alike z _ 0).guards.trans (Part.sealZone_guards _ z _ _ _)).trans (hcomplete _ _)
      all_goals exact hcomplete p _

theorem Part.extended_guards {p q : Part} (ref : OrderRef) (z : Fin 8) (clamped : Bool)
    (h : p.Guards (q.evalDoorRel z)) : p.Guards (q.extended ref z clamped) := by
  unfold Part.extended
  exact h.trans (Part.Alike.of_blocks).guards

theorem Part.accessExtendOrder_guards (p : Part) (ref : OrderRef) (zone : Byte) (length : Half) :
    p.Guards (p.accessExtendOrder ref zone length) := by
  unfold Part.accessExtendOrder
  split
  · exact (p.complete_alike ref _ _).guards
  next z _ =>
    split
    · exact (p.complete_alike ref _ _).guards
    · dsimp only
      split
      · exact Part.extended_guards ref z _ ((p.modZone_alike z _).guards.trans (Part.evalDoorRel_guards _ z))
      next h =>
        have h : p.sac.zones[z.val].state = .overstay := h
        exact Part.extended_guards ref z _ (p.reopen_guards z
          (fun k => { k with state := .opened, expiry := some (p.now + minutes (clampMinutes length.toNat)) })
          (by rw [h]; decide) ⟨by simp, by simp, rfl, rfl⟩)
      all_goals exact (p.complete_alike ref _ _).guards

theorem Part.zoneExpired_guards (p : Part) (y : Fin 8) : p.Guards (p.zoneExpired y) := by
  unfold Part.zoneExpired
  refine (p.modZone_alike y fun k => { k with expiry := none }).guards.trans ?_
  generalize p.modZone y (fun k => { k with expiry := none }) = q
  dsimp only
  split
  next h =>
    have h : q.sac.zones[y.val].state = .opened := h
    split
    · exact (q.reopen_guards y (fun k => { k with state := .overstay }) (by rw [h]; decide)
        ⟨by simp, by simp, rfl, rfl⟩).trans (Part.Alike.of_blocks).guards
    · exact q.sealZone_guards y _ _ _
  · exact (q.endRequest_alike y _ 0).guards.trans (Part.sealZone_guards _ y _ _ _)
  all_goals exact .refl q

theorem Part.accessExpiry_guards (p : Part) (z : Fin 8) : p.Guards (p.accessExpiry z) := by
  unfold Part.accessExpiry
  split
  · split
    · exact p.zoneExpired_guards z
    · exact .refl p
  · exact .refl p

theorem Part.press_guards (p : Part) (z : Fin 8) (h : p.hasButton z = true) : p.Guards (p.press z) := by
  have hprofile : p.cvt.profile ≠ none := fun hn => by simp [Part.hasButton, Part.zoneMap, hn] at h
  unfold Part.press
  dsimp only
  split
  next hs =>
    split
    · exact .refl p
    · exact p.grant_guards z _ _ _ _ _ hprofile (.inr (by decide))
    · exact p.grant_guards z _ _ _ _ _ hprofile (.inr (by decide))
    · exact p.enterHalting_guards z _ _ hprofile (.inl hs)
  next hs => exact p.endAccess_guards z (by rw [show p.sac.zones[z.val].state = .opened from hs]; decide)
  next hs => exact p.endAccess_guards z (by rw [show p.sac.zones[z.val].state = .overstay from hs]; decide)
  all_goals exact .refl p

theorem Part.buttonDebounce_guards (p : Part) (z : Fin 8) : p.Guards (p.buttonDebounce z) := by
  unfold Part.buttonDebounce
  split
  · have hread := p.modZone_alike z fun k => { k with button := k.reqLine, buttonDeadline := none }
    dsimp only
    split
    · refine (hread.rewrite .sac).guards.trans ?_
      split
      next hbutton => exact Part.press_guards _ z hbutton
      next => exact .refl _
    · exact hread.guards
  · exact .refl p

/-! ## Doors (R145, R158) -/

theorem Part.intrusion_guards (p : Part) (z : Fin 8) (h : p.hasDoor z = true) : p.Guards (p.intrusion z) := by
  have hprofile : p.cvt.profile ≠ none := fun hn => by simp [Part.hasDoor, Part.zoneMap, hn] at h
  unfold Part.intrusion
  have hhold := p.grantHold_guards z .maintain .intrusion (p.buttonOf z).2 0 hprofile (.inl rfl)
  generalize p.grantHold z .maintain .intrusion (p.buttonOf z).2 0 = q at hhold ⊢
  have htold : q.Alike (((q.report .intrusion (zoneMember z)).accessOutcome z .intrusion).raise .intrusion
    (zoneMember z)) := .of_blocks
  exact (hhold.trans htold.guards).trans (Part.grantClose_alike _ z _).guards

theorem Part.doorDebounce_guards (p : Part) (z : Fin 8) : p.Guards (p.doorDebounce z) := by
  unfold Part.doorDebounce Part.doorOpening Part.doorClosing
  split
  · refine (Part.Alike.rewrite (p.modZone_alike z fun k => { k with door := k.doorLine, doorDeadline := none })
      .sac).guards.trans ?_
    dsimp only
    split
    next hdoor =>
      split
      · split
        · exact Part.intrusion_guards _ z hdoor
        · exact Part.intrusion_guards _ z hdoor
        · split
          · exact .refl _
          · exact Part.intrusion_guards _ z hdoor
        all_goals exact .refl _
      · split
        · exact Part.sealZone_guards _ z _ _ _
        · exact Part.sealZone_guards _ z _ _ _
        all_goals exact .refl _
    next => exact .refl _
  · exact .refl p

theorem Part.doorChange_alike (p : Part) (z : Fin 8) (level : Bool) : p.Alike (p.doorChange z level) := by
  unfold Part.doorChange
  split
  · exact .refl p
  · exact p.modZone_alike z _

theorem Part.reqChange_alike (p : Part) (z : Fin 8) (level : Bool) : p.Alike (p.reqChange z level) := by
  unfold Part.reqChange
  split
  · exact .refl p
  · exact p.modZone_alike z _

/-! ## Resuming (R159, R160) -/

theorem Part.resumeMember_guards (p : Part) (z : Fin 8) (set : BitVec 6) (r : Fin 6) :
    p.Guards (p.resumeMember z set r) := by
  unfold Part.resumeMember Part.resumeRobot
  split
  · split
    · exact (p.markResume_alike z r _ _).guards
    · exact .refl p
    all_goals
      split
      · exact (p.markResume_alike z r _ _).guards
      next h => exact p.beginRun_guards r _ (Part.runRefusal_none h)
  · exact .refl p

theorem Part.resume_guards (p : Part) (ref : OrderRef) (z : Fin 8) : p.Guards (p.resume ref z) := by
  have hset := (Part.Alike.rewrite (p.modZone_alike z fun k => { k with
    haltedByZone := 0, resumeSet := resumeSetOf p.sac.zones[z].haltedByZone, resumeFailure := none }) .sac).guards
  have hends (q : Part) : q.Guards (((q.modZone z fun k => { k with resumeOrder := some ref }).rewrite .sac).finishResume
    z ref) := ((Part.Alike.rewrite (q.modZone_alike z _) .sac).trans (Part.finishResume_alike _ z ref)).guards
  exact (hset.trans (.fold _ (fun p r => p.resumeMember_guards z _ r) sixes _)).trans (hends _)

theorem Part.resumeZoneOrder_guards (p : Part) (ref : OrderRef) (zone : Byte) :
    p.Guards (p.resumeZoneOrder ref zone) := by
  unfold Part.resumeZoneOrder
  split
  · exact (p.complete_alike ref _ _).guards
  next z _ =>
    split
    · exact (p.complete_alike ref _ _).guards
    · exact p.resume_guards ref z

end Sys2Proof.Machine
end

section
/-! PROOFS. The laws that guard people, through every command: ports, the conveyor, orders, the adoption of a profile, the
resets (R20, R127 to R143, R163, R164, R178, R198). -/

-- One proof after another: side by side, their threads take the stack space that a compile of the whole text is given.
set_option Elab.async false

namespace Sys2Proof.Machine

/-! ## Ports (R127 to R139, R143) -/

/-- A port changed otherwise than in its role and its admission. -/
theorem Part.modPort_alike (p : Part) (i : Fin 16) (f : Port → Port)
    (h : ∀ k, (f k).guardView = k.guardView := by exact fun _ => rfl) : p.Alike (p.modPort i f) := by
  refine ⟨rfl, fun _ => rfl, fun _ => rfl, fun j => ?_⟩
  simp only [Part.modPort_fields]
  rw [modAt_get]
  split
  · exact h _
  · rfl

theorem Part.supervise_alike (p : Part) (i : Fin 16) (f : Port → Port)
    (h : ∀ k, (f k).guardView = k.guardView := by exact fun _ => rfl) :
    p.Alike (p.modPort i fun k => k.supervise (f k) p.now) :=
  p.modPort_alike i _ fun k => by
    obtain ⟨hr, ha⟩ := Port.guardView_iff.mp (h k)
    exact Port.guardView_iff.mpr ⟨by simp [hr], by simp [ha]⟩

theorem Part.endQuarantine_guards (p : Part) (i : Fin 16) (a : Admission) (ha : ¬ (a = .opened ∨ a = .held)) :
    p.Guards (p.endQuarantine i a) := fun _ h => Part.endQuarantine_guarded h i a fun e => absurd e ha

theorem Part.closeByOrder_guards (p : Part) (i : Fin 16) : p.Guards (p.closeByOrder i) := by
  unfold Part.closeByOrder
  split
  · exact p.endQuarantine_guards i _ (by decide)
  · exact p.setAdmission_guards i _ (by decide)

/-- R129: a socket opens by order where its zone is not SEALED. -/
theorem Part.openByOrder_guards (p : Part) (i : Fin 16)
    (h : ∀ z, p.spm.ports[i.val].role = .service z → p.sac.zones[z.val].state ≠ .sealed) :
    p.Guards (p.openByOrder i) := by
  unfold Part.openByOrder
  split
  · intro z hz
    refine Part.setAdmission_guarded hz i _ fun _ => .inr ?_
    by_cases hr : p.spm.ports[i.val].role = .service z
    · exact .inr (h z hr)
    · exact .inl hr
  · exact .refl p

theorem Part.portAdmitOrder_guards (p : Part) (ref : OrderRef) (port opening : Byte) :
    p.Guards (p.portAdmitOrder ref port opening) := by
  have hcomplete (q : Part) (r : Result) : q.Guards (q.complete ref r) := (q.complete_alike ref r 0).guards
  have hclose (i : Fin 16) := (p.closeByOrder_guards i).trans (hcomplete _ .ok)
  have hother (i : Fin 16) (h : ∀ z, p.spm.ports[i.val].role ≠ .service z) :=
    (p.openByOrder_guards i fun z hr => absurd hr (h z)).trans (hcomplete _ .ok)
  unfold Part.portAdmitOrder
  split
  · exact hcomplete p _
  next i _ =>
    split
    · exact hcomplete p _
    · split
      · exact hcomplete p _
      next z hrole =>
        have hrole : p.spm.ports[i.val].role = .service z := hrole
        split
        · exact hclose i
        · split
          · exact hcomplete p _
          next hsealed =>
            refine (p.openByOrder_guards i fun y hy => ?_).trans (hcomplete _ _)
            cases hrole.symm.trans hy
            simpa [Part.zoneSealed] using hsealed
      all_goals
        rename_i hrole
        split
        · exact hclose i
        · exact hother i fun z hz => by cases hz.symm.trans hrole

theorem Part.holdPort_guards (p : Part) (i : Fin 16) : p.Guards (p.holdPort i) := by
  unfold Part.holdPort
  split
  next h => exact fun z hz => Part.setAdmission_guarded hz i _ fun _ => .inl (.inl h.1)
  next => exact .refl p

theorem Part.releasePort_guards (p : Part) (i : Fin 16) : p.Guards (p.releasePort i) := by
  unfold Part.releasePort
  split
  next h => exact fun z hz => Part.setAdmission_guarded hz i _ fun _ => .inl (.inr h)
  next => exact .refl p

theorem Part.hallHoldOrder_guards (p : Part) (ref : OrderRef) : p.Guards (p.hallHoldOrder ref) := by
  have hhall (q : Part) (b : Bool) : q.Alike (q.modSpm fun s => { s with hallHold := b }) :=
    ⟨rfl, fun _ => rfl, fun _ => rfl, fun _ => rfl⟩
  unfold Part.hallHoldOrder
  split
  · exact (p.complete_alike ref _ _).guards
  · refine ((hhall p true).guards.trans (.fold _ (fun p i => p.holdPort_guards i) sixteens _)).trans ?_
    exact (Part.Alike.complete (.rewrite (Part.raise_alike _ _ _) .spm) _ _ _).guards

theorem Part.hallReleaseOrder_guards (p : Part) (ref : OrderRef) : p.Guards (p.hallReleaseOrder ref) := by
  have hhall (q : Part) (b : Bool) : q.Alike (q.modSpm fun s => { s with hallHold := b }) :=
    ⟨rfl, fun _ => rfl, fun _ => rfl, fun _ => rfl⟩
  unfold Part.hallReleaseOrder
  split
  · refine ((hhall p false).guards.trans (.fold _ (fun p i => p.releasePort_guards i) sixteens _)).trans ?_
    exact (Part.Alike.complete (.rewrite (Part.raise_alike _ _ _) .spm) _ _ _).guards
  · exact (p.complete_alike ref _ _).guards

/-- R135: a quarantined socket is not open. -/
theorem Part.quarantine_guards (p : Part) (i : Fin 16) : p.Guards (p.quarantine i) := fun z h => by
  refine h.of_ports (by unfold Part.quarantine; simp) (by unfold Part.quarantine; simp)
    (by unfold Part.quarantine; simp) fun j hrole hajar => ?_
  unfold Part.quarantine at hrole hajar
  dsimp only at hrole hajar
  simp only [Part.rewrite_frame, Part.portOutcome_frame, Part.raise_frame, Part.report_frame, Part.modPort_fields]
    at hrole hajar
  by_cases hj : j = i
  · subst hj; simp [Port.ajar] at hajar
  · rw [modAt_other _ _ hj] at hrole hajar
    exact .inl ⟨hrole, hajar⟩

/-- R134, R135: a link comes up; only a quarantine is more than supervision. -/
theorem Part.linkUp_guards (p : Part) (i : Fin 16) : p.Guards (p.linkUp i) := by
  have hlink : p.Alike (p.modPort i fun k => k.supervise { k with link := true } p.now) := p.supervise_alike i _
  unfold Part.linkUp
  refine (hlink.rewrite .spm).guards.trans ?_
  generalize (p.modPort i fun k => k.supervise { k with link := true } p.now).rewrite .spm = A
  dsimp only
  split
  · exact (Part.Guards.refl A).next_if (A.quarantine_guards i)
  · exact .refl A

theorem Part.linkDown_guards (p : Part) (i : Fin 16) : p.Guards (p.linkDown i) := by
  have hlink : p.Alike (p.modPort i fun k => k.supervise { k with link := false, drops := inc16 k.drops } p.now) :=
    p.supervise_alike i _
  unfold Part.linkDown
  refine (hlink.rewrite .spm).guards.trans ?_
  generalize (p.modPort i fun k => k.supervise { k with link := false, drops := inc16 k.drops } p.now).rewrite .spm = A
  dsimp only
  split
  · exact (A.raise_alike _ _).guards
  · exact A.endQuarantine_guards i _ (by decide)
  all_goals exact .refl A

theorem Part.linkEvent_guards (p : Part) (i : Fin 16) (level : Bool) : p.Guards (p.linkEvent i level) := by
  unfold Part.linkEvent
  split
  · exact .refl p
  · split
    · exact (p.modPort_alike i _).guards
    · split
      · exact p.linkUp_guards i
      · exact p.linkDown_guards i

theorem Part.actPulse_alike (p : Part) (i : Fin 16) (level : Bool) : p.Alike (p.actPulse i level) :=
  ⟨by simp, fun _ => by simp, fun _ => by simp, fun j => Port.guardView_iff.mpr ⟨by simp, by simp⟩⟩

/-- R138: a silence asks no more of the laws than the halt of a robot. -/
theorem Part.fallSilent_guards (p : Part) (i : Fin 16) : p.Guards (p.fallSilent i) := by
  obtain ⟨A, hA⟩ : ∃ A, A = p.modPort i fun q => { q with silent := true, silences := inc16 q.silences } := ⟨_, rfl⟩
  have hsilent : p.Alike A := hA ▸ p.modPort_alike i _
  obtain ⟨B, hB⟩ : ∃ B, B =
    (A.raise .silent (portMember i)).portOutcome i .silent A.spm.ports[i].fittedAction.code := ⟨_, rfl⟩
  have htold : A.Alike B := hB ▸ .of_blocks
  unfold Part.fallSilent
  rw [← hA]
  dsimp only
  rw [← hB]
  refine ((hsilent.trans htold).guards.trans ?_).trans (Part.rewrite_alike _ .spm).guards
  split
  · exact (Part.Alike.of_blocks).guards
  · exact (Part.Guards.refl B).next_if (B.requestHalt_guards _ _)
  all_goals exact .refl B

theorem Part.portSilence_guards (p : Part) (i : Fin 16) : p.Guards (p.portSilence i) := by
  unfold Part.portSilence
  split
  · exact (p.modPort_alike i _).guards.next_unless (Part.fallSilent_guards _ i)
  · exact .refl p

/-- R143: a port that takes another role is closed with it. -/
theorem Part.portAdopt_guards (p : Part) (i : Fin 16) (s : PortSettings) : p.Guards (p.portAdopt i s) := by
  unfold Part.portAdopt
  dsimp only
  split
  · exact (p.modPort_alike i _).guards
  · have hclosed : p.Guards (p.modPort i fun q => { q with
        role := s.role, admission := .closed, limit := s.limit, action := s.action, deadline := none
        silent := false, drops := 0, silences := 0, quarantines := 0 }) := fun z h => by
      refine h.of_ports rfl rfl rfl fun j hrole hajar => ?_
      by_cases hj : j = i
      · subst hj; simp [Port.ajar] at hajar
      · simp only [Part.modPort_fields] at hrole hajar
        rw [modAt_other _ _ hj] at hrole hajar
        exact .inl ⟨hrole, hajar⟩
    split
    · exact hclosed.trans (Part.Alike.of_blocks).guards
    · exact hclosed

/-! ## The conveyor (R20, R28, R29, R47, R51) -/

theorem Part.adoptRotation_alike (p : Part) (x : PendingRotation) : p.Alike (p.adoptRotation x) := .of_robots

theorem Part.advanceCursor_alike (p : Part) (slot : Nat) : p.Alike (p.advanceCursor slot) := .of_robots

theorem Part.searchSlot_alike (fuel : Nat) (p : Part) (start pos turn : Nat) :
    p.Alike (Part.searchSlot fuel p start pos turn).2.2 := by
  induction fuel generalizing p start pos turn with
  | zero => exact p.advanceCursor_alike start
  | succ n ih =>
    have hzero : p.Alike (p.modRbp fun b => { b with cursor := 0 }) :=
      .of_robots rfl rfl rfl (fun _ => rfl) (fun _ => rfl)
    unfold Part.searchSlot
    dsimp only
    split
    · exact p.advanceCursor_alike pos
    · split
      · exact p.advanceCursor_alike start
      · split
        · exact ih p _ _ _
        · split
          · exact (p.adoptRotation_alike _).trans (ih _ _ _ _)
          · exact hzero.trans (ih _ _ _ _)

theorem Part.assign_alike (p : Part) : p.Alike p.assign.2.2 := by
  unfold Part.assign
  refine .rewrite ?_ .rbp
  split
  · exact p.searchSlot_alike _ _ _ _
  · exact p.advanceCursor_alike _

theorem Part.admitContainer_guards (p : Part) : p.Guards p.admitContainer := by
  unfold Part.admitContainer
  split
  · exact .refl p
  · split
    · exact (Part.Alike.of_blocks).guards
    · obtain ⟨A, hA⟩ : ∃ A, A = p.modTrl fun t => { t with nextSeq := nextSequence t.nextSeq } := ⟨_, rfl⟩
      have hnumber : p.Alike A := hA ▸ .of_blocks rfl rfl rfl rfl
      rw [← hA]
      have hfires (r : Record) : A.assign.2.2.Alike ((A.assign.2.2.append r).addFires p.trl.nextSeq) := .of_blocks
      exact ((hnumber.trans A.assign_alike).trans (hfires _)).guards.next_if (Part.servicePitch_guards _ _)

theorem Part.closeFill_guards (p : Part) (seq : Word) : p.Guards (p.closeFill seq) := by
  unfold Part.closeFill
  split
  · refine Part.Guards.next_if (.refl p) ?_
    split
    · exact p.closeReport_guards _ seq
    · exact (p.setFill_alike seq _).guards
  · exact .refl p

theorem Part.settle_guards (p : Part) (seq : Word) : p.Guards (p.settle seq) := by
  unfold Part.settle
  split
  · split
    · exact .refl p
    · have hclosed : p.Alike ((p.closeCameras seq).closeVerdicts seq) := .of_blocks
      have hfill := hclosed.guards.trans (Part.closeFill_guards _ seq)
      dsimp only
      generalize ((p.closeCameras seq).closeVerdicts seq).closeFill seq = A at hfill ⊢
      split
      · exact hfill
      · have hrecord (g : Record → Record) : A.Alike (A.modRecord seq g) := .of_blocks rfl rfl rfl rfl
        have htaken (q : Part) : q.Alike (q.takeReject seq) := .of_robots
        exact (hfill.trans ((hrecord _).rewrite .trl).guards).next_if (htaken _).guards
  · exact .refl p

theorem Part.arrive_guards (p : Part) (seq : Word) (s : Station) : p.Guards (p.arrive seq s) := by
  cases s with
  | robot => exact p.servicePitch_guards seq
  | decision => exact p.settle_guards seq
  | camera c =>
    have h : p.Alike (p.cameraStation c seq) := .of_robots
    exact h.guards
  | ejector =>
    have h : p.Alike (p.ejectorStation seq) := .of_robots
    exact h.guards
  | confirmEnd =>
    have h : p.Alike (p.confirmEnd seq) := .of_robots
    exact h.guards

theorem Part.sample_guards (p : Part) : p.Guards p.sample := by
  unfold Part.sample
  refine Part.Guards.trans ?_ (Part.rewrite_alike _ .cvt).guards
  refine (Part.Guards.refl p).next_if ?_
  split
  · exact .refl p
  · exact (Part.Alike.of_blocks).guards
  · exact (Part.Alike.of_blocks).guards
  · exact p.admitContainer_guards

theorem Part.raisePending_guards (p : Part) (f : Profile) (e : Pending) : p.Guards (p.raisePending f e) := by
  cases e with
  | arrival seq s =>
    have hrecord (g : Record → Record) : p.Alike (p.modRecord seq g) := .of_blocks rfl rfl rfl rfl
    exact (hrecord _).guards.trans (Part.arrive_guards _ seq s)
  | watch w => exact (p.modCvt_alike _).guards.trans (Part.raiseWatch_guards _ w)
  | sample => exact p.sample_guards
  | mark =>
    have hmark : p.Alike (p.mark f) := .of_robots
    exact hmark.guards

theorem Part.travel_guards (fuel : Nat) (choices : List Nat) (sample mark : Bool) (p : Part) (f : Profile) :
    p.Guards (Part.travel fuel choices sample mark p f) := by
  induction fuel generalizing choices sample mark p with
  | zero => exact .refl p
  | succ n ih =>
    unfold Part.travel
    dsimp only
    split
    · exact .refl p
    · exact (p.raisePending_guards f _).trans (ih _ _ _ _)

theorem Part.advance_guards (p : Part) (choices : List Nat) : p.Guards (p.advance choices) := by
  unfold Part.advance
  refine (p.modCvt_alike fun c => { c with position := c.position + 1, highWater := c.highWater + 1 }).guards.trans ?_
  dsimp only
  split
  · exact .refl _
  · exact (Part.modCvt_alike _ _).guards.trans (Part.travel_guards _ _ _ _ _ _)

theorem Part.forward_guards (p : Part) (choices : List Nat) : p.Guards (p.forward choices) := by
  unfold Part.forward
  split
  · exact p.advance_guards choices
  · exact (p.modCvt_alike _).guards.next_if (Part.Alike.of_blocks).guards

theorem Part.backward_alike (p : Part) : p.Alike p.backward := by
  obtain ⟨A, hA⟩ : ∃ A, A = p.modCvt fun c =>
    if c.depth < 2147483647 then { c with position := c.position - 1, depth := c.depth + 1 }
    else { c with position := c.position - 1, highWater := c.highWater - 1 } := ⟨_, rfl⟩
  have hback : p.Alike A := hA ▸ p.modCvt_alike _ (by split <;> rfl)
  unfold Part.backward
  rw [← hA]
  dsimp only
  split
  · exact hback.trans .of_blocks
  · exact hback

theorem Part.encoderPair_guards (p : Part) (pair : Bool × Bool) (infeed : Bool) (choices : List Nat) :
    p.Guards (p.encoderPair pair infeed choices) := by
  unfold Part.encoderPair
  refine (p.modCvt_alike fun c => { c with decoder := some pair, infeed := infeed }).guards.trans ?_
  dsimp only
  split
  · exact .refl _
  · split
    · exact .refl _
    · split
      · exact Part.forward_guards _ choices
      · split
        · exact (Part.backward_alike _).guards
        · exact (Part.Alike.of_blocks).guards

end Sys2Proof.Machine
end

section
/-! PROOFS. The laws that guard people, at the adoption of a profile, at a line reset and at every command; O60 (R8, R62,
R163, R168 to R171, R178, R198). -/

-- One proof after another: side by side, their threads take the stack space that a compile of the whole text is given.
set_option Elab.async false

namespace Sys2Proof.Machine

/-! ## Machine time steps (R7 to R11): deadlines move, and no law looks at one -/

theorem Part.shift_alike (p : Part) (o : Time) : p.Alike (p.shift o) := by
  refine ⟨rfl, fun z => ?_, fun r => ?_, fun i => ?_⟩
  · simp [Part.shift, Sac.shift, Zone.guardView]
  · simp [Part.shift, Rbp.shift, Robot.guardView, Robot.safe]
  · simp [Part.shift, Spm.shift, Port.guardView]

theorem Part.applyStep_alike (p : Part) (q : PendingStep) : p.Alike (p.applyStep q) := by
  refine (p.shift_alike (BitVec.ofInt 48 q.offset)).trans ?_
  unfold Part.applyStep
  exact .of_blocks

theorem Part.releaseStep_alike (p : Part) : p.Alike p.releaseStep := by
  unfold Part.releaseStep
  split
  · exact p.applyStep_alike _
  · exact .refl p

theorem Part.timeStepOrder_alike (p : Part) (ref : OrderRef) (offset : Word) : p.Alike (p.timeStepOrder ref offset) := by
  unfold Part.timeStepOrder
  dsimp only
  split
  · exact (p.completeIf_alike _ _ _).trans (Part.applyStep_alike _ _)
  · exact .of_blocks

theorem Part.syncLoss_alike (p : Part) : p.Alike p.syncLoss := by
  unfold Part.syncLoss Part.loseSync
  split
  · split
    · exact Part.Alike.trans (.of_blocks) (Part.releaseStep_alike _)
    · exact .of_blocks
  · exact .refl p

theorem Part.syncPulse_alike (p : Part) : p.Alike p.syncPulse := by
  unfold Part.syncPulse
  exact Part.Alike.trans (.of_blocks) (Part.releaseStep_alike _)

theorem Part.syncLevel_alike (p : Part) (level : Bool) : p.Alike (p.syncLevel level) := by
  have hline : p.Alike (p.setSyncLine level) := .of_blocks
  unfold Part.syncLevel
  dsimp only
  split
  · exact hline.trans (Part.syncPulse_alike _)
  · exact hline

theorem Part.syncAdopt_alike (p : Part) (mode : SyncMode) : p.Alike (p.syncAdopt mode) := by
  unfold Part.syncAdopt
  split
  · exact .refl p
  · dsimp only
    refine Part.Alike.trans (q := if mode = .none then p.releaseStep else p) ?_ .of_blocks
    split
    · exact p.releaseStep_alike
    · exact .refl p

/-! ## A profile is adopted (R166 to R171): every zone is SEALED, and a SEALED zone suits any profile -/

theorem Part.Guarded.sealed_door {p : Part} {z : Fin 8} (h : p.Guarded z) (hs : p.sac.zones[z.val].state = .sealed) :
    p.sac.zones[z.val].doorRel = false := by
  refine Bool.eq_false_iff.mpr fun hrel => ?_
  rcases ((p.doorRelCondition_iff z).mp (h.door hrel)).2.1 with h1 | h1 <;> exact absurd (hs.symm.trans h1) (by decide)

theorem Part.Guarded.reprofile {p : Part} {z : Fin 8} (h : p.Guarded z) (hs : p.sac.zones[z.val].state = .sealed)
    (f : Profile) : (p.modCvt fun c => { c with profile := some f }).Guarded z where
  sockets := h.sockets
  door hrel := absurd (hrel.symm.trans (h.sealed_door hs)) (by decide)
  rest hhold := by
    have hholding : p.sac.zones[z.val].holding = false := by simp [Zone.holding, hs]
    exact absurd (hhold.symm.trans hholding) (by decide)
  profile _ := hs

theorem Part.zoneAdopt_guards (p : Part) (z : Fin 8) : p.Guards (p.zoneAdopt z) := by
  unfold Part.zoneAdopt
  split
  next hopen =>
    have hprofile : p.cvt.profile ≠ none := fun hnone => by
      simp [Part.doorOpen, Part.hasDoor, Part.zoneMap, hnone] at hopen
    exact (p.grant_guards z .maintain .adoption _ 0 .ok hprofile (.inl rfl)).trans (Part.raise_alike _ _ _).guards
  next => exact .refl p

theorem Part.zonesAdopt_guards (p : Part) (f : Profile) : p.Guards (p.zonesAdopt f) := by
  have hhalted : p.Alike (eights.foldl (fun p z =>
      p.modZone z fun k => { k with haltedByZone := k.haltedByZone &&& f.zones[z].robots }) p) :=
    .fold _ (fun p z => p.modZone_alike z _) _ _
  exact (hhalted.guards.trans (.fold _ (fun p z => p.zoneAdopt_guards z) _ _)).trans (Part.rewrite_alike _ _).guards

theorem Part.portsAdopt_guards (p : Part) (f : Profile) : p.Guards (p.portsAdopt f) :=
  (Part.Guards.fold _ (fun p i => p.portAdopt_guards i _) _ _).trans (Part.rewrite_alike _ _).guards

/-- R170: the parts that a profile changes before the ports and the zones. -/
theorem Part.takeParts_guards (p : Part) (f : Profile) :
    (p.modCvt fun c => { c with profile := some f }).Guards (p.takeParts f) := by
  unfold Part.takeParts
  dsimp only
  generalize (p.modCvt fun c => { c with profile := some f }) = A
  have hblocks (q : Part) : q.Alike (((q.trackerAdopt.robotsAdopt f).camerasAdopt).rewrite .rej) := .of_robots
  exact (((A.syncAdopt_alike f.syncMode).trans (hblocks _)).guards.trans (Part.portsAdopt_guards _ f)).trans
    (Part.zonesAdopt_guards _ f)

theorem Part.adopt_guarded {p : Part} (h : ∀ z, p.Guarded z) (hs : ∀ z : Fin 8, p.sac.zones[z.val].state = .sealed)
    (ref : OrderRef) (f : Profile) : ∀ z, (p.adopt ref f).Guarded z := fun z => by
  have htook := p.takeParts_guards f z ((h z).reprofile (hs z) f)
  have hend : (p.takeParts f).Alike (p.adopt ref f) := by unfold Part.adopt; exact .of_blocks
  exact hend.guards z htook

theorem Part.refuseAdoption_alike (p : Part) (ref : OrderRef) (r : AdoptRefusal) :
    p.Alike (p.refuseAdoption ref r) := by unfold Part.refuseAdoption; exact .of_blocks

theorem Part.profileAdoptOrder_alike (p : Part) (ref : OrderRef) : p.Alike (p.profileAdoptOrder ref) := by
  unfold Part.profileAdoptOrder
  split
  · exact p.refuseAdoption_alike ref _
  · exact .of_blocks

/-- R166: a candidate is adopted over zones that are all SEALED, or over no profile, when they are by law. -/
theorem Part.copyEnd_guarded {p : Part} (h : ∀ z, p.Guarded z) : ∀ z, p.copyEnd.Guarded z := by
  unfold Part.copyEnd Part.judgeCandidate
  split
  next a _ =>
    split
    · exact fun z => (p.refuseAdoption_alike a.ref _).guards z (h z)
    · split
      · exact fun z => (p.refuseAdoption_alike a.ref _).guards z (h z)
      next hseal =>
        refine Part.adopt_guarded h (fun z => ?_) a.ref _
        cases hprofile : p.cvt.profile with
        | none => exact (h z).profile hprofile
        | some f =>
          have hall : p.allSealed = true := by simpa [hprofile] using hseal
          exact by simpa using List.all_eq_true.mp hall z (mem_eights z)
  next => exact h

/-! ## A line reset (R41, R62, R89, R110, R163, R198) -/

/-- Robots that are all at rest and safe do no harm to a law. -/
theorem Part.Guarded.at_rest {p q : Part} {z : Fin 8} (h : p.Guarded z) (hprofile : q.cvt.profile = p.cvt.profile)
    (hsac : q.sac = p.sac) (hspm : q.spm = p.spm)
    (hrest : ∀ r : Fin 6, q.rbp.robots[r.val].state = .stopped) : q.Guarded z where
  sockets i := by rw [hsac, hspm]; exact h.sockets i
  door hrel := by
    obtain ⟨h1, h2, h3, -⟩ := (p.doorRelCondition_iff z).mp (h.door (by rw [← hsac]; exact hrel))
    rw [← hsac] at h2 h3
    exact (q.doorRelCondition_iff z).mpr ⟨(Part.hasDoor_of hprofile z).trans h1, h2, h3, fun r _ => by
      simp [Robot.safe, hrest r]⟩
  rest _ r _ := by simp [Robot.runReq, hrest r]
  profile hnone := by rw [hsac]; exact h.profile (hprofile.symm.trans hnone)

theorem Part.robotsLineReset_guards (p : Part) : p.Guards p.robotsLineReset := by
  have hreset : p.Guards p.robotsReset := fun z hz =>
    hz.at_rest rfl rfl rfl fun r => by simp [Part.robotsReset, Rbp.lineReset, Robot.lineReset]
  rw [p.robotsLineReset_eq]
  exact hreset.trans (.fold _ (fun p r => p.reportRobot_guards r) _ _)

theorem Part.zonesDropOrders_alike (p : Part) : p.Alike p.zonesDropOrders :=
  Part.Alike.rewrite (.fold _ (fun p z => p.modZone_alike z _) _ _) _

theorem Part.beginLineReset_guards (p : Part) : p.Guards p.beginLineReset := by
  obtain ⟨A, hA⟩ : ∃ A, A = (p.modRpu fun u => { u with lineResetBusy := true }).modOdk fun o =>
    { o with queue := [], inflight := [] } := ⟨_, rfl⟩
  have hbusy : p.Alike A := hA ▸ .of_blocks rfl rfl rfl rfl
  have hblocks (q : Part) :
      q.Alike q.timeLineReset.trackerLineReset.transitLineReset.camerasLineReset.ejectorLineReset := .of_blocks
  have htold (q : Part) : q.Alike ((((q.rewrite .spm).rewrite .sac).closeFilling .lineReset).abortCells p.odk.inflight) :=
    .of_blocks
  unfold Part.beginLineReset
  rw [← hA]
  dsimp only
  exact (((hbusy.trans A.zonesDropOrders_alike).trans (hblocks _)).guards.trans (Part.robotsLineReset_guards _)).trans
    (htold _).guards

theorem Part.controlLineReset_guards (p : Part) : p.Guards p.controlLineReset := by
  unfold Part.controlLineReset
  split
  · exact .refl p
  · exact p.beginLineReset_guards

theorem Part.pinLineReset_guards (p : Part) : p.Guards p.pinLineReset := by
  have hpin : p.Alike (p.setLrst true) := .of_blocks
  unfold Part.pinLineReset
  split
  · exact .refl p
  · exact hpin.guards.trans (Part.beginLineReset_guards _)

theorem Part.registerWrite_guards (p : Part) (register : Fin 8) (value : Half) :
    p.Guards (p.registerWrite register value) := by
  have hlevel : p.Alike (p.intLevel value) := .of_robots
  have hreset : p.Alike p.exchangeReset := .of_robots
  unfold Part.registerWrite
  split
  · exact .refl p
  · split
    · exact hlevel.guards
    · split
      · exact hreset.guards
      · exact p.controlLineReset_guards

/-! ## Orders (R178) -/

theorem Part.perform_guards (p : Part) (ref : OrderRef) (o : Order) : p.Guards (p.perform ref o) := by
  cases o with
  | profileAdopt => exact (p.profileAdoptOrder_alike ref).guards
  | timeStep offset => exact (p.timeStepOrder_alike ref offset).guards
  | robotRun robot => exact p.robotRunOrder_guards ref robot
  | robotHalt robot => exact p.robotHaltOrder_guards ref robot
  | robotClear robot => exact p.robotClearOrder_guards ref robot
  | portAdmit port opening => exact p.portAdmitOrder_guards ref port opening
  | hallHold => exact p.hallHoldOrder_guards ref
  | hallRelease => exact p.hallReleaseOrder_guards ref
  | accessRequest zone level minutes badge => exact p.accessRequestOrder_guards ref zone level minutes badge
  | accessExtend zone minutes => exact p.accessExtendOrder_guards ref zone minutes
  | accessEnd zone => exact p.accessEndOrder_guards ref zone
  | resumeZone zone => exact p.resumeZoneOrder_guards ref zone
  | lineStart => exact (.of_robots : p.Guards (p.lineStartOrder ref))
  | lineStop => exact (.of_robots : p.Guards (p.lineStopOrder ref))
  | markReject seq => exact (.of_robots : p.Guards (p.markRejectOrder ref seq))
  | countersClear => exact (.of_robots : p.Guards (p.countersClearOrder ref))
  | timeTrim ppb => exact (.of_robots : p.Guards (p.timeTrimOrder ref ppb))
  | windowSet robot opening closing =>
    exact (.of_robots : p.Guards (p.windowSetOrder ref robot opening closing))
  | rotationSet count skip entries =>
    exact (.of_robots : p.Guards (p.rotationSetOrder ref count skip entries))
  | cameraService camera out => exact (.of_robots : p.Guards (p.cameraServiceOrder ref camera out))
  | cameraRestore camera => exact (.of_robots : p.Guards (p.cameraRestoreOrder ref camera))
  | verdict camera verdict seq =>
    exact (.of_robots : p.Guards (p.verdictOrder ref camera verdict seq))
  | ejectTest => exact (.of_robots : p.Guards (p.ejectTestOrder ref))
  | outcomeFlush => exact (.of_robots : p.Guards (p.outcomeFlushOrder ref))
  | faultUnlock count => exact (.of_robots : p.Guards (p.faultUnlockOrder ref count))

theorem Part.answer_guards (p : Part) (ref : OrderRef) (order : Option Order) (busy : Bool) :
    p.Guards (p.answer ref order busy) := by
  unfold Part.answer
  split
  · exact (p.complete_alike _ _ _).guards
  · split
    · exact (p.complete_alike _ _ _).guards
    · exact p.perform_guards _ _

theorem Part.take_guards (p : Part) (n : Fin 48) : p.Guards (p.take n) := by
  have hmark : p.Alike (p.markTaken n) := .of_blocks
  have hend (q : Part) : q.Alike (q.endTake (p.nextRef n)) := .of_blocks
  exact (hmark.guards.trans (Part.answer_guards _ _ _ _)).trans (hend _).guards

theorem Part.orderTake_guards (p : Part) : p.Guards p.orderTake := by
  unfold Part.orderTake
  split
  · exact p.take_guards _
  · exact .refl p

theorem Part.takeAs_guards (p : Part) (n : Fin 48) (o : Order) : p.Guards (p.takeAs n o) := by
  unfold Part.takeAs
  split
  · exact p.take_guards n
  · exact .refl p

/-! ## The commands -/

/-- R197: after power-on no socket has a zone, every zone is SEALED behind a locked door, and no robot has a zone. -/
theorem Part.applyPower_guarded (p : Part) (pins : Pins) (z : Fin 8) : (p.applyPower pins).Guarded z where
  sockets i hrole := absurd ((Part.powerOn_port pins i).symm.trans hrole) (by simp)
  door hrel := absurd ((Part.powerOn_zone pins z).2.symm.trans hrel) (by decide)
  rest hhold := by
    have hsealed : (p.applyPower pins).sac.zones[z.val].state = .sealed := (Part.powerOn_zone pins z).1
    simp [Zone.holding, hsealed] at hhold
  profile _ := (Part.powerOn_zone pins z).1

/-- But for a power-on and the end of a copy, which need all zones' laws at once or none, each command keeps each zone's. -/
theorem exec_guards {p : Part} {w : List Instr} {t : State} :
    ∀ c : Instr, (∀ pins, c ≠ .powerOn pins) → c ≠ .copyEnd → exec c ⟨p, w⟩ = .next t → p.Guards t.part := by
  intro c hpower hcopy ht
  cases c with
  | powerOn pins => exact absurd rfl (hpower pins)
  | copyEnd => exact absurd rfl hcopy
  | hostMemoryWrite a v n =>
    simp only [exec, execHostMemoryWrite] at ht
    split at ht
    · cases ht; exact .of_robots
    · exact absurd ht (by simp)
  | timeTrim | timeStep | lineStart | lineStop | markReject | countersClear | robotRun | robotHalt | robotClear
  | rotationSet | windowSet | cameraService | verdict | cameraRestore | ejectTest | portAdmit | hallHold | hallRelease
  | accessRequest | accessEnd | accessExtend | resumeZone | profileAdopt | outcomeFlush | faultUnlock =>
    cases ht; exact p.takeAs_guards _ _
  | orderTake => cases ht; exact p.orderTake_guards
  | encoderCount a b infeed choices => cases ht; exact p.encoderPair_guards _ _ _
  | registerWriteDiscarded register value => cases ht; exact p.registerWrite_guards _ _
  | lineReset byPin =>
    cases ht
    cases byPin with
    | false => exact p.controlLineReset_guards
    | true => exact p.pinLineReset_guards
  | syncPulse level => cases ht; exact (p.syncLevel_alike level).guards
  | syncLost => cases ht; exact p.syncLoss_alike.guards
  | runAck | haltAck | robotFault | robotInputChange => cases ht; exact p.robotLine_guards _ _ _
  | runTimeout robot => cases ht; exact p.runTimedOut_guards robot
  | haltTimeout robot => cases ht; exact p.haltTimedOut_guards robot
  | fillStrobe robot ok short => cases ht; exact p.fillLines_guards robot ok short
  | linkEvent port level => cases ht; exact p.linkEvent_guards port level
  | actPulse port level => cases ht; exact (p.actPulse_alike port level).guards
  | portSilence port => cases ht; exact p.portSilence_guards port
  | doorChange zone level => cases ht; exact (p.doorChange_alike zone level).guards
  | doorDebounce zone => cases ht; exact p.doorDebounce_guards zone
  | reqChange zone level => cases ht; exact (p.reqChange_alike zone level).guards
  | buttonDebounce zone => cases ht; exact p.buttonDebounce_guards zone
  | accessExpiry zone => cases ht; exact p.accessExpiry_guards zone
  | markTimeout => cases ht; exact .of_robots
  | confirm level => cases ht; exact .of_robots
  | ejectPulseStart => cases ht; exact .of_robots
  | ejectOutputEnd => cases ht; exact .of_robots
  | startupComplete => cases ht; exact .of_robots
  | machineTimeCarry => cases ht; exact .of_robots
  | timeSnapshotRead => cases ht; exact .of_robots
  | cameraFireTime camera => cases ht; exact .of_robots
  | triggerPulseEnd camera => cases ht; exact .of_robots
  | verdictStrobe camera pass fail tag => cases ht; exact .of_robots
  | handWrite cell value => cases ht; exact .of_robots
  | seenWrite bulletin value => cases ht; exact .of_robots
  | pageAge => cases ht; exact .of_robots
  | pageStateWrite page value => cases ht; exact .of_robots
  | intLevel value => cases ht; exact .of_robots
  | exchangeReset => cases ht; exact .of_robots
  | exchangeResetEnd => cases ht; exact .of_robots
  | lineResetEnd => cases ht; exact .of_robots

/-- Settles O60, each command by what it does to one zone and its members, the laws carried along. -/
theorem everyStepGuardsPeople : Obligations.EveryStepGuardsPeople := by
  unfold Obligations.EveryStepGuardsPeople
  intro p w t hsockets hdoors hheld hprofile hstep
  have h := p.guarded_iff.mpr ⟨hsockets, hdoors, hheld, hprofile⟩
  refine t.part.guarded_iff.mp ?_
  cases w with
  | nil =>
    cases hstep
    have htick : p.Guards p.tick := .of_robots
    exact fun z => htick z (h z)
  | cons c rest =>
    change exec c ⟨p, rest⟩ = .next t at hstep
    by_cases hpower : ∃ pins, c = .powerOn pins
    · obtain ⟨pins, rfl⟩ := hpower
      cases hstep
      exact p.applyPower_guarded pins
    by_cases hcopy : c = .copyEnd
    · subst hcopy
      cases hstep
      exact Part.copyEnd_guarded h
    exact fun z => exec_guards c (fun pins e => hpower ⟨pins, e⟩) hcopy hstep z (h z)

end Sys2Proof.Machine
end

section
/-! PROOFS. The filler robots (04_filler_robots.md): the input lines (R70, R71, R87), the acknowledges (R66, R69) and the
entry to FAULTED (R72). -/

-- One proof after another: side by side, their threads take the stack space that a compile of the whole text is given.
set_option Elab.async false

namespace Sys2Proof.Machine

/-- A command whose part afterwards is known. -/
theorem leads_next {c : Instr} {p q t : Part} {w : List Instr} {P : Part → Prop}
    (hexec : exec c ⟨p, w⟩ = .next ⟨q, w⟩) (hq : q = t) (ht : P t) : Leads c ⟨p, w⟩ P :=
  ⟨t, by rw [hexec, hq], ht⟩

/-! ## What one line does (R70, R71, R87) -/

/-- Robot `r` with its input lines sampled as `new`, before they are acted on. -/
def Part.lined (p : Part) (r : Fin 6) (new : RobotPins) : Part := p.modRobot r fun k => { k with pins := new }

theorem Part.lined_rbp (p : Part) (r : Fin 6) (new : RobotPins) :
    (p.lined r new).rbp = p.rbp.put r { p.rbp.robots[r] with pins := new } := rfl

theorem Part.lined_state (p : Part) (r : Fin 6) (new : RobotPins) :
    (p.lined r new).rbp.robots[r] = { p.rbp.robots[r] with pins := new } := modAt_self _ _ _

theorem Part.robotLine_same {p : Part} {r : Fin 6} {line : RobotLine} {l : Bool}
    (h : p.rbp.robots[r].pins.with line l = p.rbp.robots[r].pins) : p.robotLine r line l = p := by
  unfold Part.robotLine Part.robotInputs
  exact if_pos h

/-- A strobe line that falls makes no strobe. -/
theorem Part.robotInputs_quiet {p : Part} {r : Fin 6} {new : RobotPins} (h : new ≠ p.rbp.robots[r].pins)
    (hrun : new.runAck = p.rbp.robots[r].pins.runAck) (hhalt : new.haltAck = p.rbp.robots[r].pins.haltAck)
    (hfault : new.fault = true → p.rbp.robots[r].pins.fault = true)
    (hok : new.fillOk = true → p.rbp.robots[r].pins.fillOk = true)
    (hshort : new.fillShort = true → p.rbp.robots[r].pins.fillShort = true) :
    p.robotInputs r new = (p.lined r new).rewrite .rbp := by
  have edge {a b : Bool} (h : a = true → b = true) : (a && !b) = false := by
    cases a
    · rfl
    · rw [h rfl]; rfl
  unfold Part.robotInputs
  simp only [if_neg h, if_pos hrun, if_pos hhalt, edge hfault, edge hok, edge hshort]
  rfl

theorem Part.runAckChanged_idle {p : Part} {r : Fin 6} {l : Bool} (hup : ¬ (p.rbp.robots[r].state = .starting ∧ l = true))
    (hdown : ¬ (p.rbp.robots[r].state = .running ∧ l = false)) : p.runAckChanged r l = p := by
  unfold Part.runAckChanged
  split
  next h => exact absurd ⟨h, rfl⟩ hup
  next h => exact absurd ⟨h, rfl⟩ hdown
  next => rfl

theorem Part.haltAckChanged_idle {p : Part} {r : Fin 6} {l : Bool}
    (h : p.rbp.robots[r].state ∈ [RobotState.stopped, .starting, .running]) : p.haltAckChanged r l = p := by
  simp only [List.mem_cons, List.not_mem_nil, or_false] at h
  unfold Part.haltAckChanged
  rcases h with h | h | h <;> rw [h]

theorem RobotPins.with_runAck_ne {k : RobotPins} {l : Bool} (h : k.with .runAck l ≠ k) : k.runAck = !l := by
  cases hl : k.runAck <;> cases l <;> first | rfl | exact absurd (by rw [← hl]; rfl) h

theorem RobotPins.with_haltAck_ne {k : RobotPins} {l : Bool} (h : k.with .haltAck l ≠ k) : k.haltAck = !l := by
  cases hl : k.haltAck <;> cases l <;> first | rfl | exact absurd (by rw [← hl]; rfl) h

/-- R87: a change that acts on no state. -/
theorem Part.robotLine_quiet {p : Part} {r : Fin 6} {line : RobotLine} {l : Bool}
    (h : p.rbp.robots[r].pins.with line l ≠ p.rbp.robots[r].pins)
    (hquiet : (line = .runAck ∧ ¬ (p.rbp.robots[r].state = .starting ∧ l = true) ∧
          ¬ (p.rbp.robots[r].state = .running ∧ l = false)) ∨
        (line = .haltAck ∧ p.rbp.robots[r].state ∈ [RobotState.stopped, .starting, .running]) ∨
        (line = .fault ∧ (l = false ∨ p.rbp.robots[r].state = .stopped)) ∨
        ((line = .fillOk ∨ line = .fillShort) ∧ l = false)) :
    p.robotLine r line l = (p.lined r (p.rbp.robots[r].pins.with line l)).rewrite .rbp := by
  have hstate (new : RobotPins) : (p.lined r new).rbp.robots[r].state = p.rbp.robots[r].state := by
    rw [p.lined_state]
  rcases hquiet with ⟨rfl, hup, hdown⟩ | ⟨rfl, hs⟩ | ⟨rfl, hl | hs⟩ | ⟨rfl | rfl, rfl⟩
  · rw [p.robotLine_runAck r l (RobotPins.with_runAck_ne h)]
    exact congrArg (Part.rewrite · .rbp)
      (Part.runAckChanged_idle (by rw [← hstate] at hup; exact hup) (by rw [← hstate] at hdown; exact hdown))
  · rw [p.robotLine_haltAck r l (RobotPins.with_haltAck_ne h)]
    exact congrArg (Part.rewrite · .rbp) (Part.haltAckChanged_idle (by rw [← hstate] at hs; exact hs))
  · subst hl
    exact Part.robotInputs_quiet h rfl rfl (by simp [RobotPins.with]) id id
  · cases l with
    | false => exact Part.robotInputs_quiet h rfl rfl (by simp [RobotPins.with]) id id
    | true =>
      have hfault : p.rbp.robots[r].pins.fault = false := by
        cases hf : p.rbp.robots[r].pins.fault
        · rfl
        · exact absurd (by rw [RobotPins.with, ← hf]) h
      rw [p.robotLine_fault r hfault]
      exact congrArg (Part.rewrite · .rbp) (if_pos ((hstate _).trans hs))
  · exact Part.robotInputs_quiet h rfl rfl id (by simp [RobotPins.with]) id
  · exact Part.robotInputs_quiet h rfl rfl id id (by simp [RobotPins.with])

/-- R83: a strobe line that changes alone is sampled with the other as it stands. -/
theorem Part.robotLine_fillOk (p : Part) (r : Fin 6) (l : Bool) :
    p.robotLine r .fillOk l = p.fillLines r l p.rbp.robots[r].pins.fillShort :=
  congrArg (p.robotInputs r) (by simp [RobotPins.with])

theorem Part.robotLine_fillShort (p : Part) (r : Fin 6) (l : Bool) :
    p.robotLine r .fillShort l = p.fillLines r p.rbp.robots[r].pins.fillOk l :=
  congrArg (p.robotInputs r) (by simp [RobotPins.with])

/-- Settles O25, each line by the rule of its row. -/
theorem inputLinesAreSampled : Obligations.InputLinesAreSampled := by
  unfold Obligations.InputLinesAreSampled
  intro p w r level k
  refine ⟨rfl, rfl, rfl, congrArg (fun q => (.next ⟨q, w⟩ : Answer)) (p.robotLine_fillOk r level),
    congrArg (fun q => (.next ⟨q, w⟩ : Answer)) (p.robotLine_fillShort r level),
    fun line l => ⟨fun hsame => ⟨_, rfl, Part.robotLine_same hsame⟩,
    fun hne hquiet => leads_next rfl (Part.robotLine_quiet hne hquiet) ?_⟩⟩
  have hsaid : p.Speaks (p.lined r (k.pins.with line l)) [] [] := .refl_of rfl rfl rfl
  exact ⟨rfl, rfl, (hsaid.rewrite .rbp).tells rfl, Part.rewrite_mirrored _ _, (hsaid.rewrite .rbp).storesOnly (by simp)⟩

end Sys2Proof.Machine
end

section
/-! PROOFS. The orders ROBOT_RUN, ROBOT_HALT and ROBOT_CLEAR (04_filler_robots.md, R65, R67, R69, R73). -/

-- One proof after another: side by side, their threads take the stack space that a compile of the whole text is given.
set_option Elab.async false

namespace Sys2Proof.Machine

/-! ## A take that reaches only the robots (R178) -/

/-- While cell `n` is taken, nothing of `p` changed but the robots; their mirror record may have been rewritten, and
nothing was told. -/
structure Part.Owning (p X : Part) (n : Fin 48) : Prop where
  rest : X = { p with rbp := X.rbp, odk := X.odk, rpu := X.rpu, mem := X.mem }
  odk : X.odk = p.takingOdk n p.odk.inflight
  said : p.Speaks X [] [.cell n, .mirror .rbp]
  fault : X.rpu.fault = p.rpu.fault
  cell : Memory.read X.mem (cellBase n) 12 = (p.takeEntry n).taken

section
variable {p X : Part} {n : Fin 48}

theorem Part.Owning.markTaken (p : Part) (n : Fin 48) : p.Owning (p.markTaken n) n where
  rest := by apply Part.eq_of_fields <;> simp
  odk := p.markTaken_odk n
  said := ((Part.Speaks.refl p).markTaken n).mono (by simp)
  fault := by simp
  cell := p.markTaken_read n

theorem Part.Owning.modRbp (h : p.Owning X n) (f : Rbp → Rbp) : p.Owning (X.modRbp f) n where
  rest := by rw [h.rest]; rfl
  odk := h.odk
  said := h.said.same rfl rfl rfl
  fault := h.fault
  cell := h.cell

theorem Part.Owning.rewrite (h : p.Owning X n) : p.Owning (X.rewrite .rbp) n where
  rest := by apply Part.eq_of_fields <;> simp <;> rw [h.rest]
  odk := by simp [h.odk]
  said := (h.said.rewrite .rbp).mono (by simp)
  fault := by simp [h.fault]
  cell := by rw [Part.rewrite_cell, h.cell]

theorem Part.Owning.unwatched {r : Fin 6} (h : p.Owning X n) (hu : p.unwatched r) : X.unwatched r :=
  Part.unwatched_congr (by rw [h.rest]) (by rw [h.rest]) r hu

/-- Beside the desk, only the robots changed. -/
theorem Part.Settled.only_rbp {q : Part} (hs : X.Settled q n)
    (hX : X = { p with rbp := X.rbp, odk := X.odk, rpu := X.rpu, mem := X.mem }) :
    q = { p with rbp := q.rbp, odk := q.odk, rpu := q.rpu, mem := q.mem } := by
  refine hs.eq.trans ?_
  rw [hs.rbp, hX]

/-! ## A robot that an order changes, shown and reported -/

/-- Robot `r` as `k`, shown and reported to the zones (R74). -/
def Part.shaken (p : Part) (r : Fin 6) (k : Robot) : Part := ((p.modRbp (·.put r k)).rewrite .rbp).reportRobot r

/-- Robot `r` as `k`, its order answered with OK, told, shown and reported to the zones. -/
def Part.handshook (p : Part) (r : Fin 6) (k : Robot) (ref : OrderRef) (news : News) : Part :=
  ((((p.modRbp (·.put r k)).complete ref .ok).raise news (robotMember r)).rewrite .rbp).reportRobot r

variable {o : Order} {r : Fin 6} {k : Robot}

theorem Part.shaken_frame (p : Part) (r : Fin 6) (k : Robot) :
    (p.shaken r k).rbp = p.rbp.put r k ∧ (p.shaken r k).mtu = p.mtu ∧ (p.shaken r k).cvt = p.cvt := by
  simp [Part.shaken]

theorem Part.handshook_frame (p : Part) (r : Fin 6) (k : Robot) (ref : OrderRef) (news : News) :
    (p.handshook r k ref news).rbp = p.rbp.put r k ∧ (p.handshook r k ref news).mtu = p.mtu ∧
      (p.handshook r k ref news).cvt = p.cvt := by
  simp [Part.handshook]

theorem Part.Owning.shaken (h : p.Owning X n) (hu : p.unwatched r) (k : Robot) : p.Owning (X.shaken r k) n := by
  have hshown : p.Owning ((X.modRbp (·.put r k)).rewrite .rbp) n := (h.modRbp _).rewrite
  unfold Part.shaken
  rw [Part.reportRobot_unwatched _ r (hshown.unwatched hu)]
  exact hshown

/-- An order that the robot keeps. -/
theorem Part.take_shaken (h : p.canTake n o) (hperform : (p.markTaken n).perform (p.nextRef n) o =
      (p.markTaken n).shaken r k) :
    let q := p.takeAs n o
    q.rbp = p.rbp.put r k ∧ q.mtu = p.mtu ∧ q.cvt = p.cvt ∧
    (p.unwatched r →
      q = { p with rbp := q.rbp, odk := q.odk, rpu := q.rpu, mem := q.mem } ∧ q.mirrored .rbp ∧ p.keeps q n ∧
      p.tells q [] ∧ Memory.storesOnly p.mem q.mem [.cell n, .mirror .rbp, .mirror .odk]) := by
  intro q
  obtain ⟨hrbp, hmtu, hcvt⟩ := (p.markTaken n).shaken_frame r k
  have hq : q = ((p.markTaken n).shaken r k).endTake (p.nextRef n) := by rw [← hperform]; exact Part.takeAs_eq h
  refine ⟨?_, ?_, ?_, fun hu => ?_⟩
  · rw [hq]; simp [hrbp]
  · rw [hq]; simp [hmtu]
  · rw [hq]; simp [hcvt]
  · have howns := (Part.Owning.markTaken p n).shaken hu k
    obtain ⟨hkeeps, hs⟩ := Part.kept_on h _ hperform howns.odk howns.cell
    have hshown : ((p.markTaken n).shaken r k).mirrored .rbp := by
      unfold Part.shaken
      rw [Part.reportRobot_unwatched _ r (((Part.Owning.markTaken p n).modRbp _).rewrite.unwatched hu)]
      exact Part.rewrite_mirrored _ _
    have htold := howns.said.settled hs
    exact ⟨hs.only_rbp howns.rest, hs.mirrored .rbp (by decide) hshown, hkeeps,
      htold.tells (hs.fault.trans howns.fault), htold.storesOnly (by simp)⟩

/-- An order that ends its robot's handshake within its take. -/
theorem Part.take_handshook {news : News} (h : p.canTake n o)
    (hperform : (p.markTaken n).perform (p.nextRef n) o = X.handshook r k (p.nextRef n) news)
    (hrbp : X.rbp.put r k = p.rbp.put r k) (hmtu : X.mtu = p.mtu) (hcvt : X.cvt = p.cvt)
    (howns : p.unwatched r → p.Owning X n) (hnews : news.bulletin = 2) :
    let q := p.takeAs n o
    q.rbp = p.rbp.put r k ∧ q.mtu = p.mtu ∧ q.cvt = p.cvt ∧
    (p.unwatched r →
      q = { p with rbp := q.rbp, odk := q.odk, rpu := q.rpu, mem := q.mem } ∧ q.mirrored .rbp ∧ p.answers q n .ok ∧
      p.tells q [(news, robotMember r)] ∧
      Memory.storesOnly p.mem q.mem [.cell n, .bulletin 2, .mirror .rbp, .mirror .odk]) := by
  intro q
  obtain ⟨hrbp', hmtu', hcvt'⟩ := X.handshook_frame r k (p.nextRef n) news
  have hq : q = (X.handshook r k (p.nextRef n) news).endTake (p.nextRef n) := by
    rw [← hperform]; exact Part.takeAs_eq h
  refine ⟨?_, ?_, ?_, fun hu => ?_⟩
  · rw [hq]; simp [hrbp', hrbp]
  · rw [hq]; simp [hmtu', hmtu]
  · rw [hq]; simp [hcvt', hcvt]
  · have hM := (howns hu).modRbp (·.put r k)
    have hsettled := (p.completed_of n _ .ok 0 _ (Part.canTake_fresh h) hM.odk).2.2
    have hsac : X.sac = p.sac := by rw [(howns hu).rest]
    have hquiet : X.handshook r k (p.nextRef n) news =
        (((X.modRbp (·.put r k)).complete (p.nextRef n) .ok).raise news (robotMember r)).rewrite .rbp :=
      Part.reportRobot_unwatched _ r (Part.unwatched_congr (by simp [hcvt]) (by simp [hsac]) r hu)
    have hsaid := ((hM.said.settled hsettled).raise news (robotMember r)).rewrite .rbp
    rw [hquiet] at hq
    obtain ⟨hanswers, hs⟩ := Part.done_of h _
      ((((X.modRbp (·.put r k)).complete (p.nextRef n) .ok).raise news (robotMember r)).rewrite .rbp) .ok 0 hM.odk
      (by simp) (by simp) (by simp)
    rw [← hq] at hanswers hs
    have htold := hsaid.settled hs
    refine ⟨hs.only_rbp ?_, hs.mirrored .rbp (by decide) (Part.rewrite_mirrored _ _), hanswers,
      htold.tells (hs.fault.trans (by simp [(howns hu).fault])), htold.storesOnly (by simp [hnews])⟩
    apply Part.eq_of_fields <;> simp <;> rw [(howns hu).rest]

end

/-! ## ROBOT_RUN (R65) -/

/-- R65: the robot once its run is taken, for the order `ref`. -/
def Robot.starting (k : Robot) (ref : OrderRef) (deadline : Time) : Robot :=
  { k with state := .starting, haltOrigin := none, order := some ref, deadline := some deadline }

/-- R69: the robot once its halt is taken, for the order `ref`. -/
def Robot.stopping (k : Robot) (ref : OrderRef) (deadline : Time) : Robot :=
  { k with state := .halting, haltOrigin := some .order, order := some ref, deadline := some deadline
           openWindows := if k.state = .running then [] else k.openWindows }

/-- R66, R69: the robot once the acknowledge it waits for is asserted. -/
def Robot.acknowledged (k : Robot) (state : RobotState) : Robot :=
  { k with state := state, deadline := none, order := none }

theorem Part.modRbp_put (p : Part) (r : Fin 6) (k : Robot) : (p.modRbp (·.put r k)).rbp.robots[r] = k :=
  Rbp.put_get' _ _ _

/-- A robot changed is the robot put in its place. -/
theorem Part.modRobot_put {p : Part} {r : Fin 6} {f : Robot → Robot} {k : Robot} (h : f p.rbp.robots[r] = k) :
    p.modRobot r f = p.modRbp (·.put r k) := by rw [← h]; rfl

theorem Part.shaken_robot (p : Part) (r : Fin 6) (k : Robot) : (p.shaken r k).rbp.robots[r] = k := by
  rw [(p.shaken_frame r k).1]
  exact Rbp.put_get' _ _ _

/-- R66: a STARTING robot with an order in flight, its RUN_ACK asserted. -/
theorem Part.finishRun_order {p : Part} {r : Fin 6} {ref : OrderRef} (h : p.rbp.robots[r].state = .starting)
    (ho : p.rbp.robots[r].order = some ref) :
    p.finishRun r = p.handshook r (p.rbp.robots[r].acknowledged .running) ref .running := by
  rw [p.finishRun_eq r h, Part.modRobot_put rfl, ho]
  rfl

/-- R69: a HALTING robot with an order in flight, its HALT_ACK asserted. -/
theorem Part.finishHalt_order {p : Part} {r : Fin 6} {ref : OrderRef} (h : p.rbp.robots[r].state = .halting)
    (ho : p.rbp.robots[r].order = some ref) :
    p.finishHalt r = p.handshook r (p.rbp.robots[r].acknowledged .halted) ref .halted := by
  rw [p.finishHalt_eq r h, Part.modRobot_put rfl, ho]
  rfl

theorem Part.beginRun_eq (p : Part) (r : Fin 6) (ref : OrderRef)
    (h : p.rbp.robots[r].state = .stopped ∨ p.rbp.robots[r].state = .halted) :
    let k := p.rbp.robots[r].starting ref (p.runDeadline r)
    p.beginRun r (some ref) = if p.rbp.robots[r].pins.runAck = true then
      (p.shaken r k).handshook r (k.acknowledged .running) ref .running else p.shaken r k := by
  intro k
  have hchanged : ∀ s, s = .stopped ∨ s = .halted → (p.modRbp (·.put r k)).rbp.robots[r].state ≠ s ∧ s ≠ .running := by
    rintro s (rfl | rfl) <;> rw [p.modRbp_put r k] <;> exact ⟨by simp [k, Robot.starting], by simp⟩
  obtain ⟨hne, hrunning⟩ := hchanged _ h
  have hstart : (p.modRbp (·.put r k)).robotChanged r p.rbp.robots[r].state = p.shaken r k :=
    Part.robotChanged_to _ r _ hne hrunning
  have hk := p.shaken_robot r k
  have hbegin : p.beginRun r (some ref) =
      if (p.shaken r k).rbp.robots[r].pins.runAck ∧ (p.shaken r k).rbp.robots[r].state = .starting then
        (p.shaken r k).finishRun r else p.shaken r k := by rw [← hstart]; rfl
  rw [hbegin, Part.finishRun_order (ref := ref) (by rw [hk]; rfl) (by rw [hk]; rfl), hk]
  simp [k, Robot.starting]

theorem Part.beginHalt_eq (p : Part) (r : Fin 6) (ref : OrderRef)
    (h : p.rbp.robots[r].state = .starting ∨ (p.rbp.robots[r].state = .running ∧
      p.rbp.robots[r].pendingWindow = none)) :
    let k := p.rbp.robots[r].stopping ref (p.haltDeadline r)
    p.beginHalt r .order (some ref) = if p.rbp.robots[r].pins.haltAck = true then
      (p.shaken r k).handshook r (k.acknowledged .halted) ref .halted else p.shaken r k := by
  intro k
  obtain ⟨A, hA⟩ : ∃ A, A = p.modRobot r fun k =>
    { k with state := .halting, haltOrigin := some .order, order := some ref, deadline := some (p.haltDeadline r) } :=
    ⟨_, rfl⟩
  have hrobot : A.rbp.robots[r] = { p.rbp.robots[r] with
      state := .halting, haltOrigin := some .order, order := some ref, deadline := some (p.haltDeadline r) } := by
    rw [hA]; exact modAt_self _ _ _
  have hstop : A.robotChanged r p.rbp.robots[r].state = p.shaken r k := by
    rw [Part.robotChanged_eq A r _ (by rw [hrobot]; rcases h with h | ⟨h, -⟩ <;> rw [h] <;> simp)
      (fun hr => by rw [hrobot]; rcases h with h | ⟨-, h⟩; exacts [absurd (h.symm.trans hr) (by simp), h])]
    rw [Part.modRobot_put rfl, hrobot, hA]
    unfold Part.shaken Part.modRobot Part.modRbp Rbp.put modAt
    simp only [Vector.set_set]
    rfl
  have hk := p.shaken_robot r k
  rw [hA] at hstop
  rw [Part.beginHalt_of hstop, Part.finishHalt_order (ref := ref) (by rw [hk]; rfl) (by rw [hk]; rfl), hk]
  simp [k, Robot.stopping]

/-- R65: the order ROBOT_RUN, by its first failing check. -/
theorem Part.robotRunOrder_refused {p : Part} {ref : OrderRef} {robot : Byte} {r : Fin 6} {result : Result}
    (hr : robot.toNat = r.val) (h : p.runRefusal r = some result) :
    p.robotRunOrder ref robot = p.complete ref result := by
  unfold Part.robotRunOrder
  simp only [six_of robot r hr, h]

theorem Part.robotRunOrder_taken {p : Part} {ref : OrderRef} {robot : Byte} {r : Fin 6} (hr : robot.toNat = r.val)
    (h : p.runRefusal r = none) : p.robotRunOrder ref robot = p.beginRun r (some ref) := by
  unfold Part.robotRunOrder
  simp only [six_of robot r hr, h]

theorem Part.robotRunOrder_range {p : Part} {ref : OrderRef} {robot : Byte} (h : 6 ≤ robot.toNat) :
    p.robotRunOrder ref robot = p.complete ref .param := by
  unfold Part.robotRunOrder
  simp only [six_none robot h]

/-- R65: a profile's timeout is the deadline. -/
theorem Part.runDeadline_eq {p : Part} {f : Profile} (h : p.cvt.profile = some f) (r : Fin 6) :
    p.runDeadline r = p.now + BitVec.ofNat 48 (1000 * f.robots[r].runTimeout) := by
  unfold Part.runDeadline Part.robotSettings
  rw [h]
  rfl

theorem Part.haltDeadline_eq {p : Part} {f : Profile} (h : p.cvt.profile = some f) (r : Fin 6) :
    p.haltDeadline r = p.now + BitVec.ofNat 48 (1000 * f.robots[r].haltTimeout) := by
  unfold Part.haltDeadline Part.robotSettings
  rw [h]
  rfl

/-- R65, R69: an order that has its robot wait for an acknowledge, or find it asserted (log 16). -/
theorem Part.take_waits {p : Part} {n : Fin 48} {o : Order} {r : Fin 6} {k : Robot} {ack : Bool} {state : RobotState}
    {news : News} (h : p.canTake n o)
    (hperform : (p.markTaken n).perform (p.nextRef n) o = if ack = true then
      ((p.markTaken n).shaken r k).handshook r (k.acknowledged state) (p.nextRef n) news
      else (p.markTaken n).shaken r k) (hnews : news.bulletin = 2) :
    let q := p.takeAs n o
    q.rbp.robots[r] = (if ack = true then k.acknowledged state else k) ∧
    q.rbp = p.rbp.put r q.rbp.robots[r] ∧ q.mtu = p.mtu ∧ q.cvt = p.cvt ∧
    (p.unwatched r →
      q = { p with rbp := q.rbp, odk := q.odk, rpu := q.rpu, mem := q.mem } ∧ q.mirrored .rbp ∧
      (ack = false → p.keeps q n ∧ p.tells q [] ∧
        Memory.storesOnly p.mem q.mem [.cell n, .mirror .rbp, .mirror .odk]) ∧
      (ack = true → p.answers q n .ok ∧ p.tells q [(news, robotMember r)] ∧
        Memory.storesOnly p.mem q.mem [.cell n, .bulletin 2, .mirror .rbp, .mirror .odk])) := by
  intro q
  cases ack with
  | false =>
    obtain ⟨hrbp, hmtu, hcvt, hquiet⟩ := Part.take_shaken h hperform
    refine ⟨?_, ?_, hmtu, hcvt, fun hu => ?_⟩
    · rw [hrbp]; exact Rbp.put_get' _ _ _
    · rw [hrbp]; exact congrArg _ (Rbp.put_get' _ _ _).symm
    · obtain ⟨hrest, hmirror, hkeeps, htells, hstores⟩ := hquiet hu
      exact ⟨hrest, hmirror, fun _ => ⟨hkeeps, htells, hstores⟩, fun hno => absurd hno (by simp)⟩
  | true =>
    obtain ⟨hXrbp, hXmtu, hXcvt⟩ := (p.markTaken n).shaken_frame r k
    obtain ⟨hrbp, hmtu, hcvt, hquiet⟩ := Part.take_handshook h hperform (by rw [hXrbp]; simp [Rbp.put])
      (by simp [hXmtu]) (by simp [hXcvt]) (fun hu => (Part.Owning.markTaken p n).shaken hu k) hnews
    refine ⟨?_, ?_, hmtu, hcvt, fun hu => ?_⟩
    · rw [hrbp]; exact Rbp.put_get' _ _ _
    · rw [hrbp]; exact congrArg _ (Rbp.put_get' _ _ _).symm
    · obtain ⟨hrest, hmirror, hanswers, htells, hstores⟩ := hquiet hu
      exact ⟨hrest, hmirror, fun hno => absurd hno (by simp), fun _ => ⟨hanswers, htells, hstores⟩⟩

/-- R65: a run that no check refuses. -/
theorem Part.robotRun_performs {p : Part} {n : Fin 48} {robot : Byte} {r : Fin 6} {f : Profile}
    (hr : robot.toNat = r.val) (hrefusal : p.runRefusal r = none) (hf : p.cvt.profile = some f)
    (hs : p.rbp.robots[r].state = .stopped ∨ p.rbp.robots[r].state = .halted) :
    let k := p.rbp.robots[r].starting (p.nextRef n) (p.now + BitVec.ofNat 48 (1000 * f.robots[r].runTimeout))
    (p.markTaken n).perform (p.nextRef n) (.robotRun robot) = if p.rbp.robots[r].pins.runAck = true then
      ((p.markTaken n).shaken r k).handshook r (k.acknowledged .running) (p.nextRef n) .running
      else (p.markTaken n).shaken r k := by
  have htaken := (Part.robotRunOrder_taken (p := p.markTaken n) (ref := p.nextRef n) hr hrefusal).trans
    ((p.markTaken n).beginRun_eq r _ hs)
  rwa [Part.runDeadline_eq (p := p.markTaken n) hf] at htaken

/-- Settles O21, the refusals by the first check that fails, the start by the acknowledge that the robot has or waits for. -/
theorem robotRunStarts : Obligations.RobotRunStarts := by
  unfold Obligations.RobotRunStarts
  intro p w n robot h
  refine ⟨fun hrange => ⟨_, rfl, Part.refused_of h .param 0 (Part.robotRunOrder_range hrange)⟩, ?_⟩
  intro r hr k
  have refuses {result : Result} (hrefusal : p.runRefusal r = some result) :
      p.onlyAnswers (p.takeAs n (.robotRun robot)) n result :=
    Part.refused_of h result 0 (Part.robotRunOrder_refused (p := p.markTaken n) hr hrefusal)
  have hchecks : p.runRefusal r = if p.cvt.tracker = .unprofiled then some .state else if p.held r then some .locked else
      if k.state ≠ .stopped ∧ k.state ≠ .halted then some .state else if k.pins.fault then some .state else none := rfl
  refine ⟨fun ht => ⟨_, rfl, refuses ?_⟩, fun ht hheld => ⟨_, rfl, refuses ?_⟩,
    fun ht hheld hs => ⟨_, rfl, refuses ?_⟩, fun f ht hf hheld hs hfault => ⟨_, rfl, Part.take_waits h
      (Part.robotRun_performs hr ?_ hf hs) rfl⟩⟩
  · simp [hchecks, ht]
  · simp [hchecks, ht, hheld]
  · rw [hchecks, if_neg ht, if_neg (by simp [hheld])]
    rcases hs with hs | hs
    · refine if_pos ?_
      simp only [List.mem_cons, List.not_mem_nil, or_false] at hs
      rcases hs with hs | hs | hs | hs <;> rw [hs] <;> decide
    · rw [hs]
      split <;> rfl
  · rw [hchecks, if_neg ht, if_neg (by simp [hheld]), if_neg (by rcases hs with hs | hs <;> simp [hs])]
    simp [hfault]

/-! ## ROBOT_HALT (R67, R69) -/

section
variable {p : Part} {n : Fin 48} {ref : OrderRef} {robot : Byte} {r : Fin 6} {f : Profile}

theorem Part.robotHaltOrder_range (h : 6 ≤ robot.toNat) : p.robotHaltOrder ref robot = p.complete ref .param := by
  unfold Part.robotHaltOrder
  simp only [six_none robot h]

theorem Part.robotHaltOrder_idle (hr : robot.toNat = r.val)
    (hs : p.rbp.robots[r].state = .stopped ∨ p.rbp.robots[r].state = .halted) :
    p.robotHaltOrder ref robot = p.complete ref .ok := by
  unfold Part.robotHaltOrder
  simp only [six_of robot r hr]
  rcases hs with hs | hs <;> rw [hs]

theorem Part.robotHaltOrder_faulted (hr : robot.toNat = r.val) (hs : p.rbp.robots[r].state = .faulted) :
    p.robotHaltOrder ref robot = p.complete ref .state := by
  unfold Part.robotHaltOrder
  simp only [six_of robot r hr]
  rw [hs]

theorem Part.robotHaltOrder_joins (hr : robot.toNat = r.val) (hs : p.rbp.robots[r].state = .halting) :
    p.robotHaltOrder ref robot =
      (p.modRbp (·.put r { p.rbp.robots[r] with order := some ref })).rewrite .rbp := by
  unfold Part.robotHaltOrder
  simp only [six_of robot r hr]
  conv_lhs => rw [hs]
  rfl

theorem Part.robotHaltOrder_taken (hr : robot.toNat = r.val)
    (hs : p.rbp.robots[r].state = .starting ∨ p.rbp.robots[r].state = .running) :
    p.robotHaltOrder ref robot = p.beginHalt r .order (some ref) := by
  unfold Part.robotHaltOrder
  simp only [six_of robot r hr]
  rcases hs with hs | hs <;> rw [hs]

/-- R69: a halt that begins. -/
theorem Part.robotHalt_performs (hr : robot.toNat = r.val) (hf : p.cvt.profile = some f)
    (hs : p.rbp.robots[r].state = .starting ∨ (p.rbp.robots[r].state = .running ∧
      p.rbp.robots[r].pendingWindow = none)) :
    let k := p.rbp.robots[r].stopping (p.nextRef n) (p.now + BitVec.ofNat 48 (1000 * f.robots[r].haltTimeout))
    (p.markTaken n).perform (p.nextRef n) (.robotHalt robot) = if p.rbp.robots[r].pins.haltAck = true then
      ((p.markTaken n).shaken r k).handshook r (k.acknowledged .halted) (p.nextRef n) .halted
      else (p.markTaken n).shaken r k := by
  have htaken := (Part.robotHaltOrder_taken (p := p.markTaken n) (ref := p.nextRef n) hr (hs.imp id And.left)).trans
    ((p.markTaken n).beginHalt_eq r _ hs)
  rwa [Part.haltDeadline_eq (p := p.markTaken n) hf] at htaken

/-- R67: an order that joins a halt under way. -/
theorem Part.robotHalt_joins (h : p.canTake n (.robotHalt robot)) (hr : robot.toNat = r.val)
    (hs : p.rbp.robots[r].state = .halting) :
    let q := p.takeAs n (.robotHalt robot)
    q.rbp = p.rbp.put r { p.rbp.robots[r] with order := some (p.nextRef n) } ∧
    q = { p with rbp := q.rbp, odk := q.odk, rpu := q.rpu, mem := q.mem } ∧ p.keeps q n ∧ p.tells q [] ∧
    Memory.storesOnly p.mem q.mem [.cell n, .mirror .rbp, .mirror .odk] := by
  intro q
  have howns := ((Part.Owning.markTaken p n).modRbp
    (·.put r { p.rbp.robots[r] with order := some (p.nextRef n) })).rewrite
  obtain ⟨hkeeps, hsettled⟩ := Part.kept_on h _ (Part.robotHaltOrder_joins (p := p.markTaken n) hr hs) howns.odk howns.cell
  have htold := howns.said.settled hsettled
  exact ⟨hsettled.rbp, hsettled.only_rbp howns.rest, hkeeps, htold.tells (hsettled.fault.trans howns.fault),
    htold.storesOnly (by simp)⟩

end

/-- Settles O22, by the state in which the halt finds the robot. -/
theorem robotHaltHalts : Obligations.RobotHaltHalts := by
  unfold Obligations.RobotHaltHalts
  intro p w n robot h
  refine ⟨fun hrange => ⟨_, rfl, Part.refused_of h .param 0 (Part.robotHaltOrder_range hrange)⟩, ?_⟩
  intro r hr k
  exact ⟨fun hs => ⟨_, rfl, Part.refused_of h .ok 0 (Part.robotHaltOrder_idle (p := p.markTaken n) hr hs)⟩,
    fun hs => ⟨_, rfl, Part.refused_of h .state 0 (Part.robotHaltOrder_faulted (p := p.markTaken n) hr hs)⟩,
    fun hs _ => ⟨_, rfl, Part.robotHalt_joins h hr hs⟩,
    fun f hf hs => ⟨_, rfl, Part.take_waits h (Part.robotHalt_performs hr hf hs) rfl⟩⟩

/-! ## ROBOT_CLEAR (R73) -/

section
variable {p : Part} {n : Fin 48} {ref : OrderRef} {robot : Byte} {r : Fin 6}

theorem Part.robotClearOrder_range (h : 6 ≤ robot.toNat) : p.robotClearOrder ref robot = p.complete ref .param := by
  unfold Part.robotClearOrder
  simp only [six_none robot h]

theorem Part.robotClearOrder_refused (hr : robot.toNat = r.val)
    (h : p.rbp.robots[r].state ≠ .faulted ∨ p.rbp.robots[r].pins.fault = true) :
    p.robotClearOrder ref robot = p.complete ref .state := by
  unfold Part.robotClearOrder
  simp only [six_of robot r hr]
  refine if_neg fun hboth => ?_
  rcases h with h | h
  · exact h hboth.1
  · exact absurd (hboth.2.symm.trans h) (by simp)

/-- R73: the robot once its fault is cleared. -/
def Robot.cleared (k : Robot) : Robot := { k with state := .stopped, faultCause := none, haltOrigin := none }

theorem Part.robotClearOrder_clears (hr : robot.toNat = r.val) (hs : p.rbp.robots[r].state = .faulted)
    (hfault : p.rbp.robots[r].pins.fault = false) :
    p.robotClearOrder ref robot = p.handshook r p.rbp.robots[r].cleared ref .cleared := by
  unfold Part.robotClearOrder
  simp only [six_of robot r hr]
  rw [if_pos ⟨hs, hfault⟩, Part.modRobot_put rfl, Part.robotChanged_to _ r _ ?_ (by simp)]
  · rfl
  · have hrobot (q : Part) (news : News) : ((((p.modRbp (·.put r p.rbp.robots[r].cleared)).complete ref .ok).raise news
        (robotMember r)).rbp.robots[r]) = p.rbp.robots[r].cleared := by
      simp only [Part.raise_frame, Part.complete_frame]
      exact p.modRbp_put r _
    refine fun h => absurd ((congrArg Robot.state (hrobot p .cleared)).symm.trans h) ?_
    simp [Robot.cleared]

end

/-- Settles O26, by the state and the FAULT line of the robot. -/
theorem robotClearClears : Obligations.RobotClearClears := by
  unfold Obligations.RobotClearClears
  intro p w n robot h
  refine ⟨fun hrange => ⟨_, rfl, Part.refused_of h .param 0 (Part.robotClearOrder_range hrange)⟩, ?_⟩
  intro r hr k
  refine ⟨fun hs => ⟨_, rfl, Part.refused_of h .state 0 (Part.robotClearOrder_refused (p := p.markTaken n) hr hs)⟩,
    fun hs hfault => ⟨_, rfl, ?_⟩⟩
  obtain ⟨hrbp, hmtu, hcvt, hquiet⟩ := Part.take_handshook h
    (Part.robotClearOrder_clears (p := p.markTaken n) hr hs hfault) rfl rfl rfl (fun _ => .markTaken p n) rfl
  refine ⟨hrbp, hmtu, hcvt, fun hu => ?_⟩
  obtain ⟨hrest, hmirror, hanswers, htells, hstores⟩ := hquiet hu
  exact ⟨hrest, hanswers, htells, hmirror, hstores⟩

end Sys2Proof.Machine
end

section
/-! PROOFS. The handshakes of a robot end (R66, R69) and a robot enters FAULTED (R66, R69 to R72). -/

-- One proof after another: side by side, their threads take the stack space that a compile of the whole text is given.
set_option Elab.async false

namespace Sys2Proof.Machine

/-! ## An acknowledge is asserted (R66, R69) -/

theorem Rbp.put_put (b : Rbp) (r : Fin 6) (k m : Robot) : (b.put r k).put r m = b.put r m := by simp [Rbp.put]
theorem Rbp.put_self (b : Rbp) (r : Fin 6) : b.put r b.robots[r] = b := by simp [Rbp.put]

/-- A robot whose lines have been sampled, changed. -/
theorem Part.lined_modRobot (p : Part) (r : Fin 6) (new : RobotPins) (f : Robot → Robot) :
    (p.lined r new).modRobot r f = p.modRbp (·.put r (f { p.rbp.robots[r] with pins := new })) := by
  rw [Part.modRobot_put rfl, p.lined_state]
  show ({ p with rbp := ((p.lined r new).rbp.put r _) } : Part) = _
  rw [p.lined_rbp, Rbp.put_put]
  rfl

/-- R66, R69: robot `r` as `k`, its handshake over: the order in flight ends, the news is told, the robot shown and
reported. -/
def Part.acknowledge (p : Part) (r : Fin 6) (k : Robot) (news : News) : Part :=
  ((((p.modRbp (·.put r k)).completeIf p.rbp.robots[r].order .ok).raise news (robotMember r)).rewrite .rbp).reportRobot r

theorem Part.acknowledge_leaves (p : Part) (r : Fin 6) (k : Robot) (news : News) :
    let q := (p.acknowledge r k news).rewrite .rbp
    q.rbp = p.rbp.put r k ∧ q.mtu = p.mtu ∧ q.cvt = p.cvt ∧
    (p.unwatched r → q = { p with rbp := q.rbp, odk := q.odk, rpu := q.rpu, mem := q.mem } ∧ q.mirrored .rbp ∧
      p.endsHandshake q r news .ok) :=
  ⟨by simp [Part.acknowledge], by simp [Part.acknowledge], by simp [Part.acknowledge],
    p.handshake_of _ (p.rbp.put r k) r news rfl⟩

section
variable {p : Part} {r : Fin 6}

theorem Part.runAck_finishes (hs : p.rbp.robots[r].state = .starting) (hack : p.rbp.robots[r].pins.runAck = false) :
    p.robotLine r .runAck true = (p.acknowledge r { p.rbp.robots[r] with
      state := .running, deadline := none, order := none, pins := { p.rbp.robots[r].pins with runAck := true } }
      .running).rewrite .rbp := by
  have hstate := p.lined_state r { p.rbp.robots[r].pins with runAck := true }
  rw [p.robotLine_runAck r true hack]
  refine congrArg (Part.rewrite · .rbp) ?_
  show (p.lined r { p.rbp.robots[r].pins with runAck := true }).runAckChanged r true = _
  unfold Part.runAckChanged
  rw [hstate, hs]
  refine (Part.finishRun_eq _ r (by rw [hstate]; exact hs)).trans ?_
  rw [hstate, p.lined_modRobot]
  rfl

theorem Part.haltAck_finishes (hs : p.rbp.robots[r].state = .halting) (hack : p.rbp.robots[r].pins.haltAck = false) :
    p.robotLine r .haltAck true = (p.acknowledge r { p.rbp.robots[r] with
      state := .halted, deadline := none, order := none, pins := { p.rbp.robots[r].pins with haltAck := true } }
      .halted).rewrite .rbp := by
  have hstate := p.lined_state r { p.rbp.robots[r].pins with haltAck := true }
  rw [p.robotLine_haltAck r true hack]
  refine congrArg (Part.rewrite · .rbp) ?_
  show (p.lined r { p.rbp.robots[r].pins with haltAck := true }).haltAckChanged r true = _
  unfold Part.haltAckChanged
  rw [hstate, hs]
  refine (Part.finishHalt_eq _ r (by rw [hstate]; exact hs)).trans ?_
  rw [hstate, p.lined_modRobot]
  rfl

end

/-- Settles O23, by the edge of the acknowledge that the robot waits for. -/
theorem acknowledgeEndsTheWait : Obligations.AcknowledgeEndsTheWait := by
  unfold Obligations.AcknowledgeEndsTheWait
  intro p w r c state pins news k hcase
  rcases hcase with ⟨rfl, hs, hack, rfl, rfl, rfl⟩ | ⟨rfl, hs, hack, rfl, rfl, rfl⟩
  · exact leads_next rfl (Part.runAck_finishes hs hack) (p.acknowledge_leaves r _ _)
  · exact leads_next rfl (Part.haltAck_finishes hs hack) (p.acknowledge_leaves r _ _)

/-! ## FAULTED (R66, R69 to R72) -/

/-- What the statement of R72 says of a robot that entered FAULTED, its lines standing as `pins`. -/
def Part.faultsTo (p q : Part) (r : Fin 6) (pins : RobotPins) (cause : RobotFault) : Prop :=
  q.rbp = p.rbp.put r { p.rbp.robots[r] with
    state := .faulted, faultCause := some cause, deadline := none, order := none, pins := pins
    openWindows := if p.rbp.robots[r].state = .running then [] else p.rbp.robots[r].openWindows } ∧
  q.mtu = p.mtu ∧ q.cvt = p.cvt ∧
  (p.unwatched r → q = { p with rbp := q.rbp, odk := q.odk, rpu := q.rpu, mem := q.mem } ∧ q.mirrored .rbp ∧
    p.endsInFault q r cause)

section
variable {p : Part} {r : Fin 6} {pins : RobotPins} {cause : RobotFault}
  (hwindow : p.rbp.robots[r].state = .running → p.rbp.robots[r].pendingWindow = none)
include hwindow

theorem Part.timeout_faults (cause : RobotFault) : p.faultsTo (p.enterFaulted r cause) r p.rbp.robots[r].pins cause :=
  p.faulted_all p p.rbp r p.rbp.robots[r].pins cause
    (by rw [show ({ p.rbp.robots[r] with pins := p.rbp.robots[r].pins } : Robot) = p.rbp.robots[r] from rfl,
      Rbp.put_self]) hwindow

theorem Part.line_faults (pins : RobotPins) (cause : RobotFault) :
    p.faultsTo (((p.lined r pins).enterFaulted r cause).rewrite .rbp) r pins cause := by
  obtain ⟨hrbp, hmtu, hcvt, hquiet⟩ := p.faulted_all (p.lined r pins) p.rbp r pins cause rfl hwindow
  refine ⟨by simpa using hrbp, by simpa using hmtu, by simpa using hcvt, fun hu => ?_⟩
  obtain ⟨hrest, -, hends⟩ := hquiet hu
  exact p.faulted_rewrite _ r cause ⟨hrest, hends⟩

end

section
variable {p : Part} {r : Fin 6}

/-- R66, R69: an acknowledge deadline that has passed. -/
theorem Part.ackDeadlineReached_of {t : Time} (h : p.rbp.robots[r].deadline = some t) (ht : 0 ≤ (p.now - t).toInt) :
    p.ackDeadlineReached r = true := by
  simp only [Part.ackDeadlineReached, h, Time.reached]
  simpa using ht

theorem Part.ackDeadlineReached_not (h : ∀ t, p.rbp.robots[r].deadline = some t → (p.now - t).toInt < 0) :
    p.ackDeadlineReached r = false := by
  simp only [Part.ackDeadlineReached]
  cases hd : p.rbp.robots[r].deadline with
  | none => rfl
  | some t =>
    have := h t hd
    simp only [Time.reached]
    simpa using this

theorem Part.runAck_lost (hs : p.rbp.robots[r].state = .running) (hack : p.rbp.robots[r].pins.runAck = true) :
    p.robotLine r .runAck false =
      ((p.lined r { p.rbp.robots[r].pins with runAck := false }).enterFaulted r .runLost).rewrite .rbp := by
  rw [p.robotLine_runAck r false hack]
  refine congrArg (Part.rewrite · .rbp) ?_
  show (p.lined r { p.rbp.robots[r].pins with runAck := false }).runAckChanged r false = _
  unfold Part.runAckChanged
  rw [p.lined_state, hs]

theorem Part.haltAck_lost (hs : p.rbp.robots[r].state = .halted) (hack : p.rbp.robots[r].pins.haltAck = true) :
    p.robotLine r .haltAck false =
      ((p.lined r { p.rbp.robots[r].pins with haltAck := false }).enterFaulted r .haltLost).rewrite .rbp := by
  rw [p.robotLine_haltAck r false hack]
  refine congrArg (Part.rewrite · .rbp) ?_
  show (p.lined r { p.rbp.robots[r].pins with haltAck := false }).haltAckChanged r false = _
  unfold Part.haltAckChanged
  rw [p.lined_state, hs]

theorem Part.fault_faults (hs : p.rbp.robots[r].state ≠ .stopped) (hfault : p.rbp.robots[r].pins.fault = false) :
    p.robotLine r .fault true =
      ((p.lined r { p.rbp.robots[r].pins with fault := true }).enterFaulted r .robotFault).rewrite .rbp := by
  rw [p.robotLine_fault r hfault]
  refine congrArg (Part.rewrite · .rbp) ?_
  show (p.lined r { p.rbp.robots[r].pins with fault := true }).faultActive r = _
  unfold Part.faultActive
  rw [if_neg (by rw [p.lined_state]; exact hs)]

end

/-- Settles O24, all four ways into FAULTED being one entry of the robot. -/
theorem robotFaultsAreEntered : Obligations.RobotFaultsAreEntered := by
  unfold Obligations.RobotFaultsAreEntered
  intro p w r c pins cause k
  refine ⟨fun hearly => ?_, fun hwindow hcase => ?_⟩
  · have hnot := Part.ackDeadlineReached_not hearly
    exact ⟨leads_next rfl (if_neg (by simp [hnot])) rfl, leads_next rfl (if_neg (by simp [hnot])) rfl⟩
  · rcases hcase with ⟨rfl, hs, rfl, rfl, t, ht, hreached⟩ | ⟨rfl, hs, rfl, rfl, t, ht, hreached⟩ |
      ⟨rfl, hs, hack, rfl, rfl⟩ | ⟨rfl, hs, hack, rfl, rfl⟩ | ⟨rfl, hs, hfault, rfl, rfl⟩
    · exact leads_next rfl (if_pos ⟨hs, Part.ackDeadlineReached_of ht hreached⟩) (Part.timeout_faults hwindow _)
    · exact leads_next rfl (if_pos ⟨hs, Part.ackDeadlineReached_of ht hreached⟩) (Part.timeout_faults hwindow _)
    · exact leads_next rfl (Part.runAck_lost hs hack) (Part.line_faults hwindow _ _)
    · exact leads_next rfl (Part.haltAck_lost hs hack) (Part.line_faults hwindow _ _)
    · exact leads_next rfl (Part.fault_faults hs hfault) (Part.line_faults hwindow _ _)

end Sys2Proof.Machine
end

section
/-! PROOFS. Fill results (04_filler_robots.md, R83 to R85): the failure run and a fill strobe. -/

-- One proof after another: side by side, their threads take the stack space that a compile of the whole text is given.
set_option Elab.async false

namespace Sys2Proof.Machine

/-! ## A bad result (R85) -/

theorem Robot.active_runReq (k : Robot) : k.active = k.runReq := rfl

section
variable {p : Part} {r : Fin 6}

theorem Part.badFill_eq (p : Part) (r : Fin 6) : p.badFill r =
    if p.failureThreshold r ≠ 0 ∧ min 255 (p.rbp.robots[r].failureRun + 1) = p.failureThreshold r then
      (((p.modRbp (·.put r { p.rbp.robots[r] with failureRun := 0 })).raise .fillFailures (robotMember r)).rewrite
        .rbp).requestHalt r .fillFailures
    else (p.modRbp (·.put r { p.rbp.robots[r] with
      failureRun := min 255 (p.rbp.robots[r].failureRun + 1) })).rewrite .rbp := by
  rw [← inc8_eq]
  rfl

/-- R85: a bad result that the failure run goes on with. -/
theorem Part.badFill_counts (h : p.failureThreshold r = 0 ∨
      min 255 (p.rbp.robots[r].failureRun + 1) ≠ p.failureThreshold r) :
    p.badFill r = (p.modRbp (·.put r { p.rbp.robots[r] with
      failureRun := min 255 (p.rbp.robots[r].failureRun + 1) })).rewrite .rbp := by
  rw [Part.badFill_below h, inc8_eq]
  rfl

/-- R85: a bad result that brings the failure run to the threshold, the robot not being asked to run. -/
theorem Part.badFill_tells (hset : p.failureThreshold r ≠ 0)
    (hrun : min 255 (p.rbp.robots[r].failureRun + 1) = p.failureThreshold r)
    (hrest : p.rbp.robots[r].runReq = false) :
    p.badFill r = ((p.modRbp (·.put r { p.rbp.robots[r] with failureRun := 0 })).raise .fillFailures
      (robotMember r)).rewrite .rbp := by
  obtain ⟨U, hU⟩ : ∃ U, U = ((p.modRbp (·.put r { p.rbp.robots[r] with failureRun := 0 })).raise .fillFailures
      (robotMember r)).rewrite .rbp := ⟨_, rfl⟩
  have hrobot : U.rbp.robots[r] = { p.rbp.robots[r] with failureRun := 0 } := by rw [hU]; exact p.modRbp_put r _
  have hbad : p.badFill r = U.requestHalt r .fillFailures := by
    rw [hU, p.badFill_eq]
    exact if_pos ⟨hset, hrun⟩
  rw [← hU, hbad]
  exact if_neg (by rw [hrobot, Robot.active_runReq]; exact Bool.eq_false_iff.mp hrest)

/-- R68, R85: the same, the robot being asked to run: it is halted. -/
theorem Part.badFill_halts (hset : p.failureThreshold r ≠ 0)
    (hrun : min 255 (p.rbp.robots[r].failureRun + 1) = p.failureThreshold r)
    (hreq : p.rbp.robots[r].runReq = true) (hack : p.rbp.robots[r].pins.haltAck = false)
    (hwindow : p.rbp.robots[r].pendingWindow = none) :
    let k := (p.badFill r).rbp.robots[r]
    k.state = .halting ∧ k.haltOrigin = some .fillFailures ∧ k.failureRun = 0 ∧ k.order = none ∧
      k.counters = p.rbp.robots[r].counters := by
  obtain ⟨U, hU⟩ : ∃ U, U = ((p.modRbp (·.put r { p.rbp.robots[r] with failureRun := 0 })).raise .fillFailures
      (robotMember r)).rewrite .rbp := ⟨_, rfl⟩
  have hrobot : U.rbp.robots[r] = { p.rbp.robots[r] with failureRun := 0 } := by rw [hU]; exact p.modRbp_put r _
  have hbad : p.badFill r = U.requestHalt r .fillFailures := by
    rw [hU, p.badFill_eq]
    exact if_pos ⟨hset, hrun⟩
  have hhalt := U.requestHalt_robot r .fillFailures (by rw [hrobot, Robot.active_runReq]; exact hreq)
    (by rw [hrobot]; exact hack) (fun _ => by rw [hrobot]; exact hwindow)
  intro k
  have hk : k = _ := (congrArg (fun q : Part => q.rbp.robots[r]) hbad).trans hhalt
  rw [hk, hrobot]
  exact ⟨rfl, rfl, rfl, rfl, rfl⟩

end

/-! ## Robot `r` and the records alone -/

/-- The part with robot `r` as `k` and the Transit List as `t`. -/
def Part.becomes (p : Part) (r : Fin 6) (k : Robot) (t : Trl) : Part := { p with trl := t, rbp := p.rbp.put r k }

section
variable {p : Part} {r : Fin 6} {k : Robot} {t : Trl}

theorem Part.becomes_robot (p : Part) (r : Fin 6) (k : Robot) (t : Trl) : (p.becomes r k t).rbp.robots[r] = k :=
  Rbp.put_get' _ _ _

theorem Part.becomes_put (p : Part) (r : Fin 6) (k m : Robot) (t : Trl) :
    (p.becomes r k t).modRbp (·.put r m) = p.becomes r m t := by
  show ({ p.becomes r k t with rbp := (p.rbp.put r k).put r m } : Part) = _
  rw [Rbp.put_put]
  rfl

theorem Part.becomes_becomes (p : Part) (r : Fin 6) (k m : Robot) (t u : Trl) :
    (p.becomes r k t).becomes r m u = p.becomes r m u := by
  show ({ p with trl := u, rbp := (p.rbp.put r k).put r m } : Part) = _
  rw [Rbp.put_put]
  rfl

theorem Part.becomes_threshold (p : Part) (r : Fin 6) (k : Robot) (t : Trl) :
    (p.becomes r k t).failureThreshold r = p.failureThreshold r := rfl

/-- R85: robot `r` as `k` has a bad result, and the failure run goes on. -/
theorem Part.becomes_counts (h : p.failureThreshold r = 0 ∨ min 255 (k.failureRun + 1) ≠ p.failureThreshold r) (t : Trl) :
    (p.becomes r k t).badFill r =
      (p.becomes r { k with failureRun := min 255 (k.failureRun + 1) } t).rewrite .rbp := by
  rw [Part.badFill_counts (by rw [p.becomes_threshold, p.becomes_robot]; exact h), p.becomes_robot, p.becomes_put]

section
variable (hset : p.failureThreshold r ≠ 0) (hrun : min 255 (k.failureRun + 1) = p.failureThreshold r)
include hset hrun

/-- R85: the run is at the threshold, and the robot is not asked to run. -/
theorem Part.becomes_tells (hrest : k.runReq = false) (t : Trl) :
    (p.becomes r k t).badFill r =
      ((p.becomes r { k with failureRun := 0 } t).raise .fillFailures (robotMember r)).rewrite .rbp := by
  rw [Part.badFill_tells (by rw [p.becomes_threshold]; exact hset)
    (by rw [p.becomes_threshold, p.becomes_robot]; exact hrun) (by rw [p.becomes_robot]; exact hrest), p.becomes_robot,
    p.becomes_put]

/-- R68, R85: the run is at the threshold, and the robot is halted. -/
theorem Part.becomes_halts (hreq : k.runReq = true) (hack : k.pins.haltAck = false) (hwindow : k.pendingWindow = none)
    (t : Trl) :
    let m := ((p.becomes r k t).badFill r).rbp.robots[r]
    m.state = .halting ∧ m.haltOrigin = some .fillFailures ∧ m.failureRun = 0 ∧ m.order = none ∧
      m.counters = k.counters := by
  have hrobot := p.becomes_robot r k t
  have hhalts := Part.badFill_halts (p := p.becomes r k t) (r := r) (by rw [p.becomes_threshold]; exact hset)
    (by rw [p.becomes_threshold, hrobot]; exact hrun) (by rw [hrobot]; exact hreq) (by rw [hrobot]; exact hack)
    (by rw [hrobot]; exact hwindow)
  rwa [hrobot] at hhalts

end

/-- What is left once the change is shown, and shown again as the event ends (R87). -/
theorem Part.becomes_shown (p : Part) (r : Fin 6) (k : Robot) (t : Trl) :
    let q := ((p.becomes r k t).rewrite .rbp).rewrite .rbp
    q.rbp = p.rbp.put r k ∧ q.trl = t ∧ q = { p with trl := q.trl, rbp := q.rbp, rpu := q.rpu, mem := q.mem } ∧
    p.tells q [] ∧ q.mirrored .rbp ∧ Memory.storesOnly p.mem q.mem [.mirror .rbp] := by
  have hsaid : p.Speaks (p.becomes r k t) [] [] := .refl_of rfl rfl rfl
  have hshown := (hsaid.rewrite .rbp).rewrite .rbp
  exact ⟨rfl, rfl, rfl, hshown.tells rfl, Part.rewrite_mirrored _ _, hshown.storesOnly (by simp)⟩

/-- The same, with a change told before. -/
theorem Part.becomes_told (p : Part) (r : Fin 6) (k : Robot) (t : Trl) (news : News) (member : Byte) :
    let q := (((p.becomes r k t).raise news member).rewrite .rbp).rewrite .rbp
    q.rbp = p.rbp.put r k ∧ q.trl = t ∧ q = { p with trl := q.trl, rbp := q.rbp, rpu := q.rpu, mem := q.mem } ∧
    p.tells q [(news, member)] := by
  have hsaid : p.Speaks (p.becomes r k t) [] [] := .refl_of rfl rfl rfl
  have hshown := ((hsaid.raise news member).rewrite .rbp).rewrite .rbp
  exact ⟨rfl, rfl, rfl, hshown.tells rfl⟩

end

/-! ## A fill strobe (R83) -/

/-- R83: robot `r`'s report on the container `seq`, taken. -/
def Robot.reports (k : Robot) (seq : Word) (short : Bool) : Robot :=
  { k with reportList := k.reportList.filter fun s => s != seq
           reported := k.reported ++ [seq]
           counters := if short then { k.counters with short := inc32 k.counters.short }
                       else { k.counters with ok := inc32 k.counters.ok } }

/-- R46, R83: the part once robot `r`'s report on the container `seq` is taken, before the failure run is judged. -/
def Part.reporting (p : Part) (r : Fin 6) (seq : Word) (short : Bool) : Part :=
  p.becomes r (p.rbp.robots[r].reports seq short) (p.trl.each (·.filled seq (if short then .short else .ok)))

section
variable {p : Part} {r : Fin 6} {seq : Word}

theorem Part.takeReport_eq (p : Part) (r : Fin 6) (seq : Word) (short : Bool) : p.takeReport r seq short =
    if short then (p.reporting r seq short).badFill r
    else ((p.reporting r seq short).modRobot r fun k => { k with failureRun := 0 }).rewrite .rbp := by
  have hreporting : (p.setFill seq (if short then .short else .ok)).modRobot r (·.reports seq short) =
      p.reporting r seq short := by
    apply Part.eq_of_fields <;> simp [Part.reporting, Part.becomes, Part.setFill_trl, modAt_eq_set, Rbp.put]
  rw [← hreporting]
  rfl

/-- R83: the strobe of the robot whose fill lines are sampled as `ok` and `short`. -/
theorem Part.fillLines_strobes {ok short : Bool}
    (h : (ok = true ∧ p.rbp.robots[r].pins.fillOk = false) ∨ (short = true ∧ p.rbp.robots[r].pins.fillShort = false)) :
    p.fillLines r ok short = ((p.lined r { p.rbp.robots[r].pins with fillOk := ok, fillShort := short }).fillStrobe r
      (short && !p.rbp.robots[r].pins.fillShort)).rewrite .rbp := by
  have hne : ({ p.rbp.robots[r].pins with fillOk := ok, fillShort := short } : RobotPins) ≠ p.rbp.robots[r].pins := by
    intro he
    have hok : ok = p.rbp.robots[r].pins.fillOk := congrArg RobotPins.fillOk he
    have hshort : short = p.rbp.robots[r].pins.fillShort := congrArg RobotPins.fillShort he
    rcases h with ⟨h1, h2⟩ | ⟨h1, h2⟩
    · exact absurd (h1.symm.trans (hok.trans h2)) (by simp)
    · exact absurd (h1.symm.trans (hshort.trans h2)) (by simp)
  have hedge : ((ok && !p.rbp.robots[r].pins.fillOk) || (short && !p.rbp.robots[r].pins.fillShort)) = true := by
    rcases h with ⟨h1, h2⟩ | ⟨h1, h2⟩ <;> rw [h1, h2] <;> simp
  unfold Part.fillLines Part.robotInputs
  simp only [if_neg hne, hedge, Bool.and_not_self, Bool.false_eq_true, if_true, if_false]
  rfl

/-- R83: without an edge there is no strobe. -/
theorem Part.fillLines_idle {ok short : Bool}
    (h : ¬ ((ok = true ∧ p.rbp.robots[r].pins.fillOk = false) ∨
      (short = true ∧ p.rbp.robots[r].pins.fillShort = false))) :
    let sampled := { p.rbp.robots[r] with pins := { p.rbp.robots[r].pins with fillOk := ok, fillShort := short } }
    p.fillLines r ok short = p.becomes r sampled p.trl ∨
      p.fillLines r ok short = (p.becomes r sampled p.trl).rewrite .rbp := by
  intro sampled
  have edge {a b : Bool} (h : ¬ (a = true ∧ b = false)) (ha : a = true) : b = true := by
    cases hb : b
    · exact absurd ⟨ha, hb⟩ h
    · rfl
  by_cases hsame : ({ p.rbp.robots[r].pins with fillOk := ok, fillShort := short } : RobotPins) = p.rbp.robots[r].pins
  · refine .inl ((if_pos hsame).trans ?_)
    have hk : sampled = p.rbp.robots[r] := by
      show ({ p.rbp.robots[r] with pins := _ } : Robot) = _
      rw [hsame]
    rw [hk]
    show p = { p with rbp := p.rbp.put r p.rbp.robots[r] }
    rw [Rbp.put_self]
  · exact .inr (Part.robotInputs_quiet hsame rfl rfl id (edge fun he => h (.inl he)) (edge fun he => h (.inr he)))

/-- R83: a strobe that a container of the report list takes. -/
theorem Part.fillLines_reports {ok short : Bool} {rest : List Word}
    (h : (ok = true ∧ p.rbp.robots[r].pins.fillOk = false) ∨ (short = true ∧ p.rbp.robots[r].pins.fillShort = false))
    (hlist : p.rbp.robots[r].reportList = seq :: rest) :
    let isShort := short && !p.rbp.robots[r].pins.fillShort
    let sampled := { p.rbp.robots[r] with pins := { p.rbp.robots[r].pins with fillOk := ok, fillShort := short } }
    let P := p.becomes r (sampled.reports seq isShort) (p.trl.each (·.filled seq (if isShort then .short else .ok)))
    p.fillLines r ok short = (if isShort then P.badFill r
      else (P.modRobot r fun k => { k with failureRun := 0 }).rewrite .rbp).rewrite .rbp := by
  intro isShort sampled P
  obtain ⟨A, hA⟩ : ∃ A, A = p.lined r { p.rbp.robots[r].pins with fillOk := ok, fillShort := short } := ⟨_, rfl⟩
  have hrobot : A.rbp.robots[r] = sampled := by rw [hA]; exact p.lined_state r _
  have hstrobe : A.fillStrobe r isShort = A.takeReport r seq isShort := by
    unfold Part.fillStrobe
    rw [hrobot, show sampled.reportList = seq :: rest from hlist]
  have hP : A.reporting r seq isShort = P := by
    unfold Part.reporting
    rw [hrobot, hA]
    exact p.becomes_becomes r _ _ p.trl _
  rw [Part.fillLines_strobes h, ← hA, hstrobe, A.takeReport_eq, hP]

/-- R83: a strobe with the report list empty. -/
theorem Part.fillStrobe_counts (h : p.rbp.robots[r].reportList = []) (short : Bool) :
    p.fillStrobe r short = (p.countRobot r fun n => if p.rbp.robots[r].reported = [] then
      { n with stray := min 4294967295 (n.stray + 1) }
      else { n with duplicate := min 4294967295 (n.duplicate + 1) }).rewrite .rbp := by
  simp only [← inc32_eq]
  unfold Part.fillStrobe
  split
  next hcons => exact absurd (h.symm.trans hcons) (by simp)
  next hcons => rw [hcons]; rfl
  next hnil => rw [hnil]; rfl

/-- R83: a strobe that no container of the report list takes. -/
theorem Part.fillLines_counts {ok short : Bool}
    (h : (ok = true ∧ p.rbp.robots[r].pins.fillOk = false) ∨ (short = true ∧ p.rbp.robots[r].pins.fillShort = false))
    (hlist : p.rbp.robots[r].reportList = []) :
    let k := p.rbp.robots[r]
    p.fillLines r ok short = ((p.becomes r { k with
      pins := { k.pins with fillOk := ok, fillShort := short }
      counters := if k.reported = [] then { k.counters with stray := min 4294967295 (k.counters.stray + 1) }
        else { k.counters with duplicate := min 4294967295 (k.counters.duplicate + 1) } } p.trl).rewrite .rbp).rewrite
          .rbp := by
  intro k
  obtain ⟨A, hA⟩ : ∃ A, A = p.lined r { k.pins with fillOk := ok, fillShort := short } := ⟨_, rfl⟩
  have hrobot : A.rbp.robots[r] = { k with pins := { k.pins with fillOk := ok, fillShort := short } } := by
    rw [hA]; exact p.lined_state r _
  have hcount (f : RobotCounters → RobotCounters) : A.countRobot r f = p.becomes r { k with
      pins := { k.pins with fillOk := ok, fillShort := short }, counters := f k.counters } p.trl := by
    unfold Part.countRobot
    rw [Part.modRobot_put rfl, hrobot, hA]
    exact p.becomes_put r _ _ _
  rw [Part.fillLines_strobes h, ← hA, Part.fillStrobe_counts (by rw [hrobot]; exact hlist), hcount]
  simp only [hrobot]

end

/-- Settles O29, by whether a container of the report list takes the strobe, and what the result does to the failure run. -/
theorem fillStrobeReports : Obligations.FillStrobeReports := by
  unfold Obligations.FillStrobeReports
  intro p w r ok short k rises isShort sampled run takes
  have hedge (b : Bool) (hb : b = true ↔ isShort) : (short && !k.pins.fillShort) = b := by
    rw [Bool.eq_iff_iff, hb]
    simp [isShort]
  have htakes {seq : Word} {rest : List Word} (hlist : k.reportList = seq :: rest) (v : FillResult) :
      p.trl.each (·.filled seq v) = { p.trl with records := takes v } := by
    simp only [Trl.each, takes, hlist, List.head?_cons, Option.some.injEq]
    rfl
  have hshort : isShort → rises := .inr
  refine ⟨fun hnone => ?_, fun seq rest hrises hgood hlist => ?_, fun seq rest hbad hlist hgoes => ?_,
    fun seq rest hbad hlist hset hrun => ?_, fun hrises hlist => ?_⟩
  · have hsaid : p.Speaks (p.becomes r sampled p.trl) [] [] := .refl_of rfl rfl rfl
    rcases Part.fillLines_idle hnone with hidle | hidle
    · exact leads_next rfl hidle ⟨rfl, rfl, hsaid.tells rfl, hsaid.storesOnly (by simp)⟩
    · exact leads_next rfl hidle ⟨rfl, rfl, (hsaid.rewrite .rbp).tells rfl, (hsaid.rewrite .rbp).storesOnly (by simp)⟩
  · have hreports := Part.fillLines_reports hrises hlist
    rw [hedge false (by simpa using hgood)] at hreports
    have hreset (m : Robot) (t : Trl) : (p.becomes r m t).modRobot r (fun k => { k with failureRun := 0 }) =
        p.becomes r { m with failureRun := 0 } t := by
      rw [Part.modRobot_put rfl, p.becomes_robot, p.becomes_put]
    simp only [Bool.false_eq_true, if_false, hreset] at hreports
    obtain ⟨hrbp, htrl, hrest, htells, hmirror, hstores⟩ := p.becomes_shown r _ _
    refine leads_next rfl hreports ⟨hrbp.trans ?_, htrl.trans (htakes hlist .ok), hrest, htells, hmirror, hstores⟩
    rw [← inc32_eq]
    rfl
  · have hreports := Part.fillLines_reports (hshort hbad) hlist
    rw [hedge true (by simpa using hbad)] at hreports
    simp only [if_true] at hreports
    replace hreports := hreports.trans
      (congrArg (Part.rewrite · .rbp) (Part.becomes_counts (k := sampled.reports seq true) hgoes _))
    obtain ⟨hrbp, htrl, hrest, htells, hmirror, hstores⟩ := p.becomes_shown r _ _
    refine leads_next rfl hreports ⟨hrbp.trans ?_, htrl.trans (htakes hlist .short), hrest, htells, hmirror, hstores⟩
    rw [← inc32_eq]
    rfl
  · have hreports := Part.fillLines_reports (hshort hbad) hlist
    rw [hedge true (by simpa using hbad)] at hreports
    simp only [if_true] at hreports
    cases hreq : k.runReq with
    | false =>
      replace hreports := hreports.trans
        (congrArg (Part.rewrite · .rbp) (Part.becomes_tells (k := sampled.reports seq true) hset hrun hreq _))
      obtain ⟨hrbp, -, hrest, htells⟩ := p.becomes_told r _ _ _ _
      refine leads_next rfl hreports ⟨fun _ => ⟨hrbp.trans ?_, hrest, htells⟩, fun hno => absurd hno (by simp)⟩
      rw [← inc32_eq]
      rfl
    | true =>
      refine leads_next rfl hreports ⟨fun hno => absurd hno (by simp), fun _ hack hwindow => ?_⟩
      obtain ⟨hstate, horigin, hfailures, horder, -⟩ := Part.becomes_halts (k := sampled.reports seq true) hset hrun hreq
        hack hwindow (p.trl.each (·.filled seq .short))
      exact ⟨hstate, horigin, hfailures, horder⟩
  · have hcounts := Part.fillLines_counts hrises hlist
    obtain ⟨hrbp, -, -, htells, hmirror, hstores⟩ := p.becomes_shown r _ p.trl
    exact leads_next rfl hcounts ⟨hrbp, rfl, htells, hmirror, hstores⟩

end Sys2Proof.Machine
end

section
/-! PROOFS. The orders ROTATION_SET and WINDOW_SET (04_filler_robots.md, R76 to R78, R81). -/

-- One proof after another: side by side, their threads take the stack space that a compile of the whole text is given.
set_option Elab.async false

namespace Sys2Proof.Machine

/-! ## The rotation that a ROTATION_SET spells (R77, R181) -/

theorem slotOfByte_valid {b : Byte} (h : b.toNat ≤ 5 ∨ b = 255) : slotOfByte b = some (six b) := by
  unfold slotOfByte
  split
  next h255 => rw [h255]; rfl
  next h255 =>
    have hlt := h.resolve_right h255
    rw [six_of b ⟨b.toNat, by omega⟩ rfl]
    rfl

theorem slotOfByte_invalid {b : Byte} (h : ¬ (b.toNat ≤ 5 ∨ b = 255)) : slotOfByte b = none := by
  unfold slotOfByte
  rw [if_neg fun h255 => h (.inr h255), six_none b (by omega)]
  rfl

theorem slotsOfBytes_valid {l : List Byte} (h : ∀ b ∈ l, b.toNat ≤ 5 ∨ b = 255) : slotsOfBytes l = some (l.map six) := by
  induction l with
  | nil => rfl
  | cons b l ih =>
    unfold slotsOfBytes
    rw [slotOfByte_valid (h b List.mem_cons_self), ih fun x hx => h x (List.mem_cons_of_mem _ hx)]
    rfl

theorem slotsOfBytes_invalid {l : List Byte} (h : ¬ ∀ b ∈ l, b.toNat ≤ 5 ∨ b = 255) : slotsOfBytes l = none := by
  induction l with
  | nil => exact absurd (by simp) h
  | cons b l ih =>
    unfold slotsOfBytes
    by_cases hb : b.toNat ≤ 5 ∨ b = 255
    · rw [slotOfByte_valid hb, ih fun hl => h (List.forall_mem_cons.mpr ⟨hb, hl⟩)]
    · rw [slotOfByte_invalid hb]

/-- R77: the parameters of a ROTATION_SET are in range. -/
def rotationInRange (count skip : Byte) (entries : List Byte) : Prop :=
  1 ≤ count.toNat ∧ count.toNat ≤ 12 ∧ skip.toNat ≤ 1 ∧ ∀ b ∈ entries.take count.toNat, b.toNat ≤ 5 ∨ b = 255

theorem skip_inRange (skip : Byte) : skip.toNat ≤ 1 ↔ skip = 0 ∨ skip = 1 := by
  constructor
  · intro h
    rcases Nat.le_one_iff_eq_zero_or_eq_one.mp h with h | h
    · exact .inl (BitVec.eq_of_toNat_eq h)
    · exact .inr (BitVec.eq_of_toNat_eq h)
  · rintro (rfl | rfl) <;> decide

theorem rotationOf_valid {count skip : Byte} {entries : List Byte} (h : rotationInRange count skip entries) :
    rotationOf count skip entries = some ⟨(entries.take count.toNat).map six, skip.toNat == 1⟩ := by
  obtain ⟨hlow, hhigh, hskip, hentries⟩ := h
  have hflag : decide (skip = 1) = (skip.toNat == 1) := by
    rcases (skip_inRange skip).mp hskip with rfl | rfl <;> decide
  unfold rotationOf
  rw [if_pos ⟨hlow, hhigh, (skip_inRange skip).mp hskip⟩, slotsOfBytes_valid hentries, hflag]
  rfl

theorem rotationOf_invalid {count skip : Byte} {entries : List Byte} (h : ¬ rotationInRange count skip entries) :
    rotationOf count skip entries = none := by
  unfold rotationOf
  split
  next hrange =>
    obtain ⟨hlow, hhigh, hskip⟩ := hrange
    rw [slotsOfBytes_invalid fun hentries => h ⟨hlow, hhigh, (skip_inRange skip).mpr hskip, hentries⟩]
    rfl
  next => rfl

/-! ## An order that pends at the robots, another one being superseded -/

section
variable {p : Part} {n : Fin 48} {o : Order}

/-- The desk and the Report Unit where an order pends, `Y` being the part once the one before it has been superseded. -/
theorem Part.take_pends {Y : Part} {g : Rbp → Rbp} {others : List InFlight} {l : Tidings} {k : List Area}
    (h : p.canTake n o) (hperform : (p.markTaken n).perform (p.nextRef n) o = (Y.modRbp g).rewrite .rbp)
    (hothers : ∀ e ∈ others, e.ref ≠ p.nextRef n) (hodk : Y.odk = p.takingOdk n others)
    (hread : Memory.read Y.mem (cellBase n) 12 = (p.takeEntry n).taken) (hsaid : p.Speaks Y l k)
    (hfault : Y.rpu.fault = p.rpu.fault) :
    let q := p.takeAs n o
    p.keepsAmong q n others ∧ p.tells q l ∧ Memory.storesOnly p.mem q.mem (k ++ [.mirror .rbp, .cell n, .mirror .odk]) ∧
      ∀ c ≠ n, Memory.read q.mem (cellBase c) 12 = Memory.read Y.mem (cellBase c) 12 := by
  intro q
  obtain ⟨hkeeps, hs⟩ := p.kept_of n ((Y.modRbp g).rewrite .rbp) others hothers (by simpa using hodk)
    (by rw [Part.rewrite_cell]; exact hread)
  rw [← hperform, ← Part.takeAs_eq h] at hkeeps
  rw [← hperform, ← Part.takeAs_eq h, hperform] at hs
  have hend := ((hsaid.modRbp g).rewrite .rbp).settled hs
  refine ⟨hkeeps, hend.tells (hs.fault.trans (by simpa using hfault)), hend.storesOnly (by simp), fun c hc => ?_⟩
  rw [hs.cell c hc, Part.rewrite_cell]
  rfl

/-- An order that pends at the robots: what changes, and what is told and stored without and with one before it. -/
theorem Part.take_supersedes {before : Option OrderRef} {g : Rbp → Rbp} (h : p.canTake n o)
    (hperform : (p.markTaken n).perform (p.nextRef n) o =
      (((p.markTaken n).completeIf before .superseded).modRbp g).rewrite .rbp) :
    let q := p.takeAs n o
    q.rbp = g p.rbp ∧ q = { p with rbp := q.rbp, odk := q.odk, rpu := q.rpu, mem := q.mem } ∧
    (before = none → p.keeps q n ∧ p.tells q [] ∧
      Memory.storesOnly p.mem q.mem [.cell n, .mirror .rbp, .mirror .odk]) ∧
    (∀ e : InFlight, before = some e.ref → p.odk.holds e →
      p.keepsAmong q n (p.odk.without e.ref) ∧ q.shows e .superseded ∧ p.tells q [e.told] ∧
      Memory.storesOnly p.mem q.mem [.cell n, .cell e.ref.cell, .bulletin 0, .mirror .rbp, .mirror .odk]) := by
  intro q
  have hq : q = ((((p.markTaken n).completeIf before .superseded).modRbp g).rewrite .rbp).endTake (p.nextRef n) := by
    rw [← hperform]; exact Part.takeAs_eq h
  refine ⟨by rw [hq]; simp, ?_, fun hnone => ?_, fun e hsome he => ?_⟩
  · rw [hq]
    apply Part.eq_of_fields <;> simp
  · subst hnone
    obtain ⟨hkeeps, htells, hstores, -⟩ := Part.take_pends h hperform (Part.canTake_fresh h) rfl (p.markTaken_read n)
      ((Part.Speaks.refl p).markTaken n) (by simp [Part.completeIf])
    exact ⟨hkeeps, htells, Memory.storesOnly_mono hstores (by simp)⟩
  · subst hsome
    obtain ⟨hodk, htaken, hshown, hsaid⟩ := Part.concluded_beside h he .superseded 0
    obtain ⟨-, hcell, hothers, -⟩ := Part.canTake_other h he
    obtain ⟨hkeeps, htells, hstores, hcells⟩ := Part.take_pends h hperform hothers hodk htaken hsaid
      (by simp [Part.completeIf])
    refine ⟨hkeeps, ?_, htells, Memory.storesOnly_mono hstores (by simp)⟩
    unfold Part.shows
    rw [hcells _ hcell]
    refine hshown.trans ?_
    rw [show q.now = p.now by rw [hq]; simp [Part.now]]

end

/-! ## ROTATION_SET (R76, R77) -/

section
variable {p : Part} {n : Fin 48} {ref : OrderRef} {count skip : Byte} {entries : List Byte} {rotation : Rotation}

theorem Part.rotationSetOrder_refused (h : rotationOf count skip entries = none) :
    p.rotationSetOrder ref count skip entries = p.complete ref .param := by
  unfold Part.rotationSetOrder
  simp only [h]

theorem Part.rotationSetOrder_adopts (h : rotationOf count skip entries = some rotation)
    (ht : p.cvt.tracker = .unprofiled ∨ p.cvt.tracker = .ready) :
    p.rotationSetOrder ref count skip entries = p.adoptRotation ⟨rotation, ref⟩ := by
  unfold Part.rotationSetOrder
  simp only [h]
  exact if_pos (by rcases ht with ht | ht <;> simp [Part.idleTracker, ht])

theorem Part.rotationSetOrder_pends (h : rotationOf count skip entries = some rotation)
    (ht : p.cvt.tracker = .tracking ∨ p.cvt.tracker = .draining) :
    p.rotationSetOrder ref count skip entries =
      ((p.completeIf (p.rbp.pendingRotation.map (·.ref)) .superseded).modRbp fun b =>
        { b with pendingRotation := some ⟨rotation, ref⟩ }).rewrite .rbp := by
  unfold Part.rotationSetOrder
  simp only [h]
  exact if_neg (by rcases ht with ht | ht <;> simp [Part.idleTracker, ht])

/-- R77: a rotation adopted at its order. -/
theorem Part.rotationSet_adopts (h : p.canTake n (.rotationSet count skip entries))
    (hrotation : rotationOf count skip entries = some rotation)
    (ht : p.cvt.tracker = .unprofiled ∨ p.cvt.tracker = .ready) :
    let q := p.takeAs n (.rotationSet count skip entries)
    q.rbp = { p.rbp with rotation := rotation, pendingRotation := none, cursor := 0 } ∧
    q = { p with rbp := q.rbp, odk := q.odk, rpu := q.rpu, mem := q.mem } ∧ p.answers q n .ok ∧
    p.tells q [(.rotationAdopted, 0)] ∧ q.mirrored .rbp ∧
    Memory.storesOnly p.mem q.mem [.cell n, .bulletin 2, .mirror .rbp, .mirror .odk] := by
  intro q
  have hM := (Part.Owning.markTaken p n).modRbp fun b =>
    { b with rotation := rotation, pendingRotation := none, cursor := 0 }
  obtain ⟨M, hMd⟩ : ∃ M, M = (p.markTaken n).modRbp fun b =>
    { b with rotation := rotation, pendingRotation := none, cursor := 0 } := ⟨_, rfl⟩
  have hrbp : M.rbp = { p.rbp with rotation := rotation, pendingRotation := none, cursor := 0 } := by rw [hMd]; rfl
  have hperform : (p.markTaken n).perform (p.nextRef n) (.rotationSet count skip entries) =
      ((M.complete (p.nextRef n) .ok).raise .rotationAdopted).rewrite .rbp := by
    rw [hMd]
    exact Part.rotationSetOrder_adopts (p := p.markTaken n) hrotation ht
  rw [← hMd] at hM
  have hq : q = (((M.complete (p.nextRef n) .ok).raise .rotationAdopted).rewrite .rbp).endTake (p.nextRef n) := by
    rw [← hperform]; exact Part.takeAs_eq h
  have hsettled := (p.completed_of n M .ok 0 _ (Part.canTake_fresh h) hM.odk).2.2
  have hsaid := ((hM.said.settled hsettled).raise .rotationAdopted 0).rewrite .rbp
  obtain ⟨hanswers, hs⟩ := Part.done_of h M (((M.complete (p.nextRef n) .ok).raise .rotationAdopted).rewrite .rbp) .ok 0
    hM.odk (by simp) (by simp) (by simp)
  rw [← hq] at hanswers hs
  have htold := hsaid.settled hs
  refine ⟨hs.rbp.trans (by simpa using hrbp), hs.only_rbp ?_, hanswers, htold.tells (hs.fault.trans (by simp [hM.fault])),
    hs.mirrored .rbp (by decide) (Part.rewrite_mirrored _ _), htold.storesOnly (by simp [News.bulletin])⟩
  apply Part.eq_of_fields <;> simp <;> rw [hM.rest]

end

/-! ## WINDOW_SET (R78, R81) -/

theorem Window.zero_iff (w : Window) : w.zero = true ↔ w.closing ≤ w.opening := by simp [Window.zero]

/-- R78: a window goes live at robot `r`, is told where it is a zero window, and is shown. -/
theorem Part.makeLive_leaves (p : Part) (r : Fin 6) (x : Window) :
    let live := x.clamped p.clampPitch
    let q := p.makeLive r x
    q.rbp = p.rbp.put r { p.rbp.robots[r] with live := live } ∧ q.mirrored .rbp ∧
    p.Speaks q (if live.closing ≤ live.opening then [(.zeroWindow, robotMember r)] else []) [.bulletin 2, .mirror .rbp] ∧
    (p.cvt.profile ≠ none → q.freeCount = p.freeCount) ∧
    ∀ n, Memory.read q.mem (cellBase n) 12 = Memory.read p.mem (cellBase n) 12 := by
  intro live q
  obtain ⟨A, hA⟩ : ∃ A, A = if p.cvt.profile.isNone then (p.modRobot r fun k => { k with live := live }).spendFree
      else p.modRobot r fun k => { k with live := live } := ⟨_, rfl⟩
  have hAsame : A.rbp = p.rbp.put r { p.rbp.robots[r] with live := live } ∧ A.mtu = p.mtu ∧ A.rpu = p.rpu ∧
      A.mem = p.mem ∧ (p.cvt.profile ≠ none → A.freeCount = p.freeCount) := by
    rw [hA]
    split
    next h => exact ⟨rfl, rfl, rfl, rfl, fun hne => absurd (by simpa using h) hne⟩
    next => exact ⟨rfl, rfl, rfl, rfl, fun _ => rfl⟩
  obtain ⟨hrbp, hmtu, hrpu, hmem, hfree⟩ := hAsame
  have hq : q = (if live.zero then A.raise .zeroWindow (robotMember r) else A).rewrite .rbp := by
    rw [hA, show live = x.clamp p.clampPitch from (x.clamp_eq _).symm]
    rfl
  have hsaid : p.Speaks A [] [] := .refl_of (congrArg Mtu.time hmtu) hrpu hmem
  by_cases hz : live.zero = true
  · rw [if_pos hz] at hq
    rw [if_pos (live.zero_iff.mp hz), hq]
    exact ⟨hrbp, Part.rewrite_mirrored _ _, (hsaid.raise _ _).rewrite .rbp, hfree, fun n => by simp [hmem]⟩
  · rw [if_neg hz] at hq
    rw [if_neg fun hle => hz (live.zero_iff.mpr hle), hq]
    exact ⟨hrbp, Part.rewrite_mirrored _ _, (hsaid.rewrite .rbp).mono (by simp), hfree, fun n => by simp [hmem]⟩

section
variable {p : Part} {n : Fin 48} {ref : OrderRef} {robot : Byte} {opening closing : Half} {r : Fin 6}

theorem Part.windowSetOrder_range (h : 6 ≤ robot.toNat) :
    p.windowSetOrder ref robot opening closing = p.complete ref .param := by
  unfold Part.windowSetOrder
  simp only [six_none robot h]

theorem Part.windowSetOrder_lives (hr : robot.toNat = r.val)
    (h : p.cvt.tracker = .unprofiled ∨ p.cvt.tracker = .ready ∨ p.rbp.robots[r].state ≠ .running) :
    p.windowSetOrder ref robot opening closing = (p.makeLive r ⟨opening.toNat, closing.toNat⟩).complete ref
      (p.windowResult ⟨opening.toNat, closing.toNat⟩) := by
  unfold Part.windowSetOrder
  simp only [six_of robot r hr]
  refine if_pos ?_
  rcases h with h | h | h
  · simp [Part.idleTracker, h]
  · simp [Part.idleTracker, h]
  · exact .inr h

theorem Part.windowSetOrder_pends (hr : robot.toNat = r.val)
    (ht : p.cvt.tracker = .tracking ∨ p.cvt.tracker = .draining) (hs : p.rbp.robots[r].state = .running) :
    p.windowSetOrder ref robot opening closing =
      ((p.completeIf (p.rbp.robots[r].pendingWindow.map (·.ref)) .superseded).modRbp fun b =>
        b.put r { b.robots[r] with pendingWindow := some ⟨⟨opening.toNat, closing.toNat⟩, ref⟩ }).rewrite .rbp := by
  unfold Part.windowSetOrder
  simp only [six_of robot r hr]
  refine if_neg fun hidle => ?_
  rcases hidle with hidle | hidle
  · rcases ht with ht | ht <;> simp [Part.idleTracker, ht] at hidle
  · exact hidle hs

/-- R78, R81: a window that goes live at its order, under a profile or before any. -/
theorem Part.windowSet_lives (h : p.canTake n (.windowSet robot opening closing)) (hr : robot.toNat = r.val)
    (hnow : p.cvt.tracker = .unprofiled ∨ p.cvt.tracker = .ready ∨ p.rbp.robots[r].state ≠ .running) :
    let live : Window := ⟨opening.toNat, min closing.toNat p.clampPitch⟩
    let q := p.takeAs n (.windowSet robot opening closing)
    q.rbp = p.rbp.put r { p.rbp.robots[r] with live := live } ∧
    q = { p with rbp := q.rbp, odk := q.odk, rpu := q.rpu, mem := q.mem, freeCount := q.freeCount } ∧
    p.answers q n (if p.clampPitch < closing.toNat then .clamped else .ok) ∧
    p.tells q (if live.closing ≤ live.opening then [(.zeroWindow, robotMember r)] else []) ∧ q.mirrored .rbp ∧
    Memory.storesOnly p.mem q.mem [.cell n, .bulletin 2, .mirror .rbp, .mirror .odk] ∧
    (p.cvt.profile ≠ none → q.freeCount = p.freeCount) := by
  intro live q
  obtain ⟨hrbp, hmirror, hsaid, hfree, -⟩ := (p.markTaken n).makeLive_leaves r ⟨opening.toNat, closing.toNat⟩
  have hpitch : (p.markTaken n).clampPitch = p.clampPitch := rfl
  obtain ⟨hanswers, hs⟩ := Part.answered_at_once h _ _ 0
    (Part.windowSetOrder_lives (p := p.markTaken n) (ref := p.nextRef n) hr hnow) (by simp)
  have htold := (((Part.Speaks.refl p).markTaken n).trans hsaid).settled hs
  refine ⟨hs.rbp.trans hrbp, hs.eq.trans ?_, ?_, htold.tells (hs.fault.trans (by simp)),
    hs.mirrored .rbp (by decide) hmirror, htold.storesOnly (by simp), fun hne => hs.freeCount.trans (hfree hne)⟩
  · exact Part.eq_of_fields (by simp) (by simp) (by simp) hs.rbp.symm (by simp) (by simp) (by simp) (by simp) rfl rfl
      (by simp) (by simp) rfl hs.freeCount.symm
  · simpa [Part.windowResult, Result.clampedIf, hpitch] using hanswers

end

/-- Settles O28, by whether the order is refused, acts at once or pends. -/
theorem rotationAndWindowSet : Obligations.RotationAndWindowSet := by
  unfold Obligations.RotationAndWindowSet
  constructor
  · intro p w n count skip entries _ h valid slots rotation
    refine ⟨fun hbad => ⟨_, rfl, Part.refused_of h .param 0 (Part.rotationSetOrder_refused (rotationOf_invalid hbad))⟩,
      fun hvalid ht => ⟨_, rfl, Part.rotationSet_adopts h (rotationOf_valid hvalid) ht⟩, fun hvalid ht => ⟨_, rfl, ?_⟩⟩
    obtain ⟨hrbp, hrest, hnone, hsome⟩ := Part.take_supersedes h
      (Part.rotationSetOrder_pends (p := p.markTaken n) (ref := p.nextRef n) (rotationOf_valid hvalid) ht)
    refine ⟨hrbp, hrest, fun hidle => hnone (congrArg (Option.map (·.ref)) hidle), fun before e hbefore hr he =>
      hsome e ?_ he⟩
    exact (congrArg (Option.map (·.ref)) hbefore).trans (congrArg some hr)
  · intro p w n robot opening closing h
    refine ⟨fun hrange => ⟨_, rfl, Part.refused_of h .param 0 (Part.windowSetOrder_range hrange)⟩, ?_⟩
    intro r hr k atOnce
    refine ⟨fun f hf hnow => ⟨_, rfl, ?_⟩, fun hf hnow => ⟨_, rfl, ?_⟩, fun ht hs => ⟨_, rfl, ?_⟩⟩
    · obtain ⟨hrbp, hrest, hanswers, htells, hmirror, hstores, hfree⟩ := Part.windowSet_lives h hr hnow
      have hpitch : p.clampPitch = f.pitch := by unfold Part.clampPitch; rw [hf]
      rw [hpitch] at hrbp hanswers htells
      rw [hfree (by rw [hf]; simp)] at hrest
      exact ⟨hrbp, hrest, hanswers, htells, hmirror, hstores⟩
    · obtain ⟨hrbp, hrest, hanswers, -, -, hstores, -⟩ := Part.windowSet_lives h hr hnow
      refine ⟨_, rfl, Nat.min_le_left _ _, hrbp, hrest, ?_, hstores⟩
      have hclamp : min closing.toNat p.clampPitch < closing.toNat ↔ p.clampPitch < closing.toNat := by omega
      simpa only [hclamp] using hanswers
    · obtain ⟨hrbp, hrest, hnone, hsome⟩ := Part.take_supersedes h
        (Part.windowSetOrder_pends (p := p.markTaken n) (ref := p.nextRef n) hr ht hs)
      refine ⟨hrbp, hrest, fun hidle => hnone (congrArg (Option.map (·.ref)) hidle), fun before e hbefore hr he =>
        hsome e ?_ he⟩
      exact (congrArg (Option.map (·.ref)) hbefore).trans (congrArg some hr)

end Sys2Proof.Machine
end

section
/-! PROOFS. A port falls silent (R138), with what its action does to the member of the port (R68, R104, R105). -/

-- One proof after another: side by side, their threads take the stack space that a compile of the whole text is given.
set_option Elab.async false

namespace Sys2Proof.Machine

/-! ## What is told around the record of the silence (R140) -/

/-- Changes told on other bulletins than OUTCOMES leave the book of the outcomes alone. -/
theorem Part.Speaks.plain {p q : Part} {l : Tidings} {k : List Area} (h : p.Speaks q l k)
    (hl : ∀ x ∈ l, x.1.bulletin ≠ 8) : p.Plain q l k where
  time := h.time
  book := Rpu.of_rest h.rest Rpu.book fun _ => rfl
  outcomes := by
    rw [h.bulletins]
    have hwalk : ∀ (l : Tidings) (v : Vector Bulletin 10), (∀ x ∈ l, x.1.bulletin ≠ 8) →
        (announced v p.now l)[8] = v[8] := by
      intro l
      induction l with
      | nil => exact fun _ _ => rfl
      | cons x l ih =>
        intro v hv
        obtain ⟨hx, hl⟩ := List.forall_mem_cons.mp hv
        exact (ih _ hl).trans (announced_other v p.now x 8 hx)
    exact hwalk l _ hl
  bulletins := fun b _ => by rw [h.bulletins]
  kept := ⟨Rpu.of_rest h.rest (·.threshold) fun _ => rfl, Rpu.of_rest h.rest (·.phase) fun _ => rfl,
    Rpu.of_rest h.rest (·.lineResetBusy) fun _ => rfl, Rpu.of_rest h.rest (·.busData) fun _ => rfl⟩
  stores := h.stores

/-- R138: the port once it has fallen silent, its deadline disarmed. -/
def Port.quiet (k : Port) : Port := { k with deadline := none, silent := true, silences := min 65535 (k.silences + 1) }

/-- R138, R140: the part once port `i` has fallen silent, told it and handed over its record. -/
def Part.quieted (p : Part) (i : Fin 16) (action : SilenceAction) : Part :=
  (({ p with spm := p.spm.put i p.spm.ports[i].quiet } : Part).raise .silent (portMember i)).handOutcome 3
    (p.spm.ports[i].quiet.outcome i p.spm.hallHold .silent action.code)

/-- What the statement of R138 says of a port that fell silent: the port, its mirror, its record, what else is told. -/
def Part.silences (p q : Part) (i : Fin 16) (action : SilenceAction) (l : Tidings) (areas : List Area) : Prop :=
  q.spm = p.spm.put i p.spm.ports[i].quiet ∧ q.mirrored .spm ∧ q.rpu.fault = p.rpu.fault ∧
  p.records q 3 (p.spm.ports[i].quiet.outcome i p.spm.hallHold .silent action.code) ((.silent, portMember i) :: l)
    ([.bulletin 5, .mirror .spm] ++ areas)

section
variable {p C : Part} {i : Fin 16} {action : SilenceAction}

theorem Part.quieted_rest (p : Part) (i : Fin 16) (action : SilenceAction) :
    p.quieted i action = { p with spm := p.spm.put i p.spm.ports[i].quiet, rpu := (p.quieted i action).rpu
                                  mem := (p.quieted i action).mem } := by
  apply Part.eq_of_fields <;> simp [Part.quieted]

/-- What is done for the port's member between the record and the port's mirror. -/
theorem Part.silences_of {l : Tidings} {k areas : List Area} (hC : (p.quieted i action).Speaks C l k)
    (hl : ∀ x ∈ l, x.1.bulletin ≠ 8) (hspm : C.spm = (p.quieted i action).spm)
    (hfault : C.rpu.fault = (p.quieted i action).rpu.fault) (hk : ∀ x ∈ k, x.besideRecords)
    (hareas : k ⊆ areas) : p.silences (C.rewrite .spm) i action l areas := by
  have hrest := congrArg Part.spm (p.quieted_rest i action)
  have hquiet : p.Plain ({ p with spm := p.spm.put i p.spm.ports[i].quiet } : Part) [] [] := .refl_of rfl rfl rfl
  refine ⟨?_, Part.rewrite_mirrored _ _, ?_, ?_⟩
  · simp only [Part.rewrite_frame]
    exact hspm.trans hrest
  · simp only [Part.rewrite_frame]
    exact hfault.trans (by simp [Part.quieted])
  · refine Part.records_as 3 _ (Port.outcome_length _ _ _ _ _) (hquiet.raise .silent (portMember i))
      ((hC.plain hl).rewrite .spm) (fun x hx => ?_) rfl ?_
    · rcases List.mem_append.mp hx with hx | hx
      · exact hk x hx
      · obtain rfl := List.mem_singleton.mp hx
        trivial
    · intro x hx
      simp only [List.nil_append, List.mem_append, List.mem_cons, List.not_mem_nil, or_false] at hx ⊢
      rcases hx with rfl | hx | rfl
      · exact .inl (.inl rfl)
      · exact .inr (hareas hx)
      · exact .inl (.inr rfl)

/-- R138: what the silence of the port `k` does for its member. -/
def Part.silenceActs (p : Part) (k : Port) : Part :=
  match k.role with
  | .camera c => p.cameraSilence c k.action
  | .robot r => if k.action = SilenceAction.haltMember then p.requestHalt r .portSilent else p
  | .unassigned | .linePc | .service _ | .other => p

theorem Part.portSilence_early (h : ∀ t, p.spm.ports[i].deadline = some t → (p.now - t).toInt < 0) :
    p.portSilence i = p := by
  unfold Part.portSilence
  refine if_neg ?_
  cases hd : p.spm.ports[i].deadline with
  | none => simp [deadlineReached]
  | some t =>
    have := h t hd
    simpa [deadlineReached, Time.reached] using this

section
variable {t : Time} (hd : p.spm.ports[i].deadline = some t) (ht : 0 ≤ (p.now - t).toInt)
include hd ht

theorem Part.portSilence_reached : deadlineReached p.spm.ports[i].deadline p.now = true := by
  rw [hd]
  simpa [deadlineReached, Time.reached] using ht

theorem Part.portSilence_again (hsilent : p.spm.ports[i].silent = true) :
    p.portSilence i = { p with spm := p.spm.put i { p.spm.ports[i] with deadline := none } } := by
  unfold Part.portSilence
  rw [if_pos (Part.portSilence_reached hd ht)]
  exact if_pos hsilent

theorem Part.portSilence_falls (hsilent : p.spm.ports[i].silent = false) :
    p.portSilence i =
      ((p.quieted i p.spm.ports[i].fittedAction).silenceActs p.spm.ports[i]).rewrite .spm := by
  obtain ⟨A, hA⟩ : ∃ A, A = (p.modPort i fun q => { q with deadline := none }).modPort i fun q =>
    { q with silent := true, silences := inc16 q.silences } := ⟨_, rfl⟩
  have hspm : A.spm = p.spm.put i p.spm.ports[i].quiet := by
    rw [hA]
    simp [Part.modPort, Part.modSpm, modAt, Spm.put, Port.quiet, inc16_eq]
  have hwhole : A = { p with spm := p.spm.put i p.spm.ports[i].quiet } := by
    rw [← hspm, hA]
    rfl
  have hport : A.spm.ports[i] = p.spm.ports[i].quiet := by rw [hspm]; exact Spm.put_get _ _ _
  have hfall : (p.modPort i fun q => { q with deadline := none }).fallSilent i =
      (((A.raise .silent (portMember i)).handOutcome 3 (A.spm.ports[i].outcome i A.spm.hallHold .silent
        A.spm.ports[i].fittedAction.code)).silenceActs A.spm.ports[i]).rewrite .spm := by
    rw [hA]
    rfl
  unfold Part.portSilence
  rw [if_pos (Part.portSilence_reached hd ht)]
  refine (if_neg (by simpa using hsilent)).trans ?_
  rw [hfall, hport, hwhole]
  rfl

end

end

/-! ## The camera of a silent port (R104, R105) -/

/-- R105: camera `c` marked silent and shown. -/
def Part.muted (p : Part) (c : Fin 6) : Part := (p.modCamera c fun k => { k with portSilent := true }).rewrite .ctu

/-- R104: a camera degraded by the silence of its port. -/
def Camera.silenced (k : Camera) : Camera :=
  { k with portSilent := true, degraded := true, degradeCause := some .portSilent, missedRun := 0 }

section
variable {p : Part} {c : Fin 6} {action : SilenceAction}

theorem Part.muted_state (p : Part) (c : Fin 6) : (p.muted c).cameraState c = p.cameraState c := by
  have hcamera : (p.muted c).ctu.cameras[c] = { p.ctu.cameras[c] with portSilent := true } := modAt_self _ _ _
  exact Part.cameraState_congr c rfl (by rw [hcamera]) (by rw [hcamera]) (by rw [hcamera])

/-- R105: a camera that the silence does not degrade. -/
theorem Part.cameraSilence_mutes (h : action ≠ .degradeMember ∨ p.cameraState c = .off ∨
    p.ctu.cameras[c].degraded = true) : p.cameraSilence c action = p.muted c := by
  have hsilence : p.cameraSilence c action = if action = .degradeMember ∧ (p.muted c).cameraState c ≠ .off then
      (p.muted c).degrade c .portSilent else p.muted c := rfl
  rw [hsilence, p.muted_state]
  split
  next hdegrades =>
    have hdegraded := (h.resolve_left fun hne => hne hdegrades.1).resolve_left hdegrades.2
    have hcamera : (p.muted c).ctu.cameras[c] = { p.ctu.cameras[c] with portSilent := true } := modAt_self _ _ _
    unfold Part.degrade
    exact if_pos (by rw [hcamera]; exact hdegraded)
  next => rfl

theorem Part.muted_ctu (p : Part) (c : Fin 6) :
    (p.muted c).ctu = p.ctu.put c { p.ctu.cameras[c] with portSilent := true } := rfl

/-- R104, R105: camera `c` degraded by the silence, told and shown; its awaiting list still stands. -/
def Part.hushed (p : Part) (c : Fin 6) : Part :=
  (((p.muted c).modCamera c fun k => { k with
    degraded := true, degradeCause := some .portSilent, missedRun := 0 }).raise .portSilent
      (BitVec.ofNat 8 c.val)).rewrite .ctu

theorem Part.hushed_ctu (p : Part) (c : Fin 6) : (p.hushed c).ctu = p.ctu.put c p.ctu.cameras[c].silenced := by
  simp only [Part.hushed, Part.rewrite_frame, Part.raise_frame, Part.modCamera_ctu, Part.muted_ctu, Ctu.put_get,
    Ctu.put_put]
  rfl

theorem Part.hushed_rest (p : Part) (c : Fin 6) :
    p.hushed c = { p with ctu := (p.hushed c).ctu, rpu := (p.hushed c).rpu, mem := (p.hushed c).mem } ∧
      (p.hushed c).rpu.fault = p.rpu.fault :=
  ⟨by apply Part.eq_of_fields <;> simp [Part.hushed, Part.muted], by simp [Part.hushed, Part.muted]⟩

theorem Part.hushed_speaks (p : Part) (c : Fin 6) :
    p.Speaks (p.hushed c) [(.portSilent, BitVec.ofNat 8 c.val)] [.mirror .ctu, .bulletin 3, .mirror .ctu] := by
  have hmuted : p.Speaks (p.muted c) [] [.mirror .ctu] := ((Part.Speaks.refl p).modCtu _).rewrite .ctu
  exact ((hmuted.modCtu _).raise .portSilent _).rewrite .ctu

theorem Part.cameraSilence_hushes (hstate : p.cameraState c ≠ .off) (hd : p.ctu.cameras[c].degraded = false) :
    p.cameraSilence c .degradeMember =
      if p.cameraState c = .active then (p.hushed c).emptyAwaiting c else p.hushed c := by
  have hsilence : p.cameraSilence c .degradeMember =
      if SilenceAction.degradeMember = .degradeMember ∧ (p.muted c).cameraState c ≠ .off then
        (p.muted c).degrade c .portSilent else p.muted c := rfl
  have hcamera : (p.muted c).ctu.cameras[c] = { p.ctu.cameras[c] with portSilent := true } := modAt_self _ _ _
  rw [hsilence, if_pos ⟨rfl, by rw [p.muted_state]; exact hstate⟩, ← p.muted_state]
  unfold Part.degrade
  exact if_neg (by rw [hcamera]; simpa using hd)

/-- R104, R105: a camera that the silence degrades. -/
theorem Part.cameraSilence_degrades (hstate : p.cameraState c ≠ .off) (hd : p.ctu.cameras[c].degraded = false) :
    let q := p.cameraSilence c .degradeMember
    q.ctu = p.ctu.put c (p.ctu.cameras[c].silenced.givenUp (p.cameraState c = .active)) ∧
    q.trl = p.trl.each (fun x => if x.seq ∈ (if p.cameraState c = .active then p.ctu.cameras[c].awaiting else []) then
      x.judged x.seq c .noVerdict else x) ∧
    p.Speaks q [(.portSilent, BitVec.ofNat 8 c.val)] [.mirror .ctu, .bulletin 3, .mirror .ctu, .mirror .ctu] ∧
    q = { p with trl := q.trl, ctu := q.ctu, rpu := q.rpu, mem := q.mem } ∧ q.rpu.fault = p.rpu.fault := by
  intro q
  have hq : q = _ := Part.cameraSilence_hushes hstate hd
  have hRsaid := p.hushed_speaks c
  have hRctu := p.hushed_ctu c
  obtain ⟨hRrest, hRfault⟩ := p.hushed_rest c
  generalize p.hushed c = R at *
  have hRcamera : R.ctu.cameras[c] = p.ctu.cameras[c].silenced := by rw [hRctu]; exact Ctu.put_get _ _ _
  obtain ⟨hctu, htrl, hsaid⟩ := Part.givesUp c (Part.Speaks.refl R) (p.cameraState c = .active)
  rw [← hq] at hctu htrl hsaid
  rw [hRcamera] at hctu htrl
  refine ⟨hctu.trans (by rw [hRctu, Ctu.put_put]), ?_, (hRsaid.trans hsaid).mono (by simp), ?_, ?_⟩
  · rw [htrl, show R.trl = p.trl by rw [hRrest]]
    rfl
  · have hrest : q = { R with trl := q.trl, ctu := q.ctu, rpu := q.rpu, mem := q.mem } := by
      rw [hq]
      split
      · apply Part.eq_of_fields <;> simp
      · rfl
    rw [hrest, hRrest]
  · rw [hq]
    split
    · simpa using hRfault
    · exact hRfault

end

/-- R93: the state in which the silence of its port leaves a camera that it degrades. -/
theorem Part.silenced_state {p q : Part} (c : Fin 6) (hoff : p.cameraState c ≠ .off)
    (hprofile : q.cvt.profile = p.cvt.profile)
    (hctu : q.ctu = p.ctu.put c (p.ctu.cameras[c].silenced.givenUp (p.cameraState c = .active))) :
    q.cameraState c = if p.cameraState c = .active then .degraded else p.cameraState c := by
  have hcamera : q.ctu.cameras[c] = p.ctu.cameras[c].silenced.givenUp (p.cameraState c = .active) := by
    rw [hctu]
    exact Ctu.put_get _ _ _
  have hsilenced : (p.modCamera c Camera.silenced).ctu.cameras[c] = p.ctu.cameras[c].silenced := modAt_self _ _ _
  have hflags : q.cameraState c = (p.modCamera c Camera.silenced).cameraState c := by
    apply Part.cameraState_congr (p := p.modCamera c Camera.silenced) c hprofile <;> rw [hcamera, hsilenced] <;> rfl
  have hhere : ¬ p.cameraPresent c = false := fun h => hoff (if_pos h)
  rw [hflags, Part.flagged_fitted hoff, Part.cameraState_eq, if_neg hhere]
  change (if p.ctu.cameras[c].hostService || p.ctu.cameras[c].zoneService then _ else if true then _ else _) = _
  cases p.ctu.cameras[c].hostService || p.ctu.cameras[c].zoneService
  · cases p.ctu.cameras[c].degraded <;> rfl
  · rfl

/-! ## Port by port (R138) -/

section
variable {p : Part} {i : Fin 16} {k : Port} {c : Fin 6} {r : Fin 6}

/-- A port whose silence asks nothing of a member. -/
theorem Port.fittedAction_report (hcamera : ∀ c, k.role ≠ .camera c)
    (hrobot : ∀ r, k.role = .robot r → k.action ≠ .haltMember) : k.fittedAction = .report := by
  unfold Port.fittedAction
  split
  next r haction hrole => exact absurd haction (hrobot r hrole)
  next c haction hrole => exact absurd hrole (hcamera c)
  next => rfl

theorem Part.silenceActs_none (hcamera : ∀ c, k.role ≠ .camera c)
    (hrobot : ∀ r, k.role = .robot r → k.action ≠ .haltMember) : p.silenceActs k = p := by
  unfold Part.silenceActs
  split
  next c hrole => exact absurd hrole (hcamera c)
  next r hrole => exact if_neg (hrobot r hrole)
  all_goals rfl

theorem Port.fittedAction_camera (hrole : k.role = .camera c) :
    k.fittedAction = if k.action = .degradeMember then .degradeMember else .report := by
  unfold Port.fittedAction
  rw [hrole]
  cases k.action <;> rfl

theorem Part.silenceActs_camera (hrole : k.role = .camera c) : p.silenceActs k = p.cameraSilence c k.action := by
  unfold Part.silenceActs
  rw [hrole]

theorem Port.fittedAction_robot (hrole : k.role = .robot r) (haction : k.action = .haltMember) :
    k.fittedAction = .haltMember := by
  unfold Port.fittedAction
  rw [hrole, haction]

theorem Part.silenceActs_robot (hrole : k.role = .robot r) (haction : k.action = .haltMember) :
    p.silenceActs k = p.requestHalt r .portSilent := by
  unfold Part.silenceActs
  rw [hrole]
  exact if_pos haction

theorem Part.quieted_cameraState (p : Part) (i : Fin 16) (action : SilenceAction) (c : Fin 6) :
    (p.quieted i action).cameraState c = p.cameraState c := by
  have hrest := p.quieted_rest i action
  generalize p.quieted i action = H at hrest ⊢
  rw [hrest]
  rfl

/-- A silence that does nothing for a member. -/
theorem Part.silences_alone (p : Part) (i : Fin 16) (action : SilenceAction) :
    let q := (p.quieted i action).rewrite .spm
    q = { p with spm := q.spm, rpu := q.rpu, mem := q.mem } ∧ p.silences q i action [] [] := by
  have hrest := p.quieted_rest i action
  refine ⟨?_, Part.silences_of (Part.Speaks.refl _) (by simp) rfl rfl (by simp) (List.Subset.refl _)⟩
  apply Part.eq_of_fields <;> simp <;> rw [hrest]

end

/-- Settles O39, by what the action of the silent port asks of its member. -/
theorem silenceIsActedOn : Obligations.SilenceIsActedOn := by
  unfold Obligations.SilenceIsActedOn
  intro p w i k quiet spoken
  refine ⟨fun hearly => leads_next rfl (Part.portSilence_early hearly) rfl, fun t hd ht => ⟨fun hsilent =>
    leads_next rfl (Part.portSilence_again hd ht hsilent) rfl, fun hsilent hcamera hrobot => ?_,
    fun c hsilent hrole hkeeps => ?_, fun c hsilent hrole haction hoff hdegraded => ?_,
    fun r hsilent hrole haction => ?_⟩⟩
  · have hfalls := Part.portSilence_falls hd ht hsilent
    rw [Part.silenceActs_none hcamera hrobot, Port.fittedAction_report hcamera hrobot] at hfalls
    exact leads_next rfl hfalls (p.silences_alone i _)
  · have hfalls := Part.portSilence_falls hd ht hsilent
    rw [Part.silenceActs_camera hrole, Port.fittedAction_camera hrole] at hfalls
    have hrest := p.quieted_rest i (if k.action = .degradeMember then .degradeMember else .report)
    have hstate := p.quieted_cameraState i (if k.action = .degradeMember then .degradeMember else .report) c
    have hsilences (C : Part) := Part.silences_of (p := p) (C := C) (i := i)
      (action := if k.action = .degradeMember then .degradeMember else .report) (l := []) (k := [.mirror .ctu])
      (areas := [.mirror .ctu])
    generalize p.quieted i (if k.action = .degradeMember then .degradeMember else .report) = H at *
    have hctu : H.ctu = p.ctu := by rw [hrest]
    rw [Part.cameraSilence_mutes (by rw [hstate, hctu]; exact hkeeps)] at hfalls
    refine leads_next rfl hfalls ⟨?_, ?_, hsilences _ ?_ (by simp) rfl rfl (by simp [Area.besideRecords])
      (List.Subset.refl _)⟩
    · simp [Part.muted_ctu, hctu]
    · apply Part.eq_of_fields <;> simp [Part.muted] <;> rw [hrest]
    · exact ((Part.Speaks.refl H).modCtu _).rewrite .ctu
  · have hfalls := Part.portSilence_falls hd ht hsilent
    rw [Part.silenceActs_camera hrole, haction, Port.fittedAction_camera hrole, if_pos haction] at hfalls
    have hrest := p.quieted_rest i .degradeMember
    have hstate := p.quieted_cameraState i .degradeMember c
    have hsilences (C : Part) := Part.silences_of (p := p) (C := C) (i := i) (action := .degradeMember)
      (l := [(.portSilent, BitVec.ofNat 8 c.val)]) (k := [.mirror .ctu, .bulletin 3, .mirror .ctu, .mirror .ctu])
      (areas := [.bulletin 3, .mirror .ctu])
    generalize p.quieted i .degradeMember = H at *
    have hHctu : H.ctu = p.ctu := by rw [hrest]
    obtain ⟨hctu, htrl, hsaid, hkept, hfault⟩ := Part.cameraSilence_degrades (p := H) (c := c)
      (by rw [hstate]; exact hoff) (by rw [hHctu]; exact hdegraded)
    rw [hstate, hHctu] at hctu htrl
    generalize H.cameraSilence c .degradeMember = C at *
    have hspm : C.spm = H.spm := by rw [hkept]
    have hrest' : C.rewrite .spm = { p with
        trl := C.trl, spm := C.spm, ctu := C.ctu, rpu := (C.rewrite .spm).rpu, mem := (C.rewrite .spm).mem } := by
      apply Part.eq_of_fields <;> simp <;> rw [hkept] <;> rw [hrest]
    refine leads_next rfl hfalls ⟨?_, ?_, ?_, ?_, hsilences C hsaid (by simp [News.bulletin]) hspm hfault
      (by simp [Area.besideRecords]) (by simp)⟩
    · exact (Part.rewrite_ctu _ _).trans hctu
    · simp only [Part.rewrite_frame, htrl]
      rw [hrest]
    · simpa using hrest'
    · rw [hrest']
      exact Part.silenced_state c hoff rfl hctu
  · have hfalls := Part.portSilence_falls hd ht hsilent
    rw [Part.silenceActs_robot hrole haction, Port.fittedAction_robot hrole haction] at hfalls
    have halone := p.silences_alone i .haltMember
    have hrbp : (p.quieted i .haltMember).rbp = p.rbp := by rw [p.quieted_rest i .haltMember]
    generalize p.quieted i .haltMember = H at *
    refine leads_next rfl hfalls ⟨fun hreq => ?_, fun hreq hack hwindow => ?_⟩
    · have hidle : H.requestHalt r .portSilent = H :=
        if_neg (by rw [hrbp, Robot.active_runReq]; exact Bool.eq_false_iff.mp hreq)
      rw [hidle]
      exact halone
    · have hhalt := H.requestHalt_robot r .portSilent (by rw [hrbp, Robot.active_runReq]; exact hreq)
        (by rw [hrbp]; exact hack) (fun _ => by rw [hrbp]; exact hwindow)
      simp only [Part.rewrite_frame, hhalt, true_and]

end Sys2Proof.Machine
end

section
/-! PROOFS. The fill watches on an advance (R22, R79, R80, R84, R85). -/

-- One proof after another: side by side, their threads take the stack space that a compile of the whole text is given.
set_option Elab.async false

namespace Sys2Proof.Machine

/-! ## The advance on which one watch alone is due (R22) -/

/-- The part with `l` as its watches. -/
def Part.withWatches (p : Part) (l : List Watch) : Part := { p with cvt := { p.cvt with watches := l } }

theorem Part.graceEnds_trails (p : Part) (r : Fin 6) (seq : Word) : p.Trails (p.graceEnds r seq) := by
  unfold Part.graceEnds
  split
  · exact (((Part.Trails.refl p).setFill seq .noReport).modRobot r _).trans (Part.badFill_trails _ r)
  · exact (Part.Trails.refl p).modRobot r _

theorem Part.raiseWatch_trails (p : Part) (x : Watch) : p.Trails (p.raiseWatch x) := by
  unfold Part.raiseWatch
  split
  · exact (Part.Trails.refl p).modRobot _ _
  · exact (Part.Trails.refl p).modRobot _ _
  · exact p.graceEnds_trails _ _

section
variable {p : Part} {f : Profile} {was pair : Bool × Bool} {infeed : Bool} {x : Watch} {before after : List Watch}

theorem Part.advances_profile {e : Pending} (h : p.advances f was pair infeed e) : p.cvt.profile = some f := by
  obtain ⟨-, -, -, hprofile, -⟩ := h
  exact hprofile

theorem Part.watch_noneDue (h : p.advances f was pair infeed (.watch x))
    (hwatches : p.cvt.watches = before ++ x :: after) (hbefore : x ∉ before) (hafter : x ∉ after) :
    ((p.counted f pair infeed).withWatches (before ++ after)).NoneDue f := by
  obtain ⟨-, -, -, -, hstations, hwatched, -, -⟩ := h
  refine ⟨fun y hy s hs => ?_, fun y hy => ?_⟩
  · exact Bool.eq_false_iff.mpr fun hreached => absurd ((hstations y hy s hs).mp hreached) (by simp)
  · have hmem : y ∈ p.cvt.watches := by
      rw [hwatches]
      exact List.mem_append.mpr ((List.mem_append.mp hy).imp id (List.mem_cons_of_mem x))
    refine Bool.eq_false_iff.mpr fun hreached => ?_
    obtain rfl : x = y := Pending.watch.inj ((hwatched y hmem).mp hreached)
    exact (List.mem_append.mp hy).elim hbefore hafter

theorem Part.watch_pending (h : p.advances f was pair infeed (.watch x))
    (hwatches : p.cvt.watches = before ++ x :: after) (hbefore : x ∉ before) (hafter : x ∉ after) :
    (p.counted f pair infeed).pendingEvents f false false = [.watch x] := by
  have hnone := Part.watch_noneDue h hwatches hbefore hafter
  have harrival : (p.counted f pair infeed).nextArrival f = none := hnone.nextArrival
  have hother (l : List Watch) (hl : l ⊆ before ++ after) :
      l.filter (fun y => (p.counted f pair infeed).isReached y.target) = [] :=
    List.filter_eq_nil_iff.mpr fun y hy => Bool.eq_false_iff.mp (hnone.watches y (hl hy))
  have hdue : (p.counted f pair infeed).isReached x.target = true := by
    obtain ⟨-, -, -, -, -, hwatched, -, -⟩ := h
    exact (hwatched x (by rw [hwatches]; simp)).mpr rfl
  unfold Part.pendingEvents
  rw [harrival, show (p.counted f pair infeed).cvt.watches = before ++ x :: after from hwatches, List.filter_append,
    List.filter_cons, if_pos hdue, hother before (by simp), hother after (by simp)]
  rfl

/-- R22: the watch alone is raised, and forgotten. -/
theorem Part.advances_watch (choices : List Nat) (h : p.advances f was pair infeed (.watch x))
    (hwatches : p.cvt.watches = before ++ x :: after) (hbefore : x ∉ before) (hafter : x ∉ after) :
    p.encoderPair pair infeed choices =
      ((p.counted f pair infeed).withWatches (before ++ after)).raiseWatch x := by
  have hforgotten : (p.counted f pair infeed).modCvt (fun c => { c with watches := c.watches.erase x }) =
      (p.counted f pair infeed).withWatches (before ++ after) := by
    have herase : (p.counted f pair infeed).cvt.watches.erase x = before ++ after := by
      rw [show (p.counted f pair infeed).cvt.watches = before ++ x :: after from hwatches,
        List.erase_append_right _ hbefore, List.erase_cons_head]
    show (p.counted f pair infeed).withWatches _ = _
    rw [herase]
  have hraised : (p.counted f pair infeed).raisePending f (.watch x) =
      ((p.counted f pair infeed).withWatches (before ++ after)).raiseWatch x := by rw [← hforgotten]; rfl
  rw [← hraised]
  refine p.advances_raises choices h (Part.watch_pending h hwatches hbefore hafter) ?_
  rw [hraised]
  exact (Part.raiseWatch_trails _ x).quiet (Part.watch_noneDue h hwatches hbefore hafter)

end

/-! ## What a watch does (R79, R80, R84) -/

/-- R84: the robot once the grace of the container `seq` has ended without a report, its failure run yet to gain. -/
def Robot.ungraced (k : Robot) (seq : Word) : Robot := { k with
  reportList := k.reportList.filter (· != seq)
  counters := { k.counters with noReport := up k.counters.noReport } }

section
variable {p : Part} {x : Watch}

theorem Part.raiseWatch_opens (hkind : x.kind = .opening) :
    p.raiseWatch x = p.modRbp (·.put x.robot { p.rbp.robots[x.robot] with
      reportList := p.rbp.robots[x.robot].reportList ++ [x.seq]
      openWindows := if p.rbp.robots[x.robot].state = .running then p.rbp.robots[x.robot].openWindows ++ [x.seq]
        else p.rbp.robots[x.robot].openWindows }) := by
  unfold Part.raiseWatch
  rw [hkind]
  exact Part.modRobot_put rfl

theorem Part.raiseWatch_closes (hkind : x.kind = .closing) :
    p.raiseWatch x = p.modRbp (·.put x.robot { p.rbp.robots[x.robot] with
      openWindows := p.rbp.robots[x.robot].openWindows.filter (· != x.seq) }) := by
  unfold Part.raiseWatch
  rw [hkind]
  exact Part.modRobot_put rfl

theorem Part.raiseWatch_grace (hkind : x.kind = .grace) : p.raiseWatch x = p.graceEnds x.robot x.seq := by
  unfold Part.raiseWatch
  rw [hkind]

/-- R84: the report has been taken before, and its span is over. -/
theorem Part.raiseWatch_reported (hkind : x.kind = .grace) (h : x.seq ∉ p.rbp.robots[x.robot].reportList) :
    p.raiseWatch x = p.modRbp (·.put x.robot { p.rbp.robots[x.robot] with
      reported := p.rbp.robots[x.robot].reported.filter (· != x.seq) }) := by
  rw [Part.raiseWatch_grace hkind]
  exact (if_neg h).trans (Part.modRobot_put rfl)

/-- R84: the container still unreported becomes NO_REPORT, a bad result. -/
theorem Part.raiseWatch_unreported (hkind : x.kind = .grace) (h : x.seq ∈ p.rbp.robots[x.robot].reportList) :
    p.raiseWatch x = (p.becomes x.robot (p.rbp.robots[x.robot].ungraced x.seq)
      (p.trl.each (·.filled x.seq .noReport))).badFill x.robot := by
  have hbecomes : (p.setFill x.seq .noReport).modRobot x.robot (·.ungraced x.seq) =
      p.becomes x.robot (p.rbp.robots[x.robot].ungraced x.seq) (p.trl.each (·.filled x.seq .noReport)) := by
    apply Part.eq_of_fields <;> simp [Part.becomes, Part.setFill_trl, modAt_eq_set, Rbp.put]
  rw [Part.raiseWatch_grace hkind, ← hbecomes]
  refine (if_pos h).trans ?_
  unfold Part.noReport Robot.ungraced
  simp only [up_eq]

end

end Sys2Proof.Machine
end

section
/-! PROOFS. The service pitch of a container at its robot (R79, R81), and the fill windows as a whole. -/

-- One proof after another: side by side, their threads take the stack space that a compile of the whole text is given.
set_option Elab.async false

namespace Sys2Proof.Machine

/-! ## The robot's pending window goes live (R81) -/

/-- R78, R81: the robot as a container reaches it, its pending window adopted. -/
def Robot.adopted (k : Robot) (pitch : Nat) : Robot := { k with
  pendingWindow := none
  live := match k.pendingWindow with | some x => x.window.clamped pitch | none => k.live }

section
variable {p : Part} {f : Profile} {r : Fin 6}

theorem Part.clampPitch_of (hf : p.cvt.profile = some f) : p.clampPitch = f.pitch := by
  unfold Part.clampPitch
  rw [hf]

/-- R81: the part once the window `x`, pending at robot `r`, is live; its order has yet to complete. -/
def Part.windowLive (p : Part) (r : Fin 6) (x : Window) : Part :=
  (p.modRobot r fun k => { k with pendingWindow := none }).makeLive r x

theorem Part.adoptWindow_some {x : PendingWindow} (hx : p.rbp.robots[r].pendingWindow = some x) :
    p.adoptWindow r = (p.windowLive r x.window).complete x.ref (p.windowResult x.window) := by
  unfold Part.adoptWindow
  rw [hx]
  rfl

theorem Part.windowLive_leaves (hf : p.cvt.profile = some f) (x : Window) :
    let q := p.windowLive r x
    q.rbp = p.rbp.put r { p.rbp.robots[r] with pendingWindow := none, live := x.clamped f.pitch } ∧
    q.odk = p.odk ∧ q.freeCount = p.freeCount ∧
    p.Speaks q (if (x.clamped f.pitch).closing ≤ (x.clamped f.pitch).opening then [(.zeroWindow, robotMember r)] else [])
      [.bulletin 2, .mirror .rbp] := by
  intro q
  obtain ⟨hrbp, -, hsaid, hfree, -⟩ :=
    (p.modRobot r fun k => { k with pendingWindow := none }).makeLive_leaves r x
  rw [Part.clampPitch_of (p := p.modRobot r fun k => { k with pendingWindow := none }) hf] at hrbp hsaid
  have hstart : p.Speaks (p.modRobot r fun k => { k with pendingWindow := none }) [] [] := .refl_of rfl rfl rfl
  refine ⟨?_, by simp [q, Part.windowLive], hfree (by simp [hf]), hstart.trans hsaid⟩
  refine hrbp.trans ?_
  rw [Part.modRobot_put rfl, Part.modRbp_put]
  exact Rbp.put_put _ _ _ _

/-- R81: what is left once the window has been adopted, were there one. -/
theorem Part.adoptWindow_leaves (hf : p.cvt.profile = some f) (r : Fin 6) :
    let q := p.adoptWindow r
    q.rbp = p.rbp.put r (p.rbp.robots[r].adopted f.pitch) ∧
    q = { p with rbp := q.rbp, odk := q.odk, rpu := q.rpu, mem := q.mem } := by
  intro q
  cases hx : p.rbp.robots[r].pendingWindow with
  | none =>
    have hq : q = p := p.adoptWindow_idle r hx
    have hadopted : p.rbp.robots[r].adopted f.pitch = p.rbp.robots[r] := by
      unfold Robot.adopted
      rw [hx]
      simp only [← hx]
    rw [hq, hadopted, Rbp.put_self]
    exact ⟨rfl, rfl⟩
  | some x =>
    have hq : q = _ := Part.adoptWindow_some hx
    obtain ⟨hrbp, -, hfree, -⟩ := Part.windowLive_leaves (r := r) hf x.window
    refine ⟨?_, Part.eq_of_fields (by simp [q]) (by simp [q]) (by simp [q]) rfl (by simp [q]) (by simp [q])
      (by simp [q]) (by simp [q]) rfl rfl (by simp [q]) (by simp [q]) rfl ?_⟩
    · rw [hq]
      refine (by simp : _ = (p.windowLive r x.window).rbp).trans (hrbp.trans ?_)
      unfold Robot.adopted
      rw [hx]
    · rw [hq]
      exact (by simp : _ = (p.windowLive r x.window).freeCount).trans hfree

/-- R78, R81, R179: the order whose window is adopted completes. -/
theorem Part.adoptWindow_concludes (hf : p.cvt.profile = some f) {x : PendingWindow} {e : InFlight}
    (hx : p.rbp.robots[r].pendingWindow = some x) (href : x.ref = e.ref) (he : p.odk.holds e) :
    let q := p.adoptWindow r
    let live := x.window.clamped f.pitch
    p.concludes q e (if f.pitch < x.window.closing then .clamped else .ok) ∧
    p.Speaks q ((if live.closing ≤ live.opening then [(.zeroWindow, robotMember r)] else []) ++ [e.told])
      [.bulletin 2, .mirror .rbp, .cell e.ref.cell, .bulletin 0, .mirror .odk] := by
  intro q live
  have hresult : p.windowResult x.window = if f.pitch < x.window.closing then .clamped else .ok := by
    unfold Part.windowResult Result.clampedIf
    rw [Part.clampPitch_of hf]
    simp
  have hq : q = (p.windowLive r x.window).complete e.ref (if f.pitch < x.window.closing then .clamped else .ok) := by
    rw [← hresult, ← href]
    exact Part.adoptWindow_some hx
  obtain ⟨-, hodk, -, hsaid⟩ := Part.windowLive_leaves (r := r) hf x.window
  have hheld : (p.windowLive r x.window).odk.holds e := by rw [hodk]; exact he
  obtain ⟨hodk', hread, -⟩ := Part.concluded (p.windowLive r x.window) e
    (if f.pitch < x.window.closing then .clamped else .ok) 0 hheld
  rw [← hq] at hodk' hread
  have htold := hsaid.concluded hheld (if f.pitch < x.window.closing then .clamped else .ok) 0
  rw [← hq] at htold
  refine ⟨⟨by rw [hodk', hodk], ?_⟩, htold⟩
  unfold Part.shows
  rw [hread, htold.now, hsaid.now]

end

/-! ## A watch is registered (R22) -/

theorem Part.withWatches_withWatches (p : Part) (l m : List Watch) :
    (p.withWatches l).withWatches m = p.withWatches m := rfl

theorem Part.withWatches_watches (p : Part) (l : List Watch) : (p.withWatches l).cvt.watches = l := rfl

section
variable {p : Part} {f : Profile} {x : Watch}

theorem Part.registerWatch_ahead (h : p.isReached x.target = false) :
    p.registerWatch x = p.withWatches (p.cvt.watches ++ [x]) := by
  unfold Part.registerWatch
  rw [if_neg (by simp [h])]
  rfl

theorem Part.registerWatch_reached (h : p.isReached x.target = true) : p.registerWatch x = p.raiseWatch x :=
  if_pos h

theorem Part.NoneDue.registerWatch (h : p.NoneDue f) (x : Watch) : (p.registerWatch x).NoneDue f := by
  cases hx : p.isReached x.target with
  | true =>
    rw [Part.registerWatch_reached hx]
    exact (p.raiseWatch_trails x).quiet h
  | false =>
    rw [Part.registerWatch_ahead hx]
    refine ⟨h.stations, fun y hy => ?_⟩
    rcases List.mem_append.mp hy with hy | hy
    · exact h.watches y hy
    · obtain rfl := List.mem_singleton.mp hy
      exact hx

end

/-! ## The service pitch (R79) -/

/-- R79: the robot once the window of the container `seq` has opened. -/
def Robot.opened (k : Robot) (seq : Word) : Robot :=
  { k with reportList := k.reportList ++ [seq], openWindows := k.openWindows ++ [seq] }

/-- R79, R80, R84: the watches that the container `seq` gets at robot `i` from `here` on, an open at 0 apart. -/
def windowWatches (i : Fin 6) (seq : Word) (here : Position) (x : Window) (grace : Nat) : List Watch :=
  (if x.opening = 0 then [] else [⟨i, seq, .opening, here + counts x.opening⟩]) ++
    [⟨i, seq, .closing, here + counts x.closing⟩, ⟨i, seq, .grace, here + counts (x.closing + grace)⟩]

section
variable {p : Part} {f : Profile} {i : Fin 6} {rec : Record}

/-- R79: the service pitch of a container at robot `i` once the robot's window is adopted. -/
def Part.serves (p : Part) (f : Profile) (rec : Record) (i : Fin 6) : Part :=
  let x := p.rbp.robots[i].live
  let here := f.stationOf rec .robot
  ((p.registerWatch ⟨i, rec.seq, .opening, here + counts x.opening⟩).registerWatch
    ⟨i, rec.seq, .closing, here + counts x.closing⟩).registerWatch
      ⟨i, rec.seq, .grace, here + counts x.closing + counts f.grace⟩

theorem Part.servicePitch_decided {seq : Word} (hr : p.record seq = some rec) (hf : p.cvt.profile = some f)
    (hd : rec.decision ≠ .undecided) : p.servicePitch seq = p := by
  unfold Part.servicePitch
  simp only [hr, hf]
  exact if_pos hd

/-- R79: the container is UNFILLED. -/
def Part.unfills (p : Part) (seq : Word) (i : Fin 6) : Part :=
  (p.becomes i { p.rbp.robots[i] with
    counters := { p.rbp.robots[i].counters with unfilled := up p.rbp.robots[i].counters.unfilled } }
    (p.trl.each (·.filled seq .unfilled))).rewrite .rbp

theorem Part.unfills_eq (p : Part) (seq : Word) (i : Fin 6) : p.unfills seq i =
    ((p.setFill seq .unfilled).countRobot i fun n => { n with unfilled := inc32 n.unfilled }).rewrite .rbp := by
  refine congrArg (Part.rewrite · .rbp) ?_
  apply Part.eq_of_fields <;> simp [Part.becomes, Part.setFill_trl, Part.countRobot, modAt_eq_set, Rbp.put, up_eq]

section
variable {seq : Word} (hr : p.record seq = some rec) (hf : p.cvt.profile = some f) (hd : rec.decision = .undecided)
  (hrobot : rec.robot = some i)
include hr hf hd hrobot

theorem Part.servicePitch_unfills (h : (p.adoptWindow i).rbp.robots[i].state ≠ .running ∨
      (p.adoptWindow i).rbp.robots[i].live.closing ≤ (p.adoptWindow i).rbp.robots[i].live.opening) :
    p.servicePitch seq = (p.adoptWindow i).unfills seq i := by
  rw [← Window.zero_iff] at h
  unfold Part.servicePitch
  simp only [hr, hf, hd, hrobot, ne_eq, not_true_eq_false, if_false]
  rw [Part.unfills_eq]
  exact if_pos h

theorem Part.servicePitch_serves (hrun : (p.adoptWindow i).rbp.robots[i].state = .running)
    (hopen : (p.adoptWindow i).rbp.robots[i].live.opening < (p.adoptWindow i).rbp.robots[i].live.closing) :
    p.servicePitch seq = (p.adoptWindow i).serves f rec i := by
  obtain rfl := Part.record_seq hr
  unfold Part.servicePitch
  simp only [hr, hf, hd, hrobot, ne_eq, not_true_eq_false, if_false]
  refine if_neg fun h => ?_
  rw [Window.zero_iff] at h
  exact h.elim (· hrun) (Nat.not_le.mpr hopen)

/-- R22, R79: nothing comes to be due as a service pitch starts. -/
theorem Part.NoneDue.servicePitch (h : p.NoneDue f) : (p.servicePitch seq).NoneDue f := by
  have hadopted : (p.adoptWindow i).NoneDue f := (Part.Stays.of_eq (by simp) (by simp)).quiet h
  by_cases hserves : (p.adoptWindow i).rbp.robots[i].state = .running ∧
      (p.adoptWindow i).rbp.robots[i].live.opening < (p.adoptWindow i).rbp.robots[i].live.closing
  · rw [Part.servicePitch_serves hr hf hd hrobot hserves.1 hserves.2]
    exact ((hadopted.registerWatch _).registerWatch _).registerWatch _
  · rw [Part.servicePitch_unfills hr hf hd hrobot ((Decidable.not_and_iff_not_or_not.mp hserves).imp id
      Nat.not_lt.mp), Part.unfills_eq]
    have hunfilled := ((Part.Trails.refl (p.adoptWindow i)).setFill seq .unfilled).modRobot i fun k =>
      { k with counters := { k.counters with unfilled := inc32 k.counters.unfilled } }
    exact (hunfilled.rewrite .rbp).quiet hadopted

end

/-- R22, R79: a window that opens at 0 opens at once, another one by its watch. -/
theorem Part.registerWatch_opens {k : Robot} {seq : Word} {n : Nat} (hk : p.rbp.robots[i] = k)
    (hrun : k.state = .running) (hn : n < 2 ^ 31) :
    p.registerWatch ⟨i, seq, .opening, p.cvt.highWater + counts n⟩ =
      (if n = 0 then p.modRbp (·.put i (k.opened seq)) else p).withWatches
        (p.cvt.watches ++ if n = 0 then [] else [⟨i, seq, .opening, p.cvt.highWater + counts n⟩]) := by
  split
  next h0 =>
    have hreached : p.isReached (p.cvt.highWater + counts n) = true := by
      simp [h0, counts, Part.isReached, Position.reached]
    have hopens : p.windowOpens i seq = p.modRbp (·.put i (k.opened seq)) := by
      unfold Part.windowOpens
      rw [Part.modRobot_put rfl, hk, if_pos hrun]
      rfl
    rw [Part.registerWatch_reached (x := ⟨i, seq, .opening, _⟩) hreached, List.append_nil]
    exact hopens
  next h0 => rw [Part.registerWatch_ahead (x := ⟨i, seq, .opening, _⟩) (reached_ahead _ (Nat.pos_of_ne_zero h0) hn)]

/-- R22, R79: the three watches of a container whose window is not empty. -/
theorem Part.serves_eq {k : Robot} (hk : p.rbp.robots[i] = k) (hrun : k.state = .running)
    (hopen : k.live.opening < k.live.closing) (hlong : k.live.closing + f.grace < 2 ^ 31)
    (hhere : f.stationOf rec .robot = p.cvt.highWater) :
    p.serves f rec i = (if k.live.opening = 0 then p.modRbp (·.put i (k.opened rec.seq)) else p).withWatches
      (p.cvt.watches ++ windowWatches i rec.seq p.cvt.highWater k.live f.grace) := by
  have hsum : p.cvt.highWater + counts k.live.closing + counts f.grace =
      p.cvt.highWater + counts (k.live.closing + f.grace) := by
    rw [BitVec.add_assoc]
    exact congrArg _ (BitVec.ofNat_add _ _).symm
  have hahead (q : Part) (hq : q.cvt.highWater = p.cvt.highWater) (kind : WatchKind) (n : Nat) (h0 : 0 < n)
      (hn : n < 2 ^ 31) : q.registerWatch ⟨i, rec.seq, kind, p.cvt.highWater + counts n⟩ =
        q.withWatches (q.cvt.watches ++ [⟨i, rec.seq, kind, p.cvt.highWater + counts n⟩]) := by
    refine Part.registerWatch_ahead ?_
    rw [Part.isReached, hq]
    exact reached_ahead _ h0 hn
  obtain ⟨Y, hY⟩ : ∃ Y, Y = if k.live.opening = 0 then p.modRbp (·.put i (k.opened rec.seq)) else p := ⟨_, rfl⟩
  have hwater (l : List Watch) : (Y.withWatches l).cvt.highWater = p.cvt.highWater := by rw [hY]; split <;> rfl
  have hserves : p.serves f rec i =
      ((p.registerWatch ⟨i, rec.seq, .opening, p.cvt.highWater + counts k.live.opening⟩).registerWatch
        ⟨i, rec.seq, .closing, p.cvt.highWater + counts k.live.closing⟩).registerWatch
          ⟨i, rec.seq, .grace, p.cvt.highWater + counts (k.live.closing + f.grace)⟩ := by
    rw [← hsum, ← hhere, ← hk]
    rfl
  rw [hserves, Part.registerWatch_opens hk hrun (by omega), ← hY, hahead _ (hwater _) _ _ (by omega) (by omega),
    Part.withWatches_withWatches, Part.withWatches_watches, hahead _ (hwater _) _ _ (by omega) hlong,
    Part.withWatches_withWatches, Part.withWatches_watches, List.append_assoc, List.append_assoc]
  rfl

end

end Sys2Proof.Machine
end

section
/-! PROOFS. The fill windows (R79 to R82, R84, R85): what a service pitch leaves, and the watches. -/

-- One proof after another: side by side, their threads take the stack space that a compile of the whole text is given.
set_option Elab.async false

namespace Sys2Proof.Machine

/-! ## What a service pitch leaves behind the adopted window (R79, R81) -/

section
variable {p q : Part} {f : Profile} {i : Fin 6} {seq : Word}

/-- What the service pitch leaves alone once the window is adopted: it tells nothing, and ends no order. -/
structure Part.Pitches (S q : Part) : Prop where
  rest : q = { S with trl := q.trl, cvt := q.cvt, rbp := q.rbp, rpu := q.rpu, mem := q.mem }
  said : S.Speaks q [] [.mirror .rbp]
  fault : q.rpu.fault = S.rpu.fault
  cells : ∀ n, Memory.read q.mem (cellBase n) 12 = Memory.read S.mem (cellBase n) 12

theorem Part.unfills_pitches (S : Part) (seq : Word) (i : Fin 6) : S.Pitches (S.unfills seq i) where
  rest := rfl
  said := (Part.Speaks.refl_of rfl rfl rfl : S.Speaks (S.becomes i _ _) [] []).rewrite .rbp
  fault := rfl
  cells := fun n => Part.rewrite_cell _ _ n

theorem Part.opened_pitches (S : Part) (k : Robot) (i : Fin 6) (l : List Watch) {h : Prop} [Decidable h] :
    S.Pitches ((if h then S.modRbp (·.put i k) else S).withWatches l) := by
  split <;> exact ⟨rfl, .mono (.refl_of rfl rfl rfl) (by simp), rfl, fun _ => rfl⟩

theorem Part.opened_leaves (S : Part) (k : Robot) (i : Fin 6) (l : List Watch) {h : Prop} [Decidable h] :
    let q := (if h then S.modRbp (·.put i k) else S).withWatches l
    q.rbp = (if h then S.rbp.put i k else S.rbp) ∧ q.trl = S.trl ∧ q.cvt = { S.cvt with watches := l } := by
  split <;> exact ⟨rfl, rfl, rfl⟩

theorem Part.Pitches.idle (h : (p.adoptWindow i).Pitches q) (hi : p.rbp.robots[i].pendingWindow = none) :
    q.odk = p.odk ∧ p.tells q [] ∧ Memory.storesOnly p.mem q.mem [.mirror .rbp] := by
  rw [p.adoptWindow_idle i hi] at h
  exact ⟨by rw [h.rest], h.said.tells h.fault, h.said.storesOnly (List.Subset.refl _)⟩

theorem Part.Pitches.concludes (h : (p.adoptWindow i).Pitches q) (hf : p.cvt.profile = some f) {x : PendingWindow}
    {e : InFlight} (hx : p.rbp.robots[i].pendingWindow = some x) (href : x.ref = e.ref) (he : p.odk.holds e) :
    p.concludes q e (if f.pitch < x.window.closing then .clamped else .ok) ∧
    p.tells q ((if (x.window.clamped f.pitch).closing ≤ (x.window.clamped f.pitch).opening then
      [(.zeroWindow, robotMember i)] else []) ++ [e.told]) ∧
    Memory.storesOnly p.mem q.mem [.cell e.ref.cell, .bulletin 0, .bulletin 2, .mirror .rbp, .mirror .odk] := by
  obtain ⟨⟨hodk, hshown⟩, hsaid⟩ := Part.adoptWindow_concludes hf hx href he
  have htold := hsaid.trans h.said
  rw [List.append_nil] at htold
  refine ⟨⟨by rw [h.rest]; exact hodk, ?_⟩, htold.tells (h.fault.trans (by simp)), htold.storesOnly (by simp)⟩
  unfold Part.shows at hshown ⊢
  rw [h.cells, hshown, h.said.now]

theorem Part.Pitches.leaves (h : (p.adoptWindow i).Pitches q) (hf : p.cvt.profile = some f) :
    q = { p with trl := q.trl, cvt := q.cvt, rbp := q.rbp, odk := q.odk, rpu := q.rpu, mem := q.mem } := by
  have hodk : q.odk = (p.adoptWindow i).odk := by rw [h.rest]
  obtain ⟨-, hadopted⟩ := Part.adoptWindow_leaves hf i
  rw [hodk]
  refine h.rest.trans ?_
  rw [hadopted]

end

/-! ## The service pitch on an advance (R28, R79) -/

section
variable {p : Part} {f : Profile} {was pair : Bool × Bool} {infeed : Bool} {r : Record} {i : Fin 6}

theorem Part.arrives_pitch (choices : List Nat) (h : p.arrives f was pair infeed r .robot) (hrobot : r.robot = some i) :
    p.encoderPair pair infeed choices =
      ((p.counted f pair infeed).past r.seq .robot).servicePitch r.seq := by
  have hnone := Part.arrives_noneDue h
  have hrecord := Part.arrives_record h
  have hprofile : ((p.counted f pair infeed).past r.seq .robot).cvt.profile = some f := Part.advances_profile (p := p) h.1
  refine p.advances_raises choices h.1 (Part.arrives_pending h) ?_
  show (((p.counted f pair infeed).past r.seq .robot).servicePitch r.seq).NoneDue f
  by_cases hd : r.decision = .undecided
  · exact hnone.servicePitch hrecord hprofile hd hrobot
  · rw [Part.servicePitch_decided hrecord hprofile hd]
    exact hnone

/-- R79: the station lies at the count. -/
theorem Part.arrives_here (h : p.arrives f was pair infeed r .robot) :
    f.stationOf (r.past .robot) .robot = ((p.counted f pair infeed).past r.seq .robot).cvt.highWater := by
  obtain ⟨-, -, -, -, hstation⟩ := h
  exact hstation

end

/-- Settles O27, the arrival by the window that the robot adopts, the watches by their kind. -/
theorem fillWindowsAreKept : Obligations.FillWindowsAreKept := by
  unfold Obligations.FillWindowsAreKept
  intro p w f was pair infeed choices count
  refine ⟨fun r i h hrobot => ?_, fun x before after h hwatches hbefore hafter => ?_⟩
  · intro c k live served opened watch
    have hq := Part.arrives_pitch choices h hrobot
    have hrecord : c.record r.seq = some (r.past .robot) := Part.arrives_record h
    have hprofile : c.cvt.profile = some f := Part.advances_profile (p := p) h.1
    refine ⟨fun hd => Part.encoderCount_leads w (hq.trans (Part.servicePitch_decided hrecord hprofile hd)) rfl,
      fun hd hlong => ?_⟩
    obtain ⟨hrbp, hadopted⟩ := Part.adoptWindow_leaves (p := c) hprofile i
    have htrl : (c.adoptWindow i).trl = c.trl := by rw [hadopted]
    have hcvt : (c.adoptWindow i).cvt = c.cvt := by rw [hadopted]
    have hserved : (c.adoptWindow i).rbp.robots[i] = served := by
      rw [hrbp]
      exact Rbp.put_get' _ _ _
    have hconcludes {q : Part} (hP : (c.adoptWindow i).Pitches q) (x : PendingWindow) (e : InFlight)
        (hx : k.pendingWindow = some x) (href : x.ref = e.ref) (he : p.odk.holds e) :
        p.concludes q e (if f.pitch < x.window.closing then .clamped else .ok) ∧
        p.tells q ((if live.closing ≤ live.opening then [(.zeroWindow, robotMember i)] else []) ++ [e.told]) ∧
        Memory.storesOnly p.mem q.mem [.cell e.ref.cell, .bulletin 0, .bulletin 2, .mirror .rbp, .mirror .odk] := by
      have hlive : live = x.window.clamped f.pitch := by simp only [live, hx]
      rw [hlive]
      exact hP.concludes hprofile hx href he
    by_cases hserves : k.state = .running ∧ live.opening < live.closing
    · obtain ⟨hrun, hopen⟩ := hserves
      have hhere : f.stationOf (r.past .robot) .robot = (c.adoptWindow i).cvt.highWater := by
        rw [hadopted]
        exact Part.arrives_here h
      have hpitch := (Part.servicePitch_serves hrecord hprofile hd hrobot (by rw [hserved]; exact hrun)
        (by rw [hserved]; exact hopen)).trans (Part.serves_eq hserved hrun hopen hlong hhere)
      have hP := (c.adoptWindow i).opened_pitches (served.opened r.seq) i ((c.adoptWindow i).cvt.watches ++
        windowWatches i r.seq (c.adoptWindow i).cvt.highWater live f.grace) (h := live.opening = 0)
      obtain ⟨hopened, hopentrl, hwatched⟩ := (c.adoptWindow i).opened_leaves (served.opened r.seq) i
        ((c.adoptWindow i).cvt.watches ++ windowWatches i r.seq (c.adoptWindow i).cvt.highWater live f.grace)
        (h := live.opening = 0)
      refine Part.encoderCount_leads w (hq.trans hpitch) ⟨hP.leaves hprofile, fun hbad => ?_, fun _ _ => ⟨?_, ?_, ?_⟩,
        hP.idle, hconcludes hP⟩
      · exact (hbad.elim (· hrun) (Nat.not_le.mpr hopen)).elim
      · refine hopened.trans ?_
        split
        · exact (congrArg (Rbp.put · i _) hrbp).trans (Rbp.put_put _ _ _ _)
        · exact hrbp
      · exact hopentrl.trans htrl
      · refine hwatched.trans ?_
        rw [hcvt]
        rfl
    · have hbad : k.state ≠ .running ∨ live.closing ≤ live.opening :=
        (Decidable.not_and_iff_not_or_not.mp hserves).imp id Nat.not_lt.mp
      have hpitch := Part.servicePitch_unfills hrecord hprofile hd hrobot (by rw [hserved]; exact hbad)
      have hP := (c.adoptWindow i).unfills_pitches r.seq i
      refine Part.encoderCount_leads w (hq.trans hpitch) ⟨hP.leaves hprofile, fun _ => ⟨?_, ?_, ?_, ?_⟩,
        fun hrun hopen => absurd ⟨hrun, hopen⟩ hserves, hP.idle, hconcludes hP⟩
      · unfold Part.unfills
        rw [hserved]
        exact (congrArg (Rbp.put · i _) hrbp).trans (Rbp.put_put _ _ _ _)
      · exact congrArg (Trl.each · (·.filled r.seq .unfilled)) htrl
      · exact hcvt
      · exact Part.rewrite_mirrored _ _
  · intro d c k run unreported judges
    have hq := Part.advances_watch choices h hwatches hbefore hafter
    have hprofile : c.cvt.profile = some f := Part.advances_profile (p := p) h
    have hthreshold : c.failureThreshold x.robot = f.robots[x.robot].threshold := Part.failureThreshold_of hprofile _
    have hsaid (m : Robot) (t : Trl) : p.Speaks (c.becomes x.robot m t) [] [] := .refl_of rfl rfl rfl
    refine ⟨fun hkind => Part.encoderCount_leads w (hq.trans (Part.raiseWatch_opens hkind)) rfl,
      fun hkind => Part.encoderCount_leads w (hq.trans (Part.raiseWatch_closes hkind)) rfl,
      fun hkind hout => Part.encoderCount_leads w (hq.trans (Part.raiseWatch_reported hkind hout)) rfl,
      fun hkind hin => ?_⟩
    have hbad := hq.trans (Part.raiseWatch_unreported (p := c) hkind hin)
    refine ⟨fun hgoes => ?_, fun hset hrun => ?_⟩
    · have hq := hbad.trans (Part.becomes_counts (by rw [hthreshold]; exact hgoes) _)
      have hshown := (hsaid { k.ungraced x.seq with failureRun := run } (c.trl.each (·.filled x.seq .noReport))).rewrite
        .rbp
      exact Part.encoderCount_leads w hq ⟨rfl, hshown.tells rfl, Part.rewrite_mirrored _ _, hshown.storesOnly (by simp)⟩
    rw [← hthreshold] at hset hrun
    cases hreq : k.runReq with
    | false =>
      have hq := hbad.trans (Part.becomes_tells (k := k.ungraced x.seq) hset hrun hreq _)
      have hshown := ((hsaid { k.ungraced x.seq with failureRun := 0 } (c.trl.each (·.filled x.seq .noReport))).raise
        .fillFailures (robotMember x.robot)).rewrite .rbp
      exact Part.encoderCount_leads w hq ⟨fun _ => ⟨rfl, hshown.tells rfl, Part.rewrite_mirrored _ _,
        hshown.storesOnly (by simp [News.bulletin])⟩, fun hno => absurd hno (by simp)⟩
    | true =>
      refine Part.encoderCount_leads w hbad ⟨fun hno => absurd hno (by simp), fun _ hack hwindow => ?_⟩
      obtain ⟨hstate, horigin, hfailures, -, hcounters⟩ := Part.becomes_halts (p := c) (k := k.ungraced x.seq) hset hrun
        hreq hack hwindow (c.trl.each (·.filled x.seq .noReport))
      exact ⟨hstate, horigin, hfailures, congrArg RobotCounters.noReport hcounters⟩

end Sys2Proof.Machine
end
